-- ==== Sys2Proof/Word.lean ====
section
/-! DEFINITION. The units of data of spec/00_scope.md, Table Scope-2. -/
namespace Sys2Proof

/-- A word: 12 bits (Table Scope-2). -/
abbrev Word := BitVec 12

/-- An octet: 8 bits, the unit of the host and of the external world (Table Scope-2). -/
abbrev Octet := BitVec 8

/-- A word pair, a syllable, an address: 24 bits (Table Scope-2, R13). -/
abbrev Pair := BitVec 24

end Sys2Proof
end

