-- ==== Sys2Proof/Names.lean ====
section
/-! DEFINITION. The closed sets of names that the spec uses: roles, tiers, lifecycle states, transports,
requesters, clock domains, units. Operands of commands and fields of the state take these types. -/
namespace Sys2Proof

/-- A fabric requester at a crossing port (R110): a core, the Steward or the DMA engine. -/
inductive Requester where
  | core (i : Fin 4)
  | steward
  | dma
  deriving DecidableEq, Repr

/-- The place of a requester among the six (R110): cores 0 to 3, then the Steward, then DMA. -/
def Requester.slot : Requester → Fin 6
  | .core i => ⟨i.val, by omega⟩
  | .steward => 4
  | .dma => 5

/-- The two transports of the mailboxes (R249). -/
inductive Transport where
  | hostPort
  | usb
  deriving DecidableEq, Repr

/-- The place of a transport: 0 the host port, 1 USB (Table Host-9 word 6, event 0xB000). -/
def Transport.slot : Transport → Fin 2
  | .hostPort => 0
  | .usb => 1

/-- The strapped role ROLE1:ROLE0 (Table Arch-3). -/
inductive Role where
  | vehicle
  | pack
  | dock
  | bringUp
  deriving DecidableEq, Repr

/-- The role's code (Table Arch-3): vehicle 00, pack 01, dock 10, bring-up 11. -/
def Role.code : Role → Nat
  | .vehicle => 0
  | .pack => 1
  | .dock => 2
  | .bringUp => 3

/-- The role of a two-bit strap value (Table Arch-3). -/
def Role.ofCode (n : Nat) : Role :=
  if n = 0 then .vehicle else if n = 1 then .pack else if n = 2 then .dock else .bringUp

/-- The service tiers (Table Arch-4). -/
inductive Tier where
  | t0
  | t1
  | t2
  | t3
  deriving DecidableEq, Repr

/-- The tier's number (Table Arch-4). -/
def Tier.toNat : Tier → Nat
  | .t0 => 0
  | .t1 => 1
  | .t2 => 2
  | .t3 => 3

/-- The lower of two tiers (R29: several failed units give the lowest of their tiers). -/
def Tier.min (a b : Tier) : Tier := if a.toNat ≤ b.toNat then a else b

/-- The lifecycle states (Table Start-11). -/
inductive Lifecycle where
  | blank
  | provisioned
  | fielded
  | returned
  deriving DecidableEq, Repr

/-- The lifecycle's code in the identity response (Table Cmd-3). -/
def Lifecycle.code : Lifecycle → Nat
  | .blank => 0
  | .provisioned => 1
  | .fielded => 2
  | .returned => 3

/-- The lifecycle state of a code 0 to 3 (Table Cmd-3). -/
def Lifecycle.ofCode (n : Nat) : Lifecycle :=
  if n = 0 then .blank else if n = 1 then .provisioned else if n = 2 then .fielded else .returned

/-- The fourteen clock domains, in the rows' order of Table Fabric-4. -/
inductive ClockDomain where
  | lfx
  | lfo
  | hfx
  | mclk
  | aclk
  | cclk
  | uclk
  | nclk
  | hsck
  | ssck
  | tck
  | fclk
  | tsclk
  | trclk
  deriving DecidableEq, Repr

/-- The row of Table Fabric-4, from 0 (event 0x1005). -/
def ClockDomain.row : ClockDomain → Fin 14
  | .lfx => 0
  | .lfo => 1
  | .hfx => 2
  | .mclk => 3
  | .aclk => 4
  | .cclk => 5
  | .uclk => 6
  | .nclk => 7
  | .hsck => 8
  | .ssck => 9
  | .tck => 10
  | .fclk => 11
  | .tsclk => 12
  | .trclk => 13

/-- The domains that the PLL derives (Table Fabric-4). -/
def ClockDomain.isPll : ClockDomain → Bool
  | .mclk | .aclk | .cclk | .uclk | .nclk | .ssck | .tsclk | .trclk => true
  | .lfx | .lfo | .hfx | .hsck | .tck | .fclk => false

/-- The kinds of crossing port (Table Fabric-4). -/
inductive PortKind where
  | register
  | stream
  deriving DecidableEq, Repr

/-- The Port kind column of Table Fabric-4. -/
def ClockDomain.portKind : ClockDomain → PortKind
  | .hsck | .tck | .trclk => .stream
  | .lfx | .lfo | .hfx | .mclk | .aclk | .cclk | .uclk | .nclk | .ssck | .fclk | .tsclk => .register

/-- A unit by its index of R938. -/
abbrev UnitId := Fin 42

/-- Unit indices of R938. -/
def UnitId.celandine : UnitId := 0
def UnitId.powerManager : UnitId := 1
def UnitId.bootRom : UnitId := 2
def UnitId.tile0 : UnitId := 3
def UnitId.flash0 : UnitId := 19
def UnitId.flash1 : UnitId := 20
def UnitId.hostPort : UnitId := 21
def UnitId.core0 : UnitId := 22
def UnitId.decimal0 : UnitId := 26
def UnitId.decimal1 : UnitId := 27
def UnitId.vector0 : UnitId := 28
def UnitId.vector1 : UnitId := 29
def UnitId.crypto : UnitId := 30
def UnitId.dma : UnitId := 31
def UnitId.pwm : UnitId := 32
def UnitId.teasel : UnitId := 33
def UnitId.adc : UnitId := 34
def UnitId.canA : UnitId := 35
def UnitId.canB : UnitId := 36
def UnitId.usb : UnitId := 37
def UnitId.sensorSpi : UnitId := 38
def UnitId.i2c : UnitId := 39
def UnitId.gnss : UnitId := 40
def UnitId.nand : UnitId := 41
/-- The unit of core i (R938: 22 to 25). -/
def UnitId.core (i : Fin 4) : UnitId := ⟨22 + i.val, by omega⟩

/-- What the self-test record holds of a unit (R213, Table Cmd-16: 0 passed, 1 failed at start, 2 failed at
run time, 3 not present); `untested` is a unit whose test has not ended since the last start. DESIGN CHOICE (log 123). -/
inductive UnitResult where
  | untested
  | passed
  | failedAtStart
  | failedAtRun
  | notPresent
  deriving DecidableEq, Repr

/-- The signalling level read on VDDIO_C at a power-on reset (R136). -/
inductive CLevel where
  | absent
  | v18
  | v33
  deriving DecidableEq, Repr

/-- The three VCORE faults (Table Power-5; event 0x2002: 0 under, 1 over, 2 current). -/
inductive VcoreFault where
  | under
  | over
  | current
  deriving DecidableEq, Repr

def VcoreFault.code : VcoreFault → Nat
  | .under => 0
  | .over => 1
  | .current => 2

/-- What of V33 a supply monitor watches (Table Power-5, R145, R161 word 4). -/
inductive SupplyCause where
  | vddioA
  | vdda
  | pfiN
  | bLow
  deriving DecidableEq, Repr

/-- The cause's bit in word 4 of a hold-up header (Table Power-9). -/
def SupplyCause.bit : SupplyCause → Nat
  | .vddioA => 0
  | .vdda => 1
  | .pfiN => 2
  | .bLow => 3

/-- The five configuration domains, numbered 1 to 5 (Table Custody-4). -/
inductive EdDomain where
  | vehicle
  | fleet
  | tariff
  | grants
  | teasel
  deriving DecidableEq, Repr

end Sys2Proof
end

