-- ==== Sys2Proof/Env.lean ====
section
/-! DEFINITION. Operands that stand for facts of the world outside the part: levels, codes, verdicts. -/
namespace Sys2Proof

/-- A mailbox request as a command row carries it: transport, SEQ and payload (Table Host-5). The row itself gives
CMD and the channel. -/
structure CmdReq where
  transport : Transport
  seq : Octet
  payload : List Octet
  deriving DecidableEq, Repr

/-- A filtered edge of the TCAP_ block (R504): the new hall state, or the new level of WHA, WHB, BRAKE_N or GPPS. -/
inductive CapEdge where
  | hall (state : BitVec 3)
  | wha (level : Bool)
  | whb (level : Bool)
  | brake (level : Bool)
  | gpps (level : Bool)
  deriving DecidableEq, Repr

/-- What a scan reads of a key (R550). -/
inductive KeyReading where
  | up
  | wet
  | down
  deriving DecidableEq, Repr

/-- A CAN frame (Table Jieles-17). -/
structure CanFrame where
  /-- 29 identifier bits. -/
  id : BitVec 29
  ide : Bool
  fdf : Bool
  brs : Bool
  rtr : Bool
  dlc : BitVec 4
  data : List Octet
  deriving DecidableEq, Repr

/-- An ANNOUNCE as received (Table Concord-7). -/
structure AnnounceMsg where
  role : Role
  level : Nat
  tier : Nat
  identity : Nat
  nonce : Nat
  deriving DecidableEq, Repr

/-- How a write of the edition store ends (R327, R357): done; done at the second try, the first page having read back otherwise; failed twice
before the commit point, in a bank; done with copy B of the slot map failed twice; cut by PWR_FAIL or by a Steward that hangs, with so many
pages programmed (R178, R241). A failing page is given by what it reads. -/
inductive StoreWrite where
  | done
  | again (reads : List Word)
  | failed (bank : Fin 2) (reads : List Word)
  | behind (reads : List Word)
  | cut (pages : Nat) (cause : SupplyCause)
  | hang (pages : Nat)
  deriving DecidableEq, Repr

/-- How the programming of a record in the ledger ring ends (R408, Table Ledger-9): done; done at the second try, the first page having read
back otherwise; failed at both tries, so that the block is retired and the record goes to the next; cut by PWR_FAIL before its read-back, or
followed by PWR_FAIL. A failing page is given by what it reads. -/
inductive RingWrite where
  | done
  | again (reads : List Word)
  | twice (first second : List Word)
  | cut (reads : List Word) (cause : SupplyCause)
  | after (cause : SupplyCause)
  deriving DecidableEq, Repr

/-- Facts of the flash cells as they are read: lines, by their first address, whose reads meet an uncorrectable error, and
lines that read with an error count of 2 (R820, R162). DESIGN CHOICE (log 4). -/
structure FlashFacts where
  bad : List Nat
  weak : List Nat
  deriving DecidableEq, Repr

/-- Every line reads with an error count of 0 or 1. -/
def FlashFacts.sound : FlashFacts := { bad := [], weak := [] }

/-- What flash shows of the edition store and of the program image during a command. DESIGN CHOICE (log 4). -/
structure StoreEnv where
  write : StoreWrite
  flash : FlashFacts
  /-- Words of the store's cells that have come to read otherwise. -/
  changed : List (Nat × Word)
  /-- A section of the active image meets an uncorrectable error as it is loaded (R626). -/
  imageBad : Bool
  deriving DecidableEq, Repr

/-- Every write succeeds and every line reads as written. -/
def StoreEnv.good : StoreEnv := { write := .done, flash := FlashFacts.sound, changed := [], imageBad := false }

/-- The same, of a row in which PWR_FAIL and a hang of the Steward are rows of their own. -/
def StoreEnv.uncut (e : StoreEnv) : StoreEnv :=
  { e with write := match e.write with
      | .cut _ _ | .hang _ => .done
      | .done => .done
      | .again r => .again r
      | .failed b r => .failed b r
      | .behind r => .behind r }

/-- Facts that one core access may need of the world: TSCLK periods since the count was last observed, the PWM counter's value, octets
the GNSS transmitter has sent, a suspend within 250 µs of a resume (R844), the CAN-B buffer on the bus, the error count of a flash line,
the store's answers should a probation fail, and a failed TRNG health test (R706). -/
structure AccessEnv where
  dt : Nat
  pwmCnt : BitVec 14
  txLeft : Nat
  early : Bool
  onBus : Option (Fin 3)
  ec : BitVec 2
  store : StoreEnv
  trngBad : Bool
  deriving DecidableEq, Repr

/-- An access that meets nothing of the kind. -/
def AccessEnv.quiet : AccessEnv :=
  { dt := 0, pwmCnt := 0, txLeft := 0, early := false, onBus := none, ec := 0, store := StoreEnv.good, trngBad := false }

/-- What a home tile meets as it takes a request: nothing, an uncorrectable error in the tile's words (R806) or in the line's directory
entry (R807), or its own failure (R808). DEDUCED (log 138). -/
inductive HomeFault where
  | none
  | tileErr
  | dirErr
  | tileFails
  deriving DecidableEq, Repr

/-- Where in Table Flash-5 an erase was cut short: in step 1, whether the flag came to be set; in step 2; in step 3, whether the counter
slot was written, none where it is left unreadable; in step 4, whether the flag is still set. -/
inductive EraseCut where
  | flagging (set : Bool)
  | pulses
  | counting (wrote : Option Bool)
  | clearing (set : Bool)
  deriving DecidableEq, Repr

/-- What a page or a block holds after a program or an erase that was cut short (Table Flash-13): whether a page still
reads blank, and otherwise the words that its cells read from its first. DESIGN CHOICE (log 4). -/
structure PageCut where
  blank : Bool
  words : List Word
  /-- Of a block whose erase was cut short or stood suspended: the lines, by number in the block, that read erased. -/
  erased : List Nat
  stage : EraseCut
  deriving DecidableEq, Repr

/-- One for each bank; cells stay blank. -/
def noCut : Vector PageCut 2 := Vector.replicate 2 { blank := true, words := [], erased := [], stage := .pulses }

/-- How far a start comes before something ends it: a supply monitor trips in a step of Table Start-4 (R236), or a unit test
hangs before step 9 (R247). -/
inductive StartBreak where
  | none
  | powerFail (step : Nat) (cause : SupplyCause)
  | hang
  deriving DecidableEq, Repr

/-- What a start of the VCORE domain meets: levels, the checks before step 9, and what flash shows. DESIGN CHOICE (log 4). -/
structure StartEnv where
  /-- The four samples of each strap in each window of R201 and R202. -/
  role0 : List (BitVec 4)
  role1 : List (BitVec 4)
  hsel : List (BitVec 4)
  jtagen : List (BitVec 4)
  /-- TESTEN sampled 1, or unstable (R995). -/
  testen : Bool
  cLevel : CLevel
  /-- Wake sources that act together with the one that starts the device (R57). -/
  also : BitVec 12
  /-- The ROM checksum and the march test of tile 0 pass (R244). -/
  romOk : Bool
  /-- Units tested before step 9 that fail their test (R211). -/
  failed : List UnitId
  /-- The boot blocks of sets A and B, as read, carry a signature that verifies (R204). -/
  bootOk : Vector Bool 2
  /-- The lifecycle record reads and checks (R245). -/
  lifecycleOk : Bool
  /-- What a program or an erase in progress leaves, by bank. -/
  cut : Vector PageCut 2
  flash : FlashFacts
  /-- Words of the retained area that changed in the reset, by offset (R197, R198). -/
  upset : List (Nat × Word)
  stop : StartBreak
  store : StoreEnv
  /-- Sealed periods, by epoch and index, whose journal copies cannot be read (R409). -/
  periods : List (Nat × Nat)
  deriving DecidableEq, Repr

/-- The supply that breaks the start in a range of steps of Table Start-4. -/
def StartEnv.breaksAt (e : StartEnv) (low high : Nat) : Option SupplyCause :=
  match e.stop with
  | .powerFail n c => if low ≤ n ∧ n ≤ high then some c else none
  | .none | .hang => none

/-- A start at which every check passes and nothing is to be repaired, with the straps given. -/
def StartEnv.good (role0 role1 hsel jtagen : Bool) : StartEnv :=
  let level (b : Bool) : List (BitVec 4) := [if b then 15 else 0]
  { role0 := level role0, role1 := level role1, hsel := level hsel, jtagen := level jtagen, testen := false, cLevel := .absent,
    also := 0, romOk := true, failed := [], bootOk := Vector.replicate 2 true, lifecycleOk := true, cut := noCut,
    flash := FlashFacts.sound, upset := [], stop := .none, store := StoreEnv.good, periods := [] }

/-- How fetch delivers a syllable: to which core; whether it ends its bundle (S = 1, on it or on the X syllable placed after it); whether
its unit returns the result after this step; and an X syllable of the bundle that comes with it, by its target code and value. -/
structure Delivery where
  core : Fin 4
  stop : Bool
  late : Bool
  x : Option (Fin 8 × BitVec 17)
  deriving DecidableEq, Repr

end Sys2Proof
end

