-- ==== Sys2Proof/Machine/Bits.lean ====
section
/-! DEFINITION. Numbers and octets: little-endian fields (R14), the word and octet packing of R6 to R12, the
saturating counters, and the two cyclic redundancy checks the spec states in full (R269 and R443's CRC-8). -/
namespace Sys2Proof.Machine

/-- The n low-order octets of a number, least significant first (R14). -/
def leOctets : Nat → Nat → List Octet
  | 0, _ => []
  | n + 1, x => BitVec.ofNat 8 x :: leOctets n (x / 256)

/-- The number that octets spell, least significant first (R14). -/
def leNat : List Octet → Nat
  | [] => 0
  | o :: os => o.toNat + 256 * leNat os

/-- The k octets of a field at offset i, as a number (R923). -/
def fieldNat (p : List Octet) (i k : Nat) : Nat := leNat ((p.drop i).take k)

/-- The octet at offset i; 0 beyond the end. -/
def octetAt (p : List Octet) (i : Nat) : Octet := (p.drop i).headD 0

/-- The n low-order words of a number, least significant first (R12). -/
def leWords : Nat → Nat → List Word
  | 0, _ => []
  | n + 1, x => BitVec.ofNat 12 x :: leWords n (x / 4096)

/-- The number that words spell, least significant first (R12). -/
def wordsNat : List Word → Nat
  | [] => 0
  | w :: ws => w.toNat + 4096 * wordsNat ws

/-- Packing of words into octets (R6, R7), an odd last word by R8. -/
def packWords : List Word → List Octet
  | [] => []
  | [a] => [a.setWidth 8, (a >>> 8).setWidth 8]
  | a :: b :: ws =>
    a.setWidth 8 :: (((b &&& 0xF).setWidth 8 <<< 4) ||| (a >>> 8).setWidth 8) :: (b >>> 4).setWidth 8 :: packWords ws

/-- Unpacking of octets into words (R6, R9: the high nibble of a lone word's last octet is ignored; R11 for a
string of 3i + 1 octets). -/
def unpackOctets : List Octet → List Word
  | [] => []
  | [o] => [o.setWidth 12]
  | [o0, o1] => [o0.setWidth 12 ||| ((o1.setWidth 12 &&& 0xF) <<< 8)]
  | o0 :: o1 :: o2 :: os =>
    (o0.setWidth 12 ||| ((o1.setWidth 12 &&& 0xF) <<< 8)) ::
      ((o1.setWidth 12 >>> 4) ||| (o2.setWidth 12 <<< 4)) :: unpackOctets os

/-- Octet data held in word memory (R11): a string of 3i + 2 octets takes the words of one of 3i + 3. -/
def octetsToWords (os : List Octet) : List Word :=
  if os.length % 3 = 2 then unpackOctets (os ++ [0]) else unpackOctets os

/-- The string of n octets held in words by R11. -/
def wordsToOctets (n : Nat) (ws : List Word) : List Octet := (packWords ws).take n

/-- Whether a length can be that of a packed field (R10). -/
def packedLengthOk (n : Nat) : Bool := n % 3 != 1

/-- A counter of at most `top`. -/
def satAdd (top a b : Nat) : Nat := if a + b ≤ top then a + b else top

/-- One bit of the reflected CRC-32C. -/
def crc32cBit (c : BitVec 32) : BitVec 32 :=
  if c.getLsbD 0 then (c >>> 1) ^^^ 0x82F63B78#32 else c >>> 1

/-- Eight bits of the reflected CRC-32C. -/
def crc32cOctet (c : BitVec 32) (o : Octet) : BitVec 32 :=
  let c0 := c ^^^ o.setWidth 32
  crc32cBit (crc32cBit (crc32cBit (crc32cBit (crc32cBit (crc32cBit (crc32cBit (crc32cBit c0)))))))

/-- The CRC-32C of R269: polynomial 0x1EDC6F41 reflected, initial value and final exclusive-or 0xFFFFFFFF. -/
def crc32c (os : List Octet) : BitVec 32 := (os.foldl crc32cOctet 0xFFFFFFFF#32) ^^^ 0xFFFFFFFF#32

/-- One bit of the CRC-8 with polynomial 0x07. -/
def crc8Bit (c : BitVec 8) : BitVec 8 := if c.getLsbD 7 then (c <<< 1) ^^^ 0x07#8 else c <<< 1

/-- The CRC-8 of an octet string, polynomial 0x07, initial value 0 (R443). -/
def crc8 (os : List Octet) : BitVec 8 :=
  os.foldl (fun c o => crc8Bit (crc8Bit (crc8Bit (crc8Bit (crc8Bit (crc8Bit (crc8Bit (crc8Bit (c ^^^ o))))))))) 0

/-- The bits of a Boolean list, first at bit 0, as a number. -/
def boolsNat : List Bool → Nat
  | [] => 0
  | b :: bs => b.toNat + 2 * boolsNat bs

/-- The value held for a key in an association list. -/
def lookupD {α : Type} (d : α) (k : Nat) : List (Nat × α) → α
  | [] => d
  | (j, x) :: r => if j = k then x else lookupD d k r

/-- The first key and value kept of an association list in rising order of its keys, with the key's value replaced. -/
def setKey {α : Type} (k : Nat) (x : α) : List (Nat × α) → List (Nat × α)
  | [] => [(k, x)]
  | (j, y) :: r => if j < k then (j, y) :: setKey k x r else if j = k then (k, x) :: r else (k, x) :: (j, y) :: r

/-- An association list with a key taken out. -/
def dropKey {α : Type} (k : Nat) (l : List (Nat × α)) : List (Nat × α) := l.filter (fun p => p.1 != k)

end Sys2Proof.Machine
end

