-- ==== Sys2Proof/Parts/Concord.lean ====
section
/-! DEFINITION. The state of spec/08_concord.md: the CAN-A controller, the vehicle's members, a member's own session,
the pack's counters and the dock's charger data. -/
namespace Sys2Proof.Machine

/-- The eight shared fleet parameters in the order of Table Concord-10. -/
abbrev FleetParams := Vector Int 8

/-- A pack's energy report (R445); counters in 0.01 Wh, current in 10 mA, voltage in mV. -/
structure EnergyReport where
  number : Nat
  discharge : Nat
  charge : Nat
  voltage : Nat
  current : Int
  lowTemp : Int
  highTemp : Int
  soc : Nat
  resumedOld : Bool
  afeFailed : Bool
  deriving DecidableEq, Repr

/-- Where a rekey of a session stands (R438 to R440). -/
inductive RekeyPhase where
  | none
  /-- A REKEY has been sent and not answered: the numbers of the free values that drew its nonce and its key. -/
  | waiting (nonce key : Nat)
  /-- Abandoned after 300 ms; tried again after 1 s. -/
  | retry
  deriving DecidableEq, Repr

/-- The keys and counters of one secured session (R430, R435 to R440). -/
structure Session where
  /-- K of R430, 32 octets: the key from the vehicle, then the key to it. -/
  keys : List Octet
  /-- The key generation in use. -/
  gen : Bool
  /-- Counter of the last message sent in this generation; the first is 1. -/
  tx : Nat
  /-- Highest counter accepted from the peer in this generation. -/
  rx : Nat
  /-- Frames of the previous generation are still accepted (R439), and its keys. -/
  prevOk : Bool
  prevKeys : List Octet
  /-- Highest counter accepted in the previous generation. -/
  prevRx : Nat
  /-- LFX periods of ledger time at which the keys were made (R438). -/
  madeAt : Nat
  rekey : RekeyPhase
  /-- Ledger ticks of MAC failures of this peer within the last second (R437). -/
  macFails : List Nat
  deriving DecidableEq, Repr

/-- A fresh session: counters at 1 for the next message, generation 0 (Table Concord-6). -/
def Session.fresh (keys : List Octet) (now : Nat) : Session :=
  { keys := keys, gen := false, tx := 0, rx := 0, prevOk := false, prevKeys := [], prevRx := 0, madeAt := now, rekey := .none,
    macFails := [] }

/-- A member admitted by the vehicle (R433, R434). -/
structure Member where
  node : Nat
  identity : Nat
  role : Role
  level : Nat
  limited : Bool
  session : Session
  /-- The latest report that passed R446, and the highest report number taken. -/
  report : Option EnergyReport
  /-- Tier and flags of its last HEARTBEAT (R441). -/
  tier : Nat
  holdUpReady : Bool
  presence : Bool
  /-- Its fleet edition number and parameters, once offered (R448). -/
  fleetEdition : Option Nat
  params : Option FleetParams
  deriving DecidableEq, Repr

/-- A JOIN_REQ as the vehicle holds it (Table Concord-7). -/
structure JoinRequest where
  identity : Nat
  role : Role
  level : Nat
  /-- Its body, 237 octets. -/
  body : List Octet
  deriving DecidableEq, Repr

/-- The join that the vehicle serves: the request, the number of the free value that drew its ephemeral key, its nonce, and the JOIN_CHAL body sent. -/
structure Serving where
  request : JoinRequest
  nonce : List Octet
  key : Nat
  chal : List Octet
  deriving DecidableEq, Repr

/-- The join that a member attempts: its nonce, the number of the free value that drew its ephemeral key, and the JOIN_REQ body sent. -/
structure JoinOwn where
  nonce : List Octet
  key : Nat
  req : List Octet
  deriving DecidableEq, Repr

/-- A message of which fragments are still to come (R420 to R423). -/
structure Partial where
  /-- Source node × 2 048 + TIE. -/
  sender : Nat
  type : Nat
  /-- The index of the next fragment. -/
  index : Nat
  gen : Bool
  /-- The message counter, or the transfer number. -/
  ctr : Nat
  len : Nat
  got : List Octet
  deriving DecidableEq, Repr

/-- The dock's state as the vehicle last heard it (R460). -/
structure DockInfo where
  presence : Bool
  chargerOn : Bool
  chargerFault : Bool
  limit : Nat
  edition : Nat
  deriving DecidableEq, Repr

/-- A member's own phase (Table Concord-6). -/
inductive MemberPhase where
  | idle
  | joining
  | member
  | backoff
  deriving DecidableEq, Repr

/-- A member of the last ROSTER (R434). -/
structure RosterEntry where
  node : Nat
  identity : Nat
  role : Role
  level : Nat
  limited : Bool
  deriving DecidableEq, Repr

/-- A message sent on CAN-A (Table Concord-4): TYPE, destination node, body octets, and the frames that carry it. -/
structure CanMessage where
  type : Nat
  dst : Nat
  body : List Octet
  frames : List CanFrame
  deriving DecidableEq, Repr

/-- A relay command that waits for RELAY_RESULT (R453, R933). -/
structure Relay where
  transport : Transport
  node : Nat
  deriving DecidableEq, Repr

/-- The energy counters and measurements of a pack (R442 to R447). -/
structure Pack where
  /-- 0.01 Wh. -/
  discharge : Nat
  charge : Nat
  /-- Remainders below 0.01 Wh, in units of 1 µV × 10 µA × one TSCLK period (3.456 × 10²⁰ make 0.01 Wh). -/
  dischargeRem : Nat
  chargeRem : Nat
  /-- Counters as last persisted (R444). -/
  savedDischarge : Nat
  savedCharge : Nat
  /-- Counters when every cell last reached the merged cell charge voltage limit. -/
  fullDischarge : Nat
  fullCharge : Nat
  failed : Nat
  afeFailed : Bool
  reportNumber : Nat
  voltage : Nat
  current : Int
  lowTemp : Int
  highTemp : Int
  resumedOld : Bool
  deriving DecidableEq, Repr

def Pack.reset : Pack :=
  { discharge := 0, charge := 0, dischargeRem := 0, chargeRem := 0, savedDischarge := 0, savedCharge := 0,
    fullDischarge := 0, fullCharge := 0, failed := 0, afeFailed := false, reportNumber := 0, voltage := 0,
    current := 0, lowTemp := 0, highTemp := 0, resumedOld := false }

/-- Concord and its CAN-A controller. -/
structure Concord where
  /-- Ensemble epoch (R434). -/
  epoch : Nat
  /-- This device's start nonce, as the number of the free value that drew it. -/
  startNonce : Nat
  /-- Transfer number of the next unsecured message (R420). -/
  transfer : Nat
  /-- Members admitted, in order of admission (vehicle). -/
  members : List Member
  /-- The join being served, after its challenge has been sent. -/
  serving : Option Serving
  /-- Further JOIN_REQ messages, at most 3 (R431). -/
  joinQueue : List JoinRequest
  dock : Option DockInfo
  relay : Option Relay
  /-- Merged values in force (R448 to R451). -/
  merged : FleetParams
  /-- Less restrictive values that wait for the ride's close (R450). -/
  loosening : Option FleetParams
  /-- A member's own phase. -/
  phase : MemberPhase
  failures : Nat
  node : Nat
  bay : Nat
  limited : Bool
  /-- Identity and start nonce of the vehicle joined or heard. -/
  vehicle : Option (Nat × Nat)
  /-- Tier and Concord level of the vehicle's last HEARTBEAT (R441). -/
  vehicleTier : Nat
  vehicleLevel : Nat
  /-- The join attempted (R429). -/
  joining : Option JoinOwn
  /-- JOIN_CHAL has been verified and JOIN_PROOF sent. -/
  proved : Bool
  session : Option Session
  roster : List RosterEntry
  /-- Consecutive HEARTBEATs with another epoch (R441). -/
  epochMisses : Nat
  /-- Vehicles heard, by identity, with the ledger ticks of their latest ANNOUNCE (R481). -/
  heard : List (Nat × Nat)
  /-- Two vehicles are heard (R481). -/
  twoVehicles : Bool
  /-- A TIME_OFFER is queued and not begun (R458). -/
  offerQueued : Bool
  /-- Frames ignored, messages discarded and MAC failures since reset, saturating at 65 535 (Table Cmd-9). -/
  ignored : Nat
  discarded : Nat
  macFailures : Nat
  busOffs : Nat
  /-- Ledger ticks of recent bus-offs, newest first (R478). -/
  busOffTimes : List Nat
  busOff : Bool
  /-- The recovery from bus-off has begun (R478). -/
  recovering : Bool
  txErrors : Nat
  rxErrors : Nat
  /-- Frames go without the bit-rate switch (R477). -/
  fallback : Bool
  /-- Restricted-operation mode (R416). -/
  restricted : Bool
  pack : Pack
  /-- Dock: the vehicle whose presence the host has enabled (R461). -/
  presenceFor : Option Nat
  /-- Dock: reports by bay, with the limited flag (R462), and the ledger ticks of the latest. -/
  chargeReports : List (Nat × Bool × EnergyReport)
  chargeReportAt : Option Nat
  /-- Messages partly received, one of each sender (R423). -/
  partials : List Partial
  /-- The messages that the latest sending command queued for CAN-A. DESIGN CHOICE (log 131). -/
  sent : List CanMessage
  deriving DecidableEq, Repr

/-- The more restrictive end of each range (Table Concord-10, Table Cmd-22). -/
def FleetParams.tightest : FleetParams := #v[10, 1, 3600, 3400, 20, 30, 40, 6]

def Concord.reset : Concord :=
  { epoch := 0, startNonce := 0, transfer := 0, members := [], serving := none, joinQueue := [], dock := none,
    relay := none, merged := FleetParams.tightest, loosening := none, phase := .idle, failures := 0, node := 6,
    bay := 0, limited := false, vehicle := none, vehicleTier := 0, vehicleLevel := 0, joining := none, proved := false, session := none, roster := [], epochMisses := 0,
    heard := [], twoVehicles := false, offerQueued := false, ignored := 0, discarded := 0, macFailures := 0,
    busOffs := 0, busOffTimes := [], busOff := false, recovering := false, txErrors := 0, rxErrors := 0, fallback := false, restricted := false,
    pack := Pack.reset, presenceFor := none, chargeReports := [], chargeReportAt := none, partials := [], sent := [] }

end Sys2Proof.Machine
end

