-- ==== Sys2Proof/Parts/Jieles.lean ====
section
/-! DEFINITION. The state of a Jieles core (spec/11_jieles_model.md): registers, the bundle being gathered, the
completion window, grants, interrupts, and the program images. Syllables stand here as the assembly forms of
spec/12_jieles_operations.md; Machine/Syllables.lean relates them to their 24 bits. -/
namespace Sys2Proof.Machine

/-- A-unit operations, format R, in the order of Table Ops-2. -/
inductive AOp where
  | add | adc | sub | sbc | and | or | xor | andn | shl | shr | sar | cmp | addp | subp | mfs | mts
  deriving DecidableEq, Repr

/-- A-unit operations, format I, in the order of Table Ops-3. -/
inductive AImm where
  | ldi | addi | andi | cmpi
  deriving DecidableEq, Repr

/-- M-unit operations, format R, in the order of Table Ops-5. -/
inductive MOp where
  | muls | mulu | mull | macs | macu | msus | divs | divu | rems | remu | divps | divpu | accrd | accw | acch | accz
  deriving DecidableEq, Repr

/-- M-unit operations, format I (Table Ops-6). -/
inductive MImm where
  | muli | maci
  deriving DecidableEq, Repr

/-- L-unit operations, format LM, in the order of Table Ops-9. -/
inductive LOp where
  | ldw | ldp | stw | stp | ldwi | stwi | macp | cmo
  deriving DecidableEq, Repr

/-- L-unit operations, format LI (Table Ops-11). -/
inductive IoOp where
  | inp | out
  deriving DecidableEq, Repr

/-- B-unit operations, in the order of Table Ops-14. -/
inductive BOp where
  | br | bc | dbnz | call | jr | bcr | callr | ret | kset | kget | wait | brk | trap
  deriving DecidableEq, Repr

/-- A syllable without its stop bit (Table Jieles-11). -/
inductive Syl where
  | a (op : AOp) (rd ra rb : Fin 32)
  | ai (op : AImm) (rd : Fin 32) (imm : Word)
  | m (op : MOp) (rd ra rb : Fin 32)
  | mi (op : MImm) (rd : Fin 32) (imm : Word)
  | l (op : LOp) (rd : Fin 32) (pb : Fin 16) (disp : BitVec 7)
  | io (op : IoOp) (rd : Fin 32) (addr : Word)
  | c (cp : Fin 8) (cop : Fin 32) (pd pa pb : Fin 16)
  | x (target : Fin 8) (value : BitVec 17)
  | b (op : BOp) (sel : Fin 16) (disp : Word)
  /-- A syllable whose unit code is 6 or 7, or whose OP its unit does not assign: its bits 22:0. -/
  | unassigned (raw : BitVec 23)
  deriving DecidableEq, Repr

/-- A syllable of a bundle as it comes to the core: whether its unit returns its result within the step, and what its access may need of
the world. -/
structure Slot where
  syl : Syl
  late : Bool
  env : AccessEnv
  deriving DecidableEq, Repr

/-- A coprocessor (Table Arch-6). -/
inductive Coproc where
  | decimal
  | vector
  | crypto
  deriving DecidableEq, Repr

/-- A register that the interlock of R607 counts as one. -/
inductive Reg where
  | w (i : Fin 32)
  | k (i : Fin 4)
  | acc
  | fl
  /-- A special register other than FL, by its number (Table Jieles-3). -/
  | special (n : Fin 32)
  deriving DecidableEq, Repr

/-- A write that completing a result makes. -/
inductive RegWrite where
  | w (i : Fin 32) (v : Word)
  | k (i : Fin 4) (v : Pair)
  | acc (v : BitVec 36)
  /-- FL: the bits of `mask` take `value`; the bits of `sticky` become 1 (R586). -/
  | flags (mask value sticky : Word)
  /-- A special register by its number. -/
  | special (n : Fin 32) (v : Word)
  /-- CTL takes ESTAT and issue resumes at EPC (R616). -/
  | ret
  /-- The crypto context's ERR bit is cleared (CSTAT). -/
  | cryptoErr
  deriving DecidableEq, Repr

/-- A trap cause (Table Jieles-8). -/
structure Cause where
  vector : Nat
  sub : Nat
  addr : Option Pair
  /-- Unit code of the syllable (none: there is none), and the syllable's 24 bits. -/
  unit : Option Nat
  syl : Pair
  /-- A bundle-wide cause (R615): ECAUSE bit 9. -/
  wide : Bool
  deriving DecidableEq, Repr

/-- A C syllable's fields, with the words of its pairs as they stood before the bundle. -/
structure Dispatch where
  cp : Nat
  cop : Nat
  pd : Fin 16
  pa : Fin 16
  pb : Fin 16
  vd : Pair
  va : Pair
  vb : Pair
  deriving DecidableEq, Repr

/-- What a held operation does when it is released (R610). -/
inductive Effect where
  | store (addr : Nat) (words : List Word)
  | inp (rd : Fin 32) (addr : Nat) (env : AccessEnv)
  | out (addr : Nat) (v : Word) (env : AccessEnv)
  /-- Function of Table Ops-10, and the line's address. -/
  | cmo (fn : Nat) (addr : Nat)
  /-- A stateful or effectful C-slot operation (R686). -/
  | dispatch (d : Dispatch) (env : AccessEnv)
  /-- Such an operation once released, until its coprocessor returns it. -/
  | inFlight (d : Dispatch) (env : AccessEnv)
  | wait
  deriving DecidableEq, Repr

/-- A branch of a bundle (R612). -/
structure Branch where
  /-- BC and BCR while the FL they test is not final: the condition (Table Ops-15). -/
  cond : Option (Fin 16)
  taken : Bool
  predicted : Bool
  target : Pair
  next : Pair
  /-- DBNZ: it resolves at its own completion (R681). -/
  dbnz : Bool
  resolved : Bool
  /-- Resolved, and later bundles had issued on the wrong path (R613). -/
  wrong : Bool
  deriving DecidableEq, Repr

/-- One word or pair that a load reads: its words once they have come, or why it traps. -/
structure LoadPart where
  addr : Nat
  n : Nat
  got : Option (List Word)
  /-- Vector and sub-cause. -/
  bad : Option (Nat × Nat)
  deriving DecidableEq, Repr

/-- What becomes of the words loaded. -/
inductive LoadKind where
  | none
  | word (rd : Fin 32)
  | pair (p : Fin 16)
  /-- MACP: acc as it stood before the bundle. -/
  | macp (acc : BitVec 36)
  deriving DecidableEq, Repr

/-- One entry of the completion window (R608). -/
structure Entry where
  tag : Nat
  /-- Serial number of its bundle, the bundle's address and its length in syllables. -/
  bundle : Nat
  pc : Pair
  len : Nat
  /-- Unit code and the 24 bits of its syllable. -/
  unit : Nat
  syl : Pair
  dests : List Reg
  writes : List RegWrite
  /-- The result has returned. -/
  returned : Bool
  /-- Its unit has not returned the result yet; RESULT_COMPLETE does. -/
  late : Bool
  /-- It can trap until it returns (R609). -/
  canTrap : Bool
  /-- No later bundle issues before it completes (R589). -/
  serial : Bool
  cause : Option Cause
  effect : Option Effect
  branch : Option Branch
  loads : List LoadPart
  loadKind : LoadKind
  /-- The coprocessor that holds it (R749). -/
  cop : Option Coproc
  deriving DecidableEq, Repr

/-- How a core stands. -/
inductive RunState where
  /-- Not started, or stopped by the Steward. -/
  | stopped
  | running
  /-- In WAIT (R682). -/
  | waiting
  /-- Halted by the debug port (R982). -/
  | halted
  /-- In a core reset that will restart it (Table Cmd-15, state 3). -/
  | inReset
  deriving DecidableEq, Repr

/-- A grant set as taken at the start (R597, R598). -/
structure GrantSet where
  crypto : Bool
  /-- Bit n: the block of grant bit n (1 to 14). -/
  blocks : BitVec 15
  /-- Bit c − 1: channel c is routed to this core. -/
  routes : BitVec 4
  windowValid : Bool
  bank : Bool
  first : BitVec 7
  last : BitVec 7
  deriving DecidableEq, Repr

def GrantSet.none : GrantSet :=
  { crypto := false, blocks := 0, routes := 0, windowValid := false, bank := false, first := 0, last := 0 }

/-- One PI channel of the vector units' context (R692). -/
structure PiChannel where
  kp : Word
  ki : Word
  lo : Word
  hi : Word
  integ : Pair
  deriving DecidableEq, Repr

def PiChannel.reset : PiChannel := { kp := 0, ki := 0, lo := 0, hi := 0, integ := 0 }

/-- A GCM computation in progress (Table Ops-18). -/
structure GcmState where
  key : List Octet
  /-- The 12 octets of the IV block it started with. -/
  iv : List Octet
  aad : List Octet
  /-- The cipher text so far. -/
  text : List Octet
  deriving DecidableEq, Repr

/-- A SHA-256 computation in progress: HMAC keyed or plain, and the octets fed. -/
structure ShaState where
  hmac : Option (List Octet)
  fed : List Octet
  deriving DecidableEq, Repr

/-- The crypto engine's context of one core (R694). -/
structure CryptoCtx where
  key : List Octet
  iv : List Octet
  gcm : Option GcmState
  sha : Option ShaState
  /-- The ephemeral secret key, by the number of the free value that drew it. -/
  ephemeral : Option Nat
  err : Bool
  deriving DecidableEq, Repr

def CryptoCtx.reset : CryptoCtx :=
  { key := [], iv := List.replicate 16 0, gcm := none, sha := none, ephemeral := none, err := false }

/-- The decimal units' context of one requester (Table Decimal-2). -/
structure DecCtx where
  sa : BitVec 4
  sb : BitVec 4
  sd : BitVec 4
  mode : BitVec 2
  err : Bool
  deriving DecidableEq, Repr

def DecCtx.reset : DecCtx := { sa := 0, sb := 0, sd := 0, mode := 0, err := false }

/-- The trace unit of one core (R986). -/
structure TraceCtx where
  fifo : List Octet
  lost : Nat
  sinceSync : Nat
  deriving DecidableEq, Repr

def TraceCtx.reset : TraceCtx := { fifo := [], lost := 0, sinceSync := 0 }

/-- A Jieles core. -/
structure CoreState where
  run : RunState
  /-- This core is counted as started by the last program start, as a plain or the Speedwell core. -/
  speedwell : Bool
  w : Vector Word 32
  k : Vector Pair 4
  acc : BitVec 36
  fl : Word
  /-- CTL: bits TH 4, IE 3, DZT 2, CTM 1, SPEC 0. -/
  ctl : BitVec 5
  epc : Pair
  ecause : Word
  esyl : Pair
  eaddr : Pair
  estat : BitVec 5
  eblen : BitVec 3
  tvb : Pair
  pc : Pair
  /-- Syllables of the bundle being gathered. -/
  gather : List Slot
  /-- X syllables of that bundle, placed when it closes or a B syllable comes. -/
  gatherX : List (Fin 8 × BitVec 17)
  /-- The gathered bundle is closed by its stop bit and waits to issue (R607). -/
  closed : Bool
  /-- The completion window, oldest first. -/
  window : List Entry
  nextTag : Nat
  nextBundle : Nat
  /-- A cause known before issue, which waits to become the oldest (R614), with its bundle's length. -/
  preTrap : Option (Cause × Nat)
  /-- A trap arose in a handler; vector of the last double trap and its EPC and EADDR (R617, Table Cmd-15). -/
  doubleVector : Nat
  doubleEpc : Pair
  doubleEaddr : Pair
  /-- Local scratch, 16 Ki words: the words that are not 0, by rising address. -/
  scratch : List (Nat × Word)
  grants : GrantSet
  /-- GRT_IPEND bits 2 and 5, latched. -/
  pwmEvent : Bool
  tslEvent : Bool
  ien : Word
  dbsrc : BitVec 4
  pi : Vector PiChannel 4
  crypto : CryptoCtx
  dec : DecCtx
  trace : TraceCtx
  /-- Tags of squashed results that have not returned (R65, R761). -/
  staleTags : List Nat
  /-- Bundles with a serial number below this have released an operation or completed a result, or precede one that has: an interrupt or
  a halt lets them complete (R619). -/
  firm : Nat
  deriving DecidableEq, Repr

/-- A core that has not been started (R590, R624): every register 0. -/
def CoreState.reset : CoreState :=
  { run := .stopped, speedwell := false, w := Vector.replicate 32 0, k := Vector.replicate 4 0, acc := 0, fl := 0,
    ctl := 0, epc := 0, ecause := 0, esyl := 0, eaddr := 0, estat := 0, eblen := 0, tvb := 0, pc := 0, gather := [],
    gatherX := [], closed := false, window := [], nextTag := 0, nextBundle := 0, preTrap := none, doubleVector := 0,
    doubleEpc := 0, doubleEaddr := 0, scratch := [], grants := GrantSet.none, pwmEvent := false, tslEvent := false,
    ien := 0, dbsrc := 0, pi := Vector.replicate 4 PiChannel.reset, crypto := CryptoCtx.reset, dec := DecCtx.reset,
    trace := TraceCtx.reset, staleTags := [], firm := 0 }

end Sys2Proof.Machine
end

