-- ==== Sys2Proof/Parts/Journal.lean ====
section
/-! DEFINITION. The state of the journal (spec/16_journal.md): its state machine, the tail in SRAM, the NAND blocks
and pages, and the NAND operations in progress. -/
namespace Sys2Proof.Machine

/-- The states of Table Journal-8. -/
inductive JState where
  | absent | probing | mounting | ready | full | worn | paused | foreign | failed
  deriving DecidableEq, Repr

/-- The state's code in the status response (Table Cmd-4). -/
def JState.code : JState → Nat
  | .absent => 0 | .probing => 1 | .mounting => 2 | .ready => 3 | .full => 4 | .worn => 5 | .paused => 6
  | .foreign => 7 | .failed => 8

/-- What ledger record a journal record mirrors. -/
inductive RecLink where
  | none
  | ride (epoch number period : Nat)
  | period (epoch index : Nat)
  deriving DecidableEq, Repr

/-- A journal record (Table Journal-5). -/
structure Rec where
  type : Nat
  copy : Bool
  seq : Nat
  era : Nat
  seconds : Nat
  fraction : Nat
  body : List Octet
  link : RecLink
  deriving DecidableEq, Repr

/-- A programmed page: its page sequence number and its records. -/
structure JPage where
  seq : Nat
  recs : List Rec
  deriving DecidableEq, Repr

/-- A block's state (R886). -/
inductive BlockKind where
  | free
  | active
  | full
  | bbt
  /-- Cause 1 factory, 2 program, 3 erase (R887). -/
  | retired (cause : Nat)
  /-- Waits for its erase before it returns to the pool. -/
  | erasing
  deriving DecidableEq, Repr

/-- A journal block. -/
structure NandBlock where
  kind : BlockKind
  erases : Nat
  pages : List JPage
  deriving DecidableEq, Repr

def NandBlock.fresh : NandBlock := { kind := .free, erases := 0, pages := [] }

/-- What the parameter page gives (Table Journal-2), with the targets in use. -/
structure NandInfo where
  targets : Nat
  /-- Main octets per page: 2 048 or 4 096. -/
  pageOctets : Nat
  pagesPerBlock : Nat
  /-- Blocks of all targets in use. -/
  blocks : Nat
  endurance : Nat
  /-- The SDR timing mode chosen (R879). -/
  timing : Nat
  deriving DecidableEq, Repr

def NandInfo.none : NandInfo :=
  { targets := 0, pageOctets := 2048, pagesPerBlock := 64, blocks := 0, endurance := 0, timing := 0 }

/-- The NAND program or erase that a target is busy with. -/
inductive NandOp where
  | program (block : Nat) (page : JPage)
  | erase (block : Nat)
  deriving DecidableEq, Repr

/-- The journal. -/
structure Journal where
  state : JState
  info : NandInfo
  /-- The journal identity in the bad-block table (R887). -/
  identity : Option Nat
  bbtVersion : Nat
  /-- Blocks that differ from a fresh free one, by number. -/
  blocks : List (Nat × NandBlock)
  /-- The block that holds the write point. -/
  active : Option Nat
  /-- Sequence number of the next page and of the next record (Table Journal-4, R893). -/
  nextPage : Nat
  nextSeq : Nat
  /-- Records of the tail that no program in progress holds, oldest first: the page being assembled is as much of
  their head as fits a page; and ledger ticks at which the first of them entered. -/
  entries : List Rec
  entriesSince : Option Nat
  /-- Copies made by relocation and reclaim that wait for the write point (R899 to R902). -/
  copies : List Rec
  /-- Source blocks that wait for their copies to be confirmed before their erase: block, sequence numbers left. -/
  moves : List (Nat × List Nat)
  overflow : List Rec
  /-- The operation of each target and its consecutive timeouts (R880). -/
  busy : Vector (Option NandOp) 2
  timeouts : Vector Nat 2
  /-- The page being assembled is due (R895) and waits for the write point. -/
  pageDue : Bool
  /-- A FLUSH waits until the records up to this number are confirmed. -/
  flushing : Option Nat
  /-- Pages whose program was cut short, with their block: what they read as shows at the next mount (Table Journal-9). -/
  cutPages : List (Nat × JPage)
  /-- Number of the next record when the present epoch was set: lower numbers are older than the epoch (R901). -/
  epochSeq : Nat
  /-- Records lost since the last loss record: count, first sequence number, class mask (Table Journal-6). -/
  lost : Nat
  lostFirst : Nat
  lostMask : BitVec 16
  /-- Records lost since adoption. -/
  lostTotal : Nat
  /-- Highest sequence number confirmed. -/
  confirmed : Nat
  /-- Pages patrolled in the present round. -/
  patrolled : Nat
  /-- NWP_N is high (R877). -/
  writeEnabled : Bool
  /-- Ledger ticks of the last snapshot. -/
  snapshotAt : Option Nat
  deriving DecidableEq, Repr

def Journal.reset : Journal :=
  { state := .absent, info := NandInfo.none, identity := none, bbtVersion := 0, blocks := [], active := none,
    nextPage := 0, nextSeq := 1, entries := [], entriesSince := none, copies := [],
    moves := [], overflow := [], busy := Vector.replicate 2 none, timeouts := Vector.replicate 2 0,
    pageDue := false, flushing := none, cutPages := [], epochSeq := 0, lost := 0, lostFirst := 0, lostMask := 0, lostTotal := 0,
    confirmed := 0, patrolled := 0, writeEnabled := false,
    snapshotAt := none }

/-- What a page whose program was cut short reads as (Table Journal-9). -/
inductive CutPage where
  | erased
  | torn
  | whole
  deriving DecidableEq, Repr

/-- Whose bad-block table a mount finds (Table Journal-8). -/
inductive MountKind where
  /-- This device's identity; `rebuilt`: both copies of the table are unreadable (R889). -/
  | own (rebuilt : Bool)
  /-- No valid page header: adopted, with the blocks that carry a factory mark. -/
  | blank (factory : List Nat)
  | foreign
  deriving DecidableEq, Repr

/-- What a probe and a mount read of the NAND. DESIGN CHOICE (log 118). -/
structure MountFound where
  info : NandInfo
  /-- A second target differs or does not answer (R875). -/
  secondUnusable : Bool
  kind : MountKind
  /-- What the pages cut short read as, in their order. -/
  cut : List CutPage
  deriving DecidableEq, Repr

end Sys2Proof.Machine
end

