-- ==== Sys2Proof/Machine/Ops.lean ====
section
/-! DEFINITION. Word memory in one canonical form (Table Scope-2): addresses strictly rising, and no entry equal to
what an unlisted address reads as. Shared SRAM, local scratch and the flash arrays are held so. -/
namespace Sys2Proof.Machine

/-- Word memory: the words that differ from the fill, by strictly rising address. DESIGN CHOICE (log 7). -/
abbrev WordMem := List (Nat × Word)

/-- The word at an address; an unlisted address reads as the fill. DESIGN CHOICE (log 7). -/
def memGet (fill : Word) (m : WordMem) (a : Nat) : Word := lookupD fill a m

/-- A word written, the form kept: writing the fill takes the entry out. -/
def memSet (fill : Word) (a : Nat) (v : Word) : WordMem → WordMem
  | [] => if v = fill then [] else [(a, v)]
  | (j, y) :: r =>
    if j < a then (j, y) :: memSet fill a v r
    else if j = a then (if v = fill then r else (a, v) :: r)
    else (if v = fill then (j, y) :: r else (a, v) :: (j, y) :: r)

/-- Words written to consecutive addresses. -/
def memSetList (fill : Word) (a : Nat) : List Word → WordMem → WordMem
  | [], m => m
  | w :: ws, m => memSetList fill (a + 1) ws (memSet fill a w m)

/-- n words from consecutive addresses. -/
def memGetList (fill : Word) (m : WordMem) (a n : Nat) : List Word := (List.range n).map (fun i => memGet fill m (a + i))

/-- The words of [a, b) set back to the fill. -/
def memClear (a b : Nat) (m : WordMem) : WordMem := m.filter (fun p => p.1 < a || b ≤ p.1)

/-- Every entry lies above `lo` and differs from the fill, and addresses rise strictly. -/
def memWfFrom (fill : Word) (lo : Nat) : WordMem → Bool
  | [] => true
  | (j, y) :: r => decide (lo ≤ j) && decide (y ≠ fill) && memWfFrom fill (j + 1) r

/-- The canonical form holds. -/
def memWf (fill : Word) (m : WordMem) : Bool := memWfFrom fill 0 m

end Sys2Proof.Machine
end

