-- ==== Sys2Proof/Parts/Memory.lean ====
section
/-! DEFINITION. The state of shared SRAM, its directory and the caches (spec/14_inflight.md, Tables Flight-5 to
Flight-10). A line is named by its number: its word address divided by 16. -/
namespace Sys2Proof.Machine

/-- A data cache: of a core, or the Steward's. -/
inductive CacheId where
  | core (i : Fin 4)
  | steward
  deriving DecidableEq, Repr

/-- The place of a cache in a sharer set (R767). -/
def CacheId.slot : CacheId → Fin 5
  | .core i => ⟨i.val, by omega⟩
  | .steward => 4

/-- The cache at a place of the sharer set. -/
def CacheId.ofSlot (n : Fin 5) : CacheId := if h : n.val < 4 then .core ⟨n.val, h⟩ else .steward

/-- The 16 words of a line. -/
abbrev LineData := Vector Word 16

/-- A line's state in a data cache (Table Flight-7); I is absence. -/
inductive LineState where
  | s | e | m | isD | imD | smA | miA | eiA
  deriving DecidableEq, Repr

/-- An access that waits for a grant or a PutAck. -/
inductive WaitAccess where
  /-- A load of n words of a core; its result belongs to the window entry with this tag. -/
  | load (tag : Nat) (addr n : Nat)
  | store (addr : Nat) (words : List Word)
  deriving DecidableEq, Repr

/-- One line of a data cache. -/
structure CacheLine where
  state : LineState
  data : LineData
  /-- The line was granted with an error mark (R806). -/
  err : Bool
  waits : List WaitAccess
  deriving DecidableEq, Repr

/-- A directory state without busy (Table Flight-8). -/
inductive DirState where
  | u
  | s (set : Vector Bool 5)
  | x (owner : CacheId)
  deriving DecidableEq, Repr

/-- An agent without a cache (R781). -/
inductive Agent where
  | dma
  | crypto
  deriving DecidableEq, Repr

/-- A request as a home serves it. -/
inductive HomeReq where
  | getS (r : CacheId)
  | getM (r : CacheId)
  | upg (r : CacheId)
  | put (r : CacheId) (data : Option LineData)
  | agentRead (a : Agent) (offset len : Nat)
  | agentWrite (a : Agent) (offset : Nat) (words : List Word)
  /-- The directory entry reads with an uncorrectable error and is rebuilt (R807). -/
  | rebuild
  deriving DecidableEq, Repr

/-- The kinds of snoop (Table Flight-6). -/
inductive SnoopKind where
  | inv | snpS | snpRd | snpI
  deriving DecidableEq, Repr

/-- A transaction in progress at a home (state B). Of a rebuild, `acks` are the caches whose answer is awaited, and `snoop` names the cache
whose PutM crosses it. -/
structure Txn where
  req : HomeReq
  /-- The owner snooped, with the snoop sent. -/
  snoop : Option (CacheId × SnoopKind)
  /-- Caches whose InvAck is awaited. -/
  acks : Vector Bool 5
  /-- The snooped owner's eviction notice has come, with its data if dirty (R777, R778). -/
  put : Option (Option LineData)
  /-- InFlight or SnpNone has come from the snooped owner. -/
  crossed : Bool
  /-- The grant has been sent; the state entered on Done. -/
  final : Option DirState
  deriving DecidableEq, Repr

/-- What a home holds of one of its lines. -/
structure HomeLine where
  dir : DirState
  busy : Option Txn
  queue : List HomeReq
  /-- The error mark of R806. -/
  err : Bool
  deriving DecidableEq, Repr

def HomeLine.reset : HomeLine := { dir := .u, busy := none, queue := [], err := false }

/-- A coherence message on its way (Table Flight-6), with the cache it comes from or goes to. -/
inductive CohMsg where
  | getS | getM | upg
  | putM (d : LineData)
  | putE
  | done
  | dataS (d : LineData) (err : Bool)
  | dataE (d : LineData) (err : Bool)
  | dataM (d : LineData) (err : Bool)
  | upgAck | putAck
  | snoop (k : SnoopKind)
  | invAck
  | snpData (d : LineData)
  | snpClean | inFlight | snpNone
  deriving DecidableEq, Repr

/-- A message in flight: line, cache, message. -/
structure Flight where
  line : Nat
  cache : CacheId
  msg : CohMsg
  deriving DecidableEq, Repr

/-- A load served by a cache, on its way back to its window entry. -/
structure Loaded where
  cache : CacheId
  tag : Nat
  addr : Nat
  words : List Word
  err : Bool
  deriving DecidableEq, Repr

/-- Shared SRAM, directory and caches. -/
structure Memory where
  /-- The words of the 16 tiles that are not 0, by address within 0x100_000 to 0x1FF_FFF (R767). -/
  sram : WordMem
  /-- Directory entries that are not U, idle and unmarked, by line. -/
  home : List (Nat × HomeLine)
  /-- Data caches of cores 0 to 3 and of the Steward: the lines they hold. -/
  dcache : Vector (List (Nat × CacheLine)) 5
  /-- Instruction caches: lines of 32 words, by word address divided by 32. -/
  icache : Vector (List (Nat × List Word)) 4
  /-- Messages on their way, oldest first. -/
  msgs : List Flight
  /-- Loads that grants have served, oldest first. -/
  loaded : List Loaded
  /-- The words that the last agent read delivered, and whether it met an error. -/
  agentData : List Word
  agentErr : Bool
  /-- Agent writes acknowledged. -/
  agentAcks : Nat
  deriving DecidableEq, Repr

def Memory.reset : Memory :=
  { sram := [], home := [], dcache := Vector.replicate 5 [], icache := Vector.replicate 4 [], msgs := [],
    loaded := [], agentData := [], agentErr := false, agentAcks := 0 }

/-- Where an operation in flight stands (Table Flight-3). -/
inductive CopPhase where
  | queued
  | running
  deriving DecidableEq, Repr

/-- An operation in flight in a coprocessor: it holds a tag of its pool (R749). -/
structure CopOp where
  cop : Coproc
  /-- Its dispatcher: cores 0 to 3, or 4 the Steward. -/
  owner : Fin 5
  /-- Its tag in the dispatcher's window. -/
  tag : Nat
  phase : CopPhase
  /-- The unit of the pair that runs it (R763). -/
  unit : Nat
  /-- It runs in constant-time form (R733, R672, R694). -/
  ct : Bool
  /-- Its result will return stale (R65). -/
  stale : Bool
  deriving DecidableEq, Repr

/-- The coprocessors (R762 to R766); their context files stand with the cores. -/
structure Cop where
  ops : List CopOp
  /-- Cancel tokens on their way. -/
  tokens : List (Coproc × Fin 5 × Nat)
  /-- The requester last admitted by each arbiter: decimal, vector, crypto (R765). -/
  turn : Vector (Fin 5) 3
  deriving DecidableEq, Repr

def Cop.reset : Cop := { ops := [], tokens := [], turn := Vector.replicate 3 4 }

end Sys2Proof.Machine
end

