-- ==== Sys2Proof/Syntax.lean ====
section
/-! DEFINITION. The commands of the block: one constructor for each row of spec/opcode_table.json, with the operands
that this model gives it. The docstring of a constructor is the row's own summary, with its rule. -/
namespace Sys2Proof

/-- A command: an operation or an event of the part (spec/opcode_table.json). -/
inductive Instr where
  /-- The always-on rail rises above AO-BOR; the power manager leaves Off for AO and Celandine cold-starts. (R146) -/
  | alwaysOnRise
  /-- The always-on rail falls below AO-BOR; everything is held in reset and the power manager enters Off. (R146) -/
  | alwaysOnFall (cut : Vector PageCut 2)
  /-- VIN_AO crosses the AO-LOW threshold; AOLOW follows and one backup-low event is logged per fall. (R143) -/
  | aoLowTrip (low : Bool)
  /-- The PWR_FAIL monitor trips; the Teasel latch sets, the cores stop issue, the flash queue closes, and the PWR_FAIL sequence begins. (R151) -/
  | pwrFailTrip (analog : Bool)
  /-- PFI_N goes low and acts as a PWR_FAIL trip. (R144) -/
  | pfiNFall
  /-- VDDIO_B falls below B-LOW; the Teasel latch sets and PWR_FAIL is raised. (R143) -/
  | bLowTrip
  /-- VDDIO_A falls below IO-BOR; blocks on V33 are held in reset, VCORE is removed and the power manager enters AO. (R146) -/
  | ioBorTrip (cut : Vector PageCut 2)
  /-- VDDIO_C falls below C-LOW; the NAND controller issues no new command and the journal pauses. (R192) -/
  | cLowTrip
  /-- VDDIO_C recovers; RESET goes to each target and the journal mounts again. (R903) -/
  | cLowClear
  /-- A VCORE under, over or buck-current monitor trips; the Teasel latch sets, the buck turns off, the fault is counted and the retry timer starts. (R146) -/
  | vcoreFault (f : VcoreFault) (cut : Vector PageCut 2)
  /-- The conditions of V33 good have held for 1 ms; the device starts unless the retry timer runs. (R145) -/
  | v33Good (e : StartEnv)
  /-- The VCORE-fault or Beacon-failure retry timer ends; the device starts at once if V33 is good. (R147) -/
  | retryTimerExpiry (e : StartEnv)
  /-- 60 s pass without a VCORE fault and the fault count clears. (R147) -/
  | faultCountClear
  /-- The PWR_FAIL sequence ends; flash is protected, NWP_N goes low, VCORE is discharged and the power manager enters AO. (R153) -/
  | holdupSequenceComplete
  /-- Self-test results decide the tier; a tier event is sent and programs start at T2 or T3. (R214) -/
  | tierDecision (failed : List UnitId) (e : StoreEnv)
  /-- 300 ms after reset without a tier decision, unfinished tests count as failed and the tier is decided. (R246) -/
  | selftestTimeout (unended : List UnitId) (e : StoreEnv)
  /-- Every 600 s of ledger time without an open ride, the known-answer tests run again. (R220) -/
  | knownAnswerRetest (failed : List UnitId)
  /-- The PLL locks and the derived domain clocks start. (R102) -/
  | pllLock
  /-- The PLL loses lock at run time; the Teasel latch sets, the tier falls and relocking begins. (R128) -/
  | pllLockLoss
  /-- A 150 µs relock wait ends; the Steward retries up to three times. (R128) -/
  | pllRelockTimeout
  /-- HFX gives no stable clock within 10 ms; the PLL stays unlocked and the tier is limited. (R129) -/
  | hfxStartTimeout
  /-- A clock-present detector sees no edge for 16 FCLK periods; the port faults every access and one event is logged. (R127) -/
  | domainClockStopped (d : ClockDomain) (also : List UnitId)
  /-- FCLK stops; a running program or erase ends at its step and the device falls to T1. (R130) -/
  | fclkStopped (cut : Vector PageCut 2)
  /-- An oscillator gives no edge for 200 µs and is declared stopped. (R545) -/
  | oscActivityTimeout (lfx : Bool)
  /-- A window of 1 024 LFO periods ends; LFX is judged against 240 to 272 edges and is declared failed or good. (R544) -/
  | lfxCheckWindow (edges : Nat)
  /-- Every 10 s the Steward counts LFO against TCAP_NOW and declares it failed or good. (R545) -/
  | lfoCountCheck (off : Nat)
  /-- The 250 ms Steward watchdog expires and causes a warm reset. (R225) -/
  | stewardWatchdogExpiry (e : StartEnv)
  /-- A core watchdog expires and causes a core reset of that core. (R230) -/
  | coreWatchdogExpiry (c : Fin 4) (e : StoreEnv)
  /-- A core writes its VCORE request; an invalid code sets BADREQ and the buck target is recomputed. (R88) -/
  | pmuOpreqWrite (c : Fin 4) (v : Word)
  /-- A core sets its watchdog enable and period; a PER from 12 to 15 leaves the register unchanged and logs an event. (R228) -/
  | pmuWdtWrite (c : Fin 4) (v : Word)
  /-- A kick with key 0x6D9 restarts the watchdog period; any other key expires it with CAUSE 3. (R227) -/
  | pmuWdkickWrite (c : Fin 4) (v : Word) (e : StoreEnv)
  /-- VCORE has stayed within ±10 mV of the target for 2 µs and SETTLED rises. (R91) -/
  | vcoreSettled
  /-- The junction temperature refreshes every 1 ms and BAND moves with hysteresis. (R93) -/
  | tjSample (t : Word)
  /-- While a ride is open, the ledger tail is written to flash at least every 60 s. (R157) -/
  | ledgerTailTimer (w : RingWrite)
  /-- A WRITE transaction delivers a frame, which is accepted or discarded with ERR set. (R254) -/
  | spiWrite (used : Fin 3) (os : List Octet)
  /-- A READ transaction sends the head frame, consuming it only when every octet was clocked out, or the null frame. (R255) -/
  | spiRead (used : Fin 3) (n : Nat)
  /-- A REREAD sends again the last frame that a READ fully delivered. (R255) -/
  | spiReread (used : Fin 3) (n : Nat)
  /-- A STATUS transaction returns buffer, queue and discard counts and clears ERR. (R252) -/
  | spiStatus (used : Fin 3)
  /-- A transaction with an unknown opcode is ignored and counted as discarded. (R252) -/
  | spiBadOpcode (used : Fin 3) (op : Octet)
  /-- HCS_N stays low over 100 ms; the transaction is abandoned and counted. (R257) -/
  | hcsTimeout (write : Bool)
  /-- A marked frame is received on the host UART, checked for length and CRC, and passed on or rejected. (R260) -/
  | uartFrame (used : Fin 3) (os : List Octet)
  /-- A gap over 2 ms inside an incoming frame ends and discards it. (R261) -/
  | uartGapTimeout
  /-- HCTS_N rises or falls and stops or resumes transmission. (R262) -/
  | hctsChange (high : Bool) (sent : Nat)
  /-- 2 ms after the rate-command response, the new UART rate takes effect. (R259) -/
  | uartRateApply
  /-- No valid frame within 5 s of a rate change; the rate returns to 115 200 bit/s and an event is raised. (R259) -/
  | uartRateRevert
  /-- A frame arrives as one USB bulk transfer. (R265) -/
  | usbFrame (used : Fin 3) (os : List Octet)
  /-- USB_VBUS crosses its thresholds and the D+ pull-up is connected or disconnected. (R954) -/
  | usbVbusChange (present : Bool)
  /-- A request with the last accepted SEQ is repeated; the cached response, latest interim, a rerun or 0x09 follows. (R275) -/
  | duplicateRequest (c : Fin 7) (cmd : Nat) (flags : Octet) (q : CmdReq)
  /-- 20 ms, or the time stated by the last interim, passes without a final response and an interim is queued. (R275) -/
  | interimDue (t : Transport) (c : Fin 7) (ms : Nat)
  /-- A request on channels 1 to 4 is written into the routed core's buffer, PEND is set and the mailbox interrupt is raised. (R284) -/
  | appRequest (c : Fin 4) (cmd : Nat) (flags : Octet) (q : CmdReq)
  /-- The program marks a response complete; the Steward reads and queues it, or ignores a stray write. (R285) -/
  | grtMbxdoneWrite (core : Fin 4) (v : Word)
  /-- The route's response limit runs out; PEND clears and 0x08 is answered. (R288) -/
  | appResponseTimeout (c : Fin 4)
  /-- A core raises application event 0xA000 plus CODE. (R284) -/
  | grtMbxevtWrite (core : Fin 4) (v : Word)
  /-- SERVICE_N falls; the press counts only if it follows a recorded seal opening within its period. (R571) -/
  | serviceNFall (low : Bool)
  /-- A qualified SERVICE_N press has stayed low for 2 s and is recognised as presence. (R308) -/
  | servicePressRecognised (jumper : Bool) (e : StartEnv)
  /-- JMP_PRES is fitted and its 1 s recognition time begins. (R311) -/
  | jmpPresFall (low : Bool)
  /-- JMP_PRES has stayed low for 1 s and is recognised as presence. (R308) -/
  | jumperRecognised (e : StartEnv)
  /-- A 62.5 ms DOCK_PRES gate ends and is accepted or rejected; four accepted gates recognise dock presence. (R308) -/
  | dockGateEnd (edges : Nat) (e : StartEnv)
  /-- The presence window timer expires; the window closes and its source set clears. (R313) -/
  | presenceWindowExpiry
  /-- The 300 s SERVICE_N period after a seal opening ends. (R565) -/
  | servicePeriodExpiry
  /-- SERVICE_N is held low for over 30 s and one stuck-button event is logged. (R362) -/
  | stuckButtonTimeout
  /-- Gates are rejected for over 10 s while edges arrive and a rate-limited dock-presence event is logged. (R361) -/
  | dockRejectTimeout
  /-- 86 400 s of ledger time pass since a probation began and it succeeds. (R334) -/
  | probationExpiry (w : StoreWrite)
  /-- Every 86 400 s of ledger time without an open ride, the twin copies are compared and repaired. (R339) -/
  | scrubTimer (e : StoreEnv)
  /-- Each wall-clock second the Steward checks for passed boundaries and seals due periods. (R388) -/
  | closureCheck (w : RingWrite)
  /-- 86 400 s without an accepted class-4 set-time drops the class to 3. (R368) -/
  | class4Decay
  /-- A ride reaches the tariff's maximum duration and the device closes it with cause 1. (R384) -/
  | maxRideDuration (w : RingWrite) (e : StoreEnv)
  /-- An ANNOUNCE from a vehicle is received; an idle member under guard G sends JOIN_REQ, and a member seeing a new start nonce rejoins. (R428) -/
  | announce (fs : List CanFrame)
  /-- The 1 s timer sends an ANNOUNCE from the vehicle, or lets an idle member try to join. (R428) -/
  | announceTimer
  /-- The vehicle receives a join request and serves it or queues it. (R431) -/
  | joinReq (fs : List CanFrame)
  /-- A joining member verifies the challenge, derives keys and sends JOIN_PROOF. (R428) -/
  | joinChal (fs : List CanFrame)
  /-- The vehicle verifies the proof and admits or refuses the member by the first failing reason. (R432) -/
  | joinProof (fs : List CanFrame)
  /-- A member receives acceptance and takes its node, or receives refusal and backs off. (R428) -/
  | joinResult (fs : List CanFrame)
  /-- A joining member's 300 ms timer expires and it backs off. (R428) -/
  | joinTimeout
  /-- The vehicle waits 300 ms for JOIN_PROOF in vain, abandons the join and serves the next. (R431) -/
  | proofTimeout
  /-- A member's random or 10 s back-off ends and it returns to Idle. (R428) -/
  | backoffExpiry
  /-- A LEAVE ends the session on the receiving side. (R428) -/
  | leave (fs : List CanFrame)
  /-- A REKEY exchange renews the session keys and toggles the key generation. (R438) -/
  | rekey (fs : List CanFrame)
  /-- A counter reaching 2^31, or keys 86 400 s old, starts a rekey. (R438) -/
  | keyAgeRekey (node : Nat)
  /-- A rekey incomplete after 300 ms is abandoned and the old keys are kept. (R440) -/
  | rekeyTimeout (node : Nat)
  /-- 1 s after an abandoned rekey, the vehicle tries again. (R440) -/
  | rekeyRetry (node : Nat)
  /-- 200 ms after the second REKEY, frames of the previous key generation are no longer accepted. (R439) -/
  | prevGenerationExpiry (node : Nat)
  /-- A HEARTBEAT is received; an epoch mismatch leads to a roster request or a ROSTER. (R441) -/
  | heartbeat (fs : List CanFrame)
  /-- Every 100 ms each side sends a HEARTBEAT. (R441) -/
  | heartbeatTimer
  /-- A member receives the roster with the ensemble epoch and the member list. (R434) -/
  | roster (fs : List CanFrame)
  /-- The vehicle takes a pack's energy report and passes it to the ledger segments, with a CHARGE_REPORT to an admitted dock. (R446) -/
  | energyReport (fs : List CanFrame)
  /-- Every 1 s a pack sends an ENERGY_REPORT. (R445) -/
  | energyReportTimer
  /-- A pack receives a report request and sends an ENERGY_REPORT within 20 ms. (R445) -/
  | reportReq (fs : List CanFrame)
  /-- A time offer is aged on TCAP_NOW and settled by class; the losing side steps forward or records an offset. (R457) -/
  | timeOffer (fs : List CanFrame) (dt : Nat)
  /-- Every 60 s each side sends a TIME_OFFER. (R418) -/
  | timeOfferTimer
  /-- A TIME_OFFER not begun 10 ms after queueing is withdrawn and resampled. (R458) -/
  | offerWithdraw
  /-- The vehicle takes a member's fleet parameters and recomputes the restrictive merge. (R448) -/
  | configOffer (fs : List CanFrame)
  /-- A member applies the merged values in place of its own for the session. (R451) -/
  | configMerged (fs : List CanFrame)
  /-- The vehicle receives the dock's presence, charger and fleet-edition state. (R460) -/
  | dockState (fs : List CanFrame)
  /-- Every 1 s the dock sends DOCK_STATE. (R418) -/
  | dockStateTimer (chargerOn chargerFault : Bool)
  /-- The dock receives a pack's latest report and passes it with the merged limits to its program. (R462) -/
  | chargeReport (fs : List CanFrame)
  /-- A member stages a relayed edition record and answers with RELAY_RESULT. (R453) -/
  | stageRelay (fs : List CanFrame) (w : StoreWrite)
  /-- The vehicle receives the member's staging status and completes the relay command. (R933) -/
  | relayResult (fs : List CanFrame)
  /-- No RELAY_RESULT arrives within 2.0 s and the relay gets 0x32. (R933) -/
  | relayTimeout
  /-- The vehicle hears nothing valid from a member for 2.0 s, declares it lost, raises the epoch and ends its segment. (R474) -/
  | memberSilenceTimeout (node : Nat)
  /-- A member hears nothing valid from its vehicle for 2.0 s and drops the session. (R428) -/
  | vehicleSilenceTimeout
  /-- The next fragment has not arrived 50 ms after the previous one and the message is discarded. (R423) -/
  | fragmentTimeout (sender : Nat)
  /-- A frame outside the Concord identifier plan is ignored and counted. (R415) -/
  | canAFrameIgnored (f : CanFrame)
  /-- A frame with an unlisted TYPE or wrong nodes is discarded and counted. (R419) -/
  | concordUnknownType (f : CanFrame)
  /-- A bus error moves the error counts; at 96 the device drops bit-rate switching. (R477) -/
  | canABusError (txErrors rxErrors : Nat)
  /-- After 0, 100 ms or 1 s the bus-off recovery begins and restricted operation follows. (R478) -/
  | busOffRecovery
  /-- 10 s without either error count reaching 96 restores bit-rate switching. (R477) -/
  | rateFallbackEnd
  /-- Restricted operation ends 50 ms after entry if no clean frame arrived first. (R416) -/
  | restrictedModeTimeout
  /-- ANNOUNCE frames from two vehicles within 3 s keep a member from joining and raise an event. (R481) -/
  | twoVehiclesHeard (fs : List CanFrame)
  /-- Once per sample period, a pack reads its front end and updates the energy counters. (R443) -/
  | afeSample (rsp : List (List Octet)) (dt : Nat)
  /-- A pack persists its counters every 60 s, and at every 0.50 Wh of change. (R444) -/
  | packCounterPersist
  /-- The counter reaches the valley, or the peak with UPD set; shadows are copied unless HOLD is set and the supervisor acts. (R487) -/
  | pwmUpdateEvent (peak : Bool) (dt : Nat)
  /-- The PWM trigger fires at valley, peak or count match and starts an ADC sequence. (R491) -/
  | pwmAdcTrigger
  /-- A sequence entry completes, writes a FIFO entry and ADC_RESn, and may request DMA. (R502) -/
  | adcEntryComplete (codeA codeB : Word)
  /-- RUN starts or stops the counter with an update event, and HOLD and UPD are set. (R490) -/
  | pwmCtlWrite (v : Word)
  /-- Word 0 of a 14-bit PWM value is held in the staging latch. (R488) -/
  | pwmWord0Write (k : Fin 5) (v : Word)
  /-- Word 1 moves both words into the shadow, or is ignored under R492 with BADWR set. (R488) -/
  | pwmWord1Write (k : Fin 5) (v : Word)
  /-- A software trigger starts the ADC sequence when TRG is 2. (R500) -/
  | adcSwtrgWrite (v : Word)
  /-- Converter enables, trigger mode, sequence length and DMA are set; TRG 4 to 7 is ignored with BADWR. (R500) -/
  | adcCtlWrite (v : Word)
  /-- A read pops the head FIFO entry and latches its two results for the reader. (R503) -/
  | adcFifotRead (r : Requester)
  /-- A hall, wheel, brake or GPPS level passes its filter and is time-stamped, counted and queued. (R504) -/
  | filteredEdge (dt : Nat) (e : CapEdge)
  /-- A read pops the head capture event and latches its time stamp. (R508) -/
  | tcapEv0Read (r : Requester)
  /-- A read returns count bits 11:0 and latches bits 35:12 for the reader. (R118) -/
  | tcapNow0Read (r : Requester) (dt : Nat)
  /-- A read of the wheel count low word latches the high word. (R505) -/
  | tcapWcnt0Read (r : Requester)
  /-- A read of the wheel period low word latches the high word. (R506) -/
  | tcapWper0Read (r : Requester) (dt : Nat)
  /-- A read of the hall period low word latches the high word. (R506) -/
  | tcapHper0Read (r : Requester) (dt : Nat)
  /-- A read returns the hall error count and clears it. (R507) -/
  | tcapHerrRead (r : Requester)
  /-- A read of the counter low word latches the high word for the reader. (R487) -/
  | pwmCnt0Read (r : Requester) (cnt : BitVec 14)
  /-- A read returns the chopped-period count and clears it. (R494) -/
  | pwmChopsRead (r : Requester)
  /-- An enabled comparator passes its threshold and filter and sets the Teasel latch. (R510) -/
  | comparatorActive (n : Fin 4) (e : StoreEnv)
  /-- A comparator's input falls back past its hysteresis and its cause ends. (R510) -/
  | comparatorInactive (n : Fin 4)
  /-- FAULT_N goes low through its filter and sets the Teasel latch. (R511) -/
  | faultNActive (e : StoreEnv)
  /-- FAULT_N rises and its cause ends. (R511) -/
  | faultNRelease
  /-- Key 0xC1A requests a latch clear, granted only when no cause, the re-arm interval and the lock allow it. (R516) -/
  | tslClrClear (core : Fin 4)
  /-- Key 0x5F0 sets the latch with cause bit 5. (R520) -/
  | tslSoftwareTrip
  /-- Any other TSL_CLR value sets TSL_CLRST to 7 and nothing else. (R520) -/
  | tslBadKey
  /-- The re-arm interval of 7 LFO periods ends. (R517) -/
  | rearmExpiry
  /-- 10 s after the last activation, LOCK falls. (R518) -/
  | lockExpiry
  /-- Under low-side-on, the Teasel dead time D ends and the low-side outputs rise. (R514) -/
  | lowSideDeadTime
  /-- The low-side-on dwell limit ends and all-off holds. (R514) -/
  | dwellExpiry
  /-- No MCLK edge for 100 ns sets the latch with cause bit 8. (R532) -/
  | mclkLoss
  /-- A column falls below 75 % in idle and scanning starts. (R549) -/
  | keyColumnFall
  /-- Every 256 LFX periods the matrix is scanned and keys are debounced. (R549) -/
  | keyScan (r : Vector KeyReading 16) (e : StartEnv)
  /-- A key held past the hold limit is reported released and STUCK is set. (R553) -/
  | keyHoldLimit (n : Fin 16)
  /-- A read pops the head key entry. (R554) -/
  | celKeyRead (r : Requester)
  /-- A read of KDOWN0 latches KDOWN1. (R554) -/
  | celKdown0Read (r : Requester)
  /-- At each frame start the source, force and indicator patterns are combined and a pending commit is applied. (R560) -/
  | lcdFrameStart
  /-- A COMMIT marks the working buffer for copying at the next frame start. (R575) -/
  | lcdCommit
  /-- Every 125 ms each enabled loop is measured and binned, and a confirmed bin change sets its state. (R563) -/
  | sealMeasure (n : Fin 2) (bin : BitVec 4) (e : StartEnv)
  /-- The Steward writes a loop's expected bin or enable and its state is recomputed. (R568) -/
  | celSealWrite (n : Fin 2) (v : Word)
  /-- SHOCK_N held low for 61 µs counts a shock and wakes the device outside the hold-off. (R569) -/
  | shockDetect (e : StartEnv)
  /-- A falling edge of HCS_N or HRXD in AO wakes the device. (R573) -/
  | hostWakeEdge (hrxd : Bool) (e : StartEnv)
  /-- A read returns the wake bits set since the previous read and clears them. (R572) -/
  | celWakeRead
  /-- A read returns the seal-opening record and clears it. (R566) -/
  | celSopenRead
  /-- A read returns the shock count and clears it. (R569) -/
  | celShkRead
  /-- The Steward stages wall or ledger time, applied whole at the next time-base edge after the last word. (R543) -/
  | celTimeWrite (wall : Bool) (k : Fin 7) (v : Word)
  /-- A read of CEL_WT0 or CEL_LT0 latches the other words of that counter. (R543) -/
  | celTimeRead (wall : Bool)
  /-- A write to a register without a row of its own sets fields by their access codes and ignores invalid encodings. (R18) -/
  | registerWrite (r : Requester) (addr : Word) (v : Word) (e : AccessEnv)
  /-- rd ← ra + rb with flags. (R663) -/
  | opAdd (d : Delivery) (rd ra rb : Fin 32)
  /-- rd ← ra + rb + C with flags. (R663) -/
  | opAdc (d : Delivery) (rd ra rb : Fin 32)
  /-- rd ← ra − rb with flags. (R663) -/
  | opSub (d : Delivery) (rd ra rb : Fin 32)
  /-- rd ← ra − rb − (1 − C) with flags. (R663) -/
  | opSbc (d : Delivery) (rd ra rb : Fin 32)
  /-- Bitwise AND. (R663) -/
  | opAnd (d : Delivery) (rd ra rb : Fin 32)
  /-- Bitwise OR. (R663) -/
  | opOr (d : Delivery) (rd ra rb : Fin 32)
  /-- Bitwise exclusive OR. (R663) -/
  | opXor (d : Delivery) (rd ra rb : Fin 32)
  /-- ra AND NOT rb. (R663) -/
  | opAndn (d : Delivery) (rd ra rb : Fin 32)
  /-- Left shift by rb[4:0]. (R664) -/
  | opShl (d : Delivery) (rd ra rb : Fin 32)
  /-- Logical right shift by rb[4:0]. (R664) -/
  | opShr (d : Delivery) (rd ra rb : Fin 32)
  /-- Arithmetic right shift by rb[4:0]. (R664) -/
  | opSar (d : Delivery) (rd ra rb : Fin 32)
  /-- Sets flags from ra − rb. (R663) -/
  | opCmp (d : Delivery) (rd ra rb : Fin 32)
  /-- 24-bit pair addition. (R663) -/
  | opAddp (d : Delivery) (rd ra rb : Fin 32)
  /-- 24-bit pair subtraction. (R663) -/
  | opSubp (d : Delivery) (rd ra rb : Fin 32)
  /-- Reads a special register into rd. (R665) -/
  | opMfs (d : Delivery) (rd ra rb : Fin 32)
  /-- Writes a special register, serialising for CTL, ESTAT and TVB. (R665) -/
  | opMts (d : Delivery) (rd ra rb : Fin 32)
  /-- Loads an immediate into a word, or into a pair with X. (R663) -/
  | opLdi (d : Delivery) (rd : Fin 32) (imm : Word)
  /-- Adds an immediate. (R663) -/
  | opAddi (d : Delivery) (rd : Fin 32) (imm : Word)
  /-- ANDs with an immediate. (R663) -/
  | opAndi (d : Delivery) (rd : Fin 32) (imm : Word)
  /-- Compares with an immediate. (R663) -/
  | opCmpi (d : Delivery) (rd : Fin 32) (imm : Word)
  /-- Signed 12×12 multiply to a pair. (R666) -/
  | opMuls (d : Delivery) (rd ra rb : Fin 32)
  /-- Unsigned 12×12 multiply to a pair. (R666) -/
  | opMulu (d : Delivery) (rd ra rb : Fin 32)
  /-- Low 12 bits of a product, with V on signed overflow. (R666) -/
  | opMull (d : Delivery) (rd ra rb : Fin 32)
  /-- acc += signed product. (R667) -/
  | opMacs (d : Delivery) (rd ra rb : Fin 32)
  /-- acc += unsigned product. (R667) -/
  | opMacu (d : Delivery) (rd ra rb : Fin 32)
  /-- acc −= signed product. (R667) -/
  | opMsus (d : Delivery) (rd ra rb : Fin 32)
  /-- Signed division with the edge results of Table Ops-7. (R669) -/
  | opDivs (d : Delivery) (rd ra rb : Fin 32)
  /-- Unsigned division. (R669) -/
  | opDivu (d : Delivery) (rd ra rb : Fin 32)
  /-- Signed remainder. (R668) -/
  | opRems (d : Delivery) (rd ra rb : Fin 32)
  /-- Unsigned remainder. (R669) -/
  | opRemu (d : Delivery) (rd ra rb : Fin 32)
  /-- Signed pair-by-word division. (R669) -/
  | opDivps (d : Delivery) (rd ra rb : Fin 32)
  /-- Unsigned pair-by-word division. (R669) -/
  | opDivpu (d : Delivery) (rd ra rb : Fin 32)
  /-- Reads acc shifted and saturated into a pair. (R667) -/
  | opAccrd (d : Delivery) (rd ra rb : Fin 32)
  /-- Writes acc from a sign-extended pair. (R666) -/
  | opAccw (d : Delivery) (rd ra rb : Fin 32)
  /-- Reads acc bits 35:24. (R666) -/
  | opAcch (d : Delivery) (rd ra rb : Fin 32)
  /-- Clears acc. (R666) -/
  | opAccz (d : Delivery) (rd ra rb : Fin 32)
  /-- Multiplies by an immediate. (R666) -/
  | opMuli (d : Delivery) (rd : Fin 32) (imm : Word)
  /-- acc += rd × immediate. (R666) -/
  | opMaci (d : Delivery) (rd : Fin 32) (imm : Word)
  /-- Loads a word from the data space. (R673) -/
  | opLdw (d : Delivery) (rd : Fin 32) (pb : Fin 16) (disp : BitVec 7) (e : AccessEnv)
  /-- Loads a pair from an even address. (R673) -/
  | opLdp (d : Delivery) (rd : Fin 32) (pb : Fin 16) (disp : BitVec 7) (e : AccessEnv)
  /-- Stores a word, released when no longer speculative. (R673) -/
  | opStw (d : Delivery) (rd : Fin 32) (pb : Fin 16) (disp : BitVec 7)
  /-- Stores a pair to an even address. (R673) -/
  | opStp (d : Delivery) (rd : Fin 32) (pb : Fin 16) (disp : BitVec 7)
  /-- Loads through pb and then increments pb. (R673) -/
  | opLdwi (d : Delivery) (rd : Fin 32) (pb : Fin 16) (disp : BitVec 7) (e : AccessEnv)
  /-- Stores through pb and then increments pb. (R673) -/
  | opStwi (d : Delivery) (rd : Fin 32) (pb : Fin 16) (disp : BitVec 7)
  /-- Dual-fetch multiply-accumulate that advances both pointers. (R674) -/
  | opMacp (d : Delivery) (rd : Fin 32) (pb : Fin 16) (disp : BitVec 7) (e : AccessEnv)
  /-- Orders the core's earlier memory and I/O accesses before its later ones. (R787) -/
  | opFence (d : Delivery) (pb : Fin 16) (disp : BitVec 7)
  /-- Invalidates one I-cache line and refetches. (R794) -/
  | opIcinv (d : Delivery) (pb : Fin 16) (disp : BitVec 7)
  /-- Invalidates the whole I-cache. (R794) -/
  | opIcinva (d : Delivery) (pb : Fin 16) (disp : BitVec 7)
  /-- Writes back a dirty data-cache line and keeps it. (R676) -/
  | opDcwb (d : Delivery) (pb : Fin 16) (disp : BitVec 7)
  /-- Writes back and invalidates a data-cache line. (R676) -/
  | opDcwbi (d : Delivery) (pb : Fin 16) (disp : BitVec 7)
  /-- Reads an I/O word of a reachable block. (R677) -/
  | opIn (d : Delivery) (rd : Fin 32) (addr : Word) (e : AccessEnv)
  /-- Writes an I/O word of a reachable block. (R677) -/
  | opOut (d : Delivery) (rd : Fin 32) (addr : Word) (e : AccessEnv)
  /-- Unconditional branch. (R678) -/
  | opBr (d : Delivery) (sel : Fin 16) (disp : Word)
  /-- Conditional branch on FL. (R681) -/
  | opBc (d : Delivery) (sel : Fin 16) (disp : Word)
  /-- Decrements k and branches while it is not zero. (R683) -/
  | opDbnz (d : Delivery) (sel : Fin 16) (disp : Word)
  /-- Branches and writes the link pair. (R678) -/
  | opCall (d : Delivery) (sel : Fin 16) (disp : Word)
  /-- Branches to a pair value. (R680) -/
  | opJr (d : Delivery) (sel : Fin 16) (disp : Word)
  /-- Conditional branch to a pair value. (R680) -/
  | opBcr (d : Delivery) (sel : Fin 16) (disp : Word)
  /-- Calls a pair value, writing the link. (R680) -/
  | opCallr (d : Delivery) (sel : Fin 16) (disp : Word)
  /-- Copies ESTAT into CTL and resumes at EPC. (R616) -/
  | opRet (d : Delivery) (sel : Fin 16) (disp : Word)
  /-- Sets a loop counter. (R678) -/
  | opKset (d : Delivery) (sel : Fin 16) (disp : Word)
  /-- Reads a loop counter into a pair. (R678) -/
  | opKget (d : Delivery) (sel : Fin 16) (disp : Word)
  /-- Issues nothing further until an enabled interrupt source requests. (R682) -/
  | opWait (d : Delivery) (sel : Fin 16) (disp : Word)
  /-- An enabled source requests during WAIT, and issue resumes or an interrupt is taken. (R682) -/
  | waitResume (core : Fin 4)
  /-- Traps with vector 11. (R678) -/
  | opBrk (d : Delivery) (sel : Fin 16) (disp : Word)
  /-- Traps with vector 12. (R678) -/
  | opTrap (d : Delivery) (sel : Fin 16) (disp : Word)
  /-- A returned result completes once no older operation can trap or be squashed, and frees its tag. (R609) -/
  | resultComplete (core : Fin 4) (tag : Nat)
  /-- A branch resolves as mispredicted; later operations are squashed and cancel tokens are sent. (R613) -/
  | branchMispredict (core : Fin 4)
  /-- The bundle holding a trap cause becomes oldest and the core enters the trap vector. (R614) -/
  | trapEntry (core : Fin 4) (fetch : Bool)
  /-- An enabled pending source is taken once the core drains to a boundary. (R619) -/
  | interruptEntry (core : Fin 4)
  /-- A coprocessor receives a cancel token and drops, aborts or finishes the operation, returning it stale. (R756) -/
  | cancelToken (cop : Machine.Coproc) (core : Fin 4) (tag : Nat) (abort : Bool)
  /-- A coprocessor operation ends and returns its result and tag to the dispatcher. (R749) -/
  | coproResultReturn (cop : Machine.Coproc) (core : Fin 4) (tag : Nat) (failed took : Bool)
  /-- A core rings the doorbells of the named cores. (R618) -/
  | grtDbellWrite (core : Fin 4) (v : Word)
  /-- A read returns the ringing cores and clears the field. (R618) -/
  | grtDbsrcRead (core : Fin 4)
  /-- Returns the decimal context. (R717) -/
  | opDstat (d : Delivery) (pd pa pb : Fin 16)
  /-- Sets the decimal context, or sets ERR when refused. (R716) -/
  | opDset (d : Delivery) (pd pa pb : Fin 16)
  /-- DS addition. (R718) -/
  | opDadds (d : Delivery) (pd pa pb : Fin 16)
  /-- DS subtraction. (R718) -/
  | opDsubs (d : Delivery) (pd pa pb : Fin 16)
  /-- DS multiplication. (R718) -/
  | opDmuls (d : Delivery) (pd pa pb : Fin 16)
  /-- DS division, with the division-by-zero rules. (R730) -/
  | opDdivs (d : Delivery) (pd pa pb : Fin 16)
  /-- DS compare, possibly unordered. (R721) -/
  | opDcmps (d : Delivery) (pd pa pb : Fin 16)
  /-- Rounds a DS value to SD. (R718) -/
  | opDrnds (d : Delivery) (pd pa pb : Fin 16)
  /-- Negates a DS value. (R720) -/
  | opDnegs (d : Delivery) (pd pa pb : Fin 16)
  /-- Absolute value of a DS value. (R720) -/
  | opDabss (d : Delivery) (pd pa pb : Fin 16)
  /-- DL addition. (R718) -/
  | opDaddl (d : Delivery) (pd pa pb : Fin 16)
  /-- DL subtraction. (R718) -/
  | opDsubl (d : Delivery) (pd pa pb : Fin 16)
  /-- DL multiplication. (R718) -/
  | opDmull (d : Delivery) (pd pa pb : Fin 16)
  /-- DL division. (R730) -/
  | opDdivl (d : Delivery) (pd pa pb : Fin 16)
  /-- DL compare. (R721) -/
  | opDcmpl (d : Delivery) (pd pa pb : Fin 16)
  /-- Rounds a DL value. (R718) -/
  | opDrndl (d : Delivery) (pd pa pb : Fin 16)
  /-- Negates a DL value. (R720) -/
  | opDnegl (d : Delivery) (pd pa pb : Fin 16)
  /-- Absolute value of a DL value. (R720) -/
  | opDabsl (d : Delivery) (pd pa pb : Fin 16)
  /-- Converts DS to DL. (R722) -/
  | opDwiden (d : Delivery) (pd pa pb : Fin 16)
  /-- Converts DL to DS. (R722) -/
  | opDnarrow (d : Delivery) (pd pa pb : Fin 16)
  /-- Converts a binary integer to DS. (R723) -/
  | opDfromb (d : Delivery) (pd pa pb : Fin 16)
  /-- Converts DS to a saturated binary integer. (R723) -/
  | opDtob (d : Delivery) (pd pa pb : Fin 16)
  /-- Makes a class-0xA NaN from a pair. (R724) -/
  | opDnan (d : Delivery) (pd pa pb : Fin 16)
  /-- Classifies a DS or DL operand. (R724) -/
  | opDcls (d : Delivery) (pd pa pb : Fin 16)
  /-- Clarke transform. (R691) -/
  | opClarke (d : Delivery) (pd pa pb : Fin 16)
  /-- Sine and cosine of an angle. (R690) -/
  | opSincos (d : Delivery) (pd pa pb : Fin 16)
  /-- Park transform. (R691) -/
  | opPark (d : Delivery) (pd pa pb : Fin 16)
  /-- Inverse Park transform. (R691) -/
  | opIpark (d : Delivery) (pd pa pb : Fin 16)
  /-- Sets a PI channel's gains and limits. (R692) -/
  | opPiset (d : Delivery) (pd pa pb : Fin 16)
  /-- Clears a PI channel's integrator. (R692) -/
  | opPirst (d : Delivery) (pd pa pb : Fin 16)
  /-- Runs one PI step. (R692) -/
  | opPistep (d : Delivery) (pd pa pb : Fin 16)
  /-- Returns crypto context status and clears ERR. (R694) -/
  | opCstat (d : Delivery) (pd pa pb : Fin 16)
  /-- Returns 24 bits from the TRNG. (R694) -/
  | opRng (d : Delivery) (pd pa pb : Fin 16) (e : AccessEnv)
  /-- Loads an AES key. (R694) -/
  | opKeyld (d : Delivery) (pd pa pb : Fin 16)
  /-- Loads the IV or counter block. (R694) -/
  | opIvld (d : Delivery) (pd pa pb : Fin 16)
  /-- ECB encryption. (R694) -/
  | opAese (d : Delivery) (pd pa pb : Fin 16)
  /-- ECB decryption. (R694) -/
  | opAesd (d : Delivery) (pd pa pb : Fin 16)
  /-- CBC encryption. (R694) -/
  | opCbce (d : Delivery) (pd pa pb : Fin 16)
  /-- CBC decryption. (R694) -/
  | opCbcd (d : Delivery) (pd pa pb : Fin 16)
  /-- CTR-mode transform. (R694) -/
  | opCtr (d : Delivery) (pd pa pb : Fin 16)
  /-- Starts GCM and feeds additional data. (R694) -/
  | opGcma (d : Delivery) (pd pa pb : Fin 16)
  /-- GCM encryption. (R694) -/
  | opGcme (d : Delivery) (pd pa pb : Fin 16)
  /-- GCM decryption. (R694) -/
  | opGcmd (d : Delivery) (pd pa pb : Fin 16)
  /-- Outputs the GCM tag and ends GCM. (R694) -/
  | opGcmt (d : Delivery) (pd pa pb : Fin 16)
  /-- Computes an AES-CMAC. (R694) -/
  | opCmac (d : Delivery) (pd pa pb : Fin 16)
  /-- Starts SHA-256 or HMAC. (R694) -/
  | opShai (d : Delivery) (pd pa pb : Fin 16)
  /-- Feeds SHA data. (R694) -/
  | opShau (d : Delivery) (pd pa pb : Fin 16)
  /-- Outputs the digest and ends SHA. (R694) -/
  | opShaf (d : Delivery) (pd pa pb : Fin 16)
  /-- Verifies an ECDSA P-256 signature. (R694) -/
  | opEcver (d : Delivery) (pd pa pb : Fin 16)
  /-- Generates an ephemeral key pair. (R694) -/
  | opEcgen (d : Delivery) (pd pa pb : Fin 16)
  /-- Computes an ECDH shared secret and erases the secret key. (R694) -/
  | opEcdh (d : Delivery) (pd pa pb : Fin 16)
  /-- GO checks the extent and starts the transfer, or sets DONE with ERR. (R631) -/
  | dmaGo (ch : Fin 32) (v : Word)
  /-- The home acknowledges a line access; the next is issued or the transfer ends. (R630) -/
  | dmaLineDone (ch : Fin 32) (ec : BitVec 2) (tileErr : Bool)
  /-- A read of REM0 latches REM1 for the reader. (R630) -/
  | dmaRem0Read (ch : Fin 32)
  /-- The mode is set after a bit-timing check, or BADCFG is set. (R635) -/
  | canbCtlWrite (v : Word)
  /-- Appends an octet to the staged frame. (R634) -/
  | canbTxdataWrite (v : Word)
  /-- Commits the staged frame to a transmit buffer, or sets BADWR if it is pending. (R636) -/
  | canbTxqCommit (buf : Fin 3)
  /-- BUF 3 discards the staged frame. (R634) -/
  | canbTxqDiscard
  /-- Aborts pending transmit buffers. (R636) -/
  | canbTxabtWrite (m : BitVec 3) (onBus : Option (Fin 3))
  /-- Pops the head received frame into the RX registers. (R634) -/
  | canbRxpopWrite
  /-- A frame matching a filter is stored, or discarded with RXOVF. (R636) -/
  | canbFrameReceived (f : CanFrame)
  /-- A pending frame is sent and DONE is set. (R636) -/
  | canbFrameSent (buf : Fin 3) (sent : Bool) (lec : BitVec 3)
  /-- CAN-B goes bus-off and MODE returns to 0. (R637) -/
  | canbBusOff
  /-- Command 1 runs a transfer ending in STOP. (R638) -/
  | i2cTransferStop
  /-- Command 2 runs a transfer and holds the bus for a repeated START. (R638) -/
  | i2cTransferHold
  /-- A transfer ends and sets DONE and RES. (R638) -/
  | i2cTransferDone (res : Fin 8) (n : Nat) (got : List Octet)
  /-- No command arrives 25 ms after command 2 and a STOP is sent. (R638) -/
  | i2cHoldTimeout
  /-- SCL is held low 25 ms by a target and the transfer ends with a bus timeout. (R970) -/
  | i2cStretchTimeout
  /-- Appends an octet to the transmit FIFO, or sets BADWR when it is full. (R638) -/
  | i2cTxdWrite (v : Word)
  /-- Pops the receive FIFO. (R638) -/
  | i2cRxdRead
  /-- Starts a sensor SPI transaction, or sets BADWR. (R639) -/
  | sspiGo
  /-- A transaction ends, raises the chip select and sets DONE. (R639) -/
  | sspiDone (got : List Octet)
  /-- Appends an octet to the transmit FIFO. (R639) -/
  | sspiTxdWrite (v : Word)
  /-- Pops the receive FIFO. (R639) -/
  | sspiRxdRead
  /-- A UART octet enters the receive FIFO, or is discarded with RXOVF. (R640) -/
  | gnssOctetReceived (o : Octet) (ferr : Bool)
  /-- A PPS edge is captured on TCAP_NOW, setting PPSNEW or PPSMISS. (R640) -/
  | gnssPpsEdge (dt : Nat)
  /-- Appends an octet to the transmit FIFO, or sets BADWR. (R640) -/
  | gnssTxdWrite (left : Nat) (v : Word)
  /-- Pops the receive FIFO. (R640) -/
  | gnssRxdRead (r : Requester)
  /-- A read of PPS0 latches PPS1 and PPS2. (R640) -/
  | gnssPps0Read (r : Requester)
  /-- An enabled input edge sets its IFLG bit. (R641) -/
  | gpioInputEdge (n : Fin 40) (level : Bool)
  /-- A GPIO PWM period ends and the shadows take effect. (R641) -/
  | gpioPwmPeriodEnd
  /-- Moves a staged period or high time into the shadow, or sets BADWR. (R641) -/
  | gpioPwmWord1Write (n : Fin 9) (v : Word)
  /-- 0x3C7 begins a keyed unlock; any other value abandons with result 2. (R837) -/
  | fctlKeyaWrite (r : Fin 5) (v : Word)
  /-- 0xC38 directly after KEYA completes the unlock. (R837) -/
  | fctlKeybWrite (r : Fin 5) (v : Word)
  /-- Sets the keyed command code, or abandons the assembly. (R859) -/
  | fctlCmdWrite (r : Fin 5) (v : Word)
  /-- Sets the address; the ADDR1 write launches erase, suspend, resume or INFO. (R837) -/
  | fctlAddrWrite (r : Fin 5) (high : Bool) (v : Word)
  /-- Appends to the page buffer; the 256th write launches a program. (R837) -/
  | fctlDataWrite (r : Fin 5) (v : Word)
  /-- Pops the INFO queue. (R839) -/
  | fctlDataRead (r : Fin 5)
  /-- Returns the highest direct-read error count and clears it. (R824) -/
  | fctlEcntRead (r : Fin 5)
  /-- A read of EADDR0 latches EADDR1. (R824) -/
  | fctlEaddr0Read (r : Fin 5)
  /-- Sets the warning threshold, or sets BADWR for 0 or 3. (R859) -/
  | fctlEcthWrite (r : Fin 5) (v : Word)
  /-- A store in the flash window advances or abandons a sequence-mode command. (R835) -/
  | sequenceModeStore (r : Fin 5) (a : Pair) (v : Word)
  /-- A page program is launched and queued for its bank. (R828) -/
  | fctlProgram (r : Fin 5) (a : Pair) (data : List Word)
  /-- A block erase is launched and queued. (R830) -/
  | fctlErase (r : Fin 5) (a : Pair)
  /-- Suspends a running erase within 25 µs, or ends with result 10. (R841) -/
  | fctlSuspend (r : Fin 5) (a : Pair) (early : Bool)
  /-- Resumes a suspended erase with a fresh step. (R843) -/
  | fctlResume (r : Fin 5) (a : Pair)
  /-- Queues erase-counter, flag, calibration or metadata words. (R839) -/
  | fctlInfo (r : Fin 5) (a : Pair)
  /-- Clears the assembly without SEQERR. (R835) -/
  | fctlAbandon (r : Fin 5)
  /-- A queued program or erase starts when its bank is free, prechecks first. (R832) -/
  | flashCommandStart (bank : Fin 2)
  /-- A page program ends with result 1 and DONE is set. (R829) -/
  | programPulsesDone (bank : Fin 2) (readBack : Bool)
  /-- An erase pulse and verify of 205 µs ends; the block verifies, continues or fails at 430 steps. (R830) -/
  | eraseStepDone (bank : Fin 2) (verified blankOk : Bool)
  /-- A core's suspend deferred to 250 µs after the resume takes effect. (R844) -/
  | suspendDeferralExpiry (bank : Fin 2)
  /-- NRB_N rises after a NAND operation; its status is read and the records are confirmed or the block retired. (R880) -/
  | nandReady (target : Fin 2) (fail : Bool)
  /-- NRB_N does not rise in twice the maximum time; the operation fails and RESET is issued. (R880) -/
  | nandTimeout (target : Fin 2)
  /-- 60 s after its first record, the assembled page is programmed. (R895) -/
  | journalPageTimer
  /-- Every 600 s at T1 or above, a snapshot record enters the tail. (R894) -/
  | snapshotTimer
  /-- A paced patrol read checks a page and may relocate its block. (R901) -/
  | patrolRead (block page : Nat) (sectors lost : List Nat) (unknown : Option Nat)
  /-- Mount finds the write point and enters Ready, Foreign or adoption. (R904) -/
  | journalMountComplete (f : Machine.MountFound)
  /-- Returns the identity, stepping, versions and levels. (R2) -/
  | identity (q : CmdReq)
  /-- Returns the status payload of Table Cmd-4. (R59) -/
  | status (q : CmdReq)
  /-- Sets the Steward's VCORE request. (R88) -/
  | oppoint (q : CmdReq)
  /-- Changes the host UART bit rate. (R259) -/
  | rate (q : CmdReq)
  /-- Masks event classes on this transport. (R293) -/
  | evmask (q : CmdReq)
  /-- Causes a warm reset after the response. (R928) -/
  | reset (q : CmdReq) (nandFail : Vector Bool 2) (e : StartEnv)
  /-- Orderly power-down to AO. (R150) -/
  | release (q : CmdReq) (nandFail : Vector Bool 2)
  /-- Assembles parts of an edition record, verifies it and stages it. (R321) -/
  | stageEdition (q : CmdReq) (w : StoreWrite)
  /-- Empties a domain's Staged slot. (R331) -/
  | discardStaged (q : CmdReq) (w : StoreWrite)
  /-- Returns the slot numbers and probation state. (R325) -/
  | slots (q : CmdReq)
  /-- Commits staged editions and images under C1 and starts a probation. (R331) -/
  | commit (q : CmdReq) (e : StoreEnv)
  /-- Rolls named domains back to Previous under C1. (R337) -/
  | rollback (q : CmdReq) (e : StoreEnv)
  /-- Ends a running probation as a success. (R337) -/
  | accept (q : CmdReq) (w : StoreWrite)
  /-- Makes the effective Previous the Current after a material divergence. (R343) -/
  | confirmPrevious (q : CmdReq) (w : StoreWrite)
  /-- Closes the presence window. (R313) -/
  | windowClose (q : CmdReq)
  /-- Operation 0 provisions every operator key and draws a new sealing key. (R348) -/
  | keysProvision (q : CmdReq)
  /-- Operation 1 replaces the configuration key, signed by the old key. (R348) -/
  | keysReplaceConfig (q : CmdReq)
  /-- Operation 2 replaces the image key, signed by the old key. (R348) -/
  | keysReplaceImage (q : CmdReq)
  /-- Changes the lifecycle state along the permitted paths under C2. (R233) -/
  | lifecycle (q : CmdReq) (w : RingWrite) (e : StoreEnv)
  /-- Unlocks debug in Fielded until the next power-on reset. (R350) -/
  | debugUnlock (q : CmdReq)
  /-- Returns the public keys, certificate and key presence. (R347) -/
  | readKeys (q : CmdReq)
  /-- Decides a set-time by Table Ledger-2 and steps wall time. (R371) -/
  | setTime (q : CmdReq) (dt : Nat) (w : RingWrite)
  /-- Opens a ride after the refusal checks. (R378) -/
  | rideOpen (q : CmdReq) (w : RingWrite)
  /-- Closes the open ride, prices it and journals the record. (R384) -/
  | rideClose (q : CmdReq) (w : RingWrite) (e : StoreEnv)
  /-- Returns the open ride's running figures. (R384) -/
  | rideStatus (q : CmdReq)
  /-- Returns a stored ride record. (R385) -/
  | rideRead (q : CmdReq) (f : FlashFacts)
  /-- Returns a sealed period record. (R390) -/
  | periodRead (q : CmdReq) (f : FlashFacts)
  /-- Acknowledges sealed periods up to an index. (R395) -/
  | ack (q : CmdReq)
  /-- Sets a new ledger epoch under C2. (R397) -/
  | epoch (q : CmdReq) (w : RingWrite)
  /-- Exports the wrapped sealing key in Provisioned. (R398) -/
  | keyExport (q : CmdReq)
  /-- Returns the ledger clocks, period and ring state. (R393) -/
  | ledgerStatus (q : CmdReq)
  /-- Returns the Concord status payload. (R452) -/
  | concordStatus (q : CmdReq)
  /-- The dock's host enables or withdraws presence for a vehicle. (R461) -/
  | presence (q : CmdReq)
  /-- Relays an edition record to a member by parts. (R453) -/
  | relay (q : CmdReq)
  /-- Returns Teasel, supervisor and capture state. (R934) -/
  | motorStatus (q : CmdReq)
  /-- The host requests a Teasel latch clear. (R516) -/
  | teaselClear (q : CmdReq)
  /-- The host sets the latch with cause bit 5. (R520) -/
  | teaselTrip (q : CmdReq)
  /-- Discards the staged image of a kind and erases its target. (R935) -/
  | imageBegin (q : CmdReq) (w : StoreWrite) (eraseOk : Bool)
  /-- Receives an image part, programming and verifying full pages. (R925) -/
  | imageData (q : CmdReq) (progOk : Bool)
  /-- Verifies and stages the received image. (R623) -/
  | imageEnd (q : CmdReq)
  /-- Returns image, Zheyr set and swap state. (R855) -/
  | imageStatus (q : CmdReq)
  /-- Returns erase counts and flags of blocks. (R850) -/
  | flashInfo (q : CmdReq)
  /-- Returns the journal state and counters. (R903) -/
  | journalStatus (q : CmdReq)
  /-- Streams selected records over up to 64 frames. (R936) -/
  | journalRead (q : CmdReq)
  /-- Enters a host-note record into the tail. (R894) -/
  | note (q : CmdReq)
  /-- Adopts a foreign NAND by erasing it. (R903) -/
  | adopt (q : CmdReq)
  /-- Programs the assembled journal page now. (R895) -/
  | flush (q : CmdReq)
  /-- Returns Celandine's clocks, seals, presence and wake state. (R937) -/
  | celStatus (q : CmdReq)
  /-- Returns the display source and shown pattern. (R560) -/
  | displayRead (q : CmdReq)
  /-- Sets the shock wake hold-off. (R569) -/
  | shockHold (q : CmdReq)
  /-- Sets the per-key wake enables. (R555) -/
  | keyWake (q : CmdReq)
  /-- Returns each core's state, watchdog cause and last double trap. (R617) -/
  | coreStatus (q : CmdReq)
  /-- The host resets a running core. (R199) -/
  | coreReset (q : CmdReq)
  /-- Returns the self-test record. (R213) -/
  | selftestRead (q : CmdReq)
  /-- Re-tests failed units and may raise the tier. (R222) -/
  | selftestRun (q : CmdReq) (failing : List UnitId) (e : StoreEnv)
  /-- Returns the newest Beacon-failure record. (R215) -/
  | beaconRecord (q : CmdReq)
  /-- Selects boundary scan driving the balls. (R979) -/
  | tapExtest (levels : List Bool) (update : Option (List Bool))
  /-- Selects the 32-bit IDCODE register. (R979) -/
  | tapIdcode
  /-- Samples or preloads the boundary-scan register. (R979) -/
  | tapSamplePreload (levels : List Bool) (update : Option (List Bool))
  /-- Drives outputs from the boundary-scan register with bypass. (R979) -/
  | tapClamp
  /-- Puts every output in high impedance. (R979) -/
  | tapHighz
  /-- Selects the 1-bit bypass register, as do unnamed and unavailable codes. (R979) -/
  | tapBypass
  /-- Captures the lifecycle, debug availability and core states. (R981) -/
  | dbgstat
  /-- CORECTL halt request stops a core at a bundle boundary. (R982) -/
  | coreHalt (cores : BitVec 4)
  /-- CORECTL resume continues issue at PC. (R982) -/
  | coreResume (cores : BitVec 4)
  /-- CORECTL issues one bundle and halts again. (R982) -/
  | coreSingleStep (cores : BitVec 4) (e : AccessEnv)
  /-- Reads or writes a register of a halted core. (R983) -/
  | coreregAccess (core : Fin 4) (sel : BitVec 7) (write : Bool) (v : Pair)
  /-- Sets the debug memory address and auto-increment. (R984) -/
  | memaddrUpdate (addr : Pair) (core : Fin 4) (inc : Bool)
  /-- Reads the word pair at the debug address. (R984) -/
  | memdataCapture (ec : BitVec 2)
  /-- Writes the word pair at the debug address. (R984) -/
  | memdataWrite (write : Bool) (v : Pair)
  /-- Causes a warm reset while debug is available. (R985) -/
  | jreset (e : StartEnv)
  /-- Sets the trace rate and per-core enables. (R986) -/
  | tracectlUpdate (v : Word)
  /-- VDDA falls below 2.80 V, the Teasel rail is no longer held, the VDDIO_B clamps hold all six gate outputs low, and TSL_ reads return the missing-unit fault. (R139) -/
  | teaselRailLoss
  /-- The Teasel rail returns, and the latch is found set with cause bit 6 and TSL_ becomes readable again. (R536) -/
  | teaselRailReturn
  /-- VDDIO_A, VDDA or VDDIO_B rises past its rising threshold, or PFI_N goes high, and the 1 ms V33-good period starts or restarts. (R145) -/
  | supplyMonitorRise (x : SupplyCause)
  /-- The always-on rail switches, make-before-break, between VIN_AO and VDDIO_A as their order changes, and PMU_SUPPLY.AOSRC follows. (R137) -/
  | alwaysOnSourceSwitch (vddioA : Bool)
  /-- Each edge of the selected time base advances the wall and ledger fractions, carries into seconds, and applies a staged CEL_ time write. (R542) -/
  | timeBaseEdge
  /-- The stop bit of the last queued frame leaves HTXD, and HIRQ_N rises within 2 µs. (R281) -/
  | uartFrameSent
  /-- The USB host takes a queued frame in bulk IN transfers, consuming it from the USB transmit queue, or gets a NAK when none is queued. (R265) -/
  | usbInTransfer
  /-- The USB host configures or deconfigures the device, which starts or stops the queueing of events for USB. (R290) -/
  | usbConfiguration (on : Bool)
  /-- The ISO 11898-1 bus-off recovery of CAN-A or CAN-B completes, and CAN-A enters restricted operation under R416. (R478) -/
  | busOffRecoveryDone (canB : Bool)
  /-- A GetS, GetM or Upg reaches the home tile, which serves it or queues it by the line's directory state. (R773) -/
  | coherenceRequest (c : Machine.CacheId) (line : Nat) (f : HomeFault)
  /-- A PutM or PutE reaches the home, which accepts it, settles a crossing snoop, or queues it. (R773) -/
  | evictionNotice (c : Machine.CacheId) (line : Nat) (f : HomeFault)
  /-- An Inv, SnpS, SnpRd or SnpI reaches a data cache, which answers by its line state, including InFlight or SnpNone during an eviction. (R772) -/
  | snoopAtCache (c : Machine.CacheId) (line : Nat) (fails : Bool)
  /-- An InvAck, SnpData, SnpClean, InFlight or SnpNone reaches the home, which completes the waiting transaction or waits for the crossing notice. (R777) -/
  | snoopResponse (c : Machine.CacheId) (line : Nat)
  /-- A DataS, DataE, DataM or UpgAck reaches the requesting cache, which takes the line, completes its waiting accesses, and sends Done. (R772) -/
  | lineGrant (c : Machine.CacheId) (line : Nat)
  /-- Done reaches the home, which enters the final directory state and serves the next queued request for the line. (R771) -/
  | coherenceDone (c : Machine.CacheId) (line : Nat)
  /-- A PutAck reaches an evicting cache, which enters I and lets its waiting accesses or a core restart proceed. (R772) -/
  | putAck (c : Machine.CacheId) (line : Nat)
  /-- A DMA or crypto-engine line read or write reaches the home and is served by Table Flight-10, with snoops or invalidations where needed. (R781) -/
  | agentLineAccess (a : Machine.Agent) (line : Nat) (offset : Fin 16) (len : Nat) (put : Option (List Word)) (f : HomeFault)
  deriving DecidableEq, Repr

end Sys2Proof
end

