-- ==== Sys2Proof/Parts/Ledger.lean ====
section
/-! DEFINITION. The state of spec/07_ledger.md: the two clocks, the open ride, the open period, sealed records and
the ledger tail. -/
namespace Sys2Proof.Machine

/-- Ledger time and wall time, with the class (R363, R365, R367). Celandine holds them. -/
structure Clock where
  era : Nat
  /-- Ledger seconds, 40 bits. -/
  seconds : Nat
  /-- Ledger fraction, 15 bits. -/
  fraction : Nat
  /-- Wall seconds, 40 bits. -/
  wall : Nat
  /-- Wall fraction, 15 bits. -/
  wallFraction : Nat
  /-- The time-trust class, 0 to 4. -/
  cls : Nat
  deriving DecidableEq, Repr

/-- The counters after a Celandine cold start (R173). -/
def Clock.reset : Clock := { era := 0, seconds := 0, fraction := 0, wall := 0, wallFraction := 0, cls := 0 }

/-- Ledger time as a count of LFX periods within the era: the base for the intervals that the spec states in
seconds of ledger or LFO time. -/
def Clock.ticks (c : Clock) : Nat := c.seconds * 32768 + c.fraction

/-- A time block (Table Ledger-4). -/
structure TimeBlock where
  era : Nat
  seconds : Nat
  fraction : Nat
  wall : Nat
  cls : Nat
  tier : Nat
  cause : Nat
  deriving DecidableEq, Repr

/-- A segment's energy: a number in 0.01 Wh, or one of the two NaN classes of R381. -/
inductive Energy where
  | num (n : Nat)
  /-- Class 0xC: disputed. -/
  | disputed
  /-- Class 0xB: no report was received. -/
  | noData
  deriving DecidableEq, Repr

/-- A segment (Table Ledger-6); counters in 0.01 Wh. -/
structure Segment where
  bay : Nat
  /-- Member identity of the pack, 36 bits. -/
  pack : Nat
  disputed : Bool
  discontinuous : Bool
  aggregate : Bool
  /-- 0 open, 1 ride close, 2 removal or member loss, 3 always-on loss. -/
  endCause : Nat
  start : Option Nat
  last : Option Nat
  /-- Ledger seconds at its start. -/
  startSeconds : Nat
  /-- Whole ledger seconds, once ended. -/
  duration : Nat
  /-- Energy of the segments folded into it (R382). -/
  folded : Option Energy
  deriving DecidableEq, Repr

/-- The flags of a ride record (Table Ledger-5, word 5). -/
structure RideFlags where
  test : Bool
  disputed : Bool
  discontinuous : Bool
  tailLost : Bool
  retrograde : Bool
  speedwell : Bool
  tierFell : Bool
  aggregate : Bool
  noEnergy : Bool
  lfxLost : Bool
  timeOffset : Bool
  deriving DecidableEq, Repr

def RideFlags.none : RideFlags :=
  { test := false, disputed := false, discontinuous := false, tailLost := false, retrograde := false,
    speedwell := false, tierFell := false, aggregate := false, noEnergy := false, lfxLost := false,
    timeOffset := false }

/-- Word 5 of a ride record. -/
def RideFlags.word (f : RideFlags) : Nat :=
  boolsNat [f.test, f.disputed, f.discontinuous, f.tailLost, f.retrograde, f.speedwell, f.tierFell, f.aggregate,
    f.noEnergy, f.lfxLost, f.timeOffset]

/-- The open ride's running record. -/
structure OpenRide where
  number : Nat
  flags : RideFlags
  tariffEdition : Nat
  /-- The tariff payload in force when it opened (R377). -/
  tariff : List Word
  opened : TimeBlock
  /-- TCAP_ wheel-pulse count at its opening, 24 bits. -/
  wheel : Nat
  segments : List Segment
  /-- Concord time offset in seconds (R373). -/
  offset : Int
  /-- The close time block and the wheel pulses of a record in the course of closing (R393). -/
  closing : Option (TimeBlock × Nat)
  deriving DecidableEq, Repr

/-- The open period (R387, Table Ledger-8), with the totals of its rides. -/
structure OpenPeriod where
  index : Nat
  start : Nat
  stop : Nat
  retroCount : Nat
  retroLargest : Nat
  retroTotal : Nat
  rides : Nat
  disputed : Nat
  tests : Nat
  nanFares : Nat
  /-- Highest fare scale among its rides. -/
  scale : Nat
  /-- Fare total of rides other than test rides, at `scale`. -/
  fare : Nat
  /-- Fare total of test rides, at `scale`. -/
  testFare : Nat
  duration : Nat
  distance : Nat
  /-- Energy total in 0.01 Wh. -/
  energy : Nat
  firstRide : Nat
  lastRide : Nat
  lowEdition : Nat
  highEdition : Nat
  lfxLost : Bool
  deriving DecidableEq, Repr

/-- A period as it opens at wall time s, ending at e. -/
def OpenPeriod.fresh (index s e : Nat) (lfx : Bool) : OpenPeriod :=
  { index := index, start := s, stop := e, retroCount := 0, retroLargest := 0, retroTotal := 0, rides := 0,
    disputed := 0, tests := 0, nanFares := 0, scale := 0, fare := 0, testFare := 0, duration := 0, distance := 0,
    energy := 0, firstRide := 0, lastRide := 0, lowEdition := 0, highEdition := 0, lfxLost := lfx }

/-- What a close computes (R386): the charges and the total are DL coefficients at scale 13, none above 29 digits. -/
structure Fare where
  duration : Nat
  pulses : Nat
  distance : Nat
  /-- 0.01 Wh. -/
  energy : Nat
  time : Option Nat
  dist : Option Nat
  ener : Option Nat
  fare : Option Nat
  deriving DecidableEq, Repr

/-- A closed ride record in the ring (Table Ledger-5): its words are those of its page. -/
structure RideRecord where
  epoch : Nat
  number : Nat
  period : Nat
  /-- Page of the ring. -/
  page : Nat
  /-- What it records, from which the totals of the open period are computed again (R393). -/
  ride : OpenRide
  fare : Fare
  /-- The sealing key of its HMAC. -/
  key : Option Nat
  /-- The journal has confirmed its copy (R395). -/
  mirrored : Bool
  deriving DecidableEq, Repr

/-- A sealed period record in the ring (Table Ledger-8): its words are those of its page. -/
structure PeriodRecord where
  epoch : Nat
  index : Nat
  /-- Page of the ring. -/
  page : Nat
  /-- Its HMAC, 22 words, to which the next period chains. -/
  mac : List Word
  /-- The sealing key of its HMAC. -/
  key : Option Nat
  mirrored : Bool
  /-- Acknowledged by the host (R395). -/
  acked : Bool
  /-- Neither copy verifies (R409). -/
  lost : Bool
  deriving DecidableEq, Repr

/-- What a ledger tail carries (R393) beside the clocks: it is held in SRAM and written to flash. -/
structure LedgerTail where
  clock : Clock
  /-- Ledger seconds since the last accepted class-4 set-time (R368). -/
  class4Age : Nat
  /-- The wall-time high-water mark (R366). -/
  hwm : Nat
  ride : Option OpenRide
  /-- A pending setback: W′ and its amount (R372). -/
  setback : Option (Nat × Nat)
  period : Option OpenPeriod
  /-- Concord time offset, winner minus own (R373). -/
  offset : Int
  /-- Sequence number of the newest hold-up image written or replayed (R1014). -/
  imageSeq : Option Nat
  deriving DecidableEq, Repr

def LedgerTail.reset : LedgerTail :=
  { clock := Clock.reset, class4Age := 0, hwm := 0, ride := none, setback := none, period := none, offset := 0,
    imageSeq := none }

/-- A ledger tail in the ring (R392, R393). -/
structure RingTail where
  /-- Its first page of the ring. -/
  page : Nat
  tail : LedgerTail
  deriving DecidableEq, Repr

/-- Where the ledger ring stands: 32 blocks, numbered from 0, of 128 pages (R392). -/
structure Ring where
  /-- The block being written, and its next free page. -/
  block : Nat
  page : Nat
  /-- The other blocks that are not blank, oldest first. -/
  used : List Nat
  /-- Tails not yet erased, the newest first. -/
  tails : List RingTail
  deriving DecidableEq, Repr

def Ring.reset : Ring := { block := 0, page := 0, used := [], tails := [] }

/-- The ledger. -/
structure Ledger where
  /-- The running state that the next tail would carry. -/
  cur : LedgerTail
  /-- LFX periods counted before the present epoch set ledger time back to 0 (R397). -/
  base : Nat
  /-- The ring. -/
  ring : Ring
  /-- Ensemble of epochs: the epoch number, 0 before the first (R397). -/
  epoch : Nat
  /-- Number of the next ride; above 2²⁴ − 1 it is exhausted (R387). -/
  nextRide : Nat
  rides : List RideRecord
  periods : List PeriodRecord
  /-- Highest index acknowledged in each epoch, by (epoch, index). -/
  acks : List (Nat × Nat)
  /-- Ring blocks 5 to 36 retired (R408). -/
  retiredBlocks : List Nat
  /-- Periods due that the ring could not hold: epoch, kind, intervals and period, in index order (R396). -/
  due : List (Nat × Nat × Nat × OpenPeriod)
  /-- The era stood at 255 at an always-on loss: rides refused until a new epoch (R176). -/
  eraExhausted : Bool
  /-- Rides and periods carry the LFX-lost flag (R410). -/
  lfxLost : Bool
  deriving DecidableEq, Repr

/-- The ledger of a part as made: no epoch, a blank ring. -/
def Ledger.reset : Ledger :=
  { cur := LedgerTail.reset, base := 0, ring := Ring.reset, epoch := 0, nextRide := 1, rides := [], periods := [],
    acks := [], retiredBlocks := [], due := [], eraExhausted := false,
    lfxLost := false }

/-- The newest ledger tail in flash (R157, R393). -/
def Ledger.flashTail (l : Ledger) : Option LedgerTail := l.ring.tails.head?.map (·.tail)

/-- Ring blocks that are blank. -/
def Ledger.blankBlocks (l : Ledger) : List Nat :=
  (List.range 32).filter (fun k => decide (k ≠ l.ring.block) && !l.ring.used.contains k && !l.retiredBlocks.contains (k + 5))

/-- Free ring pages (R396). -/
def Ledger.freePages (l : Ledger) : Nat := (128 - l.ring.page) + 128 * l.blankBlocks.length

end Sys2Proof.Machine
end

