-- ==== Sys2Proof/Config.lean ====
section
/-! DEFINITION. What one part fixes and what the spec leaves open: constants and functions with no body, of which no
proof can see a value. -/
namespace Sys2Proof.Config

/-- The device identity of the calibration row, 36 bits (Table Flash-9). DESIGN CHOICE (log 17). -/
opaque identity : BitVec 36
/-- The identity secret key (Table Custody-8). DESIGN CHOICE (log 17). -/
opaque identitySecret : Nat
/-- The Azkanov key, held in the boot ROM (R198). -/
opaque azkanovKey : List Octet
/-- A word of the calibration row that the spec does not state (Table Flash-9, words 4 to 1 023). -/
opaque calibration : Nat → Word
/-- The n-th free value drawn: what the true random number generator gives (TRNG), and every value after which the
machine goes on and which the spec does not state. DESIGN CHOICE (log 6). -/
opaque freeValue : Nat → Nat
/-- The identity key's signature over a digest (R398): ECDSA draws a secret number for it, so its octets are open. DESIGN CHOICE (log 16). -/
opaque identitySign : List Octet → List Octet

/-- The code of the event that a discarded retained tail logs (R198): Table Cmd-13 names none for it. DESIGN CHOICE (log 64). -/
opaque tailEvent : Nat
/-- The words of a ledger tail, whose layout the spec does not give (R393). DESIGN CHOICE (log 49). -/
opaque ledgerTail : Machine.LedgerTail → List Word
/-- The mark of a ledger-tail record, which the spec does not give (R392). DESIGN CHOICE (log 87). -/
opaque tailMark : Nat

end Sys2Proof.Config
end

