-- ==== Sys2Proof/Machine/JournalOps.lean ====
section
/-! DEFINITION. The operations of the journal on its own state: entering records, launching pages, confirming,
reclaiming and relocating (spec/16_journal.md). -/
namespace Sys2Proof.Machine

/-- Octets of a record: L + 20 (R892). -/
def Rec.octets (r : Rec) : Nat := r.body.length + 20

/-- Octets of a stored record (Table Journal-5). -/
def storedOctets (type seq : Nat) (copy : Bool) (stamp body : List Octet) : List Octet :=
  let x := [BitVec.ofNat 8 type, BitVec.ofNat 8 copy.toNat] ++ leOctets 2 body.length ++ leOctets 4 seq ++ stamp ++ body
  x ++ leOctets 4 (crc32c x).toNat

/-- A record as it is stored. -/
def Rec.stored (r : Rec) : List Octet :=
  storedOctets r.type r.seq r.copy (leOctets 1 r.era ++ leOctets 5 r.seconds ++ leOctets 2 r.fraction) r.body

/-- Words of a record in the tail: its octets packed (R6, R156). -/
def Rec.words (r : Rec) : Nat := (r.octets * 2 + 2) / 3

/-- A record of the ledger: a ride or a period (R897). -/
def Rec.isLedger (r : Rec) : Bool :=
  match r.link with
  | .none => false
  | .ride _ _ _ | .period _ _ => true

def octetsOf (l : List Rec) : Nat := l.foldl (fun n r => n + r.octets) 0
def wordsOf (l : List Rec) : Nat := l.foldl (fun n r => n + r.words) 0

/-- Octets of records in one page: the payload less the page header (R885, R891). -/
def Journal.capacity (j : Journal) : Nat := j.info.pageOctets / 2048 * 2030 - 16

/-- The records that a NAND program in progress holds. -/
def NandOp.recs : NandOp → List Rec
  | .program _ p => p.recs
  | .erase _ => []

/-- A program is in progress. -/
def NandOp.isProgram : NandOp → Bool
  | .program _ _ => true
  | .erase _ => false

/-- The code of an operation in event 0x8002. -/
def NandOp.code : NandOp → Nat
  | .program _ _ => 1
  | .erase _ => 2

/-- Records under programming. -/
def Journal.flying (j : Journal) : List Rec :=
  (j.busy.toList.filterMap id).foldl (fun l o => l ++ o.recs) []

/-- Words of the unconfirmed tail (R156): copies of confirmed records are no part of it. -/
def Journal.tailWords (j : Journal) : Nat :=
  wordsOf j.entries + wordsOf (j.flying.filter (fun r => !r.copy))

/-- Records enter the tail in these states (R898). -/
def Journal.accepting (j : Journal) : Bool :=
  match j.state with
  | .probing | .mounting | .ready | .full | .paused => true
  | .absent | .worn | .foreign | .failed => false

/-- NAND operations are issued in these states (Table Journal-8). -/
def Journal.writing (j : Journal) : Bool :=
  match j.state with
  | .ready | .full => true
  | _ => false

/-- Reading is available (R908). -/
def Journal.readable (j : Journal) : Bool :=
  match j.state with
  | .ready | .full | .worn => true
  | _ => false

/-- A block's record, a fresh free one when the list does not name it. -/
def Journal.block (j : Journal) (b : Nat) : NandBlock := lookupD NandBlock.fresh b j.blocks

def Journal.setBlock (j : Journal) (b : Nat) (x : NandBlock) : Journal :=
  { j with blocks := if x = NandBlock.fresh then dropKey b j.blocks else setKey b x j.blocks }

/-- The class of an event record (octets 0 and 1 of its body), as a mask bit (Table Journal-6). -/
def Rec.classBit (r : Rec) : BitVec 16 :=
  if r.type = 3 then 1#16 <<< (fieldNat r.body 0 2 / 4096 % 16) else 0

/-- A record lost, counted for the next loss record. -/
def Journal.lose (j : Journal) (r : Rec) : Journal :=
  { j with lost := j.lost + 1, lostFirst := if j.lost = 0 then r.seq else j.lostFirst, lostMask := j.lostMask ||| r.classBit,
           lostTotal := j.lostTotal + 1 }

/-- Step 1 of R897: ride and period records taken out, oldest first, until `excess` words are freed. -/
def shedLedger (excess : Nat) : List Rec → List Rec × Nat
  | [] => ([], excess)
  | r :: rs =>
    if excess = 0 then (r :: rs, 0)
    else if r.isLedger then shedLedger (excess - r.words) rs
    else let (l, e) := shedLedger excess rs; (r :: l, e)

/-- Step 2 of R897: the oldest entries moved out until `excess` words are freed. -/
def shedOthers (excess : Nat) : List Rec → List Rec × List Rec
  | [] => ([], [])
  | r :: rs =>
    if excess = 0 then ([], r :: rs)
    else let (out, l) := shedOthers (excess - r.words) rs; (r :: out, l)

/-- Step 3 of R897: the overflow queue, at most 16 Ki words, with its oldest entries discarded. -/
def Journal.trimOverflow : List Rec → Journal → Journal
  | [], j => { j with overflow := [] }
  | r :: rs, j =>
    if wordsOf (r :: rs) ≤ 16384 then { j with overflow := r :: rs } else Journal.trimOverflow rs (j.lose r)

/-- Room for n more words in the tail (R897). -/
def Journal.makeRoom (j : Journal) (n : Nat) : Journal :=
  let excess := j.tailWords + n - 2510
  let (kept, e) := shedLedger excess j.entries
  let (out, kept') := shedOthers e kept
  Journal.trimOverflow (j.overflow ++ out) { j with entries := kept' }

/-- A record at the end of the tail; where records under programming leave no room within the bound of R156, it joins the
overflow queue (R897). -/
def Journal.append (j : Journal) (r : Rec) (now : Nat) : Journal :=
  let k := j.makeRoom r.words
  if 2510 < k.tailWords + r.words then Journal.trimOverflow (k.overflow ++ [r]) k
  else { k with entries := k.entries ++ [r], entriesSince := if k.entries.isEmpty then some now else k.entriesSince }

/-- One record entered at the end of the tail, with the next sequence number (R893). -/
def Journal.enterOne (j : Journal) (t : Clock) (type : Nat) (link : RecLink) (body : List Octet) : Journal :=
  let r : Rec := { type := type, copy := false, seq := j.nextSeq, era := t.era, seconds := t.seconds,
                   fraction := t.fraction, body := body, link := link }
  { j.append r t.ticks with nextSeq := j.nextSeq + 1 }

/-- Body of the loss record that is due (Table Journal-6, type 0x06). -/
def Journal.lossBody (j : Journal) : List Octet := leOctets 4 j.lost ++ leOctets 4 j.lostFirst ++ leOctets 2 j.lostMask.toNat

/-- A record enters the tail, after the loss record that may be due (R894, R898, R905). -/
def Journal.enter (j : Journal) (t : Clock) (type : Nat) (link : RecLink) (body : List Octet) : Journal :=
  if !j.accepting then j
  else if j.state = .full && type = 1 then j
  else
    let j1 := if j.lost = 0 then j
      else { j.enterOne t 6 .none j.lossBody with lost := 0, lostFirst := 0, lostMask := 0 }
    j1.enterOne t type link body

/-- The records that fit a page, from the head of a list; at least the first (R892). -/
def fitPage (room : Nat) : List Rec → List Rec × List Rec
  | [] => ([], [])
  | r :: rs =>
    if r.octets ≤ room then let (a, b) := fitPage (room - r.octets) rs; (r :: a, b) else ([], r :: rs)

/-- The target of a block (R886). -/
def Journal.targetOf (j : Journal) (b : Nat) : Fin 2 :=
  if j.info.targets ≤ 1 then 0 else if b < j.info.blocks / 2 then 0 else 1

/-- Free blocks: blocks that are in use by nothing and not retired. -/
def Journal.freeBlocks (j : Journal) : List Nat :=
  (List.range j.info.blocks).filter (fun b => (j.block b).kind = .free)

/-- Blocks that are not retired. -/
def Journal.goodBlocks (j : Journal) : Nat :=
  j.info.blocks - (j.blocks.filter (fun p => match p.2.kind with | .retired _ => true | _ => false)).length

/-- Journal blocks: good blocks less the bad-block table's two and the reserve of 8 (R887, R890). -/
def Journal.journalBlocks (j : Journal) : Nat := j.goodBlocks - 10

/-- The free block with the lowest erase count, the lowest number among equals (R899). -/
def Journal.coldestFree (j : Journal) : Option Nat :=
  j.freeBlocks.foldl (fun best b =>
    match best with
    | none => some b
    | some c => if (j.block b).erases < (j.block c).erases then some b else some c) none

/-- Page sequence number of a block's first page. -/
def NandBlock.firstSeq (b : NandBlock) : Nat :=
  match b.pages with
  | [] => 0
  | p :: _ => p.seq

/-- Every confirmed record with its page's sequence number. -/
def Journal.held (j : Journal) : List (Nat × Rec) :=
  j.blocks.foldl (fun l b => l ++ b.2.pages.foldl (fun m p => m ++ p.recs.map (fun r => (p.seq, r))) []) []

/-- The highest acknowledged index of an epoch. -/
def ackedOf (acks : List (Nat × Nat)) (epoch : Nat) : Option Nat :=
  acks.foldl (fun o a => if a.1 = epoch then (match o with | none => some a.2 | some n => some (max n a.2)) else o) none

/-- A record that a reclaim must copy forward (R899). -/
def Journal.protectedRec (j : Journal) (acks : List (Nat × Nat)) (pageSeq : Nat) (r : Rec) : Bool :=
  match r.link with
  | .none => false
  | .ride e _ p => (match ackedOf acks e with | none => true | some n => decide (n < p))
  | .period e i => j.held.all (fun q => match q.2.link with
      | .period e' i' => !(decide (e' = e) && decide (i' = i) && decide (pageSeq < q.1))
      | _ => true)

/-- Octets of protected records held. DEDUCED (log 116). -/
def Journal.protectedOctets (j : Journal) (acks : List (Nat × Nat)) : Nat :=
  octetsOf ((j.held.filter (fun q => j.protectedRec acks q.1 q.2)).map (·.2))

/-- Octets of records that the journal blocks can hold. -/
def Journal.totalOctets (j : Journal) : Nat := j.journalBlocks * j.info.pagesPerBlock * j.capacity

/-- The records of a block copied forward; the block waits for them before its erase (R899, R902). -/
def Journal.moveBlock (j : Journal) (b : Nat) (keep : Nat → Rec → Bool) : Journal :=
  if j.moves.any (fun m => m.1 = b) then j
  else
    let blk := j.block b
    let rs := blk.pages.foldl (fun l p => l ++ (p.recs.filter (keep p.seq))) []
    if rs.isEmpty then j.setBlock b { blk with kind := .erasing, pages := [] }
    else { j with copies := j.copies ++ rs.map (fun r => { r with copy := true }), moves := j.moves ++ [(b, rs.map (·.seq))] }

/-- The full block with the oldest page sequence number. -/
def Journal.oldestFull (j : Journal) : Option Nat :=
  (j.blocks.filter (fun p => p.2.kind = .full && !(j.moves.any (fun m => m.1 = p.1)))).foldl (fun best p =>
    match best with
    | none => some p.1
    | some c => if p.2.firstSeq < (j.block c).firstSeq then some p.1 else some c) none

/-- Reclaim when the free blocks fall below the reserve (R899). -/
def Journal.reclaim (j : Journal) (acks : List (Nat × Nat)) : Journal :=
  if j.freeBlocks.length < 8 then
    match j.oldestFull with
    | none => j
    | some b => j.moveBlock b (fun q r => j.protectedRec acks q r)
  else j

/-- Wear levelling: the coldest full block relocated when erase counts lie more than 1 000 apart (R900). DEDUCED (log 116). -/
def Journal.level (j : Journal) : Journal :=
  let counts := j.blocks.filterMap (fun p => match p.2.kind with | .full | .free => some p.2.erases | _ => none)
  let hi := counts.foldl max 0
  let lo := if j.freeBlocks.any (fun b => (j.block b).erases = 0) then 0 else counts.foldl min hi
  if hi - lo ≤ 1000 then j
  else
    match (j.blocks.filter (fun p => p.2.kind = .full)).foldl (fun best p =>
        match best with
        | none => some p
        | some c => if p.2.erases < c.2.erases then some p else some c) (none : Option (Nat × NandBlock)) with
    | none => j
    | some p => if p.2.erases = lo then j.moveBlock p.1 (fun _ _ => true) else j

/-- NWP_N is high while a program or an erase runs (R877). -/
def Journal.guardWp (j : Journal) : Journal :=
  { j with writeEnabled := j.busy.toList.any (fun o => match o with
      | some (.program _ _) => true
      | some (.erase _) => true
      | none => false) }

/-- The block at the write point, the next free one when the active block is full (R899). -/
def Journal.writePoint (j : Journal) (acks : List (Nat × Nat)) : Journal × Option Nat :=
  let full := match j.active with
    | none => true
    | some b => decide (j.info.pagesPerBlock ≤ (j.block b).pages.length)
  if !full then (j, j.active)
  else
    let j1 := match j.active with
      | none => j
      | some b => j.setBlock b { j.block b with kind := .full }
    match j1.coldestFree with
    | none => ({ j1 with active := none }.reclaim acks, none)
    | some b =>
      ((({ j1.setBlock b { j1.block b with kind := .active } with active := some b }).reclaim acks).level, some b)

/-- A page of records programmed at the write point, when its target is idle. -/
def Journal.launch (j : Journal) (acks : List (Nat × Nat)) (recs : List Rec) : Option Journal :=
  match j.writePoint acks with
  | (_, none) => none
  | (j1, some b) =>
    let t := j1.targetOf b
    if (j1.busy.get t).isSome then none
    else some { j1 with busy := j1.busy.set t (some (.program b { seq := j1.nextPage, recs := recs })),
                        nextPage := j1.nextPage + 1 }

/-- A program is in progress at the write point. -/
def Journal.programming (j : Journal) : Bool :=
  j.busy.toList.any (fun o => match o with | some p => p.isProgram | none => false)

/-- The next erase of a block that waits for one. -/
def Journal.startErases (j : Journal) : Journal :=
  j.blocks.foldl (fun j p =>
    if p.2.kind = .erasing && (j.busy.get (j.targetOf p.1)).isNone then
      { j with busy := j.busy.set (j.targetOf p.1) (some (.erase p.1)) }
    else j) j

/-- Pending operations are issued in the order of R909: the page at the write point when it is due (R895), then copies
of relocation and reclaim, then erases. -/
def Journal.pump (j : Journal) (acks : List (Nat × Nat)) (due : Bool) : Journal :=
  if !j.writing then j
  else
    let due := (due || j.pageDue || j.flushing.isSome || decide (j.capacity < octetsOf j.entries)) && !j.entries.isEmpty
    let j := { j with pageDue := due }
    let j1 :=
      if j.programming then j
      else if due then
        let (page, rest) := fitPage j.capacity j.entries
        match j.launch acks page with
        | none => j
        | some k => { k with entries := rest, entriesSince := if rest.isEmpty then none else k.entriesSince, pageDue := false }
      else if !j.copies.isEmpty then
        let (page, rest) := fitPage j.capacity j.copies
        match j.launch acks page with
        | none => j
        | some k => { k with copies := rest }
      else j
    j1.startErases.guardWp

/-- Entries return from the overflow queue as space frees (R897). -/
def Journal.refill : List Rec → Journal → Journal
  | [], j => { j with overflow := [] }
  | r :: rs, j =>
    if j.tailWords + r.words ≤ 2510 then Journal.refill rs { j with entries := j.entries ++ [r] }
    else { j with overflow := r :: rs }

/-- What a block becomes when its records have been copied away: a retired one stays retired, any other waits for its erase. -/
def BlockKind.emptied : BlockKind → BlockKind
  | .retired c => .retired c
  | .free | .active | .full | .bbt | .erasing => .erasing

/-- A page's program has ended with FAIL at 0: its records are confirmed (R896), and source blocks whose copies are
all confirmed go to be erased (R902). -/
def Journal.confirm (j : Journal) (b : Nat) (p : JPage) : Journal :=
  let blk := j.block b
  let j1 := j.setBlock b { blk with pages := blk.pages ++ [p] }
  let seqs := (p.recs.filter (·.copy)).map (·.seq)
  let moved := j1.moves.map (fun m => (m.1, m.2.filter (fun q => !seqs.contains q)))
  let done := (moved.filter (fun m => m.2.isEmpty)).map (·.1)
  let j2 := { j1 with moves := moved.filter (fun m => !m.2.isEmpty),
                      confirmed := p.recs.foldl (fun n r => if r.copy then n else max n r.seq) j1.confirmed }
  let j3 := done.foldl (fun j d => j.setBlock d { j.block d with kind := (j.block d).kind.emptied, pages := [] }) j2
  Journal.refill j3.overflow j3

/-- A new version of the bad-block table, one page in each copy (R888, R891); a copy with no page left is erased first. -/
def Journal.newTable (j : Journal) : Journal :=
  let fresh := decide (j.bbtVersion % j.info.pagesPerBlock = 0) && decide (0 < j.bbtVersion)
  { j with bbtVersion := j.bbtVersion + 1, nextPage := j.nextPage + 2,
           blocks := if fresh then j.blocks.map (fun p => if p.2.kind = .bbt then (p.1, { p.2 with erases := p.2.erases + 1 }) else p)
                     else j.blocks }

/-- A block retired, and a new version of the bad-block table (R886, R888). DEDUCED (log 115). DEDUCED (log 121). -/
def Journal.retire (j : Journal) (b cause : Nat) : Journal :=
  let j1 := (j.setBlock b { j.block b with kind := .retired cause }).newTable
  { j1 with active := if j1.active = some b then none else j1.active }

/-- A failed page program: the block is retired, its confirmed records are copied forward, and the page's records are
programmed again (R916). -/
def Journal.programFailed (j : Journal) (b : Nat) (p : JPage) : Journal :=
  let held := (j.block b).pages.foldl (fun l q => l ++ q.recs) []
  let j1 := j.retire b 2
  { j1 with moves := if held.isEmpty then j1.moves else j1.moves.filter (fun m => m.1 ≠ b) ++ [(b, held.map (·.seq))],
            entries := p.recs.filter (fun r => !r.copy) ++ j1.entries, pageDue := true,
            entriesSince := if (p.recs.filter (fun r => !r.copy)).isEmpty then j1.entriesSince else some 0,
            copies := p.recs.filter (·.copy) ++ held.map (fun r => { r with copy := true }) ++ j1.copies }

end Sys2Proof.Machine
end

