-- ==== Sys2Proof/Parts/Boot.lean ====
section
/-! DEFINITION. The state of spec/04_startup_and_tiers.md: straps, boot, tier, the self-test record, the watchdogs
and the lifecycle record. -/
namespace Sys2Proof.Machine

/-- One core's PMU_WDT (Table Start-9). -/
structure CoreWdt where
  cause : BitVec 2
  en : Bool
  per : BitVec 4
  deriving DecidableEq, Repr

/-- PMU_WDT at reset (Table Start-9). -/
def CoreWdt.reset : CoreWdt := { cause := 0, en := false, per := 0 }

/-- How far the start has come (Table Start-4, Table Start-8). -/
inductive BootPhase where
  /-- VCORE is off, or no firmware runs. -/
  | stopped
  /-- Zheyr runs and has not reached step 9. -/
  | zheyr
  /-- Step 9 is reached: Beacon, the tier is not yet decided. -/
  | beacon
  /-- The tier is decided (step 11). -/
  | decided
  deriving DecidableEq, Repr

/-- A Beacon-failure record (R215, Table Cmd-16). -/
structure BeaconRecord where
  era : Nat
  seconds : Nat
  failed : List UnitId
  deriving DecidableEq, Repr

/-- Start-up, tiers and lifecycle. -/
structure Boot where
  phase : BootPhase
  /-- The sampled role (R32). -/
  role : Role
  /-- HSEL sampled 1: the host port is a UART (Table Start-3). -/
  hsel : Bool
  /-- JTAGEN sampled 1 (Table Start-3). -/
  jtagen : Bool
  /-- TESTEN sampled 1: the VCORE domain is held in reset (R995). -/
  testen : Bool
  /-- The tier (Table Arch-4). -/
  tier : Tier
  /-- The self-test record (R213). -/
  units : Vector UnitResult 42
  /-- Ledger seconds of the last self-test (Table Cmd-16). -/
  selfTestSeconds : Nat
  /-- FCLK has stopped: at most T1 until a self-test passes (R130). -/
  fclkLost : Bool
  /-- PMU_WDT of each core. -/
  wdt : Vector CoreWdt 4
  /-- Ledger ticks of each core's latest watchdog expiries, newest first, at most 3 (R220). -/
  wdtExpiries : Vector (List Nat) 4
  /-- Consecutive Steward-watchdog expiries without 60 s of service, for the boot block that now boots (R226). -/
  stewardExpiries : Nat
  /-- The Steward watchdog caused the last warm reset (R247). -/
  stewardCause : Bool
  /-- Ledger ticks at which service at T1 or above began (R226). -/
  serviceSince : Option Nat
  /-- The boot ROM tries the alternate boot block first (R226). -/
  alternateFirst : Bool
  /-- The boot block that runs is Boot-B (Table Cmd-11, octet 6). -/
  runningB : Bool
  /-- The alternate block runs because the preferred failed (R205). -/
  bootFallback : Bool
  /-- Swap cells programmed: the preferred block is Boot-B when odd (R855). -/
  swapCells : Nat
  /-- The lifecycle state held in flash (R232). -/
  lifecycle : Lifecycle
  /-- The lifecycle record reads and checks (R245). -/
  lifecycleReadable : Bool
  /-- The anti-rollback floor in the lifecycle record (R204). -/
  floor : Nat
  /-- Debug unlocked until the next power-on reset of the VCORE domain (Table Start-11). -/
  debugUnlocked : Bool
  /-- Beacon-failure records held in flash, newest first (R215). -/
  beacons : List BeaconRecord
  /-- The last start ended in Beacon failure: the next one raises event 0x100B. -/
  beaconNew : Bool
  deriving DecidableEq, Repr

/-- The part as made, before its first start. -/
def Boot.reset : Boot :=
  { phase := .stopped, role := .vehicle, hsel := false, jtagen := false, testen := false, tier := .t0,
    units := Vector.replicate 42 .untested, selfTestSeconds := 0, fclkLost := false,
    wdt := Vector.replicate 4 CoreWdt.reset, wdtExpiries := Vector.replicate 4 [], stewardExpiries := 0, stewardCause := false, serviceSince := none,
    alternateFirst := false, runningB := false, bootFallback := false, swapCells := 0, lifecycle := .blank,
    lifecycleReadable := true, floor := 0, debugUnlocked := false, beacons := [],
    beaconNew := false }

end Sys2Proof.Machine
end

