-- ==== Sys2Proof/Parts/Celandine.lean ====
section
/-! DEFINITION. The state of spec/10_celandine.md: oscillator checks, key matrix, segment display, seal loops, shock
and wake records: every CEL_ register of Tables Cel-4 and Cel-5. The counters stand in the ledger's clock and the
presence window in custody's presence, where their rules are. -/
namespace Sys2Proof.Machine

/-- How an oscillator was declared failed (R545): by its stop, or by the Steward's count. -/
inductive OscFault where
  | good
  | stopped
  | counted
  deriving DecidableEq, Repr

/-- One key of the matrix: its debounced state, the reading that the latest scans agree on and how many (R551). -/
structure KeyState where
  down : Bool
  reading : Bool
  agree : Nat
  /-- Held past the limit: ignored until it reads up (R553). -/
  ignored : Bool
  deriving DecidableEq, Repr

def KeyState.reset : KeyState := { down := false, reading := false, agree := 0, ignored := false }

/-- A seal loop's state (Table Cel-5, CEL_SEALn.STATE). -/
inductive SealKind where
  | intact
  | opened
  | short
  | wrong
  deriving DecidableEq, Repr

def SealKind.code : SealKind → Nat
  | .intact => 0
  | .opened => 1
  | .short => 2
  | .wrong => 3

/-- A seal change not yet raised as an event (R566). -/
structure SealChange where
  old : SealKind
  new : SealKind
  bin : Nat
  fas : Bool
  /-- An earlier change was overwritten. -/
  lost : Bool
  /-- Its ledger time. -/
  era : Nat
  seconds : Nat
  fraction : Nat
  deriving DecidableEq, Repr

/-- One seal loop. -/
structure SealLoop where
  bin : BitVec 4
  state : SealKind
  exp : BitVec 4
  en : Bool
  /-- The latest measured bin, when it differs from `bin` or nothing is confirmed yet, and the ledger seconds and
  era of that measurement. -/
  candidate : Option (BitVec 4 × Nat × Nat)
  /-- A first bin has been confirmed since EN rose (R564). -/
  confirmed : Bool
  /-- A change that waits for the Steward (R566). -/
  change : Option SealChange
  deriving DecidableEq, Repr

def SealLoop.reset : SealLoop :=
  { bin := 15, state := .intact, exp := 0, en := false, candidate := none, confirmed := false, change := none }

/-- Celandine. -/
structure Celandine where
  /-- LFX is declared failed (R544, R1019). -/
  lfxFailed : Bool
  /-- LFX was declared failed by the cold start, which is no failure under R546. -/
  lfxStarting : Bool
  /-- Consecutive failing and passing windows of R544. -/
  lfxBad : Nat
  lfxGood : Nat
  /-- LFX gives edges (activity detector). -/
  lfxActive : Bool
  lfo : OscFault
  lfoActive : Bool
  /-- Consecutive Steward counts within 4 % (R545). -/
  lfoGood : Nat
  /-- The counters run on LFO ÷ 4 (CEL_CLK bit 2). -/
  onLfo : Bool
  /-- The change back to LFX waits for the next carry of the ledger fraction (R544). -/
  backToLfx : Bool
  /-- Words staged for CEL_LT0 to LT6 and CEL_WT0 to WT5 (R543). -/
  ltStage : Vector Word 7
  wtStage : Vector Word 6
  /-- The whole staged value is taken at the next time-base edge. -/
  ltPending : Bool
  wtPending : Bool
  /-- CEL_LT and CEL_WT words latched by each requester's read of word 0. -/
  ltLatch : Vector (Vector Word 7) 6
  wtLatch : Vector (Vector Word 6) 6
  /-- CEL_KCTL. -/
  keyEn : Bool
  db : BitVec 3
  /-- CEL_KSTAT.WET, OVF, STUCK. -/
  wet : Bool
  keyOvf : Bool
  stuck : Bool
  /-- Key FIFO, oldest first, at most 8: the words of CEL_KEY. -/
  keyFifo : List Word
  keys : Vector KeyState 16
  kdownLatch : Vector Word 6
  /-- The matrix is being scanned, and scans in a row that found every column high (R549). -/
  scanning : Bool
  quietScans : Nat
  /-- Scans in a row with every key up while wet (R552). -/
  dryScans : Nat
  scanNumber : BitVec 7
  /-- Ledger ticks of the last wet event (R552). -/
  wetAt : Option Nat
  /-- CEL_LCDCTL.EN, FRM, PEND and CEL_LCDCON.VC. -/
  lcdEn : Bool
  frm : BitVec 2
  lcdPend : Bool
  vc : BitVec 4
  /-- Working, idle and force buffers, and the committed working source. -/
  lcdW : Vector Word 12
  lcdI : Vector Word 12
  lcdF : Vector Word 12
  lcdSource : Vector Word 12
  /-- The pattern shown since the last frame start. -/
  shown : Vector Word 12
  /-- The charge pump runs and the lines are driven (R562). -/
  pump : Bool
  inds : BitVec 8
  indb : BitVec 8
  /-- CEL_WAKE. -/
  wake : BitVec 9
  seals : Vector SealLoop 2
  /-- CEL_SOPEN bits 0 to 3. -/
  sopen : BitVec 4
  /-- CEL_SOT: ledger seconds and era of the opening. -/
  openSeconds : Nat
  openEra : Nat
  shocks : Nat
  shkHold : Nat
  /-- Ledger ticks of the last shock wake. -/
  shockWakeAt : Option Nat
  /-- Levels of SERVICE_N, DOCK_PRES, JMP_PRES as last seen (CEL_PRES bits 2:0). -/
  dockLevel : Bool
  /-- CEL_PWLEN. -/
  pwLen : Nat
  /-- CEL_KWAKE. -/
  kwake : BitVec 16
  /-- The Steward's copies of its RC fields (R937): wake record of the last start, opening flags with era and
  seconds, shocks since the cold start. -/
  wakeCopy : BitVec 9
  sopenCopy : BitVec 4
  openSecondsCopy : Nat
  openEraCopy : Nat
  shocksCopy : Nat
  deriving DecidableEq, Repr

/-- Celandine after a cold start (R538, R581, R1019). DEDUCED (log 133). -/
def Celandine.reset : Celandine :=
  { lfxFailed := true, lfxStarting := true, lfxBad := 0, lfxGood := 0, lfxActive := false, lfo := .good,
    lfoActive := true, lfoGood := 0, onLfo := true, backToLfx := false, ltStage := Vector.replicate 7 0,
    wtStage := Vector.replicate 6 0, ltPending := false, wtPending := false,
    ltLatch := Vector.replicate 6 (Vector.replicate 7 0), wtLatch := Vector.replicate 6 (Vector.replicate 6 0),
    keyEn := true, db := 3, wet := false, keyOvf := false, stuck := false, keyFifo := [],
    keys := Vector.replicate 16 KeyState.reset, kdownLatch := Vector.replicate 6 0, scanning := false,
    quietScans := 0, dryScans := 0, scanNumber := 0, wetAt := none, lcdEn := false, frm := 1, lcdPend := false,
    vc := 8, lcdW := Vector.replicate 12 0, lcdI := Vector.replicate 12 0, lcdF := Vector.replicate 12 0,
    lcdSource := Vector.replicate 12 0, shown := Vector.replicate 12 0, pump := false, inds := 0, indb := 0,
    wake := 0, seals := Vector.replicate 2 SealLoop.reset, sopen := 0, openSeconds := 0, openEra := 0, shocks := 0,
    shkHold := 30, shockWakeAt := none, dockLevel := false, pwLen := 120, kwake := 0xFFFF, wakeCopy := 0,
    sopenCopy := 0, openSecondsCopy := 0, openEraCopy := 0, shocksCopy := 0 }

end Sys2Proof.Machine
end

