-- ==== Sys2Proof/Parts/Clocks.lean ====
section
/-! DEFINITION. The state of spec/02_fabric_and_domains.md: the VCORE target and its requests (PMU_ registers of
Table Fabric-3), the fourteen clock domains, the PLL, and the free-running TSCLK count (Table Fabric-7). -/
namespace Sys2Proof.Machine

/-- One core's PMU_OPREQ (Table Fabric-3). -/
structure OpReq where
  en : Bool
  vcode : BitVec 7
  deriving DecidableEq, Repr

/-- PMU_OPREQ at reset: EN 0, VCODE 50 (Table Fabric-3). -/
def OpReq.reset : OpReq := { en := false, vcode := 50 }

/-- How a clock domain stands (R102, R104, R127). -/
inductive DomainClock where
  /-- The clock runs. -/
  | running
  /-- Held stopped: not yet started, or its source is absent (R102). -/
  | held
  /-- Gated by the power manager (R104). -/
  | gated
  /-- Declared stopped by the port's clock-present detector (R127). -/
  | failed
  deriving DecidableEq, Repr

/-- The fabric's clocked side. -/
structure Clocks where
  /-- PMU_OPREQ of cores 0 to 3. -/
  opreq : Vector OpReq 4
  /-- PMU_OPSTAT.BADREQ of each core. -/
  badReq : Vector Bool 4
  /-- The Steward's own request (R89). -/
  stewardReq : BitVec 7
  /-- PMU_OPSTAT.CUR: code of the target now applied. -/
  target : BitVec 7
  /-- PMU_OPSTAT.SETTLED (R91). -/
  settled : Bool
  /-- The target is held at code 50 from PWR_FAIL to the next start (R122). -/
  held : Bool
  /-- PMU_TJ.TEMP, two's complement, 0.125 °C a unit. -/
  temp : Word
  /-- PMU_TBAND.ALARM. -/
  alarm : Bool
  /-- ALARM has clamped the target, and has not fallen since: PMU_OPSTAT.CLAMP (R126). -/
  clamp : Bool
  /-- PMU_TBAND.BAND. -/
  band : BitVec 2
  /-- The state of each clock domain, in the rows' order of Table Fabric-4. -/
  domains : Vector DomainClock 14
  /-- The PLL is locked (R102). -/
  pllLocked : Bool
  /-- Relock attempts made since the lock was lost (R128). -/
  relocks : Nat
  /-- The Steward waits for the PLL to lock again (R128). -/
  relocking : Bool
  /-- HFX gave no stable clock at this start (R129). -/
  hfxFailed : Bool
  /-- The 36-bit TSCLK count that TCAP_NOW, the captures and GNSS PPS share (R117). -/
  now : BitVec 36
  /-- Bits 35:12 latched by each requester's last read of TCAP_NOW0; 0 with none since reset (R118). -/
  nowLatch : Vector Pair 6
  deriving DecidableEq, Repr

/-- The clocks before the part has started: nothing runs, every register at its reset value. -/
def Clocks.reset : Clocks :=
  { opreq := Vector.replicate 4 OpReq.reset, badReq := Vector.replicate 4 false, stewardReq := 50, target := 50,
    settled := false, held := false, temp := 0, alarm := false, clamp := false, band := 1,
    domains := Vector.replicate 14 .held, pllLocked := false, relocks := 0, relocking := false, hfxFailed := false,
    now := 0, nowLatch := Vector.replicate 6 0 }

end Sys2Proof.Machine
end

