-- ==== Sys2Proof/Parts/Custody.lean ====
section
/-! DEFINITION. The state of spec/06_custody.md: presence, the edition store with its slots, probation, image
selectors, and the keys. -/
namespace Sys2Proof.Machine

/-- A stored edition record (Table Custody-5), with the key that verified it at staging (R1016). -/
structure EdRecord where
  number : Nat
  /-- Word 5 bit 4: commit policy on dock. -/
  onDock : Bool
  /-- Words 8 to 7 + n. -/
  payload : List Word
  /-- The 43 signature words. -/
  signature : List Word
  /-- The configuration key that verified the record, 64 octets. -/
  key : List Octet
  deriving DecidableEq, Repr

/-- One domain's slots in the governing slot map (Table Custody-6). -/
structure DomainSlots where
  staged : Option EdRecord
  /-- `none` is the built-in default, number 0. -/
  current : Option EdRecord
  previous : Option EdRecord
  /-- Highest committed number (R318). -/
  highest : Nat
  /-- The custody-requested bit (R342). -/
  requested : Bool
  /-- The Current record is materially divergent: Previous, or the default, is effective (R342). -/
  currentBad : Bool
  deriving DecidableEq, Repr

def DomainSlots.reset : DomainSlots :=
  { staged := none, current := none, previous := none, highest := 0, requested := false, currentBad := false }

/-- A running probation (Table Custody-6, words 29 to 34). -/
structure Probation where
  domains : Vector Bool 5
  program : Bool
  failed : Bool
  era : Nat
  seconds : Nat
  /-- Rides closed since its start (R334). -/
  rides : Nat
  /-- The cause of its failure, by event 0x3003. -/
  cause : Nat
  deriving DecidableEq, Repr

/-- The source set of a presence window (R313, R314). -/
structure Sources where
  service : Bool
  dock : Bool
  jumper : Bool
  deriving DecidableEq, Repr

def Sources.none : Sources := { service := false, dock := false, jumper := false }

/-- Presence inputs and the presence window, which run in Celandine (R308 to R313). -/
structure Presence where
  windowOpen : Bool
  /-- Whole seconds left (CEL_PWREM). -/
  windowLeft : Nat
  /-- 1 024ths of the LFO second counted of it, 128 to a second (R312). -/
  windowPhase : Nat
  /-- The length taken at the window's opening, to which it restarts (R312). -/
  windowLen : Nat
  sources : Sources
  /-- SERVICE_N is low. -/
  serviceLow : Bool
  /-- The present press may count: it fell inside the SERVICE_N period (R308). -/
  serviceCounts : Bool
  /-- The 300 s SERVICE_N period after a recorded opening runs (R309). -/
  servicePeriod : Bool
  /-- JMP_PRES is low. -/
  jumperFitted : Bool
  /-- This fitting of the jumper has not been recognised yet (R311). -/
  jumperPending : Bool
  /-- A commit on dock that a guard blocked is to be tried again (R333). -/
  dockBlocked : Bool
  /-- Accepted dock gates in a row, at most 4 (R310). -/
  dockGates : Nat
  /-- Ledger ticks of the last dock-presence event (R361: at most one per 600 s). -/
  dockEventAt : Option Nat
  deriving DecidableEq, Repr

def Presence.reset : Presence :=
  { windowOpen := false, windowLeft := 0, windowPhase := 0, windowLen := 120, sources := Sources.none, serviceLow := false, serviceCounts := false,
    servicePeriod := false, jumperFitted := false, jumperPending := false, dockBlocked := false, dockGates := 0, dockEventAt := none }

/-- The keys of Table Custody-8. A key is its octets; the sealing key is the number of the free value that drew it. -/
structure Keys where
  config : Option (List Octet)
  image : Option (List Octet)
  fleetRoot : Option (List Octet)
  /-- The device fleet certificate, 153 octets. -/
  cert : Option (List Octet)
  sealing : Option Nat
  /-- Exports of the sealing key (R398). -/
  exports : Nat
  deriving DecidableEq, Repr

def Keys.reset : Keys :=
  { config := none, image := none, fleetRoot := none, cert := none, sealing := none, exports := 0 }

/-- Where the edition store stands in its blocks, 1 to 4 of each bank: both copies keep a record in the same pages (R324, R325, R329). -/
structure Store where
  /-- The block being written, counted from 0, and its next free page. -/
  block : Fin 4
  page : Nat
  /-- Blocks that are blank in both banks. -/
  blank : Vector Bool 4
  /-- Blocks being erased for reclaim. -/
  clearing : Vector Bool 4
  /-- First page of the record in each slot (Table Custody-6). -/
  locs : Vector (Vector (Option Nat) 3) 5
  /-- Page of the governing slot map in each copy. -/
  mapAt : Vector (Option Nat) 2
  /-- The key that verified the record at a location (R1016). -/
  keys : List (Nat × List Octet)
  deriving DecidableEq, Repr

def Store.reset : Store :=
  { block := 0, page := 0, blank := #v[false, true, true, true], clearing := Vector.replicate 4 false,
    locs := Vector.replicate 5 (Vector.replicate 3 none), mapAt := Vector.replicate 2 none, keys := [] }

/-- Custody: the store, probation, presence and keys. -/
structure Custody where
  slots : Vector DomainSlots 5
  /-- Sequence number of the governing slot map, 24 bits; 0 before the first. -/
  mapSeq : Nat
  /-- The store's pages. -/
  store : Store
  probation : Option Probation
  /-- Active and previous program image selectors (Table Custody-6, words 36 and 37). -/
  imageActive : Option (Fin 2)
  imagePrevious : Option (Fin 2)
  /-- Store blocks 1 to 4 retired, in both banks (R358). -/
  retired : Vector Bool 4
  presence : Presence
  keys : Keys
  /-- What has cut a write of the store in the command being executed (R178, R241). -/
  cut : Option StoreWrite
  deriving DecidableEq, Repr

def Custody.reset : Custody :=
  { slots := Vector.replicate 5 DomainSlots.reset, mapSeq := 0, store := Store.reset, probation := none,
    imageActive := none, imagePrevious := none, retired := Vector.replicate 4 false, presence := Presence.reset,
    keys := Keys.reset, cut := none }

end Sys2Proof.Machine
end

