-- ==== Sys2Proof/Parts/Debug.lean ====
section
/-! DEFINITION. The state of the test access port and of the trace port (spec/18_electrical.md, Table Elec-22), and of
the levels that commands drive on balls outside the blocks. -/
namespace Sys2Proof.Machine

/-- The TAP instruction in force (Table Elec-22). -/
inductive TapInstr where
  | extest | idcode | samplePreload | clamp | highz | dbgstat | corectl | corereg | memaddr | memdata | jreset
  | tracectl | bypass
  deriving DecidableEq, Repr

/-- A ball's place in the boundary-scan register: a digital input, a digital output, or both ways (R979). -/
inductive BallKind where
  | input
  | output
  | both
  deriving DecidableEq, Repr

/-- Cells of a ball: one for an input; an output and a control cell for an output; all three for a ball that works both ways (R979).
DEDUCED (log 43). -/
def BallKind.cells : BallKind → Nat
  | .input => 1
  | .output => 2
  | .both => 3

/-- Balls with cells in the order of Table Elec-4, as runs of one kind. DEDUCED (log 43). -/
def boundaryBalls : List (String × BallKind × Nat) :=
  [("KROW0-3", .output, 4), ("KCOL0-3", .input, 4), ("SHOCK_N", .input, 1), ("SERVICE_N", .input, 1), ("DOCK_PRES", .both, 1),
   ("JMP_PRES", .input, 1), ("HCS_N", .input, 1), ("HSCK", .input, 1), ("HMOSI", .input, 1), ("HMISO", .output, 1),
   ("HIRQ_N", .output, 1), ("HRXD", .input, 1), ("HTXD", .output, 1), ("HRTS_N", .output, 1), ("HCTS_N", .input, 1)] ++
  [("USB_DP", .both, 1), ("USB_DM", .both, 1), ("USB_VBUS", .input, 1), ("ROLE0-1", .input, 2), ("HSEL", .input, 1),
   ("JTAGEN", .input, 1), ("PFI_N", .input, 1), ("TESTEN", .input, 1), ("CATX", .output, 1), ("CBTX", .output, 1),
   ("CARX", .input, 1), ("CBRX", .input, 1), ("SCL", .both, 1), ("SDA", .both, 1), ("SSCK", .output, 1), ("SMOSI", .output, 1)] ++
  [("SMISO", .input, 1), ("SCS0-1_N", .output, 2), ("GRXD", .input, 1), ("GTXD", .output, 1), ("GPPS", .input, 1), ("TCK", .input, 1),
   ("TMS", .input, 1), ("TDI", .input, 1), ("TDO", .output, 1), ("GPIO0-39", .both, 40), ("TRACECLK", .output, 1),
   ("TRACED0-3", .output, 4)] ++
  [("NIO0-7", .both, 8), ("NCE0-1_N", .output, 2), ("NCLE", .output, 1), ("NALE", .output, 1), ("NWE_N", .output, 1),
   ("NRE_N", .output, 1), ("NWP_N", .output, 1), ("NRB_N", .input, 1), ("GATE", .output, 6), ("FAULT_N", .input, 1),
   ("HALL0-2", .input, 3), ("WHA", .input, 1), ("WHB", .input, 1), ("BRAKE_N", .input, 1)]

/-- Cells of the boundary-scan register. -/
def boundaryLength : Nat := boundaryBalls.foldl (fun n b => n + b.2.1.cells * b.2.2) 0

/-- The TAP and the trace port. -/
structure Debug where
  instr : TapInstr
  /-- The boundary-scan register, one bit a cell in the order of Table Elec-4, whose last cell is nearest TDO: its update stage, and what
  it captured last. -/
  cells : List Bool
  sampled : List Bool
  /-- Outputs come from the boundary-scan register (EXTEST, CLAMP), or are high impedance (HIGHZ). -/
  driving : Bool
  highz : Bool
  /-- What the last Capture-DR loaded. -/
  capture : BitVec 35
  /-- Cores whose halt found them in WAIT, to which a resume returns them (R982). -/
  wasWaiting : Vector Bool 4
  /-- MEMADDR: address, core, auto-increment. -/
  memAddr : Pair
  memCore : Fin 4
  autoInc : Bool
  /-- A write through MEMDATA moved nothing, and no capture has reported it yet. -/
  memErr : Bool
  /-- COREREG's answer to the next Capture-DR: value and status. -/
  regValue : Pair
  regOk : Bool
  /-- TRACECTL: rate and core enables. -/
  traceRate : BitVec 2
  traceEn : BitVec 4
  /-- The packet that the trace port sent last. -/
  traceOut : List Octet
  /-- The core whose packet is drained next. -/
  traceTurn : Fin 4
  deriving DecidableEq, Repr

def Debug.reset : Debug :=
  { instr := .idcode, cells := List.replicate boundaryLength false, sampled := List.replicate boundaryLength false, driving := false, highz := false, capture := 0, wasWaiting := Vector.replicate 4 false, memAddr := 0, memCore := 0, autoInc := false, memErr := false, regValue := 0,
    regOk := false, traceRate := 0, traceEn := 0, traceOut := [], traceTurn := 0 }

/-- A program image staged or active in a slot: its words, the signature at the end (R621). -/
structure ProgImage where
  words : List Word
  /-- It is staged: verified by IMAGE_END and not yet activated. -/
  staged : Bool
  /-- The image key that verified it at staging (R1016); none once zeroised. -/
  key : Option (List Octet)
  deriving DecidableEq, Repr

/-- A Zheyr set (R854, R857): version, whether an image is staged there and not yet activated, and words 0 to 51 of its boot block, none
of the image the device was made with. -/
structure ZheyrSet where
  version : Nat
  present : Bool
  staged : Bool
  boot : List Word
  deriving DecidableEq, Repr

/-- An image being written: kind, total words, words so far (IMAGE_BEGIN to IMAGE_END). -/
structure ImageWrite where
  kind : Nat
  total : Nat
  words : List Word
  complete : Bool
  deriving DecidableEq, Repr

/-- The image slots and the Zheyr sets. -/
structure Images where
  slots : Vector (Option ProgImage) 2
  zheyr : Vector ZheyrSet 2
  writing : Vector (Option ImageWrite) 2
  /-- The active image failed at its last start and counts as absent (R626). -/
  rejected : Bool
  deriving DecidableEq, Repr

/-- The images of a part as made. DESIGN CHOICE (log 92). -/
def Images.reset : Images :=
  { slots := Vector.replicate 2 none,
    zheyr := #v[{ version := 0x040100, present := true, staged := false, boot := [] }, { version := 0x040100, present := true, staged := false, boot := [] }],
    writing := Vector.replicate 2 none, rejected := false }

end Sys2Proof.Machine
end

