-- ==== Sys2Proof/Parts/Flash.lean ====
section
/-! DEFINITION. The state of the two flash banks and the FCTL_ block (spec/15_eflash.md): arrays, metadata rows,
commands queued and running, and every register of Table Flash-11. A requester here is a core (0 to 3) or the Steward
(4). -/
namespace Sys2Proof.Machine

/-- A launched program or erase (R832). -/
inductive FlashOp where
  | program (page : Nat) (data : List Word)
  | erase (block : Nat)
  deriving DecidableEq, Repr

/-- A command queued for a bank; blocks and pages are named by their word address. -/
structure FlashCmd where
  owner : Fin 5
  op : FlashOp
  deriving DecidableEq, Repr

/-- The step of Table Flash-5 that an erase has reached. -/
structure EraseRun where
  owner : Fin 5
  block : Nat
  /-- Steps of step 2 completed. -/
  steps : Nat
  /-- It has been resumed at least once (R844). -/
  resumed : Bool
  /-- A resume has arrived while a program ran in the bank; who asked. -/
  resumeBy : Option (Fin 5)
  deriving DecidableEq, Repr

/-- What a bank does (FCTL_BSTAT). -/
inductive BankRun where
  | idle
  | programming (owner : Fin 5) (page : Nat) (data : List Word)
  | erasing (e : EraseRun)
  /-- A suspend has arrived and is deferred by R844; who asked. -/
  | deferring (e : EraseRun) (asker : Fin 5)
  deriving DecidableEq, Repr

/-- An erase counter slot: a count, or unreadable (R850). -/
abbrev EraseSlot := Option Nat

/-- One block's metadata (Table Flash-8). -/
structure BlockMeta where
  slotA : EraseSlot
  slotB : EraseSlot
  flag : Bool
  deriving DecidableEq, Repr

def BlockMeta.reset : BlockMeta := { slotA := some 0, slotB := some 0, flag := false }

/-- A bank's stream reader (R814): the row of 64 words in its prefetch buffer, the row read ahead, and the branch target cache, the first
lines at branch targets by address, the one used last first. -/
structure StreamReader where
  row : Option (Nat × List Word)
  ahead : Option (Nat × List Word)
  targets : List (Nat × List Word)
  deriving DecidableEq, Repr

def StreamReader.reset : StreamReader := { row := none, ahead := none, targets := [] }

/-- One bank. -/
structure Bank where
  /-- Metadata that differs from count 0 and flag clear, by block. -/
  info : List (Nat × BlockMeta)
  run : BankRun
  /-- The suspended erase. -/
  suspended : Option EraseRun
  queue : List FlashCmd
  stream : StreamReader
  deriving DecidableEq, Repr

def Bank.reset : Bank := { info := [], run := .idle, suspended := none, queue := [], stream := StreamReader.reset }

/-- An assembly in progress (R834, Table Flash-7, R837). -/
inductive Assembling where
  | none
  /-- 0x3C7 has been written to KEYA. -/
  | keyA
  /-- Unlocked, no command code yet. -/
  | unlocked
  /-- The command code is set. -/
  | code (op : Nat)
  /-- ADDR0 is set. -/
  | addr0 (op : Nat) (lo : Word)
  /-- A program's data. -/
  | data (addr : Nat) (words : List Word)
  /-- Sequence mode: the block's base, after one, two writes. -/
  | seq1 (base : Nat)
  | seq2 (base : Nat)
  /-- A program's sequence, waiting for its data; the page once its first word is written. -/
  | seqData (base : Nat) (page : Option Nat) (words : List Word)
  /-- An erase's sequence, waiting for 0x2B4 to B. -/
  | seqErase (base : Nat)
  deriving DecidableEq, Repr

/-- A write that waits behind a launch that has no tag (R867). -/
inductive FctlWrite where
  | reg (offset : Nat) (v : Word)
  | store (addr : Nat) (v : Word)
  deriving DecidableEq, Repr

/-- A launch (R832, R840). -/
inductive Launch where
  | cmd (op : FlashOp)
  | suspend (bank : Fin 2)
  | resume (bank : Fin 2)
  deriving DecidableEq, Repr

/-- One requester's own registers of FCTL_. -/
structure FctlOwn where
  asm : Assembling
  addr0 : Word
  addr1 : Word
  done : Bool
  err : Bool
  ecw : Bool
  seqErr : Bool
  badWr : Bool
  res : BitVec 4
  resOp : BitVec 3
  /-- The INFO read queue. -/
  info : List Word
  margin : Bool
  ecnt : BitVec 2
  eaddr : Pair
  eaddrLatch : Word
  ien : BitVec 3
  /-- A launch that waits for a tag, and the writes behind it. -/
  waiting : Option Launch
  behind : List FctlWrite
  deriving DecidableEq, Repr

def FctlOwn.reset : FctlOwn :=
  { asm := .none, addr0 := 0, addr1 := 0, done := false, err := false, ecw := false, seqErr := false, badWr := false,
    res := 0, resOp := 0, info := [], margin := false, ecnt := 0, eaddr := 0, eaddrLatch := 0, ien := 0,
    waiting := none, behind := [] }

/-- The flash banks and their controller. -/
structure Flash where
  /-- The words of both arrays that are not 0xFFF, by address from 0x800_000 (R811). -/
  cells : WordMem
  /-- Pages that are not blank, by address (R828, R829). -/
  programmed : List Nat
  /-- Pages whose program was cut short and that do not read blank (Table Flash-13), and blocks whose erase was. -/
  torn : List Nat
  banks : Vector Bank 2
  own : Vector FctlOwn 5
  tap : BitVec 4
  ecth : BitVec 2
  /-- Commands launched after PWR_FAIL are refused (R865). -/
  refusing : Bool
  /-- Blocks whose passing of 100 000 erases has been raised (R852). -/
  worn : List Nat
  /-- Blocks whose count's loss in both slots has been raised (R850). -/
  uncounted : List Nat
  /-- The boot blocks of set A and of set B hold a valid image. -/
  bootValid : Vector Bool 2
  /-- The first swap cell not programmed by ordinary read reads programmed under margin (R856). -/
  marginal : Bool
  deriving DecidableEq, Repr

def Flash.reset : Flash :=
  { cells := [], programmed := [], torn := [], banks := Vector.replicate 2 Bank.reset,
    own := Vector.replicate 5 FctlOwn.reset, tap := 15, ecth := 2, refusing := false, worn := [], uncounted := [],
    bootValid := #v[true, true], marginal := false }

end Sys2Proof.Machine
end

