-- ==== Sys2Proof/Parts/HoldUp.lean ====
section
/-! DEFINITION. The state of the hold-up ring and of the PWR_FAIL sequence (spec/03_power_and_swap.md, R156 to R167,
Tables Power-8 and Power-9). Block k of the ring is the k-th of R158. The pages of an image stand in the flash cells; a block
keeps beside them what the words of its image mean. -/
namespace Sys2Proof.Machine

/-- What the words of a hold-up image mean: the fields of its header and the records of its data pages (Table Power-9).
DESIGN CHOICE (log 49). -/
structure HoldImage where
  seq : Nat
  /-- Causes: VDDIO_A, VDDA, PFI_N, B-LOW (word 4). -/
  causes : BitVec 4
  role : Role
  tier : Tier
  clock : Clock
  hwm : Nat
  /-- Suspended erase of bank 0 and of bank 1. -/
  suspended : Vector (Option Nat) 2
  /-- Ledger tail and journal tail. -/
  ledger : LedgerTail
  journal : List Rec
  deriving DecidableEq, Repr

/-- One block of the ring. -/
structure HoldBlock where
  ready : Bool
  retired : Bool
  /-- Consecutive erases whose blank check failed (R167). -/
  blankFails : Nat
  /-- What its last image meant; none since its last erase. -/
  image : Option HoldImage
  /-- Its image has been replayed, and the replay page waits until the NAND confirms these records (R163). -/
  awaiting : Option (List Nat)
  deriving DecidableEq, Repr

def HoldBlock.reset : HoldBlock := { ready := true, retired := false, blankFails := 0, image := none, awaiting := none }

/-- One data page of an image: kind (1 ledger, 2 journal), index within the kind, payload (Table Power-9). -/
structure HoldPage where
  kind : Nat
  index : Nat
  payload : List Word
  deriving DecidableEq, Repr

/-- How far the PWR_FAIL sequence has come in Table Power-8. -/
inductive HoldStage where
  /-- Steps 3 to 5: no page of an image is begun. -/
  | settling
  /-- The header page is being programmed. -/
  | header
  /-- A data page is being programmed; whether it is a rewrite is `rewritten`. -/
  | data (p : HoldPage)
  /-- The commit page is being programmed. -/
  | commit
  /-- Nothing is left but step 10. -/
  | ending
  deriving DecidableEq, Repr

/-- The PWR_FAIL sequence in progress (Table Power-8). -/
structure HoldSeq where
  /-- Causes seen so far. -/
  causes : BitVec 4
  /-- The block chosen; none where no block is ready (R183). -/
  block : Option (Fin 4)
  stage : HoldStage
  /-- Pages of the image programmed, the header first. -/
  pages : Nat
  /-- Data pages that wait. -/
  todo : List HoldPage
  /-- The page map so far: a word for each data page programmed (Table Power-9). -/
  map : List Word
  /-- The pages as written, for the commit CRC: the header, then each data page with its place in the map. -/
  written : List (List Word)
  /-- One data page has been rewritten. -/
  rewritten : Bool
  deriving DecidableEq, Repr

/-- The hold-up ring. -/
structure HoldUp where
  blocks : Vector HoldBlock 4
  lastUsed : Option (Fin 4)
  /-- The newest sequence number found in the ring at the last start (R1014). -/
  found : Option Nat
  seq : Option HoldSeq
  /-- A PWR_FAIL found no block ready: the next start logs it (R183). -/
  unavailable : Bool
  deriving DecidableEq, Repr

def HoldUp.reset : HoldUp :=
  { blocks := Vector.replicate 4 HoldBlock.reset, lastUsed := none, found := none, seq := none, unavailable := false }

/-- The number of ready blocks (PMU_SUPPLY.HURDY). -/
def HoldUp.ready (h : HoldUp) : Nat := (h.blocks.toList.filter (·.ready)).length

end Sys2Proof.Machine
end

