-- ==== Sys2Proof/Parts/Host.lean ====
section
/-! DEFINITION. The state of the host port, USB and the mailboxes (spec/05_host_port.md, spec/17_commands.md): frames,
queues, channels, the event stream, the application routes and the assemblies of records sent in parts. -/
namespace Sys2Proof.Machine

/-- A frame (Table Host-5): header fields and payload. -/
structure Frame where
  chan : Nat
  dir : Bool
  seq : Octet
  cmd : Nat
  rtx : Bool
  more : Bool
  evt : Bool
  stat : Nat
  payload : List Octet
  deriving DecidableEq, Repr

/-- An event as raised (R290, Table Host-11). -/
structure Event where
  code : Nat
  number : Nat
  era : Nat
  seconds : Nat
  fraction : Nat
  data : List Octet
  deriving DecidableEq, Repr

/-- A request accepted on a channel (R274). -/
structure Request where
  seq : Octet
  cmd : Nat
  payload : List Octet
  deriving DecidableEq, Repr

/-- The phase of one channel of one transport (Table Host-8). -/
inductive ChanPhase where
  | idle
  | executing
  | answered
  deriving DecidableEq, Repr

/-- One channel of one transport (R275). -/
structure Channel where
  phase : ChanPhase
  /-- The request in execution has begun and waits for its end. -/
  begun : Bool
  /-- The last accepted request, with its SEQ (R274). -/
  last : Option Request
  /-- Its flags octet as received (Table Host-9). -/
  flags : Octet
  /-- The cached final response (R275). -/
  cache : Option Frame
  /-- The latest interim response sent for the request in execution. -/
  interim : Option Frame
  deriving DecidableEq, Repr

def Channel.reset : Channel := { phase := .idle, begun := false, last := none, flags := 0, cache := none, interim := none }

/-- One transport's queues, counters and sequence state (R250, R252, R253, R292, R293). -/
structure Port where
  /-- The head frame in a transmit buffer, once its delivery has begun: a READ ended early leaves it at the head (R253, R255, R297). -/
  staged : Option Frame
  /-- Responses queued for transmission, oldest first. -/
  responses : List Frame
  /-- Events queued for transmission, oldest first, at most 64 (R292). -/
  events : List Event
  /-- Events lost since the last delivered event (Table Host-11), saturating at 65 535. -/
  lost : Nat
  /-- Classes of the events lost since then. -/
  lostMask : BitVec 16
  /-- Events lost since reset, 24 bits (R292). -/
  lostTotal : Nat
  /-- The event mask (R293). -/
  mask : BitVec 16
  /-- Frames discarded since the last STATUS transaction, modulo 256 (Table Host-1). -/
  discarded : Nat
  /-- Frames discarded since reset, reported by event 0xB000. -/
  discardedTotal : Nat
  /-- Ledger ticks of the last corrupt-frame event (R301: at most one per 100 ms). -/
  corruptAt : Option Nat
  /-- Channels 0 to 6. -/
  chans : Vector Channel 7
  deriving DecidableEq, Repr

def Port.reset : Port :=
  { staged := none, responses := [], events := [], lost := 0, lostMask := 0, lostTotal := 0, mask := 0, discarded := 0,
    discardedTotal := 0, corruptAt := none, chans := Vector.replicate 7 Channel.reset }

/-- A record being assembled from parts (R926). -/
structure Assembly where
  /-- What it collects: 0x0201, 0x0403 or 0x0602. -/
  cmd : Nat
  /-- The selector: domain or kind (Table Cmd-1); for 0x0403 the node stands above it. -/
  selector : Nat
  total : Nat
  words : List Word
  deriving DecidableEq, Repr

/-- The route of one application channel, as taken at the last program start (R283, R598). -/
structure AppRoute where
  core : Fin 4
  /-- Buffer base in shared SRAM. -/
  base : Nat
  /-- Response limit in ms. -/
  limit : Nat
  deriving DecidableEq, Repr

/-- The host port, USB and the Steward's mailbox state. -/
structure HostPort where
  /-- The port is enabled: step 9 of Table Start-4 reached and no PWR_FAIL since (R207, R256). -/
  enabled : Bool
  /-- Frames are still admitted (R152). -/
  admitting : Bool
  ports : Vector Port 2
  /-- Receive buffers in use on the host port, 0 to 2 (R253). -/
  rxUsed : Nat
  /-- ERR of the port status octet (Table Host-2). -/
  err : Bool
  /-- The last frame a READ delivered in full (Table Host-1, REREAD). -/
  lastRead : Option (List Octet)
  /-- The octets that the last transaction shifted out on HMISO after the status octet. -/
  hmiso : List Octet
  /-- The status octet of the last transaction (Table Host-2). -/
  statusOctet : Octet
  /-- HCS_N has stayed low over 100 ms: no transaction until it rises (R257). -/
  hcsAbandoned : Bool
  /-- UART rate code, 0 to 5 (Table Cmd-3). -/
  rate : Nat
  /-- A new rate waits to be applied after the response (R259). -/
  ratePending : Option Nat
  /-- No valid frame has arrived since the rate changed (R259). -/
  rateUnproved : Bool
  /-- HCTS_N is high (R262). -/
  hcts : Bool
  /-- The last octets the UART sent (R263). -/
  uartOut : List Octet
  /-- Octets of the staged frame that HCTS_N holds back (R262). -/
  uartLeft : List Octet
  /-- Octets received since the last whole frame, from which the hunt for a mark goes on (R260). -/
  uartRx : List Octet
  /-- VBUS is present on the USB port (R954). -/
  vbus : Bool
  /-- The USB device is configured (R290). -/
  usbConfigured : Bool
  /-- USB receive buffers in use, 0 to 2 (R265). -/
  usbRxUsed : Nat
  /-- The packets of the last bulk IN transfer (R265). -/
  usbOut : List (List Octet)
  /-- The number of the next event, 24 bits (R290). -/
  eventNumber : Nat
  /-- Events recorded before step 9 or while VCORE was off, in order of ledger time (R577). -/
  preEvents : List Event
  /-- Tier events that wait for the responses of the commands in execution at the fall (R296). -/
  tierHeld : List (Event × List (Transport × Fin 7))
  /-- Requests in execution on application channels 1 to 4, with their transport (R284). -/
  app : Vector (Option (Transport × Request)) 4
  /-- When each of them was given to its core, in ticks (R288). -/
  appAt : Vector Nat 4
  /-- The routes of application channels 1 to 4. -/
  routes : Vector (Option AppRoute) 4
  /-- GRT_MBXPEND.PEND of each core (Table Host-10). -/
  pend : Vector (BitVec 4) 4
  /-- Ledger ticks of each core's last stray-DONE event (R285: at most one per second). -/
  strayAt : Vector (Option Nat) 4
  /-- Assemblies in progress (R926). -/
  assemblies : List Assembly
  deriving DecidableEq, Repr

def HostPort.reset : HostPort :=
  { enabled := false, admitting := false, ports := Vector.replicate 2 Port.reset, rxUsed := 0, err := false,
    lastRead := none, hmiso := [], statusOctet := 0, hcsAbandoned := false, rate := 0, ratePending := none,
    rateUnproved := false, hcts := false, uartOut := [], uartLeft := [], uartRx := [], vbus := false, usbConfigured := false, usbRxUsed := 0,
    usbOut := [], eventNumber := 0, preEvents := [], tierHeld := [], app := Vector.replicate 4 none, appAt := Vector.replicate 4 0,
    routes := Vector.replicate 4 none,
    pend := Vector.replicate 4 0, strayAt := Vector.replicate 4 none, assemblies := [] }

end Sys2Proof.Machine
end

