-- ==== Sys2Proof/Parts/Motor.lean ====
section
/-! DEFINITION. The state of spec/09_motor_teasel.md: PWM timer and limit supervisor, ADC, capture inputs, comparators
and Teasel, with every register of Tables Motor-1, Motor-4, Motor-5 and Motor-8. -/
namespace Sys2Proof.Machine

/-- A double-buffered set of PWM values (R487). -/
structure PwmSet where
  per : BitVec 14
  /-- CMPA, CMPB, CMPC. -/
  cmp : Vector (BitVec 14) 3
  dt : BitVec 9
  out : BitVec 6
  /-- PWM_TRG: SRC 1:0, EN 2, DIR 3. -/
  trg : BitVec 4
  trgc : BitVec 14
  deriving DecidableEq, Repr

/-- Reset of Table Motor-1: PER and CMPx 5 000, DT 160, PWM_OUT 0x015, trigger count 0. -/
def PwmSet.reset : PwmSet :=
  { per := 5000, cmp := Vector.replicate 3 5000, dt := 160, out := 0x15, trg := 0, trgc := 0 }

/-- The PWM timer and the limit supervisor (Table Motor-1). -/
structure Pwm where
  upd : Bool
  hold : Bool
  run : Bool
  shadow : PwmSet
  active : PwmSet
  /-- Staging latches of PER, CMPA, CMPB, CMPC and the trigger count (R488). -/
  staged : Vector (Option Word) 5
  /-- PWM_STAT.DIR, UPDPEND, BADWR. -/
  dir : Bool
  updPend : Bool
  badWr : Bool
  /-- The counter as last observed. -/
  cnt : BitVec 14
  /-- Of each phase, for how many MCLK periods its high side and its low side had not been wanted when the counter last turned, up to 321
  (R486). -/
  idle : Vector (Nat × Nat) 3
  /-- PWM_CNT1 latched by each requester. -/
  cntLatch : Vector (BitVec 2) 6
  /-- PWM_LIMI and PWM_LIMW in force. -/
  limi : Word
  limw : Pair
  /-- Limits written by the Steward that wait for the next update event (R498). -/
  nextLimi : Word
  nextLimw : Pair
  /-- PWM_SUP bits 0 to 6. -/
  rideOpen : Bool
  speedwell : Bool
  speedInhibit : Bool
  sampleInhibit : Bool
  brakeInhibit : Bool
  noRideInhibit : Bool
  chop : Bool
  chops : Nat
  /-- Channel 3 was converted since the last valley (R495). -/
  sampled : Bool
  deriving DecidableEq, Repr

def Pwm.reset : Pwm :=
  { upd := false, hold := false, run := false, shadow := PwmSet.reset, active := PwmSet.reset,
    staged := Vector.replicate 5 none, dir := false, updPend := false, badWr := false, cnt := 0, idle := Vector.replicate 3 (321, 321),
    cntLatch := Vector.replicate 6 0, limi := 0xFFF, limw := 0, nextLimi := 0xFFF, nextLimw := 0, rideOpen := false,
    speedwell := false, speedInhibit := false, sampleInhibit := false, brakeInhibit := false, noRideInhibit := true,
    chop := false, chops := 0, sampled := false }

/-- One ADC FIFO entry (R502): tag and the two results. -/
structure AdcEntry where
  tag : Word
  a : Word
  b : Word
  deriving DecidableEq, Repr

/-- The ADC pair (Table Motor-4). -/
structure Adc where
  en0 : Bool
  en1 : Bool
  trg : BitVec 3
  last : BitVec 3
  dmaEn : Bool
  ovf : Bool
  miss : Bool
  badWr : Bool
  thr : BitVec 3
  /-- Entries held, oldest first, at most 32. -/
  fifo : List AdcEntry
  /-- ADC_FIFOA and ADC_FIFOB latched for each requester. -/
  latch : Vector (Word × Word) 6
  seq : Vector (BitVec 10) 8
  res : Vector Word 16
  /-- A sequence in progress: next entry, last entry, and the sequence registers copied at the trigger (R500). -/
  running : Option (Nat × Nat × Vector (BitVec 10) 8)
  /-- Triggers taken, modulo 128. -/
  trigger : BitVec 7
  deriving DecidableEq, Repr

def Adc.reset : Adc :=
  { en0 := false, en1 := false, trg := 0, last := 0, dmaEn := false, ovf := false, miss := false, badWr := false,
    thr := 0, fifo := [], latch := Vector.replicate 6 (0, 0), seq := Vector.replicate 8 0,
    res := Vector.replicate 16 0, running := none, trigger := 0 }

/-- One entry of the capture FIFO (R508): the word of TCAP_EV0 and the time stamp. -/
structure CapEvent where
  word : BitVec 8
  stamp : BitVec 36
  deriving DecidableEq, Repr

/-- The capture inputs (Table Motor-5). -/
structure Tcap where
  hflt : Word
  wflt : Word
  /-- Filtered levels: HALL2:HALL0, WHA, WHB, brake active. -/
  hall : BitVec 3
  wha : Bool
  whb : Bool
  brake : Bool
  seqErr : Bool
  mism : Bool
  /-- Wheel direction: 1 when WHB leads. -/
  dir : Bool
  ovf : Bool
  herr : Nat
  /-- Hall errors since reset, for the multiple-of-64 event (R509). -/
  herrTotal : Nat
  wcnt : Pair
  /-- The last period between rising WHA edges and between hall edges, in TSCLK periods, saturated. -/
  wper : Nat
  hper : Nat
  /-- TSCLK counts of the last rising WHA edge and of the last hall edge. -/
  lastWha : Option (BitVec 36)
  lastHall : Option (BitVec 36)
  /-- Rising WHA edges modulo 16 (R509). -/
  whaMod : Nat
  fifo : List CapEvent
  /-- TCAP_EV1 to EV3, TCAP_WCNT1, TCAP_WPER1 and TCAP_HPER1 latched for each requester. -/
  evLatch : Vector (BitVec 36) 6
  wcntLatch : Vector Word 6
  wperLatch : Vector Word 6
  hperLatch : Vector Word 6
  ecfg : BitVec 6
  /-- Ledger ticks of the last speed-mismatch and hall-error events (R509). -/
  mismAt : Option Nat
  herrAt : Option Nat
  deriving DecidableEq, Repr

def Tcap.reset : Tcap :=
  { hflt := 0x060, wflt := 0x300, hall := 0, wha := false, whb := false, brake := false, seqErr := false,
    mism := false, dir := false, ovf := false, herr := 0, herrTotal := 0, wcnt := 0, wper := 0xFFFFFF,
    hper := 0xFFFFFF, lastWha := none, lastHall := none, whaMod := 0, fifo := [],
    evLatch := Vector.replicate 6 0, wcntLatch := Vector.replicate 6 0, wperLatch := Vector.replicate 6 0,
    hperLatch := Vector.replicate 6 0, ecfg := 0, mismAt := none, herrAt := none }

/-- What Teasel holds of the Teasel edition (R522, Table Motor-9): TSL_THR0 to 3, TSL_CFG, D and the dwell limit. -/
structure TeaselCfg where
  thr : Vector Word 4
  cfg : Word
  dead : Nat
  dwell : Nat
  deriving DecidableEq, Repr

/-- The built-in Teasel edition (Table Motor-9): thresholds 1 023 above, disabled; FAULT_N enabled; all-off. -/
def TeaselCfg.default : TeaselCfg :=
  { thr := Vector.replicate 4 0x3FF, cfg := 0x002, dead := 5, dwell := 100 }

/-- What the gate pads show (R514, TSL_STAT.SAFE). -/
inductive Pads where
  | pwm
  | allOff
  /-- Low-side-on chosen; the dead time D runs and no low side has risen yet. -/
  | lowSideDead
  /-- Low-side-on: the three low sides are high. -/
  | lowSideOn
  deriving DecidableEq, Repr

/-- Teasel (Table Motor-8). -/
structure Teasel where
  latch : Bool
  pads : Pads
  /-- The latch is cleared and the pads wait for the next update event (R519). -/
  handback : Bool
  lock : Bool
  armWait : Bool
  /-- Filtered levels of CMP0 to CMP3 and FAULT_N active (TSL_STAT.ACT). -/
  act : BitVec 5
  cause : BitVec 11
  /-- TSL_CLRST.RES. -/
  res : BitVec 3
  trips : Nat
  cfg : TeaselCfg
  /-- A committed edition that is loaded at the next setting of the latch (R522, R530). -/
  nextCfg : Option TeaselCfg
  /-- Ledger ticks of the latest source activations, newest first (R518). -/
  acts : List Nat
  /-- Ledger ticks of the last latch event, and settings since then (R521). -/
  eventAt : Option Nat
  settings : Nat
  deriving DecidableEq, Repr

/-- TSL_ at reset (Table Motor-8): latch set by a reset (cause bit 7), all-off, re-arm running. -/
def Teasel.reset : Teasel :=
  { latch := true, pads := .allOff, handback := false, lock := false, armWait := true, act := 0, cause := 0x080,
    res := 0, trips := 0, cfg := TeaselCfg.default, nextCfg := none, acts := [], eventAt := none, settings := 0 }

/-- Motor drive, sensing and protection. -/
structure Motor where
  pwm : Pwm
  adc : Adc
  tcap : Tcap
  tsl : Teasel
  /-- MCLK edges arrive (R532). -/
  mclk : Bool
  deriving DecidableEq, Repr

def Motor.reset : Motor :=
  { pwm := Pwm.reset, adc := Adc.reset, tcap := Tcap.reset, tsl := Teasel.reset, mclk := false }

/-- A reset of the motor blocks. What the device senses at its pins stays as it is (Tables Motor-5 and Motor-8, `sensed`). -/
def Motor.restarted (m : Motor) : Motor :=
  { Motor.reset with
    tcap := { Tcap.reset with hall := m.tcap.hall, wha := m.tcap.wha, whb := m.tcap.whb, brake := m.tcap.brake, dir := m.tcap.dir }
    tsl := { Teasel.reset with act := m.tsl.act } }

end Sys2Proof.Machine
end

