-- ==== Sys2Proof/Parts/Periph.lean ====
section
/-! DEFINITION. The state of the general I/O blocks of spec/11_jieles_model.md (Tables Jieles-16 to Jieles-21): DMA,
CAN-B, I2C, sensor SPI, GNSS UART with PPS capture, and GPIO with its PWM generators. -/
namespace Sys2Proof.Machine

/-- Who owns a DMA channel: cores 0 to 3 own four each, the Steward sixteen (R630). -/
abbrev DmaIndex := Fin 32

/-- One DMA channel (Table Jieles-16). -/
structure DmaChannel where
  src : Pair
  dst : Pair
  cnt : Pair
  srck : BitVec 2
  dfix : Bool
  ie : Bool
  busy : Bool
  done : Bool
  err : BitVec 3
  badWr : Bool
  /-- Words not yet written. -/
  rem : Pair
  remLatch : Word
  /-- Next source and destination addresses of the running transfer. -/
  curSrc : Pair
  curDst : Pair
  deriving DecidableEq, Repr

def DmaChannel.reset : DmaChannel :=
  { src := 0, dst := 0, cnt := 0, srck := 0, dfix := false, ie := false, busy := false, done := false, err := 0,
    badWr := false, rem := 0, remLatch := 0, curSrc := 0, curDst := 0 }

/-- A staged frame with nothing in it. -/
def emptyFrame : CanFrame :=
  { id := 0, ide := false, fdf := false, brs := false, rtr := false, dlc := 0, data := [] }

/-- One acceptance filter (CANB_FLTn). -/
structure CanFilter where
  id : BitVec 29
  ide : Bool
  /-- Bits FDF, BRS, RTR of ID2 as written. -/
  idHigh : BitVec 3
  mask : BitVec 29
  maskHigh : BitVec 4
  en : Bool
  deriving DecidableEq, Repr

def CanFilter.reset : CanFilter := { id := 0, ide := false, idHigh := 0, mask := 0, maskHigh := 0, en := false }

/-- CAN-B (Table Jieles-17). -/
structure CanB where
  mode : BitVec 2
  fden : Bool
  brsen : Bool
  tdcen : Bool
  ie : BitVec 3
  npre : BitVec 5
  ntseg1 : BitVec 8
  ntseg2 : BitVec 7
  nsjw : BitVec 7
  dpre : BitVec 5
  dtseg1 : BitVec 5
  dtseg2 : BitVec 4
  dsjw : BitVec 4
  tdco : BitVec 7
  /-- The frame being staged. -/
  stage : CanFrame
  /-- Transmit buffers 0 to 2 with their frames while pending. -/
  tx : Vector (Option CanFrame) 3
  txDone : BitVec 3
  txAbtd : BitVec 3
  /-- Aborts asked for a frame that is on the bus (R636). -/
  txAbort : BitVec 3
  rx : List CanFrame
  /-- The popped frame, and octets of it already read. -/
  rxFrame : CanFrame
  rxRead : Nat
  tec : BitVec 8
  recv : BitVec 8
  state : BitVec 2
  boff : Bool
  rxOvf : Bool
  badCfg : Bool
  badWr : Bool
  lec : BitVec 3
  filters : Vector CanFilter 4
  deriving DecidableEq, Repr

def CanB.reset : CanB :=
  { mode := 0, fden := false, brsen := false, tdcen := false, ie := 0, npre := 1, ntseg1 := 62, ntseg2 := 15,
    nsjw := 15, dpre := 0, dtseg1 := 28, dtseg2 := 9, dsjw := 9, tdco := 30, stage := emptyFrame,
    tx := Vector.replicate 3 none, txDone := 0, txAbtd := 0, txAbort := 0, rx := [], rxFrame := emptyFrame,
    rxRead := 0, tec := 0, recv := 0, state := 0, boff := false, rxOvf := false, badCfg := false, badWr := false,
    lec := 0, filters := Vector.replicate 4 CanFilter.reset }

/-- I2C (Table Jieles-18). -/
structure I2c where
  mode : BitVec 2
  ie : Bool
  ta : BitVec 7
  rd : Bool
  len : BitVec 9
  tx : List Octet
  rx : List Octet
  busy : Bool
  done : Bool
  res : BitVec 3
  badWr : Bool
  cnt : BitVec 9
  /-- The bus is held after a command 2 (R638). -/
  held : Bool
  /-- The transfer in progress ends by holding the bus. -/
  holdAfter : Bool
  deriving DecidableEq, Repr

def I2c.reset : I2c :=
  { mode := 0, ie := false, ta := 0, rd := false, len := 0, tx := [], rx := [], busy := false, done := false,
    res := 0, badWr := false, cnt := 0, held := false, holdAfter := false }

/-- Sensor SPI (Table Jieles-19). -/
structure Sspi where
  mode : BitVec 2
  div : BitVec 4
  cs : Bool
  ie : Bool
  len : BitVec 9
  tx : List Octet
  rx : List Octet
  busy : Bool
  done : Bool
  rxOvf : Bool
  badWr : Bool
  /-- The octets that the running or last transaction sent. -/
  sent : List Octet
  deriving DecidableEq, Repr

def Sspi.reset : Sspi :=
  { mode := 0, div := 0, cs := false, ie := false, len := 0, tx := [], rx := [], busy := false, done := false,
    rxOvf := false, badWr := false, sent := [] }

/-- GNSS UART and PPS capture (Table Jieles-20). -/
structure Gnss where
  rate : BitVec 3
  en : Bool
  ieRx : Bool
  iePps : Bool
  ppsEdge : Bool
  tx : List Octet
  /-- Received octets with their framing-error mark, oldest first, at most 256. -/
  rx : List (Octet × Bool)
  rxOvf : Bool
  ppsNew : Bool
  ppsMiss : Bool
  badWr : Bool
  /-- TCAP_NOW at the latest PPS edge; none before the first (R370). -/
  pps : Option (BitVec 36)
  /-- PPS1 and PPS2 latched for each requester. -/
  ppsLatch : Vector Pair 6
  deriving DecidableEq, Repr

def Gnss.reset : Gnss :=
  { rate := 1, en := false, ieRx := false, iePps := false, ppsEdge := false, tx := [], rx := [], rxOvf := false,
    ppsNew := false, ppsMiss := false, badWr := false, pps := none, ppsLatch := Vector.replicate 6 0 }

/-- GPIO and its eight PWM generators (Table Jieles-21); 40 balls, bit k of word j is GPIO 12j + k. -/
structure Gpio where
  dir : BitVec 40
  out : BitVec 40
  /-- Level at each ball. -/
  inp : BitVec 40
  pull : BitVec 40
  ien : BitVec 40
  iedge : BitVec 40
  iflg : BitVec 40
  badWr : Bool
  pwmEn : BitVec 8
  /-- Shadow and active period and high times; staging latches of their words 0. -/
  per : Pair
  high : Vector Pair 8
  actPer : Pair
  actHigh : Vector Pair 8
  perStage : Option Word
  highStage : Vector (Option Word) 8
  deriving DecidableEq, Repr

def Gpio.reset : Gpio :=
  { dir := 0, out := 0, inp := 0, pull := BitVec.allOnes 40, ien := 0, iedge := 0, iflg := 0, badWr := false,
    pwmEn := 0, per := 160000, high := Vector.replicate 8 0, actPer := 160000, actHigh := Vector.replicate 8 0,
    perStage := none, highStage := Vector.replicate 8 none }

/-- The general I/O blocks. -/
structure Periph where
  /-- Channels 4i to 4i + 3 of core i, then the Steward's sixteen. -/
  dma : Vector DmaChannel 32
  /-- The channel after which the next ADC request is served (R632). -/
  dmaTurn : Nat
  canb : CanB
  i2c : I2c
  sspi : Sspi
  gnss : Gnss
  gpio : Gpio
  deriving DecidableEq, Repr

def Periph.reset : Periph :=
  { dma := Vector.replicate 32 DmaChannel.reset, dmaTurn := 0, canb := CanB.reset, i2c := I2c.reset,
    sspi := Sspi.reset, gnss := Gnss.reset, gpio := Gpio.reset }

end Sys2Proof.Machine
end

