-- ==== Sys2Proof/Parts/Power.lean ====
section
/-! DEFINITION. The state of the power manager and the supply monitors (spec/03_power_and_swap.md), without the
hold-up ring. -/
namespace Sys2Proof.Machine

/-- The power manager's states (Table Power-6). -/
inductive PmState where
  | off
  | ao
  | starting
  | running
  | holdUp
  deriving DecidableEq, Repr

/-- The retry timer of R147: stopped, 10 ms, or 3 600 s (also the lock-out of R215). -/
inductive RetryTimer where
  | stopped
  | short
  | long
  deriving DecidableEq, Repr

/-- The power manager, its monitors and the fields of PMU_SUPPLY (Table Power-3). -/
structure Power where
  pm : PmState
  /-- VDDIO_A above the PWR_FAIL rising threshold, and not tripped since (R145). -/
  vddioAUp : Bool
  /-- VDDA above the PWR_FAIL rising threshold, and not tripped since. -/
  vddaUp : Bool
  /-- VDDIO_B above the B-LOW rising threshold, and not tripped since. -/
  vddioBUp : Bool
  /-- PFI_N is high (R144). -/
  pfiHigh : Bool
  /-- VDDIO_A has not fallen below IO-BOR since it rose. -/
  ioUp : Bool
  /-- The 1 ms period of R145 runs. -/
  goodPeriod : Bool
  /-- V33 is good (R145). -/
  v33Good : Bool
  /-- The retry timer (R147). -/
  retry : RetryTimer
  /-- VCORE faults and Beacon failures counted since the count last cleared (R147, R215). -/
  faultCount : Nat
  /-- Ledger ticks of the latest of them, newest first, at most 3 (R147). -/
  faultTimes : List Nat
  /-- A wake request held pending (Table Power-6). -/
  wakePending : Bool
  /-- PMU_SUPPLY.AOLOW. -/
  aoLow : Bool
  /-- PMU_SUPPLY.AOSRC: the always-on rail is fed by VDDIO_A. -/
  aoSrc : Bool
  /-- VDDIO_C as read at the last power-on reset of the VCORE domain (R136). -/
  cLevel : CLevel
  /-- C-LOW has tripped and not cleared (R192). -/
  cLow : Bool
  /-- The Teasel rail is held (R139). -/
  teaselRail : Bool
  /-- Celandine has started cold and no start has followed (R173). -/
  coldStart : Bool
  /-- The last power-down was orderly: the ledger tail in flash is whole (R150). -/
  orderly : Bool
  /-- B-LOW has raised PWR_FAIL with VDDIO_A and VDDA in range: the next start logs it (R191). -/
  mismatch : Bool
  deriving DecidableEq, Repr

/-- Before the always-on rail rises: everything is off, no rail is known to be up. DESIGN CHOICE (log 5). -/
def Power.reset : Power :=
  { pm := .off, vddioAUp := false, vddaUp := false, vddioBUp := false, pfiHigh := false, ioUp := false,
    goodPeriod := false, v33Good := false, retry := .stopped, faultCount := 0, faultTimes := [], wakePending := false, aoLow := false,
    aoSrc := false, cLevel := .absent, cLow := false, teaselRail := false, coldStart := false,
    orderly := true, mismatch := false }

/-- VCORE is present: Starting, Running or Hold-up (Table Power-2). -/
def Power.vcoreOn (p : Power) : Bool :=
  match p.pm with
  | .off | .ao => false
  | .starting | .running | .holdUp => true

end Sys2Proof.Machine
end

