-- ==== Sys2Proof/Machine/State.lean ====
section
/-! DEFINITION. The state of the part: one component record for each chapter of the spec, the counter of the free
values drawn (the model's own field), and the queue of commands that wait. -/
namespace Sys2Proof.Machine

/-- Why a step stops with a fault. No command of this model faults: the spec gives every command an effect. -/
inductive Fault where
  /-- Raised by no command; it stands here so that the type has a member (safe: nothing ends in it). -/
  | unraised
  deriving DecidableEq, Repr

/-- Why a step refuses a command. -/
inductive Refusal where
  /-- Raised by an arm of `exec` whose command has no meaning in this model yet (safe: the machine stops). -/
  | notModelled (mnemonic : String)
  deriving DecidableEq, Repr

/-- The state of the PZ-1224. -/
structure State where
  /-- Power manager and supply monitors (spec/03_power_and_swap.md). -/
  pow : Power
  /-- The hold-up ring and the PWR_FAIL sequence (R153 to R167). -/
  hold : HoldUp
  /-- Clocks, VCORE target and temperature (spec/02_fabric_and_domains.md). -/
  clk : Clocks
  /-- Start-up, tiers, watchdogs and lifecycle (spec/04_startup_and_tiers.md). -/
  boot : Boot
  /-- Host port, USB and mailboxes (spec/05_host_port.md). -/
  host : HostPort
  /-- Custody (spec/06_custody.md). -/
  cus : Custody
  /-- The ledger (spec/07_ledger.md). -/
  led : Ledger
  /-- Concord (spec/08_concord.md). -/
  con : Concord
  /-- Motor drive and Teasel (spec/09_motor_teasel.md). -/
  mot : Motor
  /-- Celandine (spec/10_celandine.md). -/
  cel : Celandine
  /-- Jieles cores 0 to 3 (spec/11_jieles_model.md). -/
  core : Vector CoreState 4
  /-- The Steward's contexts in the decimal units and in the crypto engine (R762). DESIGN CHOICE (log 130). -/
  stewDec : DecCtx
  stewCrypto : CryptoCtx
  /-- Operations in flight in the coprocessors (spec/14_inflight.md). -/
  cop : Cop
  /-- Shared SRAM, directory and caches (spec/14_inflight.md). -/
  mem : Memory
  /-- The general I/O blocks (Tables Jieles-16 to Jieles-21). -/
  per : Periph
  /-- Embedded flash (spec/15_eflash.md). -/
  fl : Flash
  /-- Image slots and Zheyr sets (R621, R854). -/
  img : Images
  /-- The journal (spec/16_journal.md). -/
  jou : Journal
  /-- The test access port and the trace port (R979 to R986). -/
  dbg : Debug
  /-- The model's own: how many free values have been drawn. -/
  free : Nat
  /-- Commands that wait, first in, first out. -/
  pending : List Instr
  deriving DecidableEq, Repr

/-- The part as made, before its always-on rail first rises. DESIGN CHOICE (log 5). -/
def State.reset : State :=
  { pow := Power.reset, hold := HoldUp.reset, clk := Clocks.reset, boot := Boot.reset, host := HostPort.reset,
    cus := Custody.reset, led := Ledger.reset, con := Concord.reset, mot := Motor.reset, cel := Celandine.reset,
    core := Vector.replicate 4 CoreState.reset, stewDec := DecCtx.reset, stewCrypto := CryptoCtx.reset,
    cop := Cop.reset, mem := Memory.reset, per := Periph.reset, fl := Flash.reset, img := Images.reset,
    jou := Journal.reset, dbg := Debug.reset, free := 0, pending := [] }

end Sys2Proof.Machine
end

