-- ==== Sys2Proof/Machine/Events.lean ====
section
/-! DEFINITION. Raising events (R290 to R293), entering journal records, and the journal's operations on the state. -/
namespace Sys2Proof.Machine

/-- The payload of an event frame (Table Host-11), and of an event record in the journal (Table Journal-6). -/
def Event.payload (e : Event) (lost : Nat) (mask : BitVec 16) : List Octet :=
  leOctets 3 e.number ++ leOctets 5 e.seconds ++ leOctets 2 e.fraction ++ leOctets 1 e.era ++ leOctets 2 lost ++
    leOctets 2 mask.toNat ++ e.data

/-- An event's class: the top nibble of its code (Table Host-12). -/
def Event.cls (e : Event) : Nat := e.code / 4096 % 16

/-- An event arrives at a transport's queue (R292, R293). DESIGN CHOICE (log 83). -/
def Port.push (p : Port) (e : Event) : Port :=
  if p.mask.getLsbD e.cls then p
  else if p.events.length < 64 then { p with events := p.events ++ [e] }
  else
    match p.events with
    | [] => p
    | old :: rest =>
      { p with events := rest ++ [e], lost := satAdd 65535 p.lost 1, lostMask := p.lostMask ||| (1#16 <<< old.cls),
               lostTotal := satAdd 0xFFFFFF p.lostTotal 1 }

/-- An event queued for the host port, and for USB while USB is configured (R290). -/
def HostPort.queueEvent (h : HostPort) (e : Event) : HostPort :=
  let p0 := (h.ports.get 0).push e
  let p1 := if h.usbConfigured then (h.ports.get 1).push e else h.ports.get 1
  { h with ports := #v[p0, p1], eventNumber := (h.eventNumber + 1) % 0x1000000 }

/-- Step 9 of Table Start-4 is reached and the Steward runs: events are raised at once (R290). -/
def State.eventsLive (s : State) : Bool :=
  s.pow.pm = .running && (s.boot.phase = .beacon || s.boot.phase = .decided)

/-- The ledger time now. DESIGN CHOICE (log 9). -/
def State.clock (s : State) : Clock := s.led.cur.clock

/-- LFX periods counted since the cold start: the base of the intervals that the spec states in seconds; an epoch that sets
ledger time back (R397) does not disturb it. DESIGN CHOICE (log 9). -/
def State.ticks (s : State) : Nat := s.led.base + s.clock.ticks

/-- The journal issues what is due (R909); after PWR_FAIL (R152) and below C-LOW (R192) no NAND command is new. -/
def State.pumpJournal (s : State) (due : Bool) : State :=
  if s.pow.pm = .holdUp || s.pow.cLow then s else { s with jou := s.jou.pump s.led.acks due }

/-- A record enters the journal (R894), and a page that it fills is programmed (R895). -/
def State.journal (s : State) (t : Clock) (type : Nat) (link : RecLink) (body : List Octet) : State :=
  ({ s with jou := s.jou.enter t type link body }).pumpJournal false

/-- An event raised now, with a ledger time of its own. DESIGN CHOICE (log 83). -/
def State.raiseAt (s : State) (t : Clock) (code : Nat) (data : List Octet) : State :=
  let e : Event := { code := code, number := s.host.eventNumber, era := t.era, seconds := t.seconds,
                     fraction := t.fraction, data := data }
  ({ s with host := s.host.queueEvent e }).journal t 3 .none (leOctets 2 code ++ e.payload 0 0)

/-- An event: raised at once from step 9 onward, else kept for the next start (R290, R577). -/
def State.raise (s : State) (code : Nat) (data : List Octet) : State :=
  if s.eventsLive then s.raiseAt s.clock code data
  else
    let e : Event := { code := code, number := 0, era := s.clock.era, seconds := s.clock.seconds,
                       fraction := s.clock.fraction, data := data }
    { s with host := { s.host with preEvents := s.host.preEvents ++ [e] } }

/-- Events kept before step 9 are raised in order (R577). DEDUCED (log 63). -/
def State.raisePre : List Event → State → State
  | [], s => s
  | e :: r, s =>
    State.raisePre r (s.raiseAt { s.clock with era := e.era, seconds := e.seconds, fraction := e.fraction } e.code e.data)

/-- The data of events that name a bank and a block. -/
def bankBlock (bank block : Nat) : List Octet := leOctets 1 bank ++ leOctets 1 block

/-- A frame of a JOURNAL_READ that succeeds. -/
def Frame.ofRead (f : Frame) : Bool := decide (f.cmd = 0x0702) && decide (f.stat = 0) && !f.evt

/-- What is queued of a JOURNAL_READ ends: its next frame carries status 0x31 with MORE at 0 and no payload (R936). -/
def Port.endRead (p : Port) : Port :=
  match p.responses.find? Frame.ofRead with
  | none => p
  | some f =>
    { p with responses := (p.responses.filter (fun x => !x.ofRead)) ++ [{ f with more := false, stat := 0x31, payload := [] }] }

/-- The journal changes its state (Table Journal-8), with event 0x8000. In the states of R898 that take no record the
tail and the overflow queue are emptied (R919); a read that is being answered ends (R936). DEDUCED (log 73). -/
def State.setJournal (s : State) (j : JState) : State :=
  let old := s.jou.state
  if old = j then s
  else
    let k := { s.jou with state := j }
    let k := if k.accepting then k
      else { k with entries := [], entriesSince := none, overflow := [], copies := [], moves := [], flushing := none, pageDue := false }
    let h := if k.readable then s.host else { s.host with ports := s.host.ports.map Port.endRead }
    ({ s with jou := k, host := h }).raise 0x8000 [BitVec.ofNat 8 old.code, BitVec.ofNat 8 j.code]

/-- Ready, Full and Worn follow from the blocks and the protected records (Table Journal-8). DEDUCED (log 115). -/
def State.judgeJournal (s : State) : State :=
  let j := s.jou
  if !j.writing then s
  else if j.journalBlocks < 64 || 0xFFFFFFFF ≤ j.nextSeq then s.setJournal .worn
  else
    let p := j.protectedOctets s.led.acks * 100
    if j.state = .ready && 90 * j.totalOctets < p then s.setJournal .full
    else if j.state = .full && p < 80 * j.totalOctets then s.setJournal .ready
    else s

/-- The records of the ledger ring that a journal confirmation covers (R395, R896). -/
def Ledger.mirror (l : Ledger) (r : Rec) : Ledger :=
  match r.link with
  | .none => l
  | .ride e n _ =>
    { l with rides := l.rides.map (fun x => if x.epoch = e && x.number = n then { x with mirrored := true } else x) }
  | .period e i =>
    { l with periods := l.periods.map (fun x => if x.epoch = e && x.index = i then { x with mirrored := true } else x) }

/-- A ledger record is on its way through the tail. -/
def Journal.queued (j : Journal) (k : RecLink) : Bool :=
  (j.entries ++ j.flying ++ j.copies).any (fun r => decide (r.link = k))

/-- The octets of a word record (R6). -/
def recOctets (ws : List Word) : List Octet := packWords ws

/-- Address of a page of the ledger ring, blocks 5 to 36 of bank 1 (R392). -/
def ringAddr (page : Nat) : Nat := 0xC28000 + 256 * page

/-- A page of the ring as its cells stand. -/
def State.ringWords (s : State) (page : Nat) : List Word := memGetList 0xFFF s.fl.cells (ringAddr page) 256

/-- Ride and period records that wait in the ring for a journal copy enter the tail (R394, R897). -/
def State.requeueLedger (s : State) : State :=
  if !s.jou.accepting then s
  else
    let a := s.led.periods.foldl (fun s p =>
      if !p.mirrored && !p.lost && !s.jou.queued (.period p.epoch p.index) && decide (s.jou.tailWords + 270 ≤ 2510) then
        s.journal s.clock 2 (.period p.epoch p.index) (recOctets (s.ringWords p.page)) else s) s
    a.led.rides.foldl (fun s p =>
      if !p.mirrored && !s.jou.queued (.ride p.epoch p.number p.period) && decide (s.jou.tailWords + 270 ≤ 2510) then
        s.journal s.clock 1 (.ride p.epoch p.number p.period) (recOctets (s.ringWords p.page)) else s) a

/-- Ring pages held by records that both copies of R51 or the host's acknowledgement have freed are given back (R395):
rides and periods acknowledged, or mirrored while the journal is present. -/
def State.journalConfirmed (s : State) (b : Nat) (p : JPage) : State :=
  let s1 := { s with jou := s.jou.confirm b p, led := p.recs.foldl Ledger.mirror s.led }
  s1.requeueLedger

end Sys2Proof.Machine
end

