-- ==== Sys2Proof/Machine/Mailbox.lean ====
section
/-! DEFINITION. The mailboxes: frames, the tests of R271 and R921, requests by Table Host-8, and responses. -/
namespace Sys2Proof.Machine

/-- The octets of a frame: header, payload and CRC (R267). -/
def Frame.octets (f : Frame) : List Octet :=
  let h := leOctets 1 (f.chan % 8 + (if f.dir then 128 else 0)) ++ [f.seq] ++ leOctets 2 f.cmd ++
    leOctets 2 f.payload.length ++ leOctets 1 (f.rtx.toNat + 2 * f.more.toNat + 4 * f.evt.toNat) ++ leOctets 1 f.stat
  let body := h ++ f.payload
  body ++ leOctets 4 (crc32c body).toNat

/-- The null frame (R255). -/
def nullFrame : List Octet := List.replicate 12 0

/-- A received frame whose length and CRC are right, with its reserved bits (Table Host-5). -/
structure RawFrame where
  chan : Nat
  dir : Bool
  /-- A reserved bit is set. -/
  reserved : Bool
  seq : Octet
  cmd : Nat
  flags : Octet
  payload : List Octet
  deriving DecidableEq, Repr

/-- The frame that octets spell; none when the octet count, the length or the CRC is wrong (R301). MORE, EVT and STAT, to which
Table Host-5 gives a meaning in responses and events only, count as reserved bits of a request. DESIGN CHOICE (log 136). -/
def parseFrame (os : List Octet) : Option RawFrame :=
  let len := fieldNat os 4 2 % 1024
  let body := os.take (8 + len)
  if os.length < 12 || 1020 < len || os.length ≠ 12 + len || fieldNat os (8 + len) 4 ≠ (crc32c body).toNat then none
  else
    let o0 := (octetAt os 0).toNat
    let o6 := (octetAt os 6).toNat
    some { chan := o0 % 8, dir := decide (128 ≤ o0), seq := octetAt os 1, cmd := fieldNat os 2 2, flags := octetAt os 6,
           reserved := decide (o0 / 8 % 16 ≠ 0) || decide (fieldNat os 4 2 / 1024 ≠ 0) || decide (8 ≤ o6) ||
             decide (o6 / 2 % 4 ≠ 0) || decide ((octetAt os 7).toNat ≠ 0),
           payload := (os.drop 8).take len }

/-- What the command tables fix of a command (R920): channel, roles, lowest tier, and the form of the payload: its length and the
bits that must be 0. -/
structure CmdInfo where
  chan : Nat
  roles : List Role
  low : Tier
  lenOk : List Octet → Bool

def allRoles : List Role := [.vehicle, .pack, .dock, .bringUp]
/-- A fixed payload length. -/
def lenIs (n : Nat) (p : List Octet) : Bool := p.length == n
/-- A part (R925): header of 8 octets after `skip`, its fixed bits at 0, and at most 672 packed words. -/
def lenPart (skip : Nat) (p : List Octet) : Bool :=
  decide (8 + skip ≤ p.length) && decide (p.length ≤ 1016 + skip) && packedLengthOk (p.length - 8 - skip) &&
    decide ((octetAt p (skip + 1)).toNat < 2)
/-- A fixed length, with octets of which some high bits must be 0 (R20, R923): place and bound. -/
def lenBits (n : Nat) (l : List (Nat × Nat)) (p : List Octet) : Bool :=
  p.length == n && l.all (fun q => decide ((octetAt p q.1).toNat < q.2))
/-- KEYS: the length follows the operation (Table Cmd-6). -/
def lenKeys (p : List Octet) : Bool :=
  match p with
  | [] => false
  | o :: _ => if o = 0 then p.length == 346 else if o.toNat ≤ 2 then p.length == 129 else true

/-- The commands of Tables Cmd-3 to Cmd-16. -/
def cmdInfo (cmd : Nat) : Option CmdInfo :=
  let mk (chan : Nat) (roles : List Role) (low : Tier) (lenOk : List Octet → Bool) : Option CmdInfo :=
    some { chan := chan, roles := roles, low := low, lenOk := lenOk }
  match cmd with
  | 0x0101 | 0x0102 | 0x0107 => mk 0 allRoles .t1 (lenIs 0)
  | 0x0103 | 0x0104 | 0x0106 => mk 0 allRoles .t1 (lenIs 1)
  | 0x0105 => mk 0 allRoles .t1 (lenIs 2)
  | 0x0201 => mk 0 allRoles .t1 (lenPart 0)
  | 0x0202 | 0x020A => mk 0 allRoles .t1 (lenIs 1)
  | 0x0207 => mk 0 allRoles .t1 (lenBits 1 [(0, 32)])
  | 0x0203 | 0x0206 | 0x0208 | 0x020B | 0x020C => mk 0 allRoles .t1 (lenIs 0)
  | 0x0204 => mk 0 allRoles .t1 (lenBits 2 [(0, 32), (1, 4)])
  | 0x0205 => mk 0 allRoles .t1 (lenBits 2 [(0, 32), (1, 2)])
  | 0x0209 => mk 0 allRoles .t1 lenKeys
  | 0x0301 => mk 5 allRoles .t1 (lenBits 8 [(6, 128)])
  | 0x0302 => mk 5 [.vehicle] .t2 (lenIs 0)
  | 0x0303 | 0x0304 => mk 5 [.vehicle] .t1 (lenIs 0)
  | 0x0305 | 0x0306 | 0x0307 => mk 5 [.vehicle] .t1 (lenIs 5)
  | 0x0308 | 0x030A => mk 5 allRoles .t1 (lenIs 0)
  | 0x0309 => mk 5 allRoles .t1 (lenIs 128)
  | 0x0401 => mk 0 [.vehicle, .pack, .dock] .t1 (lenIs 0)
  | 0x0402 => mk 0 [.dock] .t3 (lenBits 6 [(4, 16)])
  | 0x0403 => mk 0 [.vehicle] .t2 (lenPart 1)
  | 0x0501 | 0x0503 => mk 0 [.vehicle] .t1 (lenIs 0)
  | 0x0502 => mk 0 [.vehicle] .t2 (lenIs 0)
  | 0x0601 => mk 0 allRoles .t1 (lenIs 4)
  | 0x0602 => mk 0 allRoles .t1 (lenPart 0)
  | 0x0603 => mk 0 allRoles .t1 (lenIs 1)
  | 0x0604 => mk 0 allRoles .t1 (lenIs 0)
  | 0x0605 => mk 0 allRoles .t1 (lenIs 3)
  | 0x0701 => mk 6 allRoles .t1 (lenIs 0)
  | 0x0702 => mk 6 allRoles .t1 (lenIs 10)
  | 0x0703 => mk 0 allRoles .t1 (fun p => decide (1 ≤ p.length) && decide (p.length ≤ 256))
  | 0x0704 => mk 0 allRoles .t1 (lenIs 1)
  | 0x0705 => mk 0 allRoles .t1 (lenIs 0)
  | 0x0801 => mk 0 allRoles .t1 (lenIs 0)
  | 0x0802 => mk 0 [.vehicle, .dock, .bringUp] .t1 (lenIs 0)
  | 0x0803 => mk 0 allRoles .t1 (lenIs 2)
  | 0x0804 => mk 0 [.vehicle, .dock, .bringUp] .t1 (lenIs 2)
  | 0x0901 => mk 0 [.vehicle, .dock] .t1 (lenIs 0)
  | 0x0902 => mk 0 [.vehicle, .dock] .t2 (lenIs 1)
  | 0x0A01 | 0x0A02 | 0x0A03 => mk 0 allRoles .t1 (lenIs 0)
  | _ => none

/-- Whether a command code exists (R272). -/
def cmdExists (cmd : Nat) : Bool := decide (0x8000 ≤ cmd) || (cmdInfo cmd).isSome

/-- Role and tier of a command (R921 step 2, R271 step 4): the failing status. -/
def State.roleTier (s : State) (cmd : Nat) : Option Nat :=
  match cmdInfo cmd with
  | none => if s.boot.tier.toNat < 1 then some 0x06 else none
  | some i => if !i.roles.contains s.boot.role then some 0x1A
    else if s.boot.tier.toNat < i.low.toNat then some 0x06 else none

/-- The tests of R271, in order: the first failure's status. DESIGN CHOICE (log 1). DEDUCED (log 80). -/
def State.r271 (s : State) (f : RawFrame) : Option Nat :=
  let badLen := match cmdInfo f.cmd with
    | none => false
    | some i => !i.lenOk f.payload
  if f.reserved || f.dir || badLen then some 0x02
  else if !cmdExists f.cmd then some 0x03
  else
    let chanOk := match cmdInfo f.cmd with
      | none => decide (1 ≤ f.chan) && decide (f.chan ≤ 4)
      | some i => decide (i.chan = f.chan)
    if !chanOk then some 0x04 else s.roleTier f.cmd

/-- A response frame of a channel (R268). -/
def mkResponse (chan : Nat) (seq : Octet) (cmd stat : Nat) (payload : List Octet) : Frame :=
  { chan := chan, dir := true, seq := seq, cmd := cmd, rtx := false, more := false, evt := false, stat := stat,
    payload := payload }

/-- A transport's state changed. -/
def State.setPort (s : State) (t : Transport) (f : Port → Port) : State :=
  { s with host := { s.host with ports := s.host.ports.set t.slot (f (s.host.ports.get t.slot)) } }

def State.port (s : State) (t : Transport) : Port := s.host.ports.get t.slot

/-- The transport carries frames now: the host port from step 9 to PWR_FAIL (R256), USB while configured (R264). -/
def State.portUp (s : State) (t : Transport) : Bool :=
  match t with
  | .hostPort => s.host.enabled && s.host.admitting
  | .usb => s.host.usbConfigured && s.host.admitting

/-- The commands that have begun and wait for their end, by transport and channel. -/
def State.begunOn (s : State) : List (Transport × Fin 7) :=
  ([.hostPort, .usb] : List Transport).flatMap (fun t => (List.finRange 7).filterMap (fun c =>
    if ((s.port t).chans.get c).begun then some (t, c) else none))

/-- An event 0x1001 for a fall of the tier (R223): queued after the responses of the commands that are executing (R296). -/
def State.raiseTier (s : State) (data : List Octet) : State :=
  let busy := s.begunOn
  if !s.eventsLive || busy.isEmpty then s.raise 0x1001 data
  else
    let e : Event := { code := 0x1001, number := 0, era := s.clock.era, seconds := s.clock.seconds, fraction := s.clock.fraction, data := data }
    { s with host := { s.host with tierHeld := s.host.tierHeld ++ [(e, busy)] } }

/-- A command's response has been queued: tier events that waited for it alone are raised (R296). -/
def State.tierReleased (s : State) (t : Transport) (c : Fin 7) : State :=
  let l := s.host.tierHeld.map (fun x => (x.1, x.2.filter (fun y => y ≠ (t, c))))
  State.raisePre ((l.filter (fun x => x.2.isEmpty)).map (·.1)) { s with host := { s.host with tierHeld := l.filter (fun x => !x.2.isEmpty) } }

/-- A response queued for transmission. -/
def Port.send (p : Port) (f : Frame) : Port := { p with responses := p.responses ++ [f] }

/-- A channel changed. -/
def Port.setChan (p : Port) (c : Fin 7) (x : Channel) : Port := { p with chans := p.chans.set c x }

/-- What becomes of an arriving request (Table Host-8). -/
inductive Arrival where
  /-- Accepted, or accepted before and not yet begun: it executes. -/
  | run
  /-- Answered or ignored. -/
  | settled
  deriving DecidableEq, Repr

/-- A request reaches a channel: the tests of R271 come first for every request, then Table Host-8 (R274). DEDUCED (log 80). -/
def State.arrive (s : State) (t : Transport) (f : RawFrame) : State × Arrival :=
  if h : f.chan < 7 then
    let c : Fin 7 := ⟨f.chan, h⟩
    let p := s.port t
    let ch := p.chans.get c
    let err (st : Nat) : State × Arrival :=
      (s.setPort t (·.send (mkResponse f.chan f.seq f.cmd st [])), .settled)
    let accept : State × Arrival :=
      let r : Request := { seq := f.seq, cmd := f.cmd, payload := f.payload }
      (s.setPort t (·.setChan c { phase := .executing, begun := false, last := some r, flags := f.flags, cache := none, interim := none }), .run)
    match s.r271 f, ch.last with
    | some st, _ => err st
    | none, none => accept
    | none, some r =>
      let sameSeq := decide (r.seq = f.seq)
      let same := sameSeq && decide (r.cmd = f.cmd) && decide (r.payload = f.payload)
      match ch.phase with
      | .idle => accept
      | .executing =>
        if same then
          match ch.interim with
          | none => (s, .settled)
          | some i => (s.setPort t (·.send { i with rtx := true }), .settled)
        else if sameSeq then err 0x09
        else err 0x05
      | .answered =>
        if same then
          if f.chan = 6 then
            (s.setPort t (·.setChan c { ch with phase := .executing, begun := false, interim := none }), .run)
          else
            match ch.cache with
            | none => (s, .settled)
            | some i => (s.setPort t (·.send { i with rtx := true }), .settled)
        else if sameSeq then err 0x09
        else accept
  else (s.setPort t (·.send (mkResponse f.chan f.seq f.cmd ((s.r271 f).getD 0x04) [])), .settled)

/-- A final response (Table Host-8): queued, and kept in the cache on channels 0 to 5. -/
def State.respond (s : State) (t : Transport) (c : Fin 7) (stat : Nat) (payload : List Octet) : State :=
  let ch := (s.port t).chans.get c
  match ch.last with
  | none => s
  | some r =>
    let f := mkResponse c.val r.seq r.cmd stat payload
    (s.setPort t (fun p => (p.send f).setChan c
      { ch with phase := .answered, begun := false, interim := none, cache := if c.val ≤ 5 then some f else none })).tierReleased t c

/-- A response of several frames on channel 6 (R279). -/
def State.respondStream (s : State) (t : Transport) (c : Fin 7) (parts : List (Nat × List Octet)) : State :=
  let ch := (s.port t).chans.get c
  match ch.last with
  | none => s
  | some r =>
    let n := parts.length
    let fs := parts.zipIdx.map (fun q => { mkResponse c.val r.seq r.cmd q.1.1 q.1.2 with more := decide (q.2 + 1 < n) })
    (s.setPort t (fun p => { p with responses := p.responses ++ fs }.setChan c
      { ch with phase := .answered, begun := false, interim := none, cache := none })).tierReleased t c

/-- An interim response (R276). -/
def State.interim (s : State) (t : Transport) (c : Fin 7) (ms : Nat) : State :=
  let ch := (s.port t).chans.get c
  match ch.phase, ch.last with
  | .executing, some r =>
    let f := mkResponse c.val r.seq r.cmd 0x01 (leOctets 3 ms)
    s.setPort t (fun p => (p.send f).setChan c { ch with interim := some f })
  | _, _ => s

/-- What a command's execution answers: a final status with its payload, a stream of frames, a wait for its end, or nothing yet, since
an earlier command holds what it needs (R295). -/
inductive Reply where
  | final (stat : Nat) (payload : List Octet)
  | stream (parts : List (Nat × List Octet))
  | wait
  | later
  deriving DecidableEq, Repr

/-- OK with a payload. -/
def ok (payload : List Octet) : Reply := .final 0 payload
/-- A refusal: a status and no payload (R922). -/
def refuse (stat : Nat) : Reply := .final stat []

def channelOf (n : Nat) : Fin 7 := if h : n < 7 then ⟨n, h⟩ else 0

/-- The reply given on a channel; a wait leaves it executing. -/
def State.reply (s : State) (t : Transport) (c : Fin 7) : Reply → State
  | .final st p => s.respond t c st p
  | .stream ps => s.respondStream t c ps
  | .wait => s.setPort t (fun p => p.setChan c { p.chans.get c with begun := true })
  | .later => s

/-- A Steward command executes for a request: accepted before and waiting, or arriving with this step (Table Host-8,
R921). The role and the tier are tested again at the start of the execution (R296). DESIGN CHOICE (log 12). -/
def State.command (s : State) (cmd : Nat) (q : CmdReq) (run : State → State × Reply) : State :=
  if !s.portUp q.transport then s
  else
    match cmdInfo cmd with
    | none => s
    | some i =>
      let c := channelOf i.chan
      let ch := (s.port q.transport).chans.get c
      let r : Request := { seq := q.seq, cmd := cmd, payload := q.payload }
      let execute (s : State) : State :=
        match s.roleTier cmd with
        | some st => s.respond q.transport c st []
        | none => let (s1, rep) := run s; s1.reply q.transport c rep
      if ch.phase = .executing && !ch.begun && ch.last = some r then execute s
      else
        match s.arrive q.transport { chan := i.chan, dir := false, reserved := false, seq := q.seq, cmd := cmd, flags := 0,
                                     payload := q.payload } with
        | (s1, .settled) => s1
        | (s1, .run) => execute s1

/-- The transport and channel on which a command has begun and waits for its end. -/
def State.waiter (s : State) (cmd : Nat) : Option (Transport × Fin 7) :=
  match cmdInfo cmd with
  | none => none
  | some i =>
    let c := channelOf i.chan
    let has (t : Transport) : Bool :=
      let ch := (s.port t).chans.get c
      ch.begun && (match ch.last with | some r => r.cmd == cmd | none => false)
    if has .hostPort then some (.hostPort, c) else if has .usb then some (.usb, c) else none

/-- A waiting command ends with its final response. DESIGN CHOICE (log 12). -/
def State.finish (s : State) (cmd : Nat) (rep : Reply) : State :=
  match s.waiter cmd with
  | none => s
  | some (t, c) => s.reply t c rep

end Sys2Proof.Machine
end

