-- ==== Sys2Proof/Machine/Editions.lean ====
section
/-! DEFINITION. The payloads of the five configuration domains (Tables Cmd-18 to Cmd-26): built-in defaults,
significance, ranges, and the effective edition of a domain. -/
namespace Sys2Proof.Machine

/-- The lifecycle in force and as reported: Fielded while its record is unreadable (R245). -/
def State.lifecycle (s : State) : Lifecycle := if s.boot.lifecycleReadable then s.boot.lifecycle else .fielded

/-- The code of a domain, 1 to 5, less 1 (Table Custody-4). -/
def domIdx : EdDomain → Fin 5
  | .vehicle => 0
  | .fleet => 1
  | .tariff => 2
  | .grants => 3
  | .teasel => 4

/-- The domain of a code 1 to 5. -/
def domOfCode (n : Nat) : Option EdDomain :=
  if n = 1 then some .vehicle else if n = 2 then some .fleet else if n = 3 then some .tariff
  else if n = 4 then some .grants else if n = 5 then some .teasel else none

def allDomains : List EdDomain := [.vehicle, .fleet, .tariff, .grants, .teasel]

/-- The roles that hold a domain (Table Custody-4). -/
def domHeld (d : EdDomain) (r : Role) : Bool :=
  match d, r with
  | _, .bringUp => false
  | .vehicle, _ => true
  | .fleet, _ => true
  | .tariff, .vehicle => true
  | .grants, .vehicle => true
  | .grants, .dock => true
  | .teasel, .vehicle => true
  | .tariff, .pack | .tariff, .dock | .grants, .pack | .teasel, .pack | .teasel, .dock => false

/-- Word i of a payload; 0 beyond its end. -/
def wAt (p : List Word) (i : Nat) : Word := (p.drop i).headD 0
/-- Word i as a number. -/
def wN (p : List Word) (i : Nat) : Nat := (wAt p i).toNat
/-- n words from word i as a number (R12). -/
def wNum (p : List Word) (i n : Nat) : Nat := wordsNat ((p.drop i).take n)
/-- Word i in two's complement. -/
def wInt (p : List Word) (i : Nat) : Int := (wAt p i).toInt
def words (l : List Nat) : List Word := l.map (BitVec.ofNat 12)

/-- The built-in vehicle edition (Tables Cmd-18 to Cmd-20, R317, R319). -/
def defaultVehicle (r : Role) : List Word :=
  words ([r.code, 120, 90, 0, 8, 0, 8, 0, 0, 1, 8] ++ List.replicate 5 0 ++ List.replicate 12 0 ++ [60, 0, 0, 0] ++
    [100, 25, 25, 12, 2048, 10, 700, 1, 1, 1, 1] ++ List.replicate 21 0 ++
    [0x0F0, 1, 100, 0, 1, 3] ++ List.replicate 26 0 ++ List.replicate 32 0)

/-- The built-in fleet edition (Table Cmd-22): the more restrictive end of each range. -/
def defaultFleet : List Word :=
  words [0, 0, 0, 3, 10, 1, 3600, 3400, 20, 30, 40, 6, 0, 0, 0, 0]

/-- The built-in grants edition: nothing granted, no route, and the default response limit of 500 ms (R283, R319). -/
def defaultGrants : List Word :=
  List.replicate 80 0 ++ (List.replicate 4 (words [0xFFF, 0, 0, 500])).foldl (· ++ ·) []

/-- The built-in Teasel edition (Table Cmd-26). -/
def defaultTeasel : List Word :=
  words ([0, 0, 0, 0] ++ List.replicate 4 1023 ++ List.replicate 4 0 ++ [1, 0, 0, 5, 100])

/-- The built-in payload of a domain; the tariff default has none. -/
def defaultPayload (d : EdDomain) (r : Role) : List Word :=
  match d with
  | .vehicle => defaultVehicle r
  | .fleet => defaultFleet
  | .tariff => []
  | .grants => defaultGrants
  | .teasel => defaultTeasel

/-- The significance of a payload word (R340). -/
inductive Sig where
  | significant
  | reserved
  /-- Conditional, and its condition holds or not. -/
  | cond (holds : Bool)
  deriving DecidableEq, Repr

/-- The word counts now: significant, or conditional with its condition holding. -/
def Sig.counts : Sig → Bool
  | .significant => true
  | .reserved => false
  | .cond b => b

/-- Significance of a vehicle payload word (Tables Cmd-18 to Cmd-21). -/
def sigVehicle (p : List Word) (i : Nat) : Sig :=
  let r := wN p 0
  if i ≤ 3 || i = 5 then .significant
  else if i = 4 then .cond (wN p 3 = 1)
  else if i = 6 then .cond (wN p 5 = 1)
  else if i = 7 then .cond (r = 0 || r = 2)
  else if i ≤ 27 then .cond (wN p 7 = 1)
  else if i = 28 then .cond (r = 0 || r = 2)
  else if i ≤ 31 then .reserved
  else if i ≤ 42 then (if r = 0 then .cond true else .reserved)
  else if i ≤ 63 then .reserved
  else if i ≤ 93 then (if r = 1 then .cond true else .reserved)
  else if i ≤ 95 then .reserved
  else if i = 96 then .cond (r = 2)
  else if i ≤ 123 then .reserved
  else if i ≤ 125 then .cond (wN p 126 ≠ 0)
  else if i = 126 then .significant
  else if i = 127 then .reserved
  else .significant

/-- Significance of a payload word of any domain. -/
def sigOf (d : EdDomain) (p : List Word) (i : Nat) : Sig :=
  match d with
  | .vehicle => sigVehicle p i
  | .fleet => if i ≤ 11 then .significant else .reserved
  | .tariff => if i ≤ 34 then .significant else .reserved
  | .grants =>
    if i < 80 then
      let k := i % 16
      if k ≤ 2 then .significant else if k ≤ 4 then .cond (wN p (i - k + 2) = 1) else .reserved
    else if (i - 80) % 4 = 0 then .significant else .cond (wN p (i - (i - 80) % 4) ≠ 0xFFF)
  | .teasel =>
    if i ≤ 3 then .significant
    else if i ≤ 7 then .cond (wN p (i - 4) = 1)
    else if i ≤ 11 then .cond (wN p (i - 8) = 1)
    else if i = 12 then .significant
    else if i = 13 then .cond (wN p 12 = 1)
    else if i = 14 then .significant
    else .cond (wN p 14 = 1)

def inRange (x lo hi : Nat) : Bool := decide (lo ≤ x) && decide (x ≤ hi)
def inRangeI (x lo hi : Int) : Bool := decide (lo ≤ x) && decide (x ≤ hi)

/-- A block of a bank holds program data (Table Flash-1). -/
def programData (bank block : Nat) : Bool :=
  if bank = 0 then inRange block 64 125 else inRange block 96 125

/-- A DS value of class 0x0 with decimal digits (Table Decimal-1). -/
def dsPositive (ws : List Word) : Bool :=
  decide ((wAt ws 4).toNat / 256 = 0) &&
    (List.range 14).all (fun i => decide ((wAt ws (i / 3)).toNat / 16 ^ (i % 3) % 16 ≤ 9))

/-- Descriptor i of the pack schedule lies in its ranges (Table Cmd-21). -/
def descriptorOk (p : List Word) (b : Nat) : Bool :=
  let w0 := wN p b
  let q := w0 % 8
  let first := w0 / 16 % 16
  let count := w0 / 256 + 1
  let w1 := wN p (b + 1)
  let w2 := wN p (b + 2)
  let w3 := wN p (b + 3)
  if q = 0 then w0 = 0 && w1 = 0 && w2 = 0 && w3 = 0
  else
    decide (q ≤ 4) && decide (w0 / 8 % 2 = 0) && decide (w1 < 256) && decide (w2 < 1024) && inRange w3 1 4095 &&
      decide (count * (if w2 / 256 = 3 then 3 else 2) ≤ 48) &&
      (if q = 1 then decide (first + count ≤ wN p 65) else if q = 4 then decide (first + count ≤ 16) else decide (count = 1))

/-- The range of a vehicle payload word that counts (Tables Cmd-18 to Cmd-20). -/
def rangeVehicle (role : Role) (p : List Word) (i : Nat) : Bool :=
  let x := wN p i
  let r := wN p 0
  if i = 0 then decide (x = role.code) && decide (x ≤ 2)
  else if i = 1 then inRange x 60 600
  else if i = 2 then inRange x 10 100
  else if i = 3 || i = 5 then decide (x ≤ 1)
  else if i = 4 || i = 6 then inRange x 1 14
  else if i = 7 then (if r = 1 then decide (x = 0) else decide (x ≤ 1))
  else if i = 8 then decide (x ≤ 1)
  else if i = 9 then decide (x ≤ 2)
  else if i = 10 then decide (x ≤ 15)
  else if i ≤ 15 then decide (x < 256) && decide (x % 128 ≤ 111)
  else if i ≤ 27 then decide ((i - 16) % 3 ≠ 2) || decide (x < 16)
  else if i = 28 then inRange x 5 600
  else if i = 32 then inRange x 10 800
  else if i = 33 then inRange x 5 100
  else if i = 34 then inRange x 6 45
  else if i = 35 then inRange x 6 (wN p 34)
  else if i = 37 then inRange x 1 1000
  else if i = 38 then inRange x 100 4095
  else if i = 39 then inRange x 1 255
  else if i = 40 then inRange x 1 4095
  else if i = 41 then decide (x ≤ 1)
  else if i = 42 then inRange x 1 2
  else if i = 64 then decide (x / 256 = 0)
  else if i = 65 then inRange x 1 16
  else if i = 66 then inRange x 10 1000
  else if i = 67 then decide (x ≤ 1)
  else if i = 68 then inRange x 1 4095
  else if i = 69 then inRange x 1 15
  else if 70 ≤ i && i ≤ 93 then descriptorOk p (70 + (i - 70) / 4 * 4)
  else if i = 124 then
    let a := wNum p 124 2
    decide (a % 2 = 0) && decide (0x110000 ≤ a) && decide (a + wN p 126 ≤ 0x200000)
  else if i = 126 then (if r = 1 then decide (x = 0) else decide (x ≤ 1792))
  else true

/-- The range of a payload word that counts. -/
def rangeOf (d : EdDomain) (role : Role) (p : List Word) (i : Nat) : Bool :=
  let x := wN p i
  match d with
  | .vehicle => rangeVehicle role p i
  | .fleet =>
    if i = 2 then decide (x < 256)
    else if i = 3 then inRange x 2 3
    else if i = 4 then inRange x 10 800
    else if i = 5 then inRange x 1 300
    else if i = 6 then inRange x 3600 4350
    else if i = 7 then inRange x 2500 3400
    else if i = 8 then inRangeI (wInt p 8) (-20) 20
    else if i = 9 then inRangeI (wInt p 9) 30 60
    else if i = 10 then inRangeI (wInt p 10) 40 75
    else if i = 11 then inRange x 6 45
    else true
  | .tariff =>
    if i = 0 then inRangeI (wInt p 0) (-720) 840 && decide (wInt p 0 % 15 = 0)
    else if i = 1 then inRange (wNum p 1 2) 900 2419200 && decide (wNum p 1 2 % 900 = 0)
    else if i = 3 then decide (wNum p 3 2 + 900 ≤ wNum p 1 2) && decide (wNum p 3 2 % 900 = 0)
    else if i = 5 then decide (x % 8 ≤ 4) && decide (x / 8 % 2 = 0) && decide (x < 64)
    else if i = 6 || i = 11 || i = 16 || i = 21 || i = 26 then dsPositive ((p.drop i).take 5)
    else if i = 31 then inRange (wNum p 31 2) 600 172800
    else true
  | .grants =>
    if i < 80 then
      let k := i % 16
      let b := i - k
      if k = 0 then decide (x / 256 % 2 = 0)
      else if k = 1 then decide (x < 8)
      else if k = 2 then decide (x ≤ 1)
      else if k = 3 then decide (x < 256) && programData (x % 2) (x / 2)
      else if k = 4 then
        inRange x (wN p (b + 3) / 2) 125 && programData (wN p (b + 3) % 2) x
      else true
    else
      let k := (i - 80) % 4
      let b := i - k
      if k = 0 then decide (x ≤ 4) || decide (x = 0xFFF)
      else if k = 1 then
        let a := wNum p (b + 1) 2
        decide (a % 2048 = 0) && decide (0x110000 ≤ a) && decide (a + 2048 ≤ 0x200000)
      else if k = 3 then inRange x 1 5000
      else true
  | .teasel =>
    if i ≤ 3 || i = 12 || i = 14 then decide (x ≤ 1)
    else if i ≤ 7 then decide (x < 2048)
    else if i ≤ 11 || i = 13 then decide (x ≤ 3)
    else if i = 15 then inRange x 1 20
    else inRange x 1 3000

/-- The payload length that a domain's table fixes or implies (R930). -/
def lengthOf (d : EdDomain) (p : List Word) : Bool :=
  match d with
  | .vehicle => decide (128 ≤ p.length) && decide (p.length = 128 + wN p 126)
  | .fleet => p.length == 16
  | .tariff => p.length == 36
  | .grants => p.length == 96
  | .teasel => p.length == 17

/-- A set of one grants payload grants the block of a grant bit. -/
def grantBit (p : List Word) (set bit : Nat) : Bool :=
  if bit ≤ 11 then (wAt p (16 * set)).getLsbD bit else (wAt p (16 * set + 1)).getLsbD (bit - 12)

/-- At most one of cores 0 to 3 holds a grant bit; bit 0 is the crypto engine (R482, R597, R634, R642). -/
def soleHolder (p : List Word) (bit : Nat) : Bool :=
  decide (((List.range 4).filter (fun s => grantBit p s bit)).length ≤ 1)

/-- The reserved bits of a word are 0, whether or not the word counts (R930). -/
def reservedBitsOk (d : EdDomain) (p : List Word) (i : Nat) : Bool :=
  let x := wN p i
  match d with
  | .vehicle =>
    if inRange i 11 15 then decide (x < 256)
    else if inRange i 16 27 then decide ((i - 16) % 3 ≠ 2) || decide (x < 16)
    else if i = 64 then decide (x < 256)
    else if inRange i 70 93 then
      (if (i - 70) % 4 = 1 then decide (x < 256) else if (i - 70) % 4 = 2 then decide (x < 1024) else true)
    else true
  | .grants => if i < 80 && i % 16 = 3 then decide (x < 256) else true
  | .teasel => if inRange i 4 7 then decide (x < 2048) else true
  | .fleet => true
  | .tariff => true

/-- A payload passes R930 and the rules of its domain. -/
def payloadOk (d : EdDomain) (role : Role) (p : List Word) : Bool :=
  lengthOf d p &&
    (List.range p.length).all (fun i =>
      match sigOf d p i with
      | .reserved => decide (wAt p i = 0)
      | .significant => rangeOf d role p i
      | .cond b => reservedBitsOk d p i && (!b || rangeOf d role p i)) &&
    (match d with
     | .grants => [0, 3, 9, 10, 11, 12].all (soleHolder p)
     | _ => true)

/-- The payload as it is signed and compared: what does not count is 0 (R323). -/
def significantImage (d : EdDomain) (p : List Word) : List Word :=
  p.zipIdx.map (fun q => if (sigOf d p q.2).counts then q.1 else 0)

/-- The record that is effective in a domain: Current, or Previous where Current diverges materially (R342). -/
def DomainSlots.effective (x : DomainSlots) : Option EdRecord := if x.currentBad then x.previous else x.current

/-- A domain's slots. -/
def State.slot (s : State) (d : EdDomain) : DomainSlots := s.cus.slots.get (domIdx d)

/-- The effective payload of a domain (R317, R319). -/
def State.edition (s : State) (d : EdDomain) : List Word :=
  if !domHeld d s.boot.role then defaultPayload d s.boot.role
  else
    match (s.slot d).effective with
    | none => defaultPayload d s.boot.role
    | some r => r.payload

/-- Number of the effective edition; 0 is the built-in default. -/
def State.editionNumber (s : State) (d : EdDomain) : Nat :=
  match (s.slot d).effective with
  | none => 0
  | some r => r.number

/-- Word i of the effective vehicle edition. -/
def State.veh (s : State) (i : Nat) : Nat := wN (s.edition .vehicle) i

/-- What Teasel takes from a Teasel payload (Tables Motor-9, Cmd-26): thresholds as TSL_THR, TSL_CFG, D, dwell. -/
def teaselCfgOf (p : List Word) : TeaselCfg :=
  let thr (n : Nat) : Word :=
    BitVec.ofNat 12 (if wN p n = 1 then wN p (4 + n) % 2048 + 2048 else 1023)
  let filt (n : Nat) : Nat := if wN p n = 1 then wN p (8 + n) % 4 else 0
  let low := wN p 14
  { thr := #v[thr 0, thr 1, thr 2, thr 3],
    cfg := BitVec.ofNat 12 (low % 2 + 2 * (wN p 12 % 2) + 4 * (if wN p 12 = 1 then wN p 13 % 4 else 0) + 16 * filt 0 +
      64 * filt 1 + 256 * filt 2 + 1024 * filt 3),
    dead := if low = 1 then wN p 15 else 5, dwell := if low = 1 then wN p 16 else 100 }

/-- The fleet parameters of a fleet payload (Table Concord-10). -/
def paramsOf (p : List Word) : FleetParams :=
  #v[wN p 4, wN p 5, wN p 6, wN p 7, wInt p 8, wInt p 9, wInt p 10, wN p 11]

end Sys2Proof.Machine
end

