-- ==== Sys2Proof/Machine/CelOps.lean ====
section
/-! DEFINITION. The operations of Celandine (spec/10_celandine.md): counters, key matrix, segment display, seal loops, and
the CEL_ registers (Tables Cel-4, Cel-5). -/
namespace Sys2Proof.Machine

def State.setCel (s : State) (c : Celandine) : State := { s with cel := c }
def State.setClock (s : State) (c : Clock) : State := { s with led := { s.led with cur := { s.led.cur with clock := c } } }

/-- The always-on rail does not feed Celandine: nothing in it happens (R56, R146). -/
def State.dark (s : State) : Bool := s.pow.pm = .off

/-! Counters -/

/-- The value that the staged words of a counter spell (R543): fraction in two words, seconds in four. -/
def stagedFraction (l : List Word) : Nat := wordsNat (l.take 2) % 32768
def stagedSeconds (l : List Word) : Nat := wordsNat ((l.drop 2).take 4) % 0x10000000000

/-- The words of a counter (Table Cel-5). -/
def ledgerWords (c : Clock) : Vector Word 7 :=
  let l := leWords 2 c.fraction ++ leWords 4 c.seconds
  Vector.ofFn (fun i : Fin 7 => if i.val < 6 then l.getD i.val 0 else BitVec.ofNat 12 c.era)
def wallWords (c : Clock) : Vector Word 6 :=
  let l := leWords 2 c.wallFraction ++ leWords 4 c.wall
  Vector.ofFn (fun i : Fin 6 => l.getD i.val 0)

/-- One edge of the time base on a counter of seconds and fraction: the next value, and whether it carried (R542). -/
def tick (seconds fraction : Nat) : Nat × Nat × Bool :=
  if 32767 ≤ fraction then ((seconds + 1) % 0x10000000000, 0, true) else (seconds, fraction + 1, false)

/-- An edge of the selected time base (R542 to R544): the counters advance or take their staged values; at the ledger
second the change back to LFX takes effect. Without the always-on rail none comes (R56). DEDUCED (log 59). -/
def State.timeEdge (s : State) : State :=
  let c := s.clock
  let (ls, lf, carry) := tick c.seconds c.fraction
  let (ws, wf, _) := tick c.wall c.wallFraction
  let lt := s.cel.ltStage.toList
  let wt := s.cel.wtStage.toList
  let c1 : Clock :=
    if s.cel.ltPending then
      { c with seconds := stagedSeconds lt, fraction := stagedFraction lt, era := (lt.getD 6 0).toNat % 256 }
    else { c with seconds := ls, fraction := lf }
  let c2 : Clock := if s.cel.wtPending then { c1 with wall := stagedSeconds wt, wallFraction := stagedFraction wt }
    else { c1 with wall := ws, wallFraction := wf }
  let k := { s.cel with ltPending := false, wtPending := false }
  let k1 := if carry && k.backToLfx then { k with onLfo := false, backToLfx := false } else k
  let s1 := ({ s with cel := k1 }).setClock c2
  let t := s1.led.cur
  { s1 with led := { s1.led with cur := { t with hwm := max t.hwm c2.wall, class4Age := t.class4Age + carry.toNat } } }

/-- 1 024 LFO periods of the presence window pass, of which 128 are a second (R312). DEDUCED (log 59). -/
def State.windowTick (s : State) : State :=
  let p := s.cus.presence
  if !p.windowOpen then s
  else
    let q := if 127 ≤ p.windowPhase then { p with windowPhase := 0, windowLeft := p.windowLeft - 1 }
      else { p with windowPhase := p.windowPhase + 1 }
    { s with cus := { s.cus with presence := q } }

/-! Key matrix -/

/-- An entry for the key FIFO (R554). -/
def Celandine.pushKey (c : Celandine) (n : Fin 16) (press : Bool) : Celandine :=
  if 8 ≤ c.keyFifo.length then { c with keyOvf := true }
  else { c with keyFifo := c.keyFifo ++ [BitVec.ofNat 12 (n.val + 16 * press.toNat + 32 * c.scanNumber.toNat)] }

def allKeys : List (Fin 16) := [0, 1, 2, 3, 4, 5, 6, 7, 8, 9, 10, 11, 12, 13, 14, 15]

/-- Every key counted down is reported released (R552). DEDUCED (log 114). -/
def Celandine.releaseAll (c : Celandine) : Celandine :=
  allKeys.foldl (fun (c : Celandine) (n : Fin 16) =>
    let k := c.keys.get n
    let c1 := if k.down then c.pushKey n false else c
    { c1 with keys := c1.keys.set n { k with down := false, reading := false, agree := 0 } }) c

/-- One key of a dry scan (R551, R553). Answers whether a press was accepted that may wake the device (R555). -/
def Celandine.scanKey (c : Celandine) (n : Fin 16) (down : Bool) : Celandine × Bool :=
  let k := c.keys.get n
  if k.ignored then
    ({ c with keys := c.keys.set n (if down then k else KeyState.reset) }, false)
  else
    let agree := if down = k.reading then min 7 (k.agree + 1) else 1
    let k1 := { k with reading := down, agree := agree }
    if c.db.toNat ≤ agree && down != k.down then
      (({ c with keys := c.keys.set n { k1 with down := down } }).pushKey n down,
        down && c.kwake.getLsbD n)
    else ({ c with keys := c.keys.set n k1 }, false)

/-- The keys of a dry scan in order. -/
def scanKeys (r : Vector KeyReading 16) : List (Fin 16) → Celandine × Bool → Celandine × Bool
  | [], x => x
  | n :: ns, (c, w) =>
    let (c1, w1) := c.scanKey n (r.get n = .down)
    scanKeys r ns (c1, w || w1)

/-- The scanner is powered and runs (R540, Table Cel-4). DESIGN CHOICE (log 1). -/
def State.scannerOn (s : State) : Bool := s.cel.keyEn && decide (s.boot.role ≠ .pack)

/-- A scan of the matrix (R549 to R553). Answers whether an accepted press wakes the device. -/
def State.keyScan (s : State) (r : Vector KeyReading 16) : State × Bool :=
  if !s.scannerOn || !(s.cel.scanning || s.cel.wet) then (s, false)
  else
    let rs := r.toList
    let allUp := rs.all (· = .up)
    let c : Celandine := { s.cel with scanNumber := s.cel.scanNumber + 1, quietScans := if allUp then s.cel.quietScans + 1 else 0 }
    let c : Celandine := if 4 ≤ c.quietScans then { c with scanning := false, quietScans := 0 } else c
    if rs.any (· = .wet) || decide (3 ≤ (rs.filter (· = .down)).length) then
      if c.wet then (s.setCel { c with dryScans := 0 }, false)
      else
        let c1 := { c.releaseAll with wet := true, dryScans := 0 }
        let late := match c.wetAt with | none => true | some t => decide (t + 600 * 32768 ≤ s.ticks)
        if late then ((s.setCel { c1 with wetAt := some s.ticks }).raise 0x9003 [], false) else (s.setCel c1, false)
    else if c.wet then
      (s.setCel (if allUp then (if 3 ≤ c.dryScans then { c with wet := false, dryScans := 0 }
        else { c with dryScans := c.dryScans + 1 }) else { c with dryScans := 0 }), false)
    else
      let (c1, w) := scanKeys r allKeys (c, false)
      (s.setCel c1, w)

/-- A key held past the limit (R553). -/
def State.keyHeld (s : State) (n : Fin 16) : State :=
  let k := s.cel.keys.get n
  if !k.down || k.ignored then s
  else
    let c := s.cel.pushKey n false
    (s.setCel { c with stuck := true, keys := c.keys.set n { k with down := false, ignored := true, agree := 0 } }).raise
      0x9004 (leOctets 1 n.val)

/-! Segment display -/

/-- A pattern with one segment lit (R558). -/
def litSegment (p : Vector Word 12) (n : Nat) : Vector Word 12 :=
  let c := n / 28
  let k := n % 28
  let w := 3 * c + k / 12
  if h : w < 12 then p.set w (p[w] ||| (1#12 <<< (k % 12))) else p

/-- A word of a pattern as a register holds it: bits 11:4 of every third word are reserved (R558). -/
def patternWord (i : Nat) (v : Word) : Word := if i % 3 = 2 then v &&& 0xF else v

/-- A symbol: a segment number with its enable in bit 7. -/
def litSymbol (p : Vector Word 12) (sym : Nat) : Vector Word 12 :=
  if sym / 128 % 2 = 1 && sym % 128 ≤ 111 then litSegment p (sym % 128) else p

/-- A running core holds the CEL_ grant (Table Cel-2; `bit` is its grant bit). -/
def State.celCore (s : State) (bit : Nat) : Bool :=
  s.core.toList.any (fun c => (match c.run with
    | .running | .waiting | .halted => true
    | .stopped | .inReset => false) && c.grants.blocks.getLsbD bit)

/-- The working source is shown: T2 or T3 with a core that holds the grant (Table Cel-2). -/
def State.showsWorking (s : State) (bit : Nat) : Bool :=
  decide (s.pow.pm = .running) && decide (s.boot.phase = .decided) && decide (2 ≤ s.boot.tier.toNat) && s.celCore bit

/-- A frame start (R559 to R561, R575, R576). -/
def State.frameStart (s : State) (bit : Nat) : State :=
  let c := if s.cel.lcdPend then { s.cel with lcdSource := s.cel.lcdW, lcdPend := false } else s.cel
  if !c.lcdEn || !c.pump then s.setCel { c with shown := Vector.replicate 12 0 }
  else
    let src := if s.showsWorking bit then c.lcdSource else c.lcdI
    let p := Vector.ofFn (fun i : Fin 12 => src.get i ||| c.lcdF.get i)
    let p1 := if c.seals.toList.any (fun l => l.state ≠ .intact) then litSymbol p c.inds.toNat else p
    let p2 := if s.pow.aoLow then litSymbol p1 c.indb.toNat else p1
    s.setCel { c with shown := p2 }

/-- The force buffer that the Steward sets (Table Cel-2). -/
def State.setForce (s : State) : State :=
  if s.veh 7 ≠ 1 then s
  else
    let blank : Vector Word 12 := Vector.replicate 12 0
    let decided := decide (s.boot.phase = .decided)
    let f := if !decided || s.boot.tier.toNat ≤ 2 then litSymbol blank (s.veh 12) else blank
    let f := if decided && s.boot.tier = .t2 then litSymbol f (s.veh 13) else f
    let f := if s.led.cur.ride.isSome then litSymbol f (s.veh 11) else f
    s.setCel { s.cel with lcdF := f }

/-- At Booting the Steward loads the display from the vehicle edition (Table Cel-4, R560, R561). -/
def State.loadDisplay (s : State) : State :=
  if s.boot.role = .pack then s
  else
    let on := decide (s.veh 7 = 1)
    let c := if !on then { s.cel with lcdEn := false }
      else { s.cel with lcdEn := true, frm := BitVec.ofNat 2 (s.veh 9), vc := BitVec.ofNat 4 (s.veh 10), pump := true,
                        lcdI := Vector.ofFn (fun i : Fin 12 => wAt (s.edition .vehicle) (16 + i.val)),
                        inds := BitVec.ofNat 8 (s.veh 14), indb := BitVec.ofNat 8 (s.veh 15) }
    (s.setCel c).setForce

/-- VLCD in millivolts (R557). -/
def Celandine.vlcd (c : Celandine) : Nat := 2600 + 50 * c.vc.toNat

/-- On entry to AO the display goes dark when the vehicle edition switches it off at T0 (R562). -/
def State.parkDisplay (s : State) : State :=
  if s.veh 7 = 1 && s.veh 8 = 0 then s.setCel { s.cel with pump := false, shown := Vector.replicate 12 0 } else s

/-- A wake source sets its bit (R572). DEDUCED (log 76). -/
def State.wakeBit (s : State) (n : Nat) : State := s.setCel { s.cel with wake := s.cel.wake ||| (1#9 <<< n) }

/-! Seal loops -/

/-- The state that a bin gives (R564). -/
def sealKind (bin exp : BitVec 4) : SealKind :=
  if bin = exp then .intact else if bin = 15 then .opened else if bin = 0 then .short else .wrong

/-- A change of a loop's state: its event at once while the Steward runs, else one unreported change for each loop (R566,
R577). -/
def State.sealEvent (s : State) (n : Fin 2) (old new : SealKind) (bin : BitVec 4) (fas : Bool) : State :=
  let l := s.cel.seals.get n
  if s.eventsLive then
    if new = .intact then s.raise 0x9001 (leOctets 1 n.val ++ leOctets 1 bin.toNat)
    else s.raise 0x9000 (leOctets 1 n.val ++ leOctets 1 old.code ++ leOctets 1 new.code ++ leOctets 1 bin.toNat ++
      leOctets 1 (fas.toNat + 2 * (s.cel.sopen.getLsbD 3).toNat))
  else
    let lost := l.change.isSome
    let x : SealChange := { old := old, new := new, bin := bin.toNat, fas := fas, lost := lost, era := s.clock.era,
                            seconds := s.clock.seconds, fraction := s.clock.fraction }
    s.setCel { s.cel with seals := s.cel.seals.set n { l with change := some x },
                          sopen := if lost then s.cel.sopen ||| 8 else s.cel.sopen }

/-- A seal opening is recorded, and the SERVICE_N period starts (R565). -/
def State.sealOpening (s : State) (n : Fin 2) (fas : Bool) (seconds era : Nat) : State :=
  let c := { s.cel with sopen := (s.cel.sopen &&& 8) ||| BitVec.ofNat 4 (1 + 2 * n.val + 4 * fas.toNat),
                        openSeconds := seconds, openEra := era }
  let p := { s.cus.presence with servicePeriod := true }
  { s with cel := c, cus := { s.cus with presence := p } }

/-- A loop takes a confirmed state. Answers whether it changed, which wakes the device (R565, R566). -/
def State.sealTakes (s : State) (n : Fin 2) (l : SealLoop) (new : SealKind) (fas : Bool) (seconds era : Nat) : State × Bool :=
  let old := l.state
  let s1 := s.setCel { s.cel with seals := s.cel.seals.set n { l with state := new } }
  if old = new then (s1, false)
  else
    let s2 := if old = .intact then s1.sealOpening n fas seconds era else s1
    ((s2.sealEvent n old new l.bin fas).wakeBit 1, true)

/-- A measurement of one loop (R563, R564). -/
def State.sealMeasure (s : State) (n : Fin 2) (b : BitVec 4) : State × Bool :=
  let l := s.cel.seals.get n
  let keep (l : SealLoop) : State × Bool := (s.setCel { s.cel with seals := s.cel.seals.set n l }, false)
  if !l.en then (s, false)
  else if l.confirmed && b = l.bin then keep { l with candidate := none }
  else
    match l.candidate with
    | none => keep { l with candidate := some (b, s.clock.seconds, s.clock.era) }
    | some (x, sec, era) =>
      if x ≠ b then keep { l with candidate := some (b, s.clock.seconds, s.clock.era) }
      else
        s.sealTakes n { l with bin := b, candidate := none, confirmed := true } (sealKind b l.exp) (!l.confirmed) sec era

/-- A write of CEL_SEALn by the Steward (R564, R568, Table Cel-5). -/
def State.sealWrite (s : State) (n : Fin 2) (v : Word) : State × Bool :=
  let exp : BitVec 4 := (v >>> 6).setWidth 4
  let en := v.getLsbD 10
  if exp = 0 || exp = 15 then (s, false)
  else
    let l := s.cel.seals.get n
    let keep (l : SealLoop) : State × Bool := (s.setCel { s.cel with seals := s.cel.seals.set n l }, false)
    if !en then keep { l with exp := exp, en := false, bin := 15, state := .intact, candidate := none, confirmed := false }
    else if !l.en then keep { l with exp := exp, en := true, bin := 15, state := .intact, candidate := none, confirmed := false }
    else if l.confirmed && exp ≠ l.exp then
      s.sealTakes n { l with exp := exp } (sealKind l.bin exp) false s.clock.seconds s.clock.era
    else keep { l with exp := exp }

/-- The expected bins and enables of the effective vehicle edition (R567, R568). -/
def State.loadSeals (s : State) : State :=
  let w (en bin : Nat) : Word := BitVec.ofNat 12 ((if en = 1 then bin else 8) * 64 + 1024 * en)
  let s1 := (s.sealWrite 0 (w (s.veh 3) (s.veh 4))).1
  (s1.sealWrite 1 (w (s1.veh 5) (s1.veh 6))).1

/-- Unreported seal changes become events with their own ledger times (R577). -/
def State.reportSeals (s : State) : State :=
  ([0, 1] : List (Fin 2)).foldl (fun (s : State) (n : Fin 2) =>
    let l := s.cel.seals.get n
    match l.change with
    | none => s
    | some x =>
      let s1 := s.setCel { s.cel with seals := s.cel.seals.set n { l with change := none } }
      let code := if x.new = .intact then 0x9001 else 0x9000
      let data := if x.new = .intact then leOctets 1 n.val ++ leOctets 1 x.bin
        else leOctets 1 n.val ++ leOctets 1 x.old.code ++ leOctets 1 x.new.code ++ leOctets 1 x.bin ++
          leOctets 1 (x.fas.toNat + 2 * x.lost.toNat)
      let e : Event := { code := code, number := 0, era := x.era, seconds := x.seconds, fraction := x.fraction, data := data }
      { s1 with host := { s1.host with preEvents := s1.host.preEvents ++ [e] } }) s

/-! Wake and shock -/

/-- A shock is counted (R569). Answers whether it wakes the device. -/
def State.shock (s : State) : State × Bool :=
  let c := { s.cel with shocks := satAdd 255 s.cel.shocks 1 }
  let quiet := match c.shockWakeAt with
    | none => true
    | some t => decide (t + c.shkHold * 32768 ≤ s.ticks)
  if quiet then
    (((s.setCel { c with shockWakeAt := some s.ticks }).raise 0x9002 (leOctets 1 c.shocks)).wakeBit 2, true)
  else (s.setCel c, false)

/-! Registers -/

/-- A read of a CEL_ register below 0x020 (Table Cel-4); an offset not named reads 0. -/
def State.celKeyRead (s : State) (r : Fin 6) (off : Nat) : Word × State :=
  let c := s.cel
  let just (w : Word) : Word × State := (w, s)
  match off with
  | 0x000 => just (BitVec.ofNat 12 (c.keyEn.toNat + 2 * c.db.toNat))
  | 0x001 => just (BitVec.ofNat 12 (c.keyFifo.length + 16 * boolsNat [c.wet, c.keyOvf, c.stuck]))
  | 0x002 => (c.keyFifo.headD 0, s.setCel { c with keyFifo := c.keyFifo.drop 1 })
  | 0x003 =>
    let d := boolsNat (c.keys.toList.map (·.down))
    (BitVec.ofNat 12 d, s.setCel { c with kdownLatch := c.kdownLatch.set r (BitVec.ofNat 12 (d / 4096)) })
  | 0x004 => just (c.kdownLatch.get r)
  | 0x008 => just (BitVec.ofNat 12 (c.lcdEn.toNat + 2 * c.frm.toNat + 16 * c.lcdPend.toNat))
  | 0x009 => just (c.vc.setWidth 12)
  | _ => if h : 16 ≤ off ∧ off < 28 then just (c.lcdW.get ⟨off - 16, by omega⟩) else just 0

/-- A write of a CEL_ register below 0x020. -/
def State.celKeyWrite (s : State) (off : Nat) (v : Word) : State :=
  let c := s.cel
  match off with
  | 0x000 =>
    let db : BitVec 3 := (v >>> 1).setWidth 3
    if db = 0 then s else s.setCel { c with keyEn := v.getLsbD 0, db := db }
  | 0x001 => s.setCel { c with keyOvf := c.keyOvf && !v.getLsbD 5, stuck := c.stuck && !v.getLsbD 6 }
  | 0x008 =>
    let f : BitVec 2 := (v >>> 1).setWidth 2
    if f = 3 then s
    else s.setCel { c with lcdEn := v.getLsbD 0, pump := v.getLsbD 0, frm := f, lcdPend := c.lcdPend || v.getLsbD 3 }
  | 0x009 => s.setCel { c with vc := v.setWidth 4 }
  | _ => if h : 16 ≤ off ∧ off < 28 then s.setCel { c with lcdW := c.lcdW.set (off - 16) (patternWord (off - 16) v) (by omega) } else s

/-- CEL_PRES (Table Cel-5). -/
def State.celPres (s : State) : Word :=
  let p := s.cus.presence
  BitVec.ofNat 12 (boolsNat [!p.serviceLow, s.cel.dockLevel, !p.jumperFitted, p.windowOpen, p.sources.service, p.sources.dock,
    p.sources.jumper, decide (4 ≤ p.dockGates), p.servicePeriod])

/-- CEL_SOPEN (Table Cel-5). -/
def State.celSopen (s : State) : Word := s.cel.sopen.setWidth 12 ||| BitVec.ofNat 12 (16 * s.cus.presence.servicePeriod.toNat)

/-- CEL_CLK (Table Cel-5). -/
def Celandine.clk (c : Celandine) : Word := BitVec.ofNat 12 (boolsNat [c.lfxFailed, c.lfo ≠ .good, c.onLfo])

/-- A read of a CEL_ register at 0x020 or above, by the Steward (Table Cel-5). -/
def State.celStewardRead (s : State) (r : Fin 6) (off : Nat) : Option (Word × State) :=
  let c := s.cel
  let just (w : Word) : Option (Word × State) := some (w, s)
  if off = 0x020 then some (c.wake.setWidth 12, s.setCel { c with wake := 0 })
  else if off = 0x021 then just c.clk
  else if off = 0x022 then
    let w := ledgerWords s.clock
    some (w.get 0, s.setCel { c with ltLatch := c.ltLatch.set r w })
  else if h : 0x023 ≤ off ∧ off ≤ 0x028 then just ((c.ltLatch.get r).get ⟨off - 0x022, by omega⟩)
  else if off = 0x029 then
    let w := wallWords s.clock
    some (w.get 0, s.setCel { c with wtLatch := c.wtLatch.set r w })
  else if h : 0x02A ≤ off ∧ off ≤ 0x02E then just ((c.wtLatch.get r).get ⟨off - 0x029, by omega⟩)
  else if h : 0x030 ≤ off ∧ off ≤ 0x031 then
    let l := c.seals.get ⟨off - 0x030, by omega⟩
    just (BitVec.ofNat 12 (l.bin.toNat + 16 * l.state.code + 64 * l.exp.toNat + 1024 * l.en.toNat))
  else if off = 0x032 then 
    let d := if c.sopen = 0 then c else { c with sopenCopy := c.sopen, openSecondsCopy := c.openSeconds, openEraCopy := c.openEra }
    some (s.celSopen, s.setCel { d with sopen := 0 })
  else if 0x033 ≤ off && off ≤ 0x036 then just ((leWords 4 c.openSeconds).getD (off - 0x033) 0)
  else if off = 0x037 then just (BitVec.ofNat 12 c.openEra)
  else if off = 0x038 then
    some (BitVec.ofNat 12 c.shocks, s.setCel { c with shocks := 0, shocksCopy := satAdd 65535 c.shocksCopy c.shocks })
  else if off = 0x039 then just (BitVec.ofNat 12 c.shkHold)
  else if off = 0x03A then just s.celPres
  else if off = 0x03B then just (BitVec.ofNat 12 s.cus.presence.windowLeft)
  else if off = 0x03C then just (BitVec.ofNat 12 c.pwLen)
  else if h : 0x040 ≤ off ∧ off < 0x04C then just (c.lcdI.get ⟨off - 0x040, by omega⟩)
  else if h : 0x050 ≤ off ∧ off < 0x05C then just (c.lcdF.get ⟨off - 0x050, by omega⟩)
  else if off = 0x060 then just (c.inds.setWidth 12)
  else if off = 0x061 then just (c.indb.setWidth 12)
  else if off = 0x062 then just (c.kwake.setWidth 12)
  else if off = 0x063 then just ((c.kwake >>> 12).setWidth 12)
  else none

/-- A write of word i of CEL_LT or CEL_WT is staged; the last word makes the whole value wait for the next edge (R543). -/
def State.stageLedger (s : State) (i : Fin 7) (v : Word) : State :=
  s.setCel { s.cel with ltStage := s.cel.ltStage.set i v, ltPending := s.cel.ltPending || decide (i = 6) }
def State.stageWall (s : State) (i : Fin 6) (v : Word) : State :=
  s.setCel { s.cel with wtStage := s.cel.wtStage.set i v, wtPending := s.cel.wtPending || decide (i = 5) }

/-- A write of a CEL_ register at 0x020 or above, by the Steward. -/
def State.celStewardWrite (s : State) (off : Nat) (v : Word) : State :=
  let c := s.cel
  if h : 0x022 ≤ off ∧ off ≤ 0x028 then s.stageLedger ⟨off - 0x022, by omega⟩ v
  else if h : 0x029 ≤ off ∧ off ≤ 0x02E then s.stageWall ⟨off - 0x029, by omega⟩ v
  else if h : 0x030 ≤ off ∧ off ≤ 0x031 then (s.sealWrite ⟨off - 0x030, by omega⟩ v).1
  else if off = 0x039 then (if v.toNat % 1024 ≤ 600 then s.setCel { c with shkHold := v.toNat % 1024 } else s)
  else if off = 0x03C then
    (if 60 ≤ v.toNat % 1024 && v.toNat % 1024 ≤ 600 then s.setCel { c with pwLen := v.toNat % 1024 } else s)
  else if h : 0x040 ≤ off ∧ off < 0x04C then s.setCel { c with lcdI := c.lcdI.set (off - 0x040) (patternWord (off - 0x040) v) (by omega) }
  else if h : 0x050 ≤ off ∧ off < 0x05C then s.setCel { c with lcdF := c.lcdF.set (off - 0x050) (patternWord (off - 0x050) v) (by omega) }
  else if off = 0x060 then (if v.toNat % 128 ≤ 111 then s.setCel { c with inds := v.setWidth 8 } else s)
  else if off = 0x061 then (if v.toNat % 128 ≤ 111 then s.setCel { c with indb := v.setWidth 8 } else s)
  else if off = 0x062 then s.setCel { c with kwake := (c.kwake &&& 0xF000) ||| v.setWidth 16 }
  else if off = 0x063 then s.setCel { c with kwake := (c.kwake &&& 0x0FFF) ||| (v.setWidth 16 <<< 12) }
  else s

end Sys2Proof.Machine
end

