-- ==== Sys2Proof/Machine/Reach.lean ====
section
/-! DEFINITION. Which units and I/O blocks exist in a role, and the clock domain behind each block (Tables Arch-3, Jieles-7 and
Ops-13). -/
namespace Sys2Proof.Machine

/-- A clock domain runs. -/
def State.domainRuns (s : State) (d : ClockDomain) : Bool := s.clk.domains.get d.row = .running

/-- The unit is on in the role (Table Arch-3). DESIGN CHOICE (log 134). -/
def unitOn (r : Role) (u : UnitId) : Bool :=
  let n := u.val
  if n ≤ 21 || n = 37 then true
  else if inRange n 22 25 || n = 28 || n = 29 || n = 34 || n = 36 || n = 39 || n = 40 then r = .vehicle || r = .dock
  else if n = 26 || n = 27 || n = 30 || n = 31 || n = 35 || n = 41 then r ≠ .bringUp
  else if n = 38 then r = .vehicle || r = .pack
  else r = .vehicle

def unitFailed : UnitResult → Bool
  | .failedAtStart | .failedAtRun => true
  | .untested | .passed | .notPresent => false

/-- The tile of a data address has failed (R808). DEDUCED (log 32). -/
def State.tileFailed (s : State) (a : Nat) : Bool :=
  unitFailed (s.boot.units.get ⟨(3 + a / 0x10000 % 16) % 42, Nat.mod_lt _ (by decide)⟩)

/-- The clock domain behind an I/O block, by the block's number (Table Ops-13). -/
def blockDomain (n : Nat) : Option ClockDomain :=
  match n with
  | 1 => some .lfo
  | 2 => some .fclk
  | 3 | 6 => some .mclk
  | 4 => some .aclk
  | 5 => some .tsclk
  | 7 => some .lfx
  | 9 => some .cclk
  | 10 | 12 | 13 => some .uclk
  | 11 => some .ssck
  | _ => none

/-- The unit that a block belongs to, by the block's number (R938). DEDUCED (log 36). -/
def blockUnit (n : Nat) : Option UnitId :=
  match n with
  | 3 => some UnitId.pwm
  | 4 => some UnitId.adc
  | 6 => some UnitId.teasel
  | 9 => some UnitId.canB
  | 10 => some UnitId.i2c
  | 11 => some UnitId.sensorSpi
  | 12 => some UnitId.gnss
  | 14 => some UnitId.dma
  | _ => none

/-- A block exists in the role, for an offset (Tables Arch-3 and Jieles-7, R484, R540, R629). -/
def blockOn (r : Role) (n off : Nat) : Bool :=
  match n with
  | 5 => r = .vehicle || (r = .dock && decide (off < 3))
  | 7 => r ≠ .pack || decide (32 ≤ off)
  | 13 => r = .vehicle || r = .dock
  | _ => match blockUnit n with | none => true | some u => unitOn r u

/-- The block exists in the role and its clock runs, so that what reaches its pins changes it (R33, R484, R533). -/
def State.blockLive (s : State) (n off : Nat) : Bool :=
  blockOn s.boot.role n off && (match blockDomain n with | none => true | some d => s.domainRuns d)

/-- What reaches a block's pins changes it only while the block is live. -/
def State.live (s : State) (n off : Nat) (act : State → State) : State := if s.blockLive n off then act s else s

end Sys2Proof.Machine
end

