-- ==== Sys2Proof/Machine/MotorOps.lean ====
section
/-! DEFINITION. The operations of the motor blocks (spec/09_motor_teasel.md): PWM timer, limit supervisor, ADC, capture
inputs and Teasel, and their registers (Tables Motor-1, Motor-4, Motor-5, Motor-8). -/
namespace Sys2Proof.Machine

def State.pwm (s : State) : Pwm := s.mot.pwm
def State.tsl (s : State) : Teasel := s.mot.tsl
def State.setPwm (s : State) (p : Pwm) : State := { s with mot := { s.mot with pwm := p } }
def State.setAdc (s : State) (a : Adc) : State := { s with mot := { s.mot with adc := a } }
def State.setTcap (s : State) (t : Tcap) : State := { s with mot := { s.mot with tcap := t } }
def State.setTsl (s : State) (t : Teasel) : State := { s with mot := { s.mot with tsl := t } }

/-- n TSCLK periods have passed since the count was last observed (R117). -/
def State.tickTs (s : State) (n : Nat) : State :=
  if s.domainRuns .tsclk then { s with clk := { s.clk with now := s.clk.now + BitVec.ofNat 36 n } } else s

/-! PWM timer -/

/-- A write of word 0 of value i (0 PER, 1 to 3 CMPA to CMPC, 4 the trigger count) waits in its latch (R488). -/
def Pwm.stage (p : Pwm) (i : Fin 5) (v : Word) : Pwm := { p with staged := p.staged.set i (some v) }

/-- The shadow value of word pair i. -/
def PwmSet.value (x : PwmSet) (i : Fin 5) : BitVec 14 :=
  if i = 0 then x.per else if i = 1 then x.cmp.get 0 else if i = 2 then x.cmp.get 1
  else if i = 3 then x.cmp.get 2 else x.trgc

def PwmSet.setValue (x : PwmSet) (i : Fin 5) (v : BitVec 14) : PwmSet :=
  if i = 0 then { x with per := v } else if i = 1 then { x with cmp := x.cmp.set 0 v }
  else if i = 2 then { x with cmp := x.cmp.set 1 v } else if i = 3 then { x with cmp := x.cmp.set 2 v }
  else { x with trgc := v }

/-- A write of word 1 moves both words into the shadow (R488), unless R492 ignores it: PER outside 1 250 to 10 000. With
no word 0 staged, bits 11:0 keep the shadow's value. DEDUCED (log 106). -/
def Pwm.word1 (p : Pwm) (i : Fin 5) (v : Word) : Pwm :=
  let lo : BitVec 12 := (p.staged.get i).getD ((p.shadow.value i).setWidth 12)
  let x : BitVec 14 := (v.setWidth 2) ++ lo
  if i = 0 && (x.toNat < 1250 || 10000 < x.toNat) then { p with badWr := true, staged := p.staged.set i none }
  else { p with shadow := p.shadow.setValue i x, staged := p.staged.set i none, updPend := true }

/-- Every shadow is copied into the active set (R487). -/
def Pwm.copy (p : Pwm) : Pwm := { p with active := p.shadow, updPend := false }

/-- Limits written by the Steward take effect (R498). -/
def Pwm.takeLimits (p : Pwm) : Pwm := { p with limi := p.nextLimi, limw := p.nextLimw }

/-- The mode of a phase in a set (R486). -/
def PwmSet.mode (x : PwmSet) (i : Fin 3) : Nat := x.out.toNat / 4 ^ i.val % 4

/-- The sides of a phase that its mode wants active at a counter value, high side first (R486). -/
def PwmSet.wanted (x : PwmSet) (i : Fin 3) (cnt : Nat) : Bool × Bool :=
  let high := decide ((x.cmp.get i).toNat ≤ cnt)
  match x.mode i with
  | 0 => (high, !high)
  | 1 => (false, false)
  | 2 => (false, true)
  | _ => (high, false)

/-- The counter, k MCLK periods after it last turned (R485). -/
def Pwm.counterAt (p : Pwm) (k : Nat) : Nat := if p.dir then p.active.per.toNat - k else k

/-- For how many MCLK periods the sides of a phase have not been wanted, k periods after the counter last turned. -/
def Pwm.idleAt (p : Pwm) (i : Fin 3) (k : Nat) : Nat × Nat :=
  let x := p.active
  let cmp := (x.cmp.get i).toNat
  let per := x.per.toNat
  let was := p.idle.get i
  let high := if !p.dir then (if cmp ≤ k then 0 else was.1 + k) else if cmp ≤ per then k - (per - cmp) else was.1 + k
  let low := if p.dir then (if per < cmp + k then 0 else was.2 + k) else if 0 < cmp then k + 1 - cmp else was.2 + k
  match x.mode i with
  | 0 => (high, low)
  | 1 => (was.1 + k, was.2 + k)
  | 2 => (was.1 + k, 0)
  | _ => (high, was.2 + k)

/-- The PWM block's outputs of a phase: a side is active once it is wanted and its partner has not been for the dead time (R486, R490). -/
def Pwm.phaseOut (p : Pwm) (i : Fin 3) (k : Nat) : Bool × Bool :=
  let w := p.active.wanted i (p.counterAt k)
  let idle := p.idleAt i k
  let dt := p.active.dt.toNat
  (p.run && w.1 && decide (dt < idle.2), p.run && w.2 && decide (dt < idle.1))

/-- The counter turns after a full half period: the sides' idle times go on from there. -/
def Pwm.turned (p : Pwm) : Pwm :=
  let carry (i : Fin 3) : Nat × Nat := let n := p.idleAt i p.active.per.toNat; (min 321 n.1, min 321 n.2)
  { p with idle := #v[carry 0, carry 1, carry 2] }

/-- A phase's outputs can both stay low through a period (R486). -/
def PwmSet.phaseLow (x : PwmSet) (i : Fin 3) : Bool :=
  x.mode i = 1 || (x.mode i = 3 && decide (x.per.toNat ≤ (x.cmp.get i).toNat))

/-- An inhibit of the supervisor holds all six outputs low (R495 to R497). -/
def Pwm.inhibited (p : Pwm) : Bool := p.speedInhibit || p.sampleInhibit || p.brakeInhibit || p.noRideInhibit

/-- All six outputs stay low in the present period, the chop aside. -/
def Motor.allLow (m : Motor) : Bool :=
  !m.pwm.run || m.pwm.inhibited || m.tsl.pads != .pwm || ([0, 1, 2] : List (Fin 3)).all (fun i => m.pwm.active.phaseLow i)

/-- The six gate output pads, the high side of each phase first, k MCLK periods after the counter last turned; `was` is which low sides were
high when the latch set (R486, R494 to R497, R514, R536). -/
def Motor.gates (m : Motor) (k : Nat) (was : Vector Bool 3) : Vector (Bool × Bool) 3 :=
  let phase (i : Fin 3) : Bool × Bool :=
    match m.tsl.pads with
    | .pwm => if m.pwm.inhibited || m.pwm.chop then (false, false) else m.pwm.phaseOut i k
    | .allOff => (false, false)
    | .lowSideDead => (false, was.get i)
    | .lowSideOn => (false, true)
  #v[phase 0, phase 1, phase 2]

/-- A period of TCAP_WPER or TCAP_HPER as a register shows it: the larger of the last period and the time since the last
edge, saturating (R506). DEDUCED (log 108). -/
def capPeriod (last : Nat) (edge : Option (BitVec 36)) (now : BitVec 36) : Nat :=
  match edge with
  | none => 0xFFFFFF
  | some e => min 0xFFFFFF (max last (now - e).toNat)

def State.wper (s : State) : Nat := capPeriod s.mot.tcap.wper s.mot.tcap.lastWha s.clk.now
def State.hper (s : State) : Nat := capPeriod s.mot.tcap.hper s.mot.tcap.lastHall s.clk.now

/-- The wheel period that the hall interval gives (R496). -/
def State.hallPeriod (s : State) : Nat := s.hper * s.veh 40 / s.veh 39

/-- The vehicle's period (R496). -/
def State.vehiclePeriod (s : State) : Nat := min s.wper s.hallPeriod

/-- The speed inhibit at a valley, with its hysteresis (R496). -/
def speedInhibitOf (was : Bool) (period limit : Nat) : Bool :=
  if limit = 0 then false
  else if period < limit then true
  else if limit + limit / 32 ≤ period then false
  else was

/-- Speedwell limits are in force: at T2 (R67), and for a ride while a limited pack is admitted or no pack is (R379, R454,
R475). -/
def State.speedwellNow (s : State) : Bool :=
  let packs := s.con.members.filter (fun m => m.role = .pack)
  decide (s.boot.tier = .t2) ||
    (s.led.cur.ride.isSome && (packs.isEmpty || packs.any (·.limited)))

/-- PWM_LIMI and PWM_LIMW by Table Motor-2. -/
def State.limits (s : State) : Word × Pair :=
  let sw := s.speedwellNow
  let full := s.veh 32 * 100
  let cur := if sw then min full (s.veh 32 * s.veh 33) else full
  let cur := min cur ((s.con.merged.get 0).toNat * 100)
  let code := min 0xFFF (s.veh 36 + cur / s.veh 37)
  let v := if sw then min (s.veh 34) (s.veh 35) else s.veh 34
  let v := min v (s.con.merged.get 7).toNat
  let den := s.veh 39 * v
  let per := min 0xFFFFFF ((s.veh 38 * 345600 + den - 1) / den)
  (BitVec.ofNat 12 code, BitVec.ofNat 24 per)

/-- The Steward writes the limits (R493); they take effect at the next update event (R498). Without an open ride the outputs are held low
(R497). -/
def State.writeLimits (s : State) : State :=
  if s.boot.role ≠ .vehicle then s
  else
    let (i, w) := s.limits
    s.setPwm { s.pwm with nextLimi := i, nextLimw := w, speedwell := s.speedwellNow, rideOpen := s.led.cur.ride.isSome,
                          noRideInhibit := !s.led.cur.ride.isSome }

/-- The supervisor at a valley: the chop ends, and the inhibits are judged anew (R494 to R497). -/
def State.superviseValley (s : State) : State :=
  let p := s.pwm
  let miss := !s.mot.allLow && decide (p.limi ≠ 0xFFF) && !p.sampled
  s.setPwm { p with chop := false, sampleInhibit := miss, sampled := false,
                    speedInhibit := speedInhibitOf p.speedInhibit s.vehiclePeriod p.limw.toNat,
                    brakeInhibit := decide (s.veh 41 = 1) && s.mot.tcap.brake,
                    noRideInhibit := !s.led.cur.ride.isSome, rideOpen := s.led.cur.ride.isSome }

/-- A cleared latch hands the pads back (R519). -/
def State.handback (s : State) : State :=
  if s.tsl.handback && !s.tsl.latch then s.setTsl { s.tsl with handback := false, pads := .pwm } else s

/-- Every core changed, by its number. -/
def State.mapCores (s : State) (f : Fin 4 → CoreState → CoreState) : State :=
  { s with core := #v[f 0 (s.core.get 0), f 1 (s.core.get 1), f 2 (s.core.get 2), f 3 (s.core.get 3)] }

/-- Interrupt source 2 of each core that holds the PWM_ grant (Table Jieles-10). -/
def State.pwmSource (s : State) : State :=
  s.mapCores (fun _ c => if c.grants.blocks.getLsbD 3 then { c with pwmEvent := true } else c)

/-- Interrupt source 5 of each core that holds the TSL_ grant. -/
def State.tslSource (s : State) : State :=
  s.mapCores (fun _ c => if c.grants.blocks.getLsbD 6 then { c with tslEvent := true } else c)

/-- An update event: the limits apply, every shadow is copied unless HOLD is 1, and a cleared latch hands the pads back
(R487, R489, R498, R519). -/
def State.updateEvent (s : State) : State :=
  let p := s.pwm.takeLimits
  (s.setPwm (if p.hold then p else p.copy)).handback.pwmSource

/-- The counter reaches the valley or the peak (R487). -/
def State.pwmEvent (s : State) (peak : Bool) : State :=
  let p := s.pwm
  if !p.run || !s.domainRuns .mclk then s
  else if peak then
    let s1 := s.setPwm { p.turned with cnt := p.active.per, dir := true }
    if p.upd then s1.updateEvent else s1
  else (s.setPwm { p.turned with cnt := 0, dir := false }).superviseValley.updateEvent

/-- A write of PWM_CTL (R490): RUN from 0 to 1 makes an update event; RUN 0 stands the counter at 0. -/
def State.pwmCtl (s : State) (v : Word) : State :=
  let p := s.pwm
  let run := v.getLsbD 0
  let p1 := { p with run := run, hold := v.getLsbD 1, upd := v.getLsbD 2 }
  if !run then s.setPwm { p1 with cnt := 0, dir := false }
  else if p.run then s.setPwm p1
  else (s.setPwm { p1 with cnt := 0, dir := false, idle := Vector.replicate 3 (321, 321) }).updateEvent

/-- The counter as a read finds it: between 0 and PER, and 0 while RUN is 0 (R485, R490). -/
def Pwm.counted (p : Pwm) (cnt : BitVec 14) : Pwm :=
  if !p.run then p else { p with cnt := if p.active.per.toNat < cnt.toNat then p.active.per else cnt }

/-- PWM_SUP (Table Motor-1). -/
def Pwm.sup (p : Pwm) : Word :=
  BitVec.ofNat 12 (boolsNat [p.rideOpen, p.speedwell, p.speedInhibit, p.sampleInhibit, p.brakeInhibit, p.noRideInhibit, p.chop])

/-- A read of a 14-bit value's word. -/
def half14 (v : BitVec 14) (high : Bool) : Word := if high then (v >>> 12).setWidth 12 else v.setWidth 12

/-- A read of a PWM_ register by a requester; none where no register stands. DEDUCED (log 106). -/
def State.pwmRead (s : State) (r : Fin 6) (off : Nat) : Option (Word × State) :=
  let p := s.pwm
  let just (w : Word) : Option (Word × State) := some (w, s)
  match off with
  | 0x000 => just (BitVec.ofNat 12 (boolsNat [p.run, p.hold, p.upd]))
  | 0x001 => just (half14 p.shadow.per false)
  | 0x002 => just (half14 p.shadow.per true)
  | 0x003 => just (half14 (p.shadow.cmp.get 0) false)
  | 0x004 => just (half14 (p.shadow.cmp.get 0) true)
  | 0x005 => just (half14 (p.shadow.cmp.get 1) false)
  | 0x006 => just (half14 (p.shadow.cmp.get 1) true)
  | 0x007 => just (half14 (p.shadow.cmp.get 2) false)
  | 0x008 => just (half14 (p.shadow.cmp.get 2) true)
  | 0x009 => just (p.shadow.dt.setWidth 12)
  | 0x00A => just (p.shadow.out.setWidth 12)
  | 0x00B => just (p.shadow.trg.setWidth 12)
  | 0x00C => just (half14 p.shadow.trgc false)
  | 0x00D => just (half14 p.shadow.trgc true)
  | 0x00E => just (BitVec.ofNat 12 (boolsNat [p.dir, p.updPend, p.badWr, s.tsl.pads != .pwm || s.tsl.latch]))
  | 0x00F => some (half14 p.cnt false, s.setPwm { p with cntLatch := p.cntLatch.set r ((p.cnt >>> 12).setWidth 2) })
  | 0x010 => just ((p.cntLatch.get r).setWidth 12)
  | 0x011 => just p.nextLimi
  | 0x012 => just (p.nextLimw.setWidth 12)
  | 0x013 => just ((p.nextLimw >>> 12).setWidth 12)
  | 0x014 => just p.sup
  | 0x015 => some (BitVec.ofNat 12 p.chops, s.setPwm { p with chops := 0 })
  | _ => none

/-- A write of a PWM_ register by a core; writes of read-only registers are ignored (R18). -/
def State.pwmWrite (s : State) (off : Nat) (v : Word) : Option State :=
  let p := s.pwm
  let put (q : Pwm) : Option State := some (s.setPwm q)
  match off with
  | 0x000 => some (s.pwmCtl v)
  | 0x001 => put (p.stage 0 v)
  | 0x002 => put (p.word1 0 v)
  | 0x003 => put (p.stage 1 v)
  | 0x004 => put (p.word1 1 v)
  | 0x005 => put (p.stage 2 v)
  | 0x006 => put (p.word1 2 v)
  | 0x007 => put (p.stage 3 v)
  | 0x008 => put (p.word1 3 v)
  | 0x009 =>
    if 320 < (v.setWidth 9 : BitVec 9).toNat then put { p with badWr := true }
    else put { p with shadow := { p.shadow with dt := v.setWidth 9 }, updPend := true }
  | 0x00A => put { p with shadow := { p.shadow with out := v.setWidth 6 }, updPend := true }
  | 0x00B => put { p with shadow := { p.shadow with trg := v.setWidth 4 }, updPend := true }
  | 0x00C => put (p.stage 4 v)
  | 0x00D => put (p.word1 4 v)
  | 0x00E => put { p with badWr := p.badWr && !v.getLsbD 2 }
  | 0x00F | 0x010 | 0x011 | 0x012 | 0x013 | 0x014 | 0x015 => some s
  | _ => none

/-! ADC -/

/-- A trigger: a sequence starts, or is lost while one runs (R500, R501). -/
def Adc.start (a : Adc) : Adc :=
  match a.running with
  | some _ => { a with miss := true }
  | none => { a with running := some (0, a.last.toNat, a.seq), trigger := a.trigger + 1 }

/-- A write of ADC_CTL (R500, Table Motor-4). Continuous mode starts its first sequence. -/
def Adc.ctl (a : Adc) (v : Word) : Adc :=
  let trg : BitVec 3 := (v >>> 2).setWidth 3
  if 4 ≤ trg.toNat then { a with badWr := true }
  else
    let a1 := { a with en0 := v.getLsbD 0, en1 := v.getLsbD 1, trg := trg, last := (v >>> 5).setWidth 3, dmaEn := v.getLsbD 8 }
    if trg = 3 && a1.running.isNone then a1.start else a1

/-- A sequence entry completes with the two conversions' codes (R502). Answers the new ADC and whether channel 3 was
converted, with its codes. -/
def Adc.entry (a : Adc) (codeA codeB : Word) : Adc × List Word :=
  match a.running with
  | none => (a, [])
  | some (i, last, seq) =>
    let e := if h : i < 8 then seq.get ⟨i, h⟩ else 0
    let va := a.en0 && e.getLsbD 8
    let vb := a.en1 && e.getLsbD 9
    let ra := if va then codeA else 0
    let rb := if vb then codeB else 0
    let cha : Fin 16 := (e.setWidth 4 : BitVec 4).toFin
    let chb : Fin 16 := ((e >>> 4).setWidth 4 : BitVec 4).toFin
    let tag := BitVec.ofNat 12 (i + 8 * va.toNat + 16 * vb.toNat + 32 * a.trigger.toNat)
    let res1 := if va then a.res.set cha ra else a.res
    let res2 := if vb then res1.set chb rb else res1
    let three := (if va && cha = 3 then [ra] else []) ++ (if vb && chb = 3 then [rb] else [])
    let a1 : Adc := { a with res := res2, running := if i < last then some (i + 1, last, seq) else none }
    let a2 := if a1.fifo.length < 32 then { a1 with fifo := a1.fifo ++ [{ tag := tag, a := ra, b := rb }] }
      else { a1 with ovf := true }
    (if i < last then a2 else if a2.trg = 3 then a2.start else a2, three)

/-- Conversions of channel 3 as the supervisor sees them (R494, R495). -/
def Pwm.seen (p : Pwm) (codes : List Word) : Pwm :=
  let p1 := { p with sampled := p.sampled || !codes.isEmpty }
  if codes.any (fun c => decide (p.limi.toNat < c.toNat)) && !p.chop then
    { p1 with chop := true, chops := satAdd 0xFFF p.chops 1 }
  else p1

/-- A read of ADC_FIFOT pops the head entry (R503). -/
def Adc.pop (a : Adc) (r : Fin 6) : Word × Adc :=
  match a.fifo with
  | [] => (0, { a with latch := a.latch.set r (0, 0) })
  | e :: rest => (e.tag, { a with fifo := rest, latch := a.latch.set r (e.a, e.b) })

/-- The ADC requests DMA (R503). -/
def Adc.dmaDue (a : Adc) : Bool := a.dmaEn && decide (4 * (a.thr.toNat + 1) ≤ a.fifo.length)

/-- A read of an ADC_ register. -/
def State.adcRead (s : State) (r : Fin 6) (off : Nat) : Option (Word × State) :=
  let a := s.mot.adc
  let just (w : Word) : Option (Word × State) := some (w, s)
  match off with
  | 0x000 => just (BitVec.ofNat 12 (a.en0.toNat + 2 * a.en1.toNat + 4 * a.trg.toNat + 32 * a.last.toNat + 256 * a.dmaEn.toNat))
  | 0x001 => just 0
  | 0x002 => just (BitVec.ofNat 12 (a.fifo.length + 64 * boolsNat [a.ovf, a.miss, a.badWr] + 512 * a.thr.toNat))
  | 0x003 => let (w, b) := a.pop r; some (w, s.setAdc b)
  | 0x004 => just (a.latch.get r).1
  | 0x005 => just (a.latch.get r).2
  | _ =>
    if h : 8 ≤ off ∧ off < 16 then just ((a.seq.get ⟨off - 8, by omega⟩).setWidth 12)
    else if h : 16 ≤ off ∧ off < 32 then just (a.res.get ⟨off - 16, by omega⟩)
    else none

/-- A write of an ADC_ register. -/
def State.adcWrite (s : State) (off : Nat) (v : Word) : Option State :=
  let a := s.mot.adc
  match off with
  | 0x000 => some (s.setAdc (a.ctl v))
  | 0x001 => some (if v.getLsbD 0 && a.trg = 2 then s.setAdc a.start else s)
  | 0x002 => some (s.setAdc { a with ovf := a.ovf && !v.getLsbD 6, miss := a.miss && !v.getLsbD 7,
                                     badWr := a.badWr && !v.getLsbD 8, thr := (v >>> 9).setWidth 3 })
  | 0x003 | 0x004 | 0x005 => some s
  | _ =>
    if h : 8 ≤ off ∧ off < 16 then some (s.setAdc { a with seq := a.seq.set (off - 8) (v.setWidth 10) (by omega) })
    else if 16 ≤ off && off < 32 then some s
    else none

/-! Capture inputs -/

/-- An edge enters the event FIFO when its source is enabled (R508). -/
def Tcap.event (t : Tcap) (src : Nat) (level seq : Bool) (stamp : BitVec 36) : Tcap :=
  if !t.ecfg.getLsbD (src - 1) then t
  else if 16 ≤ t.fifo.length then { t with ovf := true }
  else
    let w := BitVec.ofNat 8 (src + 8 * level.toNat + 16 * t.hall.toNat + 128 * seq.toNat)
    { t with fifo := t.fifo ++ [{ word := w, stamp := stamp }] }

/-- Bits in which two hall states differ. -/
def hallDiff (a b : BitVec 3) : List (Fin 3) := ([0, 1, 2] : List (Fin 3)).filter (fun i => a.getLsbD i != b.getLsbD i)

/-- A hall code is invalid (R507). -/
def hallInvalid (c : BitVec 3) : Bool := c = 0 || c = 7

/-- A change of the hall state (R506, R507). -/
def Tcap.hallEdge (t : Tcap) (c : BitVec 3) (stamp : BitVec 36) : Tcap :=
  let d := hallDiff t.hall c
  if d.isEmpty then t
  else
    let out := decide (1 < d.length)
    let errs := (hallInvalid c).toNat + out.toNat
    let last := match t.lastHall with | none => 0xFFFFFF | some e => min 0xFFFFFF (stamp - e).toNat
    let t1 := { t with hall := c, hper := last, lastHall := some stamp, herr := satAdd 0xFFF t.herr errs,
                       herrTotal := t.herrTotal + errs, seqErr := t.seqErr || decide (0 < errs) }
    d.foldl (fun (t : Tcap) (i : Fin 3) => t.event (i.val + 1) (c.getLsbD i) out stamp) t1

/-- A rising or falling edge of WHA (R505, R506). -/
def Tcap.whaEdge (t : Tcap) (level : Bool) (stamp : BitVec 36) : Tcap :=
  if t.wha = level then t
  else
    let t1 := { t with wha := level }
    let t2 := if !level then t1
      else
        let last := match t.lastWha with | none => 0xFFFFFF | some e => min 0xFFFFFF (stamp - e).toNat
        { t1 with wcnt := t1.wcnt + 1, wper := last, lastWha := some stamp, dir := t1.whb, whaMod := (t1.whaMod + 1) % 16 }
    t2.event 4 level false stamp

/-- An event of class 0x6 held to one per 10 s (R509). DESIGN CHOICE (log 9). DEDUCED (log 84). -/
def within (last : Option Nat) (now span : Nat) : Bool :=
  match last with
  | none => false
  | some t => decide (now < t + span)

/-- The comparison of the wheel and hall periods at every 16th rising edge of WHA (R509). -/
def State.wheelCheck (s : State) : State :=
  let t := s.mot.tcap
  let a := s.wper
  let b := s.hallPeriod
  let bad := decide (125 * b < 100 * a) || decide (125 * a < 100 * b)
  let s1 := s.setTcap { t with mism := bad }
  if bad && !t.mism && !within t.mismAt s.ticks 327680 then
    (s1.setTcap { t with mism := bad, mismAt := some s.ticks }).raise 0x6001 [1]
  else s1

/-- TCAP_HERR has passed a multiple of 64 (R509). -/
def State.hallErrEvent (s : State) (before : Nat) : State :=
  let t := s.mot.tcap
  if before / 64 < t.herrTotal / 64 && !within t.herrAt s.ticks 327680 then
    (s.setTcap { t with herrAt := some s.ticks }).raise 0x6002 (leOctets 2 t.herrTotal)
  else s

/-- A filtered edge of a hall, wheel or brake input (R504 to R509). An edge carries the count of the raw edge, one filter
length before it is accepted. The brake cut lasts only as long as the brake input is active (R497). DEDUCED (log 108). -/
def State.capEdge (s : State) : CapEdge → State
  | .hall c =>
    let before := s.mot.tcap.herrTotal
    (s.setTcap (s.mot.tcap.hallEdge c (s.clk.now - s.mot.tcap.hflt.setWidth 36))).hallErrEvent before
  | .wha l =>
    let t := s.mot.tcap
    let s1 := s.setTcap (t.whaEdge l (s.clk.now - t.wflt.setWidth 36))
    if l && !t.wha && s1.mot.tcap.whaMod = 0 then s1.wheelCheck else s1
  | .whb l => s.setTcap { s.mot.tcap with whb := l }
  | .brake l =>
    let t := s.mot.tcap
    if t.brake = !l then s
    else
      let s1 := s.setTcap (({ t with brake := !l }).event 5 l false (s.clk.now - t.wflt.setWidth 36))
      if l then s1.setPwm { s1.pwm with brakeInhibit := false } else s1
  | .gpps _ => s

/-- TCAP_HSTAT (Table Motor-5). -/
def Tcap.hstat (t : Tcap) : Word :=
  BitVec.ofNat 12 (t.hall.toNat + 8 * boolsNat [hallInvalid t.hall, t.seqErr, t.mism, t.brake, t.dir, t.ovf])

/-- A read of a TCAP_ register; offsets 0 to 2 are TCAP_NOW (R118). -/
def State.tcapRead (s : State) (r : Fin 6) (off : Nat) : Option (Word × State) :=
  let t := s.mot.tcap
  let just (w : Word) : Option (Word × State) := some (w, s)
  match off with
  | 0x000 =>
    some (s.clk.now.setWidth 12,
      { s with clk := { s.clk with nowLatch := s.clk.nowLatch.set r ((s.clk.now >>> 12).setWidth 24) } })
  | 0x001 => just ((s.clk.nowLatch.get r).setWidth 12)
  | 0x002 => just ((s.clk.nowLatch.get r >>> 12).setWidth 12)
  | 0x003 => just t.hflt
  | 0x004 => just t.wflt
  | 0x005 => just t.hstat
  | 0x006 => some (BitVec.ofNat 12 t.herr, s.setTcap { t with herr := 0 })
  | 0x007 => some (t.wcnt.setWidth 12, s.setTcap { t with wcntLatch := t.wcntLatch.set r ((t.wcnt >>> 12).setWidth 12) })
  | 0x008 => just (t.wcntLatch.get r)
  | 0x009 => some (BitVec.ofNat 12 s.wper, s.setTcap { t with wperLatch := t.wperLatch.set r (BitVec.ofNat 12 (s.wper / 4096)) })
  | 0x00A => just (t.wperLatch.get r)
  | 0x00B => some (BitVec.ofNat 12 s.hper, s.setTcap { t with hperLatch := t.hperLatch.set r (BitVec.ofNat 12 (s.hper / 4096)) })
  | 0x00C => just (t.hperLatch.get r)
  | 0x00D => just (BitVec.ofNat 12 t.fifo.length)
  | 0x00E =>
    (match t.fifo with
     | [] => just 0
     | e :: rest => some (e.word.setWidth 12, s.setTcap { t with fifo := rest, evLatch := t.evLatch.set r e.stamp }))
  | 0x00F => just ((t.evLatch.get r).setWidth 12)
  | 0x010 => just ((t.evLatch.get r >>> 12).setWidth 12)
  | 0x011 => just ((t.evLatch.get r >>> 24).setWidth 12)
  | 0x012 => just (t.ecfg.setWidth 12)
  | _ => none

/-- A write of a TCAP_ register. -/
def State.tcapWrite (s : State) (off : Nat) (v : Word) : Option State :=
  let t := s.mot.tcap
  match off with
  | 0x003 => some (s.setTcap { t with hflt := v })
  | 0x004 => some (s.setTcap { t with wflt := v })
  | 0x005 => some (s.setTcap { t with seqErr := t.seqErr && !v.getLsbD 4, ovf := t.ovf && !v.getLsbD 8 })
  | 0x012 => some (s.setTcap { t with ecfg := v.setWidth 6 })
  | _ => if off < 0x013 then some s else none

/-! Teasel -/

/-- Source n (0 to 3 comparators, 4 FAULT_N) is enabled by the edition in force. -/
def TeaselCfg.enabled (c : TeaselCfg) (n : Fin 5) : Bool :=
  if h : n.val < 4 then (c.thr.get ⟨n.val, h⟩).getLsbD 11 else c.cfg.getLsbD 1

/-- An enabled source is active. -/
def Teasel.sourceActive (t : Teasel) : Bool :=
  ([0, 1, 2, 3, 4] : List (Fin 5)).any (fun n => t.act.getLsbD n && t.cfg.enabled n)

/-- A supply monitor that sets cause bit 6 is active: PWR_FAIL, PFI_N or B-LOW. -/
def State.supplyLow (s : State) : Bool := !(s.pow.vddioAUp && s.pow.vddaUp && s.pow.vddioBUp && s.pow.pfiHigh)

/-- The pads that the latch shows (R514): all-off below T2 and while the Steward boots. -/
def State.safePads (s : State) (c : TeaselCfg) : Pads :=
  if s.boot.tier.toNat < 2 || s.boot.phase != .decided || !c.cfg.getLsbD 0 then .allOff else .lowSideDead

/-- One motor event for each setting of the latch, at most one per 100 ms, with the settings since the last (R521). -/
def State.latchEvent (s : State) : State :=
  let t := s.tsl
  let n := t.settings + 1
  if within t.eventAt s.ticks 3277 then s.setTsl { t with settings := n }
  else
    (s.setTsl { t with settings := 0, eventAt := some s.ticks }).raise 0x6000 (leOctets 2 t.cause.toNat ++ leOctets 2 n)

/-- A cause of Table Motor-6 sets the latch (R513, R514, R517); a committed edition that waits is loaded (R530). DEDUCED (log 54). -/
def State.setLatch (s : State) (cause : BitVec 11) : State :=
  let t := s.tsl
  if t.latch then s.setTsl { t with cause := t.cause ||| cause }
  else
    let cfg := t.nextCfg.getD t.cfg
    (s.setTsl { t with latch := true, cause := t.cause ||| cause, cfg := cfg, nextCfg := none, handback := false,
                       armWait := true, pads := s.safePads cfg }).latchEvent.tslSource

/-- A source becomes active (R510, R513, R517, R518). -/
def State.sourceOn (s : State) (n : Fin 5) : State :=
  let t := s.tsl
  if t.act.getLsbD n then s
  else
    let t1 := { t with act := t.act ||| (1#5 <<< n.val) }
    if !t.cfg.enabled n then s.setTsl t1
    else
      let now := s.ticks
      let recent := now :: (t.acts.filter (fun x => decide (now < x + 327680))).take 3
      ((s.setTsl { t1 with acts := recent, lock := t1.lock || decide (4 ≤ recent.length), armWait := true,
                           trips := satAdd 0xFFF t1.trips 1 })).setLatch (1#11 <<< n.val)

/-- A source becomes inactive: its cause ends. -/
def State.sourceOff (s : State) (n : Fin 5) : State := s.setTsl { s.tsl with act := s.tsl.act &&& ~~~(1#5 <<< n.val) }

/-- The answer to a clear request (R516, Table Motor-8). DEDUCED (log 107). -/
def State.clearResult (s : State) : Nat :=
  let t := s.tsl
  if t.sourceActive then 2
  else if t.armWait then 3
  else if t.lock then 4
  else if s.boot.tier.toNat < 2 || s.supplyLow || !s.mot.mclk || !s.pow.teaselRail then 5
  else 1

/-- A clear request; `who`: 0 to 3 a core, 4 the host (R516, R519, R521). -/
def State.clearLatch (s : State) (who : Nat) : State :=
  let t := s.tsl
  let r := s.clearResult
  let t1 := { t with res := BitVec.ofNat 3 r }
  if r ≠ 1 then s.setTsl t1
  else if !t.latch then s.setTsl t1
  else (s.setTsl { t1 with latch := false, cause := 0, handback := true }).raise 0x6003 (leOctets 1 who)

/-- A software trip (R520). -/
def State.softTrip (s : State) : State := (s.setTsl { s.tsl with res := 6 }).setLatch 0x020

/-- All-off holds: below T2, and from the Steward's restart (R60, R514, R526). -/
def State.padsOff (s : State) : State := s.setTsl { s.tsl with pads := .allOff }

/-- A committed Teasel edition reaches Teasel: at once while the latch is set, else at its next setting (R522, R530). -/
def State.loadTeasel (s : State) (c : TeaselCfg) : State :=
  if s.tsl.latch then s.setTsl { s.tsl with cfg := c, nextCfg := none } else s.setTsl { s.tsl with nextCfg := some c }

/-- A read of a TSL_ register. -/
def State.tslRead (s : State) (off : Nat) : Option Word :=
  let t := s.tsl
  match off with
  | 0x000 =>
    let safe := match t.pads with | .pwm => 0 | .allOff => 1 | .lowSideDead => 2 | .lowSideOn => 2
    some (BitVec.ofNat 12 (t.latch.toNat + 2 * safe + 8 * t.lock.toNat + 16 * t.armWait.toNat + 32 * t.act.toNat))
  | 0x001 => some (t.cause.setWidth 12)
  | 0x002 => some 0
  | 0x003 => some (t.res.setWidth 12)
  | 0x004 => some (BitVec.ofNat 12 t.trips)
  | 0x008 => some (t.cfg.thr.get 0)
  | 0x009 => some (t.cfg.thr.get 1)
  | 0x00A => some (t.cfg.thr.get 2)
  | 0x00B => some (t.cfg.thr.get 3)
  | 0x00C => some t.cfg.cfg
  | _ => none

/-- A write of a TSL_ register by a core (R516, R520). -/
def State.tslWrite (s : State) (who : Nat) (off : Nat) (v : Word) : Option State :=
  if off = 0x002 then
    some (if v = 0xC1A then s.clearLatch who else if v = 0x5F0 then s.softTrip
      else s.setTsl { s.tsl with res := 7 })
  else if (s.tslRead off).isSome then some s else none

end Sys2Proof.Machine
end

