-- ==== Sys2Proof/Machine/Motor.lean ====
section
/-! DEFINITION. The commands of the PWM timer, the ADC, the capture inputs and Teasel (spec/09_motor_teasel.md) that
bear on those blocks alone. Those that reach custody or DMA stand in Machine/Periph.lean. -/
namespace Sys2Proof.Machine

/-- An update event, or the valley or peak of the counter; dt TSCLK periods have passed (R487, R493 to R498, R519). -/
def execPwmUpdateEvent (peak : Bool) (dt : Nat) (s : State) : Host.Outcome State Fault Refusal :=
  .next ((s.tickTs dt).pwmEvent peak)

/-- The PWM trigger fires where SRC places it: at the valley, at the peak, at both, or as the counter equals the trigger count in the
direction of DIR; a count above PER never fires. With EN it starts the ADC's sequence when TRG is 1 (R491, R500). -/
def execPwmAdcTrigger (s : State) : Host.Outcome State Fault Refusal :=
  .next (let p := s.pwm
    let a := p.active
    let at0 := match a.trg.toNat % 4 with
      | 0 => !p.dir
      | 1 => p.dir
      | 2 => true
      | _ => p.dir == a.trg.getLsbD 3 && decide (a.trgc.toNat ≤ a.per.toNat)
    if p.run && at0 && a.trg.getLsbD 2 && s.mot.adc.trg = 1 && s.domainRuns .mclk && s.domainRuns .aclk then s.setAdc s.mot.adc.start
    else s)

/-- A register read's effect. -/
def afterRead (s : State) : Option (Word × State) → State
  | none => s
  | some (_, t) => t

/-- A comparator's input falls back (R510). -/
def execComparatorInactive (n : Fin 4) (s : State) : Host.Outcome State Fault Refusal :=
  .next (s.sourceOff ⟨n.val, by omega⟩)

/-- FAULT_N rises (R511). -/
def execFaultNRelease (s : State) : Host.Outcome State Fault Refusal := .next (s.sourceOff 4)

/-- The re-arm interval ends (R517). -/
def execRearmExpiry (s : State) : Host.Outcome State Fault Refusal := .next (s.setTsl { s.tsl with armWait := false })

/-- LOCK falls (R518). -/
def execLockExpiry (s : State) : Host.Outcome State Fault Refusal := .next (s.setTsl { s.tsl with lock := false })

/-- The Teasel dead time ends: the low sides rise (R514). -/
def execLowSideDeadTime (s : State) : Host.Outcome State Fault Refusal :=
  .next (if s.tsl.pads = .lowSideDead then s.setTsl { s.tsl with pads := .lowSideOn } else s)

/-- The dwell limit ends (R514). -/
def execDwellExpiry (s : State) : Host.Outcome State Fault Refusal :=
  .next (match s.tsl.pads with
    | .lowSideOn | .lowSideDead => s.padsOff
    | .pwm | .allOff => s)

/-- No MCLK edge has arrived for 100 ns (R532). -/
def execMclkLoss (s : State) : Host.Outcome State Fault Refusal :=
  .next (({ s with mot := { s.mot with mclk := false } }).setLatch 0x100)

end Sys2Proof.Machine
end

