-- ==== Sys2Proof/Machine/Celandine.lean ====
section
/-! DEFINITION. The commands of Celandine (spec/10_celandine.md) that cannot start the device. Those that can stand in
Machine/Wake.lean. -/
namespace Sys2Proof.Machine

/-- A column falls below 75 % in idle: scanning starts (R549); not while the matrix is wet (R552). -/
def execKeyColumnFall (s : State) : Host.Outcome State Fault Refusal :=
  .next (if s.scannerOn && !s.cel.wet && !s.dark then s.setCel { s.cel with scanning := true, quietScans := 0 } else s)

/-- A key held past the limit (R553). -/
def execKeyHoldLimit (n : Fin 16) (s : State) : Host.Outcome State Fault Refusal := .next (if s.dark then s else s.keyHeld n)

/-- A frame start (R559, R560, R561, R575). -/
def execLcdFrameStart (s : State) : Host.Outcome State Fault Refusal := .next (if s.dark then s else s.frameStart 7)

/-- COMMIT: the working buffer is copied at the next frame start (R560, R575). -/
def execLcdCommit (s : State) : Host.Outcome State Fault Refusal := .next (s.setCel { s.cel with lcdPend := true })

/-- CEL_SEALn written by the Steward (R564, R568): a change that follows sets the wake bit (R566). -/
def execCelSealWrite (n : Fin 2) (v : Word) (s : State) : Host.Outcome State Fault Refusal := .next (s.sealWrite n v).1

/-- CEL_WAKE read by the Steward (R572). -/
def execCelWakeRead (s : State) : Host.Outcome State Fault Refusal :=
  .next (afterRead s (s.celStewardRead Requester.steward.slot 0x020))

/-- CEL_SOPEN read by the Steward (R566). -/
def execCelSopenRead (s : State) : Host.Outcome State Fault Refusal :=
  .next (afterRead s (s.celStewardRead Requester.steward.slot 0x032))

/-- CEL_SHK read by the Steward (R569). -/
def execCelShkRead (s : State) : Host.Outcome State Fault Refusal :=
  .next (afterRead s (s.celStewardRead Requester.steward.slot 0x038))

/-- A word of CEL_LT (wall false) or CEL_WT (wall true) staged by the Steward (R543). -/
def execCelTimeWrite (wall : Bool) (i : Fin 7) (v : Word) (s : State) : Host.Outcome State Fault Refusal :=
  .next (if wall then (if h : i.val < 6 then s.stageWall ⟨i.val, h⟩ v else s) else s.stageLedger i v)

/-- A read of CEL_LT0 or CEL_WT0 by the Steward (R543). -/
def execCelTimeRead (wall : Bool) (s : State) : Host.Outcome State Fault Refusal :=
  .next (afterRead s (s.celStewardRead Requester.steward.slot (if wall then 0x029 else 0x022)))

/-- An edge of the selected time base (R542, R543, R544). -/
def execTimeBaseEdge (s : State) : Host.Outcome State Fault Refusal := .next (if s.dark then s else s.timeEdge)

end Sys2Proof.Machine
end

