-- ==== Sys2Proof/Machine/Crypto.lean ====
section
/-! DEFINITION. The published standards that the spec names without restating them: AES, CMAC and GCM (R694, Table Ops-18), SHA-256 and
HMAC (R390, R694), and ECDSA and ECDH on P-256 (R321, R398, R694). Octet strings are big-endian, as Table Ops-18 says. -/
namespace Sys2Proof.Machine

/-- The number that octets spell, most significant first. -/
def beNat (os : List Octet) : Nat := os.foldl (fun n o => 256 * n + o.toNat) 0
/-- The n low-order octets of a number, most significant first. -/
def beOctets (n x : Nat) : List Octet := (leOctets n x).reverse
def xorOctets (a b : List Octet) : List Octet := List.zipWith (fun x y => x ^^^ y) a b

/-! AES -/

/-- Multiplication by x in GF(2⁸). -/
def xtime (a : Octet) : Octet := (a <<< 1) ^^^ (if a.msb then 0x1B else 0)
/-- The product in GF(2⁸), over the bits of the second factor from bit `8 - n` on. -/
def gmulFrom : Nat → Octet → Octet → Octet
  | 0, _, _ => 0
  | n + 1, a, b => (if b.getLsbD 0 then a else 0) ^^^ gmulFrom n (xtime a) (b >>> 1)
def gmul (a b : Octet) : Octet := gmulFrom 8 a b
/-- The inverse in GF(2⁸): a to the power 254; 0 has 0. -/
def ginv (a : Octet) : Octet :=
  let sq (x : Octet) : Octet := gmul x x
  let a2 := sq a
  let a3 := gmul a2 a
  let a12 := sq (sq a3)
  let a15 := gmul a12 a3
  let a240 := sq (sq (sq (sq a15)))
  gmul (gmul a240 a12) a2
def sbox (a : Octet) : Octet :=
  let b := ginv a
  b ^^^ b.rotateLeft 1 ^^^ b.rotateLeft 2 ^^^ b.rotateLeft 3 ^^^ b.rotateLeft 4 ^^^ 0x63
def invSbox (a : Octet) : Octet := ginv (a.rotateLeft 1 ^^^ a.rotateLeft 3 ^^^ a.rotateLeft 6 ^^^ 0x05)

/-- The words of the key schedule from word `i` on, newest first; `nk` words of key. -/
def keyWords (nk : Nat) : Nat → Nat → Octet → List (List Octet) → List (List Octet)
  | 0, _, _, l => l
  | n + 1, i, rcon, l =>
    let prev := l.headD []
    let old := l.getD (nk - 1) []
    let t :=
      if i % nk = 0 then
        (match prev with
         | a :: r => xorOctets ((r ++ [a]).map sbox) [rcon, 0, 0, 0]
         | [] => [])
      else if 6 < nk && i % nk = 4 then prev.map sbox
      else prev
    keyWords nk n (i + 1) (if i % nk = 0 then xtime rcon else rcon) (xorOctets old t :: l)

/-- A string cut into pieces of k octets. -/
def pieces (k : Nat) : Nat → List Octet → List (List Octet)
  | 0, _ => []
  | n + 1, os => if os.isEmpty then [] else os.take k :: pieces k n (os.drop k)

/-- The round keys of a key of 16 or 32 octets. -/
def roundKeys (key : List Octet) : List (List Octet) :=
  let nk := key.length / 4
  let total := 4 * (nk + 7)
  let ws := (keyWords nk (total - nk) nk 1 (pieces 4 nk key).reverse).reverse
  (List.range (nk + 7)).map (fun r => ((ws.drop (4 * r)).take 4).flatten)

def byteAt (l : List Octet) (i : Nat) : Octet := l.getD i 0
def shiftRows (l : List Octet) : List Octet := (List.range 16).map (fun i => byteAt l ((i + 4 * (i % 4)) % 16))
def invShiftRows (l : List Octet) : List Octet := (List.range 16).map (fun i => byteAt l ((i + 12 * (i % 4)) % 16))
/-- Each column times a fixed column of coefficients. -/
def mixWith (c0 c1 c2 c3 : Octet) (l : List Octet) : List Octet :=
  (List.range 16).map (fun i =>
    let b := i / 4 * 4
    let r := i % 4
    gmul c0 (byteAt l (b + r)) ^^^ gmul c1 (byteAt l (b + (r + 1) % 4)) ^^^ gmul c2 (byteAt l (b + (r + 2) % 4)) ^^^
      gmul c3 (byteAt l (b + (r + 3) % 4)))

def aesRounds : List (List Octet) → List Octet → List Octet
  | [], x => x
  | [k], x => xorOctets (shiftRows (x.map sbox)) k
  | k :: ks, x => aesRounds ks (xorOctets (mixWith 2 3 1 1 (shiftRows (x.map sbox))) k)
def aesInvRounds : List (List Octet) → List Octet → List Octet
  | [], x => x
  | [k], x => xorOctets ((invShiftRows x).map invSbox) k
  | k :: ks, x => aesInvRounds ks (mixWith 14 11 13 9 (xorOctets ((invShiftRows x).map invSbox) k))

/-- AES-128 or AES-256 of one block. PRESUMED (log 14). -/
def aesEnc (key block : List Octet) : List Octet :=
  match roundKeys key with
  | [] => []
  | k :: ks => aesRounds ks (xorOctets block k)
def aesDec (key block : List Octet) : List Octet :=
  match (roundKeys key).reverse with
  | [] => []
  | k :: ks => aesInvRounds ks (xorOctets block k)

/-! CMAC and GCM -/

/-- Doubling of a 128-bit string for CMAC. -/
def cmacDouble (x : Nat) : Nat := if 2 ^ 127 ≤ x then Nat.xor (2 * x % 2 ^ 128) 0x87 else 2 * x

/-- AES-CMAC of a message. PRESUMED (log 14). -/
def cmac (key msg : List Octet) : List Octet :=
  let k1 := cmacDouble (beNat (aesEnc key (List.replicate 16 0)))
  let full := !msg.isEmpty && msg.length % 16 = 0
  let n := if msg.isEmpty then 1 else (msg.length + 15) / 16
  let head := pieces 16 (n - 1) msg
  let tail := msg.drop (16 * (n - 1))
  let last := if full then xorOctets tail (beOctets 16 k1)
    else xorOctets (tail ++ [0x80] ++ List.replicate (15 - tail.length) 0) (beOctets 16 (cmacDouble k1))
  (head ++ [last]).foldl (fun x b => aesEnc key (xorOctets x b)) (List.replicate 16 0)

/-- The product in GF(2¹²⁸) of GCM, over the bits of x from the most significant of its n low ones down. -/
def ghashMulFrom : Nat → Nat → Nat → Nat
  | 0, _, _ => 0
  | n + 1, x, v =>
    let v1 := if v % 2 = 1 then Nat.xor (v / 2) (0xE1 * 2 ^ 120) else v / 2
    Nat.xor (if x.testBit n then v else 0) (ghashMulFrom n x v1)

/-- GHASH of blocks under a hash key. -/
def ghash (h : Nat) (bs : List (List Octet)) : Nat :=
  bs.foldl (fun y b => ghashMulFrom 128 (Nat.xor y (beNat (b ++ List.replicate (16 - b.length) 0))) h) 0

/-- The tag of GCM for a 12-octet IV: key, IV, additional data, ciphertext. -/
def gcmTag (key iv aad text : List Octet) : List Octet :=
  let h := beNat (aesEnc key (List.replicate 16 0))
  let blocks (os : List Octet) : List (List Octet) := pieces 16 ((os.length + 15) / 16) os
  let s := ghash h (blocks aad ++ blocks text ++ [beOctets 8 (8 * aad.length) ++ beOctets 8 (8 * text.length)])
  xorOctets (aesEnc key (iv ++ [0, 0, 0, 1])) (beOctets 16 s)

/-! SHA-256 and HMAC -/

def shaK : List (BitVec 32) :=
  [0x428a2f98, 0x71374491, 0xb5c0fbcf, 0xe9b5dba5, 0x3956c25b, 0x59f111f1, 0x923f82a4, 0xab1c5ed5] ++
  [0xd807aa98, 0x12835b01, 0x243185be, 0x550c7dc3, 0x72be5d74, 0x80deb1fe, 0x9bdc06a7, 0xc19bf174] ++
  [0xe49b69c1, 0xefbe4786, 0x0fc19dc6, 0x240ca1cc, 0x2de92c6f, 0x4a7484aa, 0x5cb0a9dc, 0x76f988da] ++
  [0x983e5152, 0xa831c66d, 0xb00327c8, 0xbf597fc7, 0xc6e00bf3, 0xd5a79147, 0x06ca6351, 0x14292967] ++
  [0x27b70a85, 0x2e1b2138, 0x4d2c6dfc, 0x53380d13, 0x650a7354, 0x766a0abb, 0x81c2c92e, 0x92722c85] ++
  [0xa2bfe8a1, 0xa81a664b, 0xc24b8b70, 0xc76c51a3, 0xd192e819, 0xd6990624, 0xf40e3585, 0x106aa070] ++
  [0x19a4c116, 0x1e376c08, 0x2748774c, 0x34b0bcb5, 0x391c0cb3, 0x4ed8aa4a, 0x5b9cca4f, 0x682e6ff3] ++
  [0x748f82ee, 0x78a5636f, 0x84c87814, 0x8cc70208, 0x90befffa, 0xa4506ceb, 0xbef9a3f7, 0xc67178f2]
def shaStart : List (BitVec 32) :=
  [0x6a09e667, 0xbb67ae85, 0x3c6ef372, 0xa54ff53a, 0x510e527f, 0x9b05688c, 0x1f83d9ab, 0x5be0cd19]

/-- The message schedule: the last 16 words, newest first; the words used, in order. -/
def shaWords : Nat → List (BitVec 32) → List (BitVec 32)
  | 0, _ => []
  | n + 1, l =>
    let w (k : Nat) : BitVec 32 := l.getD (k - 1) 0
    let s0 := (w 15).rotateRight 7 ^^^ (w 15).rotateRight 18 ^^^ (w 15 >>> 3)
    let s1 := (w 2).rotateRight 17 ^^^ (w 2).rotateRight 19 ^^^ (w 2 >>> 10)
    let x := w 16 + s0 + w 7 + s1
    x :: shaWords n ((x :: l).take 16)

def shaRound (v : List (BitVec 32)) (kw : BitVec 32) : List (BitVec 32) :=
  match v with
  | [a, b, c, d, e, f, g, h] =>
    let s1 := e.rotateRight 6 ^^^ e.rotateRight 11 ^^^ e.rotateRight 25
    let t1 := h + s1 + ((e &&& f) ^^^ (~~~e &&& g)) + kw
    let s0 := a.rotateRight 2 ^^^ a.rotateRight 13 ^^^ a.rotateRight 22
    let t2 := s0 + ((a &&& b) ^^^ (a &&& c) ^^^ (b &&& c))
    [t1 + t2, a, b, c, d + t1, e, f, g]
  | _ => v

def shaBlock (v : List (BitVec 32)) (block : List Octet) : List (BitVec 32) :=
  let w0 := (pieces 4 16 block).map (fun p => BitVec.ofNat 32 (beNat p))
  let ws := w0 ++ shaWords 48 w0.reverse
  List.zipWith (fun x y => x + y) v ((List.zipWith (fun x y => x + y) shaK ws).foldl shaRound v)

/-- SHA-256. -/
def sha256 (msg : List Octet) : List Octet :=
  let pad := (119 - msg.length % 64) % 64
  let m := msg ++ [0x80] ++ List.replicate pad 0 ++ beOctets 8 (8 * msg.length)
  (((pieces 64 (m.length / 64) m).foldl shaBlock shaStart).map (fun w => beOctets 4 w.toNat)).flatten

/-- HMAC-SHA-256. -/
def hmac (key msg : List Octet) : List Octet :=
  let k0 := if 64 < key.length then sha256 key else key
  let k := k0 ++ List.replicate (64 - k0.length) 0
  sha256 (k.map (fun o => o ^^^ 0x5C) ++ sha256 (k.map (fun o => o ^^^ 0x36) ++ msg))

/-! P-256 -/

def p256 : Nat := 2 ^ 256 - 2 ^ 224 + 2 ^ 192 + 2 ^ 96 - 1
def p256Order : Nat := 0xFFFFFFFF00000000FFFFFFFFFFFFFFFFBCE6FAADA7179E84F3B9CAC2FC632551
def p256B : Nat := 0x5AC635D8AA3A93E7B3EBBD55769886BC651D06B0CC53B0F63BCE3C3E27D2604B
def p256G : Nat × Nat :=
  (0x6B17D1F2E12C4247F8BCE6E563A440F277037D812DEB33A0F4A13945D898C296,
   0x4FE342E2FE1A7F9B8EE7EB4A7C0F9E162BCE33576B315ECECBB6406837BF51F5)

/-- x to the power e modulo m, over n bits of e. -/
def powMod (m : Nat) : Nat → Nat → Nat → Nat
  | 0, _, _ => 1 % m
  | n + 1, x, e => (if e % 2 = 1 then x else 1) * powMod m n (x * x % m) (e / 2) % m
/-- The inverse modulo a prime below 2²⁵⁶. -/
def invMod (m x : Nat) : Nat := powMod m 256 (x % m) (m - 2)

/-- A point of the curve; none is the point at infinity. -/
abbrev EcPoint := Option (Nat × Nat)

def ecAdd (p q : EcPoint) : EcPoint :=
  match p, q with
  | none, q => q
  | p, none => p
  | some (x1, y1), some (x2, y2) =>
    if x1 = x2 && (y1 + y2) % p256 = 0 then none
    else
      let l := if x1 = x2 then (3 * x1 * x1 + p256 - 3) * invMod p256 (2 * y1) % p256
        else (y2 + p256 - y1) * invMod p256 (x2 + p256 - x1) % p256
      let x := (l * l + 2 * p256 - x1 - x2) % p256
      some (x, (l * (x1 + p256 - x) + p256 - y1) % p256)

/-- k times a point, over n bits of k. -/
def ecMulFrom : Nat → Nat → EcPoint → EcPoint
  | 0, _, _ => none
  | n + 1, k, p => ecAdd (if k % 2 = 1 then p else none) (ecMulFrom n (k / 2) (ecAdd p p))
def ecMul (k : Nat) (p : EcPoint) : EcPoint := ecMulFrom 256 k p

/-- X then Y, 32 octets each. -/
def pointOf (os : List Octet) : Nat × Nat := (beNat (os.take 32), beNat ((os.drop 32).take 32))

/-- An octet string is a point of P-256, X then Y. DEDUCED (log 98). -/
def ecPoint (os : List Octet) : Bool :=
  let (x, y) := pointOf os
  decide (os.length = 64) && decide (x < p256) && decide (y < p256) && decide (y * y % p256 = (x * x * x + (p256 - 3) * x + p256B) % p256)

/-- ECDSA P-256 verification: public key, digest of 32 octets, signature r then s. -/
def ecdsaVerify (key digest sig : List Octet) : Bool :=
  let r := beNat (sig.take 32)
  let s := beNat ((sig.drop 32).take 32)
  if !ecPoint key || r = 0 || p256Order ≤ r || s = 0 || p256Order ≤ s then false
  else
    let w := invMod p256Order s
    match ecAdd (ecMul (beNat digest * w % p256Order) (some p256G)) (ecMul (r * w % p256Order) (some (pointOf key))) with
    | none => false
    | some (x, _) => decide (x % p256Order = r)

/-- The secret key drawn as free value n. DEDUCED (log 18). -/
def ecSecret (n : Nat) : Nat := Config.freeValue n % (p256Order - 1) + 1

/-- The octets of a point. -/
def pointOctets : EcPoint → List Octet
  | none => List.replicate 64 0
  | some (x, y) => beOctets 32 x ++ beOctets 32 y

/-- The public key of a secret key. -/
def ecPublicOf (d : Nat) : List Octet := pointOctets (ecMul d (some p256G))

/-- The X coordinate of a secret key times a peer's public key; none where the peer's is no point of the curve. -/
def ecSharedOf (d : Nat) (peer : List Octet) : Option (List Octet) :=
  if ecPoint peer then (ecMul d (some (pointOf peer))).map (fun p => beOctets 32 p.1) else none

/-- The same of the secret key drawn as free value n. -/
def ecPublic (n : Nat) : List Octet := ecPublicOf (ecSecret n)
def ecShared (n : Nat) (peer : List Octet) : Option (List Octet) := ecSharedOf (ecSecret n) peer

/-! The device's own keys -/

/-- The ledger sealing key drawn as free value n: 32 octets (Table Custody-8). DEDUCED (log 18). -/
def sealingKey (n : Nat) : List Octet := beOctets 32 (Config.freeValue n)

/-- HMAC-SHA-256 under that key (R390). -/
def sealMac (n : Nat) (msg : List Octet) : List Octet := hmac (sealingKey n) msg

/-- The identity public key (Table Custody-8). DESIGN CHOICE (log 16). -/
def identityKey : List Octet := ecPublicOf Config.identitySecret

/-- The sealing key under the export's wrapping key: AES-256-GCM cipher text and tag, by the ephemeral public key, the nonce and the
identity, which is the additional data (R398, R932). DEDUCED (log 98). -/
def wrapKey (n : Nat) (eph nonce identity : List Octet) : List Octet :=
  let key := sha256 (((ecSharedOf Config.identitySecret eph).getD []) ++ identity)
  let stream := ((List.range 2).map (fun j => aesEnc key (nonce ++ beOctets 4 (2 + j)))).flatten
  let text := xorOctets (sealingKey n) stream
  text ++ gcmTag key nonce identity text

end Sys2Proof.Machine
end

