-- ==== Sys2Proof/Machine/Decimal.lean ====
section
/-! DEFINITION. Decimal values and the operations of the decimal units (spec/13_decimal_ct.md). A format is named by its
number of digits: 14 for DS, 29 for DL; its class nibble is the nibble after the digits. -/
namespace Sys2Proof.Machine

/-- The digits of a format. -/
def dsDigits : Nat := 14
def dlDigits : Nat := 29

/-- k BCD digits of a number, least significant first, as a number of nibbles. -/
def bcd : Nat → Nat → Nat
  | 0, _ => 0
  | k + 1, x => x % 10 + 16 * bcd k (x / 10)

/-- The number that k BCD digits spell. -/
def unbcd : Nat → Nat → Nat
  | 0, _ => 0
  | k + 1, x => x % 16 + 10 * unbcd k (x / 16)

/-- A decoded operand: a signed coefficient, or a NaN with its class and payload nibbles (R711, R713). -/
inductive DVal where
  | num (c : Int)
  | nan (cls payload : Nat)
  deriving DecidableEq, Repr

/-- The nibbles of an operand's words. -/
def nibbles (n : Nat) (ws : List Word) : Nat := wordsNat (ws.take ((n + 1) / 3))

/-- The class nibble of an operand. -/
def classOf (n : Nat) (ws : List Word) : Nat := nibbles n ws / 16 ^ n % 16

/-- The lowest nibble that R711 calls malformed, by its index; the class nibble is named first (R729). -/
def offending (n : Nat) (ws : List Word) : Option Nat :=
  let x := nibbles n ws
  let k := x / 16 ^ n % 16
  if 1 ≤ k ∧ k ≤ 9 then some n
  else if k = 0 ∨ k = 13 then (List.range n).find? (fun i => decide (9 < x / 16 ^ i % 16))
  else none

/-- An operand decoded; `op` is its operand number, 1 for pa and 2 for pb (R711, R712, R729). -/
def DVal.decode (n op : Nat) (ws : List Word) : DVal :=
  match offending n ws with
  | some i => .nan 15 (op + 16 * bcd 2 i)
  | none =>
    let x := nibbles n ws
    let k := x / 16 ^ n % 16
    if k = 0 then .num (unbcd n x) else if k = 13 then .num (-(unbcd n x : Int)) else .nan k (x % 16 ^ n)

/-- The words of a value (R708, R709); zero has class 0x0 (R712). -/
def DVal.encode (n : Nat) : DVal → List Word
  | .num c => leWords ((n + 1) / 3) (bcd n c.natAbs + (if c < 0 then 13 else 0) * 16 ^ n)
  | .nan k p => leWords ((n + 1) / 3) (p % 16 ^ n + k * 16 ^ n)

/-- A quotient of an integer by a positive number rounded under a mode (Table Decimal-4), and whether it was inexact. -/
def roundDiv (mode : Nat) (x : Int) (den : Nat) : Int × Bool :=
  let m := x.natAbs
  let q := m / den
  let r := m % den
  let up : Bool :=
    if mode = 0 then decide (den < 2 * r) || (decide (2 * r = den) && decide (q % 2 = 1))
    else if mode = 1 then decide (den ≤ 2 * r) && decide (r ≠ 0)
    else if mode = 3 then decide (r ≠ 0)
    else false
  let q1 : Int := if up then q + 1 else q
  (if x < 0 then -q1 else q1, decide (r ≠ 0))

/-- FL bits (Table Jieles-2). -/
def flC : Nat := 1
def flZ : Nat := 2
def flN : Nat := 4
def flV : Nat := 8
def flDZ : Nat := 16
def flDN : Nat := 32
def flDI : Nat := 64

/-- What an operation leaves: a value's words, the FL bits it writes with their values, and the sticky bits it sets. -/
structure DecResult where
  words : List Word
  mask : Nat
  value : Nat
  sticky : Nat
  deriving DecidableEq, Repr

/-- Z, N and V of an arithmetic result (R719). -/
def arithFlags (v : DVal) (overflow : Bool) : Nat :=
  match v with
  | .num c => (if c = 0 then flZ else 0) + (if c < 0 then flN else 0)
  | .nan _ _ => if overflow then flV else 0

/-- A NaN result of R727 or R730. -/
def nanResult (n k p sticky : Nat) : DecResult :=
  { words := (DVal.nan k p).encode n, mask := flZ + flN + flV, value := 0, sticky := flDN + sticky }

/-- An exact quotient rounded to a result of a format (R718, R726, R728). -/
def finishExact (n mode : Nat) (x : Int) (den : Nat) : DecResult :=
  let (c, inexact) := roundDiv mode x den
  if 10 ^ n ≤ c.natAbs then
    { words := (DVal.nan 14 0).encode n, mask := flZ + flN + flV, value := flV, sticky := flDN }
  else
    { words := (DVal.num c).encode n, mask := flZ + flN + flV, value := arithFlags (.num c) false,
      sticky := if inexact then flDI else 0 }

/-- The scales and the mode of a context (Table Decimal-2). -/
structure DecScales where
  sa : Nat
  sb : Nat
  sd : Nat
  mode : Nat
  deriving DecidableEq, Repr

/-- The first NaN among two operands decides the result (R727). -/
def binaryNan (n : Nat) (a b : DVal) : Option DecResult :=
  match a, b with
  | .nan k p, _ => some (nanResult n k p 0)
  | .num _, .nan k p => some (nanResult n k p 0)
  | .num _, .num _ => none

def coeff : DVal → Int
  | .num c => c
  | .nan _ _ => 0

/-- DADD and DSUB (R718). -/
def decAdd (n : Nat) (x : DecScales) (sub : Bool) (a b : List Word) : DecResult :=
  let va := DVal.decode n 1 a
  let vb := DVal.decode n 2 b
  match binaryNan n va vb with
  | some r => r
  | none =>
    let cb := if sub then -coeff vb else coeff vb
    finishExact n x.mode ((coeff va * 10 ^ x.sb + cb * 10 ^ x.sa) * 10 ^ x.sd) (10 ^ (x.sa + x.sb))

/-- DMUL (R718). -/
def decMul (n : Nat) (x : DecScales) (a b : List Word) : DecResult :=
  let va := DVal.decode n 1 a
  let vb := DVal.decode n 2 b
  match binaryNan n va vb with
  | some r => r
  | none => finishExact n x.mode (coeff va * coeff vb * 10 ^ x.sd) (10 ^ (x.sa + x.sb))

/-- DDIV divides by zero: the second operand is numeric zero, and the first is numeric (R730). -/
def decDivZero (n : Nat) (a b : List Word) : Bool :=
  match DVal.decode n 1 a, DVal.decode n 2 b with
  | .num _, .num c => c = 0
  | _, _ => false

/-- DDIV (R718, R730 with DZT at 0). -/
def decDiv (n : Nat) (x : DecScales) (a b : List Word) : DecResult :=
  let va := DVal.decode n 1 a
  let vb := DVal.decode n 2 b
  match binaryNan n va vb with
  | some r => r
  | none =>
    if coeff vb = 0 then nanResult n 14 1 flDZ
    else
      let s : Int := if coeff vb < 0 then -1 else 1
      finishExact n x.mode (s * coeff va * 10 ^ (x.sb + x.sd)) ((coeff vb).natAbs * 10 ^ x.sa)

/-- DCMP (R721). -/
def decCmp (n : Nat) (x : DecScales) (a b : List Word) : DecResult :=
  let f (v : Nat) : DecResult := { words := [], mask := flC + flZ + flN + flV, value := v, sticky := 0 }
  match DVal.decode n 1 a, DVal.decode n 2 b with
  | .num ca, .num cb =>
    let l := ca * 10 ^ x.sb
    let r := cb * 10 ^ x.sa
    f ((if l = r then flZ else 0) + (if r ≤ l then flC else 0) + (if l < r then flN else 0))
  | _, _ => f flV

/-- A unary operation: DRND, DNEG, DABS, and with another result format DWIDEN and DNARROW (R718, R720, R722). -/
def decUnary (n m : Nat) (x : DecScales) (f : Int → Int) (a : List Word) : DecResult :=
  match DVal.decode n 1 a with
  | .nan k p => nanResult m k p 0
  | .num c => finishExact m x.mode (f c * 10 ^ x.sd) (10 ^ x.sa)

/-- DFROMB (R723). -/
def decFromB (x : DecScales) (v : Pair) : DecResult :=
  finishExact dsDigits x.mode (v.toInt * 10 ^ x.sd) 1

/-- DTOB (R723): the result is a pair. -/
def decToB (x : DecScales) (a : List Word) : DecResult :=
  let out (c : Int) (v : Bool) (sticky : Nat) : DecResult :=
    { words := leWords 2 (BitVec.ofInt 24 c).toNat, mask := flZ + flN + flV,
      value := (if c = 0 then flZ else 0) + (if c < 0 then flN else 0) + (if v then flV else 0), sticky := sticky }
  match DVal.decode dsDigits 1 a with
  | .nan _ _ => out 0 true 0
  | .num c =>
    let (r, inexact) := roundDiv x.mode c (10 ^ x.sa)
    if r < -8388608 then out (-8388608) true 0
    else if 8388607 < r then out 8388607 true 0
    else out r false (if inexact then flDI else 0)

/-- DNAN (R724). -/
def decNan (v : Pair) : DecResult :=
  { words := (DVal.nan 10 (bcd 8 v.toNat)).encode dsDigits, mask := 0, value := 0, sticky := flDN }

/-- The number of significant decimal digits. -/
def sigDigits : Nat → Nat → Nat
  | 0, _ => 0
  | k + 1, x => if x = 0 then 0 else 1 + sigDigits k (x / 10)

/-- DCLS (R724). -/
def decCls (n : Nat) (a : List Word) : DecResult :=
  let k := classOf n a
  let nan := decide (10 ≤ k) && decide (k ≠ 13)
  let bad := (offending n a).isSome
  let d := match DVal.decode n 1 a with | .num c => sigDigits n c.natAbs | .nan _ _ => 0
  { words := [BitVec.ofNat 12 (k + 16 * nan.toNat + 32 * bad.toNat), BitVec.ofNat 12 d], mask := 0, value := 0, sticky := 0 }

/-- A non-negative value of a format; a class-0xE NaN where it needs more digits (R728). -/
def decNat (n x : Nat) : List Word := if x < 10 ^ n then (DVal.num x).encode n else (DVal.nan 14 0).encode n

end Sys2Proof.Machine
end

