-- ==== Sys2Proof/Machine/FlashOps.lean ====
section
/-! DEFINITION. The operations of the flash controller (spec/15_eflash.md): launching, assemblies by both methods,
reads and writes of the FCTL_ registers, and direct-mode reads. A requester is a core, 0 to 3, or the Steward, 4. -/
namespace Sys2Proof.Machine

/-- Bank of an address in the flash space (R811). -/
def bankOf (a : Nat) : Fin 2 := if a < 0xC00000 then 0 else 1
/-- Block number of an address within its bank. -/
def blockOf (a : Nat) : Nat := a / 0x8000 % 128
/-- First word of a block. -/
def blockBase (bank block : Nat) : Nat := 0x800000 + bank * 0x400000 + block * 0x8000
def inArray (a : Nat) : Bool := decide (0x800000 ≤ a) && decide (a < 0x1000000)

def State.bank (s : State) (b : Fin 2) : Bank := s.fl.banks.get b
def State.setBank (s : State) (b : Fin 2) (x : Bank) : State :=
  { s with fl := { s.fl with banks := s.fl.banks.set b x } }
def State.fown (s : State) (r : Fin 5) : FctlOwn := s.fl.own.get r
def State.setFown (s : State) (r : Fin 5) (x : FctlOwn) : State :=
  { s with fl := { s.fl with own := s.fl.own.set r x } }

/-- The requester reaches the block of an address: a core within its flash window, the Steward anywhere (R834). -/
def State.inWindow (s : State) (r : Fin 5) (a : Nat) : Bool :=
  inArray a &&
    (if h : r.val < 4 then
      let g := (s.core.get ⟨r.val, h⟩).grants
      g.windowValid && decide (g.bank.toNat = (bankOf a).val) && decide (g.first.toNat ≤ blockOf a) &&
        decide (blockOf a ≤ g.last.toNat)
    else true)

/-- A block's metadata, by the address of its first word. -/
def State.blockMeta (s : State) (base : Nat) : BlockMeta := lookupD BlockMeta.reset (blockOf base) (s.bank (bankOf base)).info
def State.setMeta (s : State) (base : Nat) (m : BlockMeta) : State :=
  let b := bankOf base
  let k := s.bank b
  s.setBank b { k with info := if m = BlockMeta.reset then dropKey (blockOf base) k.info else setKey (blockOf base) m k.info }

/-! Stream mode -/

/-- Words from an address on as the cells hold them, kept with the address. -/
def Flash.holdWords (f : Flash) (a n : Nat) : Nat × List Word := (a, memGetList 0xFFF f.cells a n)

/-- A stream fetch of an address (R814): its row comes into the prefetch buffer unless it is there or was read ahead; in the buffer's
last line the next row of the bank is read ahead; at a branch its line goes to the front of the 32 targets. -/
def StreamReader.fetch (x : StreamReader) (f : Flash) (a : Nat) (branch : Bool) : StreamReader :=
  let base := a / 64 * 64
  let kept (o : Option (Nat × List Word)) : Option (Nat × List Word) := o.filter (fun q => q.1 = base)
  let row := (kept x.row).getD ((kept x.ahead).getD (f.holdWords base 64))
  let line := a / 16 * 16
  { row := some row,
    ahead := if a % 64 < 48 then x.ahead else if (base + 64) % 0x400000 = 0 then none else some (f.holdWords (base + 64) 64),
    targets := if branch then (f.holdWords line 16 :: x.targets.filter (fun q => q.1 ≠ line)).take 32 else x.targets }

/-- The Steward fetches an address in stream mode. -/
def State.streamFetch (s : State) (a : Nat) (branch : Bool) : State :=
  let b := bankOf a
  s.setBank b { s.bank b with stream := (s.bank b).stream.fetch s.fl a branch }

/-- The Steward reads n words in stream mode, line by line (R814). DESIGN CHOICE (log 139). -/
def State.streamRead (s : State) (a n : Nat) : State :=
  (List.range ((a % 16 + n + 15) / 16)).foldl (fun (s : State) (i : Nat) => s.streamFetch (a / 16 * 16 + 16 * i) false) s

/-- A program or erase of a bank starts: its prefetch buffer and branch target cache hold nothing (R816). -/
def State.unbuffer (s : State) (b : Fin 2) : State := s.setBank b { s.bank b with stream := StreamReader.reset }

/-! Metadata -/

/-- A block's erase count (R850). -/
def BlockMeta.count (m : BlockMeta) : Nat :=
  match m.slotA, m.slotB with
  | some a, some b => max a b
  | some a, none => a
  | none, some b => b
  | none, none => 0xFFFFFF

/-- Step 3 of Table Flash-5: the new count goes into the slot with the lower value (R850). -/
def BlockMeta.bump (m : BlockMeta) : BlockMeta :=
  let n := satAdd 0xFFFFFF m.count 1
  match m.slotA, m.slotB with
  | some a, some b => if a ≤ b then { m with slotA := some n } else { m with slotB := some n }
  | none, _ => { m with slotA := some n }
  | some _, none => { m with slotB := some n }

/-- A command of a requester ends with a result (R833, Table Flash-12). -/
def State.flashEnd (s : State) (r : Fin 5) (op res : Nat) : State :=
  let o := s.fown r
  s.setFown r { o with res := BitVec.ofNat 4 res, resOp := BitVec.ofNat 3 op, done := o.done || res == 1,
                       err := o.err || res != 1 }

/-- An assembly abandoned under R834. DEDUCED (log 110). -/
def State.flashAbandon (s : State) (r : Fin 5) : State :=
  let o := s.fown r
  s.setFown r { o with asm := .none, seqErr := true, res := 13 }

/-- The owner's code of a running, deferred or suspended operation. -/
def BankRun.owner : BankRun → List (Fin 5)
  | .idle => []
  | .programming o _ _ => [o]
  | .erasing e => [e.owner]
  | .deferring e a => [e.owner, a]

/-- The requesters that hold a tag in the flash queue for a bank, once for each tag; a resume that waits holds one
(Table Flight-1). -/
def Bank.holders (b : Bank) : List (Fin 5) :=
  b.queue.map (·.owner) ++ b.run.owner ++ (match b.suspended with | none => [] | some e => e.owner :: e.resumeBy.toList)

/-- Every holder of a flash-queue tag. -/
def Flash.holders (f : Flash) : List (Fin 5) := (f.banks.get 0).holders ++ (f.banks.get 1).holders

/-- A tag is free for a requester: the cores share 16, the Steward has 16 and whatever else is free (Table Flight-2). -/
def Flash.tagFree (f : Flash) (r : Fin 5) : Bool :=
  let h := f.holders
  decide (h.length < 32) && (decide (r.val = 4) || decide ((h.filter (fun o => decide (o.val < 4))).length < 16))

/-- FCTL_STAT.QUE: a command of this requester is queued or running, or its erase is suspended. -/
def Flash.queued (f : Flash) (r : Fin 5) : Bool := f.holders.contains r || (f.own.get r).waiting.isSome

/-- A bank is busy (R825). -/
def Bank.busy (b : Bank) : Bool :=
  match b.run with
  | .idle => false
  | .programming _ _ _ | .erasing _ | .deferring _ _ => true

/-- FCTL_BSTAT's code of a bank (Table Flash-11). -/
def Bank.stat (b : Bank) : Nat :=
  match b.run with
  | .idle => if b.suspended.isSome then 4 else 0
  | .programming _ _ _ => 1
  | .erasing _ => 2
  | .deferring _ _ => 3

/-- FCTL_SBLK of a bank. -/
def Bank.sblk (b : Bank) : Nat :=
  match b.suspended with
  | none => 0
  | some e => 128 + blockOf e.block

/-- A direct read of an address cannot be served: its bank is busy or its block is suspended (R825, R826). -/
def State.flashBusy (s : State) (a : Nat) : Bool :=
  let b := s.bank (bankOf a)
  b.busy || (match b.suspended with | none => false | some e => decide (blockOf e.block = blockOf a))

/-- A suspend acts now or is deferred (R840, R841, R844); `early`: it came within 250 µs of the last resume. -/
def State.flashSuspend (s : State) (r : Fin 5) (b : Fin 2) (early : Bool) : State :=
  let k := s.bank b
  match k.run with
  | .erasing e =>
    if r.val ≠ 4 && r ≠ e.owner then s.flashEnd r 3 10
    else if r.val ≠ 4 && early && e.resumed then s.setBank b { k with run := .deferring e r }
    else (s.setBank b { k with run := .idle, suspended := some e }).flashEnd r 3 1
  | .idle | .programming _ _ _ | .deferring _ _ => s.flashEnd r 3 10

/-- A resume (R840, R843). DEDUCED (log 111). -/
def State.flashResume (s : State) (r : Fin 5) (b : Fin 2) : State :=
  let k := s.bank b
  match k.suspended with
  | none => s.flashEnd r 4 10
  | some e =>
    if r.val ≠ 4 && r ≠ e.owner then s.flashEnd r 4 10
    else
      match k.run with
      | .idle => (s.setBank b { k with run := .erasing { e with resumed := true }, suspended := none }).flashEnd r 4 1
      | .programming _ _ _ | .erasing _ | .deferring _ _ => s.setBank b { k with suspended := some { e with resumeBy := some r } }

/-- The bank of a launch. -/
def Launch.bank : Launch → Fin 2
  | .cmd (.program p _) => bankOf p
  | .cmd (.erase b) => bankOf b
  | .suspend b => b
  | .resume b => b

/-- A launch that holds a tag takes effect: programs and erases are queued, suspends and resumes act (R832). -/
def State.flashAdmit (s : State) (r : Fin 5) (early : Bool) : Launch → State
  | .cmd op =>
    let b := (Launch.cmd op).bank
    let k := s.bank b
    s.setBank b { k with queue := k.queue ++ [{ owner := r, op := op }] }
  | .suspend b => s.flashSuspend r b early
  | .resume b => s.flashResume r b

/-- A command is launched: refused after PWR_FAIL (R865), else admitted, or it waits for a tag (R63, R832, R867). -/
def State.flashLaunch (s : State) (r : Fin 5) (opCode : Nat) (early : Bool) (l : Launch) : State :=
  let o := s.fown r
  let s1 := s.setFown r { o with asm := .none }
  if s.fl.refusing then s1.flashEnd r opCode 12
  else if s1.fl.tagFree r then s1.flashAdmit r early l
  else s1.setFown r { o with asm := .none, waiting := some l }

/-- A program command is launched (R828, R834, R838). DEDUCED (log 8). -/
def State.flashProgram (s : State) (r : Fin 5) (a : Nat) (data : List Word) : State :=
  let clear := s.setFown r { s.fown r with asm := .none }
  if !s.inWindow r a then clear.flashEnd r 1 4
  else if a % 256 ≠ 0 then clear.flashEnd r 1 5
  else s.flashLaunch r 1 false (.cmd (.program a data))

/-- An erase command is launched. DEDUCED (log 111). -/
def State.flashErase (s : State) (r : Fin 5) (a : Nat) : State :=
  let clear := s.setFown r { s.fown r with asm := .none }
  if !s.inWindow r a then clear.flashEnd r 2 4
  else if a % 0x8000 ≠ 0 then clear.flashEnd r 2 5
  else s.flashLaunch r 2 false (.cmd (.erase a))

/-- A suspend (code 3) or resume (code 4) is launched; any address of the bank names it (R838). -/
def State.flashControl (s : State) (r : Fin 5) (a : Nat) (resume early : Bool) : State :=
  let code := if resume then 4 else 3
  if !s.inWindow r a then (s.setFown r { s.fown r with asm := .none }).flashEnd r code 4
  else s.flashLaunch r code early (if resume then .resume (bankOf a) else .suspend (bankOf a))

/-- A word of the calibration row (Table Flash-9). -/
def calibrationWord (a : Nat) : Word :=
  if a < 3 then BitVec.ofNat 12 (Config.identity.toNat / 4096 ^ a) else if a = 3 then 0x0B1 else Config.calibration a

/-- INFO (R839). DEDUCED (log 109). -/
def State.flashInfo (s : State) (r : Fin 5) (a : Nat) : State :=
  let o := { s.fown r with asm := .none }
  if s.inWindow r a then
    let m := s.blockMeta a
    let n := m.count
    (s.setFown r { o with info := words [n % 4096, n / 4096, m.flag.toNat] }).flashEnd r 5 1
  else if a < 0x400 then (s.setFown r { o with info := [calibrationWord a] }).flashEnd r 5 1
  else (s.setFown r o).flashEnd r 5 4

/-- The keyed command of a code and an address (R837). DEDUCED (log 110). -/
def State.flashKeyed (s : State) (r : Fin 5) (op a : Nat) : State :=
  if op = 1 then s.setFown r { s.fown r with asm := .data a [] }
  else if op = 2 then s.flashErase r a
  else if op = 3 then s.flashControl r a false false
  else if op = 4 then s.flashControl r a true false
  else s.flashInfo r a

/-- A write of an FCTL_ register that no launch holds back (R837, Table Flash-11). -/
def State.fctlWriteNow (s : State) (r : Fin 5) (off : Nat) (v : Word) : State :=
  let o := s.fown r
  match off with
  | 0x000 =>
    if v = 0x3C7 then
      (match o.asm with
       | .none => s.setFown r { o with asm := .keyA }
       | _ => s.flashAbandon r)
    else (s.setFown r { o with asm := .none }).flashEnd r 0 2
  | 0x001 =>
    (match o.asm with
     | .keyA => if v = 0xC38 then s.setFown r { o with asm := .unlocked }
                else (s.setFown r { o with asm := .none }).flashEnd r 0 2
     | _ => (s.setFown r { o with asm := .none }).flashEnd r 0 2)
  | 0x002 =>
    let op := v.toNat % 16
    if op = 0 then s.setFown r { o with asm := .none }
    else
      (match o.asm with
       | .unlocked => if op ≤ 5 then s.setFown r { o with asm := .code op }
                      else (s.setFown r { o with asm := .none }).flashEnd r 0 3
       | .none => s.flashEnd r 0 2
       | _ => s.flashAbandon r)
  | 0x003 =>
    (match o.asm with
     | .code op => s.setFown r { o with asm := .addr0 op v, addr0 := v }
     | _ => s.flashAbandon r)
  | 0x004 =>
    (match o.asm with
     | .addr0 op lo =>
       (s.setFown r { o with addr1 := v }).flashKeyed r op (lo.toNat + 4096 * v.toNat)
     | _ => s.flashAbandon r)
  | 0x005 =>
    (match o.asm with
     | .data a ws =>
       if ws.length = 255 then s.flashProgram r a (ws ++ [v]) else s.setFown r { o with asm := .data a (ws ++ [v]) }
     | _ => s.flashAbandon r)
  | 0x006 =>
    s.setFown r { o with done := o.done && !v.getLsbD 3, err := o.err && !v.getLsbD 4, ecw := o.ecw && !v.getLsbD 5,
                         seqErr := o.seqErr && !v.getLsbD 6, badWr := o.badWr && !v.getLsbD 7 }
  | 0x00B => { s with fl := { s.fl with tap := v.setWidth 4 } }
  | 0x00C => s.setFown r { o with margin := v.getLsbD 0 }
  | 0x00D =>
    if v.toNat % 4 = 1 || v.toNat % 4 = 2 then { s with fl := { s.fl with ecth := v.setWidth 2 } }
    else s.setFown r { o with badWr := true }
  | 0x011 => s.setFown r { o with ien := v.setWidth 3 }
  | _ => s

/-- A sequence-mode write that no launch holds back (R835, R836, Table Flash-7). -/
def State.seqStoreNow (s : State) (r : Fin 5) (a : Nat) (v : Word) : State :=
  let o := s.fown r
  let base := a / 0x8000 * 0x8000
  let off := a % 0x8000
  let wrong : State := if v = 0xE47 then s.setFown r { o with asm := .none } else s.flashAbandon r
  match o.asm with
  | .none =>
    if v = 0x5C3 && off = 0x1A6 then s.setFown r { o with asm := .seq1 base }
    else if v = 0x6B5 then s.flashControl r a false false
    else if v = 0x3D8 then s.flashControl r a true false
    else wrong
  | .seq1 b => if v = 0xA3C && a = b + 0x659 then s.setFown r { o with asm := .seq2 b } else wrong
  | .seq2 b =>
    if v = 0x7E1 && a = b + 0x1A6 then s.setFown r { o with asm := .seqData b none [] }
    else if v = 0x4D2 && a = b + 0x1A6 then s.setFown r { o with asm := .seqErase b }
    else wrong
  | .seqErase b => if v = 0x2B4 && a = b then s.flashErase r b else wrong
  | .seqData b none _ =>
    if base = b && a % 256 = 0 then s.setFown r { o with asm := .seqData b (some a) [v] } else wrong
  | .seqData b (some p) ws =>
    if a = p + ws.length then
      (if ws.length = 255 then s.flashProgram r p (ws ++ [v]) else s.setFown r { o with asm := .seqData b (some p) (ws ++ [v]) })
    else wrong
  | .keyA | .unlocked | .code _ | .addr0 _ _ | .data _ _ => wrong

/-- A write by either method; it waits behind a launch that has no tag (R867). -/
def State.fctlWrite (s : State) (r : Fin 5) (w : FctlWrite) : State :=
  let o := s.fown r
  if o.waiting.isSome then s.setFown r { o with behind := o.behind ++ [w] }
  else
    match w with
    | .reg off v => s.fctlWriteNow r off v
    | .store a v => s.seqStoreNow r a v

/-- Writes that waited are made in their order, until one of them waits again. -/
def State.fctlReplay (s : State) (r : Fin 5) : List FctlWrite → State
  | [] => s
  | w :: ws => (s.fctlWrite r w).fctlReplay r ws

/-- Tags have come free: waiting launches are admitted, in the order of the requesters (R63, R110). -/
def State.flashDrain (s : State) : State :=
  ([0, 1, 2, 3, 4] : List (Fin 5)).foldl (fun s r =>
    let o := s.fown r
    match o.waiting with
    | none => s
    | some l =>
      if s.fl.tagFree r then
        let s1 := (s.setFown r { o with waiting := none, behind := [] }).flashAdmit r false l
        s1.fctlReplay r o.behind
      else s) s

/-- A read of an FCTL_ register by a requester: the word, and the state after it (Table Flash-11). -/
def State.fctlRead (s : State) (r : Fin 5) (off : Nat) : Word × State :=
  let o := s.fown r
  match off with
  | 0x002 => (BitVec.ofNat 12 (match o.asm with | .code op => op | .addr0 op _ => op | .data _ _ => 1 | _ => 0), s)
  | 0x003 => (o.addr0, s)
  | 0x004 => (o.addr1, s)
  | 0x005 => (o.info.headD 0, s.setFown r { o with info := o.info.drop 1 })
  | 0x006 =>
    (BitVec.ofNat 12 (boolsNat [o.asm == .unlocked, o.asm != .none, s.fl.queued r, o.done, o.err, o.ecw, o.seqErr, o.badWr]), s)
  | 0x007 => (o.res.setWidth 12 ||| (o.resOp.setWidth 12 <<< 4), s)
  | 0x008 => (BitVec.ofNat 12 ((s.bank 0).stat + 8 * (s.bank 1).stat), s)
  | 0x009 => (BitVec.ofNat 12 (s.bank 0).sblk, s)
  | 0x00A => (BitVec.ofNat 12 (s.bank 1).sblk, s)
  | 0x00B => (s.fl.tap.setWidth 12, s)
  | 0x00C => (BitVec.ofNat 12 o.margin.toNat, s)
  | 0x00D => (s.fl.ecth.setWidth 12, s)
  | 0x00E => (o.ecnt.setWidth 12, s.setFown r { o with ecnt := 0 })
  | 0x00F => (o.eaddr.setWidth 12, s.setFown r { o with eaddrLatch := (o.eaddr >>> 12).setWidth 12 })
  | 0x010 => (o.eaddrLatch, s)
  | 0x011 => (o.ien.setWidth 12, s)
  | _ => (0, s)

/-- The requester's FCTL interrupt source requests (R833, FCTL_IEN). -/
def FctlOwn.requests (o : FctlOwn) : Bool :=
  (o.ien.getLsbD 0 && o.done) || (o.ien.getLsbD 1 && o.err) || (o.ien.getLsbD 2 && o.ecw)

/-- What a direct-mode read gives (R822, R823, R826). -/
inductive FlashRead where
  | words (ws : List Word)
  | busy
  | uncorrectable
  deriving DecidableEq, Repr

/-- A direct-mode read of n words of one line; `ec` is the error count that the line's correction reports, a fact of
its cells, of TAP and of MARGIN (R817 to R824, R847). -/
def State.flashDirect (s : State) (r : Fin 5) (a n : Nat) (ec : BitVec 2) : FlashRead × State :=
  if s.flashBusy a then (.busy, s)
  else
    let o := s.fown r
    let warn := decide (s.fl.ecth.toNat ≤ ec.toNat) || decide (ec.toNat = 3)
    let o1 := { o with ecnt := if o.ecnt.toNat < ec.toNat then ec else o.ecnt, ecw := o.ecw || warn,
                       eaddr := if warn && !o.ecw then BitVec.ofNat 24 (a / 16 * 16) else o.eaddr }
    let s1 := s.setFown r o1
    if ec.toNat = 3 then (.uncorrectable, s1) else (.words (memGetList 0xFFF s.fl.cells a n), s1)

/-- A page is blank (R828). -/
def Flash.blank (f : Flash) (p : Nat) : Bool := !f.programmed.contains p

/-- A queued command starts when the bank is free; a program's prechecks come first (R828, R832, R842). -/
def State.flashStart (s : State) (b : Fin 2) : State :=
  let k := s.bank b
  match k.run, k.queue with
  | .idle, c :: rest =>
    let s1 := s.setBank b { k with queue := rest, stream := StreamReader.reset }
    (match c.op with
     | .program p data =>
       let base := p / 0x8000 * 0x8000
       if (s.blockMeta base).flag then (s1.flashEnd c.owner 1 7).flashDrain
       else if !s.fl.blank p || (p % 0x8000 < 0x7F00 && !s.fl.blank (p + 256)) then (s1.flashEnd c.owner 1 6).flashDrain
       else s1.setBank b { s1.bank b with run := .programming c.owner p data }
     | .erase base =>
       if k.suspended.isSome then ((s.setBank b { k with queue := rest }).flashEnd c.owner 2 9).flashDrain
       else
         let s2 := s1.setMeta base { s1.blockMeta base with flag := true }
         s2.setBank b { s2.bank b with run := .erasing { owner := c.owner, block := base, steps := 0, resumed := false,
                                                         resumeBy := none } })
  | _, _ => s

/-- A bank's operation has ended; a resume that waited takes effect (R843). -/
def State.flashIdle (s : State) (b : Fin 2) : State :=
  let k := { s.bank b with run := .idle }
  match k.suspended with
  | none => s.setBank b k
  | some e =>
    match e.resumeBy with
    | none => s.setBank b k
    | some r => (s.setBank b { k with suspended := none, run := .erasing { e with resumed := true, resumeBy := none } }).flashEnd r 4 1

/-- A program ends: the page takes its data, only from 1 to 0, and is no longer blank (R829). -/
def State.programDone (s : State) (b : Fin 2) : State :=
  match (s.bank b).run with
  | .programming o p data =>
    let ws := data.zipIdx.map (fun q => q.1 &&& memGet 0xFFF s.fl.cells (p + q.2))
    let s1 := { s with fl := { s.fl with cells := memSetList 0xFFF p ws s.fl.cells, programmed := p :: s.fl.programmed } }
    (((s1.flashIdle b).flashEnd o 1 1)).flashDrain
  | .idle | .erasing _ | .deferring _ _ => s

/-- The block reads erased (step 2 of Table Flash-5 has verified). -/
def Flash.wipe (f : Flash) (base : Nat) : Flash :=
  { f with cells := memClear base (base + 0x8000) f.cells,
           programmed := f.programmed.filter (fun p => p / 0x8000 != base / 0x8000),
           torn := f.torn.filter (fun p => p / 0x8000 != base / 0x8000) }

/-- An erase ends, verified or not after 430 steps; the counter rises, and only a verified block clears its flag
(R830). The endurance event comes once a block (R852). -/
def State.eraseDone (s : State) (b : Fin 2) (e : EraseRun) (verified : Bool) : State :=
  let m := (s.blockMeta e.block).bump
  let s1 := s.setMeta e.block { m with flag := !verified }
  let s2 := if verified then { s1 with fl := s1.fl.wipe e.block }
    else { s1 with fl := { s1.fl with torn := e.block :: s1.fl.torn } }
  let s3 := (((s2.flashIdle b).flashEnd e.owner 2 (if verified then 1 else 8))).flashDrain
  if 100000 < m.count && m.count ≠ 0xFFFFFF && !s3.fl.worn.contains e.block then
    ({ s3 with fl := { s3.fl with worn := e.block :: s3.fl.worn } }).raise 0x7002 (bankBlock b.val (blockOf e.block))
  else s3

/-- An erase pulse and verify ends (R830, Table Flash-5): at least 41 steps before the block can verify, at most 430.
Answers whether the erase has ended, and how. -/
def State.eraseStep (s : State) (b : Fin 2) (verified : Bool) : State × Option (EraseRun × Bool) :=
  let k := s.bank b
  match k.run with
  | .erasing e =>
    let e1 := { e with steps := e.steps + 1 }
    if verified && 41 ≤ e1.steps then (s.eraseDone b e1 true, some (e1, true))
    else if 430 ≤ e1.steps then (s.eraseDone b e1 false, some (e1, false))
    else (s.setBank b { k with run := .erasing e1 }, none)
  | .deferring e a =>
    let e1 := { e with steps := e.steps + 1 }
    if verified && 41 ≤ e1.steps then ((s.eraseDone b e1 true).flashEnd a 3 10, some (e1, true))
    else if 430 ≤ e1.steps then ((s.eraseDone b e1 false).flashEnd a 3 10, some (e1, false))
    else (s.setBank b { k with run := .deferring e1 a }, none)
  | .idle | .programming _ _ _ => (s, none)

/-- A reset of the requester, or an activating commit, discards its assembly and its commands not started, each with
result 14 (R864); its suspended erase is resumed (R845). -/
def State.flashDiscard (s : State) (r : Fin 5) : State :=
  let o := s.fown r
  let dropped := ([0, 1] : List (Fin 2)).any (fun b => (s.bank b).queue.any (fun c => c.owner = r))
  let s1 := s.setFown r { o with asm := .none, waiting := none, behind := [] }
  let s2 := ([0, 1] : List (Fin 2)).foldl (fun s b =>
    let k := s.bank b
    let k1 := { k with queue := k.queue.filter (fun c => c.owner ≠ r) }
    match k1.suspended with
    | some e => if e.owner = r then (s.setBank b k1).flashResume 4 b else s.setBank b k1
    | none => s.setBank b k1) s1
  (if dropped || o.waiting.isSome then s2.flashEnd r 0 14 else s2).flashDrain

/-- Commands launched and not started are discarded at PWR_FAIL, with result 12 (R865); a resume that waits is one of them, so
that its erase stays suspended (R182). -/
def State.flashFail (s : State) : State :=
  let s1 := ([0, 1] : List (Fin 2)).foldl (fun s b =>
    let k := s.bank b
    k.queue.foldl (fun s c => s.flashEnd c.owner (match c.op with | .program _ _ => 1 | .erase _ => 2) 12)
      (s.setBank b { k with queue := [] })) s
  let s2 := ([0, 1, 2, 3, 4] : List (Fin 5)).foldl (fun s r =>
    let o := s.fown r
    if o.waiting.isSome then (s.setFown r { o with waiting := none, behind := [] }).flashEnd r 0 12 else s) s1
  let s3 := ([0, 1] : List (Fin 2)).foldl (fun (s : State) (b : Fin 2) =>
    match (s.bank b).suspended with
    | none => s
    | some e =>
      match e.resumeBy with
      | none => s
      | some r => (s.setBank b { s.bank b with suspended := some { e with resumeBy := none } }).flashEnd r 4 12) s2
  { s3 with fl := { s3.fl with refusing := true } }

/-- A running erase of a bank is suspended by the Steward at once (Table Power-8 step 4, R844). -/
def State.flashSuspendNow (s : State) (b : Fin 2) : State :=
  let k := s.bank b
  match k.run with
  | .erasing e => s.setBank b { k with run := .idle, suspended := some e }
  | .deferring e _ => s.setBank b { k with run := .idle, suspended := some e }
  | .idle | .programming _ _ _ => s

/-- Lines of a block that read erased. -/
def Flash.eraseLines (f : Flash) (base : Nat) (lines : List Nat) : Flash :=
  { f with cells := lines.foldl (fun m n => memClear (base + n % 2048 * 16) (base + n % 2048 * 16 + 16) m) f.cells }

/-- An erase cut short in a step that it can have been in: step 1 before its first pulse, steps 3 and 4 once it may have verified. -/
def EraseRun.cutStage (e : EraseRun) (c : EraseCut) : EraseCut :=
  match c with
  | .flagging _ => if e.steps = 0 then c else .pulses
  | .counting _ | .clearing _ => if 40 ≤ e.steps then c else .pulses
  | .pulses => .pulses

/-- The counter slot that an erase rewrites, left unreadable (R850, Table Flash-13). -/
def BlockMeta.tear (m : BlockMeta) : BlockMeta :=
  match m.slotA, m.slotB with
  | some a, some b => if a ≤ b then { m with slotA := none } else { m with slotB := none }
  | none, _ => m
  | some _, none => m

/-- A count that neither slot gives any more is logged once (R850). -/
def State.checkCount (s : State) (base : Nat) : State :=
  let m := s.blockMeta base
  if m.slotA.isNone && m.slotB.isNone && !s.fl.uncounted.contains base then
    ({ s with fl := { s.fl with uncounted := base :: s.fl.uncounted } }).raise 0x7003 (bankBlock (bankOf base).val (blockOf base))
  else s

/-- What an erase that was cut short leaves of its block and of its metadata (Table Flash-13); `keep`: FCLK stopped, and the flag stays
set (R870). -/
def State.eraseCut (s : State) (e : EraseRun) (c : PageCut) (keep : Bool) : State :=
  let m := s.blockMeta e.block
  let wiped : State := { s with fl := s.fl.wipe e.block }
  match e.cutStage c.stage with
  | .flagging set => s.setMeta e.block { m with flag := set || keep }
  | .pulses =>
    let f := s.fl.eraseLines e.block c.erased
    { s with fl := { f with torn := e.block :: f.torn } }
  | .counting none => (wiped.setMeta e.block m.tear).checkCount e.block
  | .counting (some wrote) => wiped.setMeta e.block (if wrote then m.bump else m)
  | .clearing set => wiped.setMeta e.block { m.bump with flag := set || keep }

/-- A running program or erase is cut short (R869, R870, Table Flash-13): what its cells then read is `c`. A suspended erase
leaves its block as one cut short does. DEDUCED (log 67). -/
def State.flashCut (s : State) (b : Fin 2) (c : PageCut) (res : Option Nat) : State :=
  let k := s.bank b
  let done (s : State) (o : Fin 5) (op : Nat) : State := match res with | none => s | some n => s.flashEnd o op n
  match k.run with
  | .idle => s
  | .programming o p _ =>
    let f := if c.blank then s.fl
      else { s.fl with cells := memSetList 0xFFF p (c.words.take 256) s.fl.cells, programmed := p :: s.fl.programmed,
                       torn := p :: s.fl.torn }
    done ({ s with fl := f }.setBank b { k with run := .idle }) o 1
  | .erasing e | .deferring e _ =>
    done ((s.setBank b { k with run := .idle }).eraseCut e c res.isSome) e.owner 2

/-- What the loss of VCORE leaves of a bank's running operation and of its suspended erase (R869). -/
def State.flashLost (s : State) (b : Fin 2) (c : PageCut) : State :=
  let s1 := s.flashCut b c none
  match (s.bank b).suspended with
  | none => s1
  | some e => { s1 with fl := s1.fl.eraseLines e.block c.erased }

end Sys2Proof.Machine
end

