-- ==== Sys2Proof/Machine/StoreOps.lean ====
section
/-! DEFINITION. The edition store in flash (spec/06_custody.md, R322 to R329, R340, R344, R355 to R359): records and slot maps as pages
of both banks, how a new slot map is written, what the maps show when they are read, and the reclaim of blocks. -/
namespace Sys2Proof.Machine

def State.setCus (s : State) (c : Custody) : State := { s with cus := c }

/-! Pages -/

/-- Address of a store page (R324, Table Custody-6): pages 0 to 511 lie in blocks 1 to 4 of a bank. -/
def storeAddr (bank : Fin 2) (page : Nat) : Nat := blockBase bank.val (1 + page / 128) + 256 * (page % 128)

/-- The page of the store at an address of a bank, if it is one. -/
def storePage (bank : Fin 2) (a : Nat) : Option Nat :=
  if bankOf a = bank && decide (1 ≤ blockOf a) && decide (blockOf a ≤ 4) then some ((blockOf a - 1) * 128 + a / 256 % 128) else none

/-- A page that the Steward programs. -/
abbrev PageOp := Nat × List Word

/-- A page that the Steward programs in the course of a command (R816, R829). -/
def State.putPage (s : State) (o : PageOp) : State :=
  ({ s with fl := { s.fl with cells := memSetList 0xFFF o.1 (o.2.take 256) s.fl.cells, programmed := o.1 :: s.fl.programmed } }).unbuffer (bankOf o.1)

def State.putPages (s : State) (l : List PageOp) : State := l.foldl (fun (s : State) (o : PageOp) => s.putPage o) s

/-- Words cut into pages. -/
def pagesOf : Nat → List Word → List (List Word)
  | 0, _ => []
  | n + 1, ws => if ws.isEmpty then [] else ws.take 256 :: pagesOf n (ws.drop 256)

/-- The words of a record in a bank, from a page on (R322). -/
def recordOps (bank : Fin 2) (page : Nat) (ws : List Word) : List PageOp :=
  (pagesOf 8 ws).zipIdx.map (fun q => (storeAddr bank (page + q.2), q.1))

/-- n words from an address as they read, none where a line of them is uncorrectable (R326, R341). -/
def State.wordsRead (s : State) (f : FlashFacts) (addr n : Nat) : Option (List Word) :=
  if f.bad.any (fun a => decide (addr ≤ a / 16 * 16 + 15) && decide (a < addr + n)) then none
  else some (memGetList 0xFFF s.fl.cells addr n)

/-! Records -/

def domCode (d : EdDomain) : Nat := (domIdx d).val + 1

/-- A record's words (Table Custody-5). -/
def EdRecord.words (d : EdDomain) (r : EdRecord) : List Word :=
  leWords 2 0x3D1E71 ++ leWords 1 (domCode d) ++ leWords 2 r.number ++ leWords 1 (1 + 16 * r.onDock.toNat) ++
    leWords 1 r.payload.length ++ leWords 1 0 ++ r.payload ++ r.signature

/-- Pages of a record (Table Custody-5). -/
def EdRecord.pages (r : EdRecord) : Nat := (51 + r.payload.length + 255) / 256

/-- The words over which a record is signed (R323). -/
def signedWords (d : EdDomain) (ws : List Word) : List Word :=
  let n := wN ws 6
  ws.take 8 ++ significantImage d ((ws.drop 8).take n)

/-- The signature of a record's words verifies under a key (R323, R1016). -/
def recordSigned (d : EdDomain) (key : List Octet) (ws : List Word) : Bool :=
  ecdsaVerify key (sha256 (packWords (signedWords d ws))) (wordsToOctets 64 ((ws.drop (8 + wN ws 6)).take 43))

/-- The record that words spell. DEDUCED (log 82). -/
def edRecordOf (key : List Octet) (ws : List Word) : EdRecord :=
  let n := wN ws 6
  { number := wNum ws 3 2, onDock := (wAt ws 5).getLsbD 4, payload := (ws.drop 8).take n, signature := (ws.drop (8 + n)).take 43,
    key := key }

/-- The record at a location of a bank, as its words read. -/
def State.recordRead (s : State) (f : FlashFacts) (bank : Fin 2) (loc : Nat) : Option (List Word) :=
  match s.wordsRead f (storeAddr bank loc) 8 with
  | none => none
  | some h => s.wordsRead f (storeAddr bank loc) (min 2048 (51 + wN h 6))

/-- A line of the record at a location reads with two bits corrected (R345). -/
def State.recordWeak (s : State) (f : FlashFacts) (bank : Fin 2) (loc : Nat) : Bool :=
  let a := storeAddr bank loc
  f.weak.any (fun x => decide (a ≤ x) && decide (x < a + 51 + wN (memGetList 0xFFF s.fl.cells a 8) 6))

/-! Comparison of two copies -/

/-- Two copies differ in a significant word (R340): the always-significant words are compared first, and the conditional ones by the mode
fields on which those agree. -/
def significantlyDiffer (d : EdDomain) (a b : List Word) : Bool :=
  let n := wN a 6
  let pa := (a.drop 8).take n
  let pb := (b.drop 8).take n
  let always (i : Nat) : Bool := match sigOf d pa i with | .significant => true | .reserved | .cond _ => false
  let cond (i : Nat) : Bool := match sigOf d pa i with | .cond x => x | .reserved | .significant => false
  if decide (a.length ≠ b.length) || decide (a.take 8 ≠ b.take 8) || decide (a.drop (8 + n) ≠ b.drop (8 + n)) ||
      (List.range n).any (fun i => always i && decide (wAt pa i ≠ wAt pb i)) then true
  else (List.range n).any (fun i => cond i && decide (wAt pa i ≠ wAt pb i))

/-- What a comparison shows (Table Custody-7, R345), with the words of the copy that serves. -/
inductive TwinOutcome where
  | agreement
  | corrected (ws : List Word)
  | benign (ws : List Word)
  | singleLoss (ws : List Word)
  | material
  deriving DecidableEq, Repr

/-- The comparison of the two copies of a record at a location, verified under a key. -/
def State.compareRecord (s : State) (f : FlashFacts) (d : EdDomain) (loc : Nat) (key : List Octet) : TwinOutcome :=
  let weak := s.recordWeak f 0 loc || s.recordWeak f 1 loc
  match s.recordRead f 0 loc, s.recordRead f 1 loc with
  | some a, some b =>
    if a ≠ b && significantlyDiffer d a b then .material
    else if !recordSigned d key a then .material
    else if a ≠ b then .benign a
    else if weak then .corrected a
    else .agreement
  | some a, none => if recordSigned d key a then .singleLoss a else .material
  | none, some b => if recordSigned d key b then .singleLoss b else .material
  | none, none => .material

/-! The slot map -/

/-- A slot's record, 0 Staged, 1 Current, 2 Previous. -/
def DomainSlots.held (x : DomainSlots) (j : Fin 3) : Option EdRecord := if j = 0 then x.staged else if j = 1 then x.current else x.previous

def DomainSlots.setHeld (x : DomainSlots) (j : Fin 3) (r : Option EdRecord) : DomainSlots :=
  if j = 0 then { x with staged := r } else if j = 1 then { x with current := r } else { x with previous := r }

/-- Every slot of every domain, in the order of Table Custody-6. -/
def everySlot : List (EdDomain × Fin 3) := allDomains.flatMap (fun d => ([0, 1, 2] : List (Fin 3)).map (fun j => (d, j)))

def Store.loc (t : Store) (d : EdDomain) (j : Fin 3) : Option Nat := (t.locs.get (domIdx d)).get j
def Store.setLoc (t : Store) (d : EdDomain) (j : Fin 3) (l : Option Nat) : Store :=
  { t with locs := t.locs.set (domIdx d) ((t.locs.get (domIdx d)).set j l) }

/-- An image selector as a word. -/
def selectorWord (o : Option (Fin 2)) : Nat := match o with | none => 0xFFF | some k => k.val

def Probation.mask (p : Probation) : BitVec 5 := BitVec.ofNat 5 (boolsNat p.domains.toList)

/-- The page of a slot map (Table Custody-6). -/
def Custody.mapWords (c : Custody) (seq : Nat) : List Word :=
  let t := c.store
  let locs := everySlot.map (fun q => match t.loc q.1 q.2 with | none => 0xFFF | some l => l)
  let prob : List Word := match c.probation with
    | none => List.replicate 6 0
    | some p => leWords 1 (p.mask.toNat + 32 * p.program.toNat + 64 * p.failed.toNat) ++ leWords 1 p.era ++ leWords 4 p.seconds
  let body := (leWords 2 0x51A7B0 ++ leWords 2 seq ++ words locs ++ (c.slots.toList.map (fun (x : DomainSlots) => leWords 2 x.highest)).flatten ++ prob ++
    leWords 1 (boolsNat (c.slots.toList.map (fun (x : DomainSlots) => x.requested))) ++ words [selectorWord c.imageActive, selectorWord c.imagePrevious] ++
    List.replicate 253 0).take 253
  body ++ leWords 3 (crc32c (packWords body)).toNat

/-- A slot map as read: sequence number, page and words. -/
structure MapRead where
  seq : Nat
  page : Nat
  words : List Word
  deriving DecidableEq, Repr

/-- The valid slot map in a page of a bank (R326). -/
def State.mapRead (s : State) (f : FlashFacts) (bank : Fin 2) (page : Nat) : Option MapRead :=
  match s.wordsRead f (storeAddr bank page) 256 with
  | none => none
  | some ws =>
    if wNum ws 0 2 = 0x51A7B0 && ws.drop 253 = leWords 3 (crc32c (packWords (ws.take 253))).toNat then
      some { seq := wNum ws 2 2, page := page, words := ws }
    else none

/-- The store's pages in a bank that are not blank. -/
def State.storePages (s : State) (bank : Fin 2) : List Nat := s.fl.programmed.filterMap (storePage bank)

/-- The valid slot maps of a bank. -/
def State.mapsRead (s : State) (f : FlashFacts) (bank : Fin 2) : List MapRead := (s.storePages bank).filterMap (s.mapRead f bank)

/-- The one with the highest sequence number (R325). -/
def newestMap (l : List MapRead) : Option MapRead :=
  l.foldl (fun (o : Option MapRead) m => match o with
    | none => some m
    | some x => if x.seq < m.seq then some m else some x) none

/-- What the two copies of the slot map show (R344, R359). -/
inductive MapOutcome where
  /-- Both hold it. -/
  | agreement (m : MapRead)
  /-- The write of copy B was interrupted. -/
  | behind (m : MapRead)
  /-- One copy of its page is unreadable. -/
  | singleLoss (m : MapRead)
  /-- The newest on which both copies agree, and copy A's newest. -/
  | material (m : MapRead) (a : Option MapRead)
  /-- No map serves. -/
  | lost
  deriving DecidableEq, Repr

/-- The comparison of the slot maps (R344): they are compared as records are, every word significant. DEDUCED (log 52). -/
def State.compareMaps (s : State) (f : FlashFacts) : MapOutcome :=
  let a := s.mapsRead f 0
  let b := s.mapsRead f 1
  let unreadable (bank : Fin 2) (m : MapRead) : Bool := (s.wordsRead f (storeAddr bank m.page) 256).isNone
  let fallback : MapOutcome :=
    match newestMap (a.filter (fun x => b.any (fun y => y.words = x.words))) with
    | none => .lost
    | some m => .material m (newestMap a)
  match newestMap a, newestMap b with
  | none, none => .lost
  | some x, none => if x.seq = 1 then .behind x else if unreadable 1 x then .singleLoss x else fallback
  | none, some y => if unreadable 0 y then .singleLoss y else fallback
  | some x, some y =>
    if x.seq = y.seq then (if x.words = y.words then .agreement x else fallback)
    else if x.seq = y.seq + 1 then .behind x
    else if y.seq < x.seq then (if unreadable 1 x then .singleLoss x else fallback)
    else if unreadable 0 y then .singleLoss y else fallback

/-! Room -/

/-- The next block in ring order that is blank. -/
def Store.nextBlank (t : Store) : Option (Fin 4) := ([t.block + 1, t.block + 2, t.block + 3] : List (Fin 4)).find? (fun k => t.blank.get k)

/-- n consecutive free pages of one block, taken. DESIGN CHOICE (log 51). -/
def Store.take (t : Store) (n : Nat) : Option (Nat × Store) :=
  if t.page + n ≤ 128 then some (128 * t.block.val + t.page, { t with page := t.page + n })
  else
    match t.nextBlank with
    | none => none
    | some k => some (128 * k.val, { t with block := k, page := n, blank := t.blank.set k false })

def Store.freePages (t : Store) : Nat := (128 - t.page) + 128 * (t.blank.toList.filter id).length

/-- With a record of n pages and its slot map the store would have no room for 4 slot maps (R329, R358). -/
def Store.full (t : Store) (n : Nat) : Bool :=
  match t.take n with
  | none => true
  | some (_, t1) => match t1.take 1 with | none => true | some (_, t2) => decide (t2.freePages < 4)

/-! Writing -/

/-- Locations of a new state's records: one that a slot of its domain held before keeps its place unless it is in `fresh`, and any other is
given free pages. Answers the store and what is to be written. -/
def Custody.place (old c : Custody) (fresh : List (EdDomain × Fin 3)) : Option (Store × List (Nat × List Word)) :=
  everySlot.foldl (fun (o : Option (Store × List (Nat × List Word))) q =>
    match o with
    | none => none
    | some (t, l) =>
      match (c.slots.get (domIdx q.1)).held q.2 with
      | none => some (t.setLoc q.1 q.2 none, l)
      | some r =>
        let held := ([0, 1, 2] : List (Fin 3)).findSome? (fun j =>
          if (old.slots.get (domIdx q.1)).held j = some r then old.store.loc q.1 j else none)
        match (if fresh.contains q then none else held) with
        | some n => some (t.setLoc q.1 q.2 (some n), l)
        | none =>
          match t.take r.pages with
          | none => none
          | some (n, t1) => some (t1.setLoc q.1 q.2 (some n), l ++ [(n, r.words q.1)])) (some (old.store, []))

/-- The key that verified each stored record (R1016), of the records in slots and of those that no map names any more. -/
def Custody.verifiers (c : Custody) (t : Store) : List (Nat × List Octet) :=
  let now := everySlot.filterMap (fun q => match (c.slots.get (domIdx q.1)).held q.2, t.loc q.1 q.2 with
    | some r, some l => some (l, r.key)
    | _, _ => none)
  now ++ t.keys.filter (fun x => !now.any (fun y => y.1 = x.1))

/-- The state that a new slot map gives, its number, and the pages to be programmed in the order of R327 and R328; none without free
pages. -/
def Custody.writing (old c : Custody) (fresh : List (EdDomain × Fin 3)) : Option (Custody × List PageOp) :=
  match old.place c fresh with
  | none => none
  | some (t, l) =>
    match t.take 1 with
    | none => none
    | some (p, t1) =>
      let c1 := { c with store := { t1 with mapAt := Vector.replicate 2 (some p), keys := c.verifiers t1 }, mapSeq := (old.mapSeq + 1) % 0x1000000 }
      let ws := c1.mapWords c1.mapSeq
      let recs (b : Fin 2) : List PageOp := (l.map (fun q => recordOps b q.1 q.2)).flatten
      some (c1, recs 0 ++ recs 1 ++ [(storeAddr 0 p, ws), (storeAddr 1 p, ws)])

/-- The event of a store failure (R357), for the page at an address. -/
def State.storeFailed (s : State) (a : Nat) : State := s.raise 0x300C ([0] ++ bankBlock (bankOf a).val (blockOf a))

/-- A page whose read-back fails holds what it reads. -/
def State.spoilPage (s : State) (a : Nat) (reads : List Word) : State := s.putPage (a, reads)

/-- One new slot map, and before it the records that it names anew (R327, R328, R357, R178, R241). Answers whether the change stands. DEDUCED
(log 53). -/
def State.writeStore (s : State) (w : StoreWrite) (fresh : List (EdDomain × Fin 3)) (f : Custody → Custody) : State × Bool :=
  match s.cus.writing (f s.cus) fresh with
  | none => (s, false)
  | some (c, ops) =>
    match w with
    | .done => ((s.putPages ops).setCus c, true)
    | .cut n _ | .hang n => ((s.putPages (ops.take n)).setCus { s.cus with cut := some w }, false)
    | .behind reads =>
      let a := storeAddr 1 ((c.store.mapAt.get 1).getD 0)
      let c1 := { c with store := { c.store with mapAt := c.store.mapAt.set 1 none } }
      ((((s.putPages (ops.take (ops.length - 1))).spoilPage a reads).setCus c1).storeFailed a, true)
    | .failed bank reads =>
      let before := if ops.length ≤ 2 then [] else ops.takeWhile (fun o => decide (bankOf o.1 ≠ bank))
      let a := match ops.drop before.length with | [] => 0 | o :: _ => o.1
      let t := c.store
      ((((s.putPages before).spoilPage a reads).setCus
        { s.cus with store := { s.cus.store with block := t.block, page := t.page, blank := t.blank } }).storeFailed a, false)
    | .again reads =>
      let a := match ops with | [] => 0 | o :: _ => o.1
      let t := c.store
      let s1 := (s.spoilPage a reads).setCus { s.cus with store := { s.cus.store with block := t.block, page := t.page, blank := t.blank } }
      match s1.cus.writing (f s1.cus) fresh with
      | none => (s1.storeFailed a, false)
      | some (c2, ops2) => ((s1.putPages ops2).setCus c2, true)

/-! Reclaim (R329) -/

/-- An erase of the block at an address is queued, running or deferred. -/
def Bank.erasingAt (k : Bank) (base : Nat) : Bool :=
  k.queue.any (fun c => decide (c.op = .erase base)) ||
    (match k.run with
     | .erasing e | .deferring e _ => decide (e.block = base)
     | .idle | .programming _ _ _ => false)

/-- The slots whose records lie in a block. -/
def Store.living (t : Store) (k : Fin 4) : List (EdDomain × Fin 3) :=
  everySlot.filter (fun q => match t.loc q.1 q.2 with | none => false | some l => l / 128 = k.val)

/-- With no blank block left beside the one being written, the oldest other block is reclaimed: the records that the governing map names are
copied out of it, a slot map names the copies, and the block is erased in both banks. DESIGN CHOICE (log 51). -/
def State.reclaim (s : State) : State :=
  let t := s.cus.store
  if t.nextBlank.isSome || t.clearing.toList.any id then s
  else
    match ([t.block + 1, t.block + 2, t.block + 3] : List (Fin 4)).find? (fun k => !s.cus.retired.get k) with
    | none => s
    | some k =>
      let live := t.living k
      let (s1, moved) := if live.isEmpty then (s, true) else s.writeStore .done live id
      if !moved then s
      else
        let t1 := s1.cus.store
        let s2 := s1.setCus { s1.cus with store := { t1 with clearing := t1.clearing.set k true } }
        ([0, 1] : List (Fin 2)).foldl (fun (s : State) (b : Fin 2) =>
          let a := blockBase b.val (1 + k.val)
          if (s.bank b).erasingAt a then s else s.flashLaunch 4 2 false (.cmd (.erase a))) s2

/-- One new slot map (R327), and the reclaim that it makes due. -/
def State.writeMap (s : State) (w : StoreWrite) (f : Custody → Custody) : State × Bool :=
  let (s1, done) := s.writeStore w [] f
  (if done then s1.reclaim else s1, done)

/-- A block of the store is blank in both banks. -/
def State.storeBlank (s : State) (k : Fin 4) : Bool :=
  ([0, 1] : List (Fin 2)).all (fun b => !(s.storePages b).any (fun p => decide (p / 128 = k.val)) && !s.fl.torn.contains (blockBase b.val (1 + k.val)))

/-- An erase of a block of the store has ended: the block can be written again once it is blank in both banks, and one whose erase failed is
retired with the block of the same number in the other bank (R329, R358). -/
def State.storeErased (s : State) (b : Fin 2) (k : Fin 4) (verified : Bool) : State :=
  let t := s.cus.store
  if verified then
    if s.storeBlank k && k ≠ t.block && !s.cus.retired.get k then
      s.setCus { s.cus with store := { t with blank := t.blank.set k true, clearing := t.clearing.set k false,
                                               keys := t.keys.filter (fun q => q.1 / 128 ≠ k.val) } }
    else s
  else
    (s.setCus { s.cus with retired := s.cus.retired.set k true, store := { t with blank := t.blank.set k false, clearing := t.clearing.set k false } }).raise
      0x300C ([1] ++ bankBlock b.val (1 + k.val))

/-! Reading -/

/-- An image selector of a slot map. -/
def selectorOf (w : Nat) : Option (Fin 2) := if h : w < 2 then some ⟨w, h⟩ else none

/-- The state that a slot map gives, its records read from copy A or, where that does not read, from copy B (R325). -/
def State.adoptMap (s : State) (f : FlashFacts) (m : MapRead) (requested : BitVec 5) : Custody :=
  let c := s.cus
  let ws := m.words
  let at_ (d : EdDomain) (j : Fin 3) : Option Nat :=
    let l := wN ws (4 + 3 * (domIdx d).val + j.val)
    if l < 512 then some l else none
  let one (d : EdDomain) (j : Fin 3) : Option EdRecord :=
    (at_ d j).map (fun l =>
      edRecordOf (lookupD [] l c.store.keys) (((s.recordRead f 0 l).orElse (fun _ => s.recordRead f 1 l)).getD []))
  let bits := wN ws 29
  let prob : Option Probation :=
    if bits % 64 = 0 then none
    else
      let kept := match c.probation with
        | none => none
        | some p => if p.era = wN ws 30 && p.seconds = wNum ws 31 4 then some p else none
      some { domains := Vector.ofFn (fun i : Fin 5 => (wAt ws 29).getLsbD i.val), program := (wAt ws 29).getLsbD 5,
             failed := (wAt ws 29).getLsbD 6, era := wN ws 30, seconds := wNum ws 31 4,
             rides := match kept with | none => 0 | some p => p.rides, cause := match kept with | none => 0 | some p => p.cause }
  let slots : Vector DomainSlots 5 := Vector.ofFn (fun i : Fin 5 =>
    let d := allDomains.getD i.val .vehicle
    { staged := one d 0, current := one d 1, previous := one d 2, highest := wNum ws (19 + 2 * i.val) 2,
      requested := (wAt ws 35).getLsbD i.val || requested.getLsbD i.val, currentBad := false })
  { c with slots := slots, probation := prob, imageActive := selectorOf (wN ws 36), imagePrevious := selectorOf (wN ws 37),
           store := { c.store with locs := Vector.ofFn (fun i : Fin 5 => Vector.ofFn (fun j : Fin 3 => at_ (allDomains.getD i.val .vehicle) j)),
                                   mapAt := Vector.replicate 2 (some m.page) } }

/-- Where writing goes on: after the last page that is not blank of the governing map's block; the blocks that are blank in both banks. -/
def State.scanStore (s : State) (page : Option Nat) : State :=
  let t := s.cus.store
  let all := s.storePages 0 ++ s.storePages 1
  let open_ (k : Fin 4) : Bool := s.storeBlank k && !s.cus.retired.get k
  let block : Fin 4 := match page with
    | some p => ⟨p / 128 % 4, Nat.mod_lt _ (by decide)⟩
    | none => (([0, 1, 2, 3] : List (Fin 4)).find? open_).getD 0
  let next := (all.filter (fun p => p / 128 = block.val)).foldl (fun n p => max n (p % 128 + 1)) 0
  s.setCus { s.cus with store := { t with block := block, page := next, clearing := Vector.replicate 4 false,
                                          blank := Vector.ofFn (fun k : Fin 4 => open_ k && decide (k ≠ block)) } }

/-- Copy B of the governing slot map is completed (R344): at the same page, or at the next free one where that page is not blank. -/
def State.completeB (s : State) (m : MapRead) : State :=
  let put (s : State) (p : Nat) : State :=
    (s.putPage (storeAddr 1 p, m.words)).setCus { s.cus with store := { s.cus.store with mapAt := s.cus.store.mapAt.set 1 (some p) } }
  if (s.storePages 1).contains m.page then
    match s.cus.store.take 1 with
    | none => s
    | some (p, t) => put (s.setCus { s.cus with store := t }) p
  else put s m.page

/-- The domains whose slot entries two slot maps name differently (R344). -/
def mapsDiffer (a b : MapRead) : BitVec 5 :=
  BitVec.ofNat 5 (boolsNat ((List.range 5).map (fun i => decide ((a.words.drop (4 + 3 * i)).take 3 ≠ (b.words.drop (4 + 3 * i)).take 3))))

/-- No slot map serves: every domain takes its built-in default and requests custody (R359). -/
def Custody.defaulted (c : Custody) : Custody :=
  { c with slots := Vector.replicate 5 { DomainSlots.reset with requested := true }, probation := none, imageActive := none,
           imagePrevious := none, store := { c.store with locs := Store.reset.locs, mapAt := Vector.replicate 2 none } }

/-- The governing slot map is found and adopted (R325, R344, R359). -/
def State.readMaps (s : State) (f : FlashFacts) : State :=
  let top := ((s.mapsRead f 0 ++ s.mapsRead f 1).map (·.seq)).foldl max 0
  let adopt (m : MapRead) (r : BitVec 5) : State := (s.setCus { s.adoptMap f m r with mapSeq := top }).scanStore (some m.page)
  match s.compareMaps f with
  | .agreement m => adopt m 0
  | .behind m => (adopt m 0).completeB m
  | .singleLoss m => ((adopt m 0).writeStore .done [] id).1
  | .material m a =>
    ((adopt m (match a with | none => 31 | some x => mapsDiffer m x)).writeStore .done [] id).1
  | .lost => ((((s.setCus { s.cus.defaulted with mapSeq := top }).scanStore none)).writeStore .done [] id).1

/-- Cells that have come to read another word, within the store. -/
def State.changeCells (s : State) (l : List (Nat × Word)) : State :=
  let inStore (a : Nat) : Bool := (storePage 0 a).isSome || (storePage 1 a).isSome
  { s with fl := { s.fl with cells := (l.filter (fun q => inStore q.1)).foldl (fun m q => memSet 0xFFF q.1 q.2 m) s.fl.cells } }

/-- Both copies of the governing slot map and of every record agree with one another and with what the Steward holds. -/
def State.storeAgrees (s : State) (f : FlashFacts) : Bool :=
  (match s.compareMaps f with
   | .agreement m => decide (m.seq = s.cus.mapSeq) && decide (m.words = s.cus.mapWords s.cus.mapSeq)
   | .behind _ | .singleLoss _ | .material _ _ | .lost => false) &&
    everySlot.all (fun q =>
      let x := s.slot q.1
      match x.held q.2, s.cus.store.loc q.1 q.2 with
      | none, none => true
      | some r, some l => !(q.2 = 1 && x.currentBad) && s.compareRecord f q.1 l r.key = .agreement && s.recordRead f 0 l = some (r.words q.1)
      | _, _ => false)

/-! Zheyr images and blocks that a command erases -/

/-- First block of a Zheyr set's image in its bank (Table Flash-1). DEDUCED (log 125). -/
def zheyrFirst (k : Fin 2) : Nat := if k = 0 then 32 else 64

/-- A Zheyr record: words 0 to 51 of the boot block of set k, then the image (Table Flash-10). DEDUCED (log 125). -/
def zheyrRecordOk (k : Fin 2) (ws : List Word) : Bool :=
  decide (wNum ws 0 2 = 0x4B007A) && decide (wN ws 2 = 1) && decide (wNum ws 3 2 = blockBase k.val (zheyrFirst k)) &&
    decide (52 ≤ ws.length) && decide (wNum ws 5 2 + 52 = ws.length)

/-- The signature over words 0 to 8 and the image verifies under the Azkanov key (R854). -/
def zheyrSigned (ws : List Word) : Bool :=
  ecdsaVerify Config.azkanovKey (sha256 (packWords (ws.take 9 ++ ws.drop 52))) (wordsToOctets 64 ((ws.drop 9).take 43))

/-- Its version (Table Flash-10). -/
def zheyrVersion (ws : List Word) : Nat := wNum ws 7 2

/-- A block the Steward has erased counts one erase more (R850, R852). -/
def State.countErase (s : State) (base : Nat) : State :=
  let m := (s.blockMeta base).bump
  let s1 := s.setMeta base m
  if 100000 < m.count && m.count ≠ 0xFFFFFF && !s1.fl.worn.contains base then
    ({ s1 with fl := { s1.fl with worn := base :: s1.fl.worn } }).raise 0x7002 (bankBlock (bankOf base).val (blockOf base))
  else s1

/-- A block that the Steward erases in the course of a command: it reads erased, and counts one erase more. -/
def State.eraseTarget (s : State) (base : Nat) : State := (({ s with fl := s.fl.wipe base }).countErase base).unbuffer (bankOf base)

end Sys2Proof.Machine
end

