-- ==== Sys2Proof/Machine/RingOps.lean ====
section
/-! DEFINITION. The ledger ring (spec/07_ledger.md, R392, R393, R395, R396, R408): its free pages, how a record is programmed, ledger
tails, the reading of records, and the reclaim of blocks. -/
namespace Sys2Proof.Machine

def State.setTail (s : State) (t : LedgerTail) : State := { s with led := { s.led with cur := t } }
def State.setLed (s : State) (l : Ledger) : State := { s with led := l }

/-! Pages -/

/-- A page of words, filled up with one word. -/
def pageOf (fill : Word) (ws : List Word) : List Word := (ws ++ List.replicate 256 fill).take 256

/-- The CRC-32C of words in packed form, as three words (R6, R8, R12). -/
def crcWords (ws : List Word) : List Word := leWords 3 (crc32c (packWords ws)).toNat

/-- A block that holds something joins the used ones, and writing goes on in another. -/
def Ring.moveTo (r : Ring) (k page : Nat) : Ring :=
  { r with block := k, page := page, used := r.used ++ (if r.page = 0 then [] else [r.block]) }

/-- n consecutive free pages of one block, taken in ring order; none where no block has them. DESIGN CHOICE (log 87). -/
def Ledger.takePages (l : Ledger) (n : Nat) : Option (Nat × Ledger) :=
  let r := l.ring
  if r.page + n ≤ 128 then some (128 * r.block + r.page, { l with ring := { r with page := r.page + n } })
  else
    match ((List.range 31).map (fun i => (r.block + 1 + i) % 32)).find? (fun k => l.blankBlocks.contains k) with
    | none => none
    | some k => some (128 * k, { l with ring := r.moveTo k n })

/-- A ring block is retired, with its event (R408): nothing more is written to it. -/
def State.retireRing (s : State) (k : Nat) : State :=
  if s.led.retiredBlocks.contains (k + 5) then s
  else
    let r := s.led.ring
    (s.setLed { s.led with
      retiredBlocks := (k + 5) :: s.led.retiredBlocks,
      ring := { r with page := if r.block = k then 128 else r.page, used := r.used.filter (· ≠ k) } }).raise 0x4006 (leOctets 1 (k + 5))

/-- A record's pages from a ring page on. -/
def State.putRing (s : State) (page : Nat) (ws : List Word) : State :=
  s.putPages ((pagesOf 4 ws).zipIdx.map (fun q => (ringAddr (page + q.2), q.1)))

/-- What cuts the command being executed (Table Ledger-9). -/
def State.cutBy (s : State) (c : SupplyCause) : State := s.setCus { s.cus with cut := some (.cut 0 c) }

/-- PWR_FAIL has come in the command being executed. -/
def State.isCut (s : State) : Bool := s.cus.cut.isSome

/-- A record of one to four pages is taken into the ring and read back (R392, R408); answers its page where it stands. DESIGN CHOICE (log 87). -/
def State.ringWrite (s : State) (w : RingWrite) (ws : List Word) : State × Option Nat :=
  let n := (ws.length + 255) / 256
  let put (s : State) : State × Option Nat :=
    match s.led.takePages n with
    | none => (s, none)
    | some (p, l) => ((s.setLed l).putRing p ws, some p)
  let spoil (s : State) (reads : List Word) : State :=
    match s.led.takePages n with
    | none => s
    | some (p, l) => (s.setLed l).putPage (ringAddr p, reads)
  match w with
  | .done => put s
  | .again a => put (spoil s a)
  | .twice a b =>
    let s1 := spoil (spoil s a) b
    put (s1.retireRing s1.led.ring.block)
  | .cut a c => ((spoil s a).cutBy c, none)
  | .after c =>
    let (s1, p) := put s
    (s1.cutBy c, p)

/-! Reclaim (R395) -/

/-- The host has acknowledged a period, or a later one of its epoch. -/
def Ledger.acked (l : Ledger) (epoch index : Nat) : Bool :=
  l.acks.any (fun a => a.1 = epoch && decide (index ≤ a.2))
def Ledger.sealed (l : Ledger) (epoch index : Nat) : Bool := l.periods.any (fun p => p.epoch = epoch && p.index = index)
/-- A ride record may be reclaimed (R395). -/
def Ledger.rideFree (l : Ledger) (r : RideRecord) : Bool :=
  l.sealed r.epoch r.period && (r.mirrored || l.acked r.epoch r.period)
/-- A period record may be reclaimed on the same terms, once it is not among the 64 newest (R395). -/
def Ledger.periodFree (l : Ledger) (p : PeriodRecord) : Bool :=
  !(l.periods.reverse.take 64).contains p && (p.mirrored || p.acked)

/-- The records of a block that are kept: rides, periods, and the newest tail. -/
def Ledger.keptRides (l : Ledger) (k : Nat) : List RideRecord := l.rides.filter (fun r => r.page / 128 = k && !l.rideFree r)
def Ledger.keptPeriods (l : Ledger) (k : Nat) : List PeriodRecord := l.periods.filter (fun p => p.page / 128 = k && !l.periodFree p)
def Ledger.keptTail (l : Ledger) (k : Nat) : Option RingTail :=
  l.ring.tails.head?.bind (fun t => if t.page / 128 = k then some t else none)

/-- Pages that a block's reclaim copies forward. -/
def Ledger.keptPages (l : Ledger) (k : Nat) : Nat :=
  (l.keptRides k).length + (l.keptPeriods k).length + (if (l.keptTail k).isSome then 4 else 0)

/-- A page of the ring copied forward: answers its new page. -/
def State.copyPage (s : State) (page : Nat) : State × Option Nat := s.ringWrite .done (s.ringWords page)

/-- A ride record copied forward. -/
def State.moveRide (s : State) (r : RideRecord) : State :=
  match s.copyPage r.page with
  | (s1, none) => s1
  | (s1, some p) => s1.setLed { s1.led with rides := s1.led.rides.map (fun x => if x.page = r.page then { x with page := p } else x) }

/-- A period record copied forward. -/
def State.movePeriod (s : State) (r : PeriodRecord) : State :=
  match s.copyPage r.page with
  | (s1, none) => s1
  | (s1, some p) => s1.setLed { s1.led with periods := s1.led.periods.map (fun x => if x.page = r.page then { x with page := p } else x) }

/-- The words of a ledger tail, at most 1 004 (R156); the spec gives no layout for them. DESIGN CHOICE (log 49). -/
def LedgerTail.tailWords (t : LedgerTail) : List Word := (Config.ledgerTail t).take 1004

/-- A ledger tail as a record of the ring: mark, words, and a CRC at the end of its last page (R392). DESIGN CHOICE (log 87). -/
def LedgerTail.record (t : LedgerTail) : List Word :=
  let ws := leWords 2 Config.tailMark ++ t.tailWords
  let body := (ws ++ List.replicate 256 0).take ((ws.length + 3 + 255) / 256 * 256 - 3)
  body ++ crcWords body

/-- The newest tail copied forward. -/
def State.moveTail (s : State) (t : RingTail) : State :=
  match s.ringWrite .done t.tail.record with
  | (s1, none) => s1
  | (s1, some p) =>
    s1.setLed { s1.led with ring := { s1.led.ring with
      tails := s1.led.ring.tails.map (fun (x : RingTail) => if x.page = t.page then { x with page := p } else x) } }

/-- A block is reclaimed: what must stay is copied forward, the rest is given up, and the block is erased (R395). -/
def State.reclaimBlock (s : State) (k : Nat) : State :=
  let l := s.led
  let s1 := (l.keptPeriods k).foldl (fun (s : State) (p : PeriodRecord) => s.movePeriod p)
    ((l.keptRides k).foldl (fun (s : State) (r : RideRecord) => s.moveRide r) s)
  let s2 := match l.keptTail k with | none => s1 | some t => s1.moveTail t
  let m := s2.led
  let s3 := s2.setLed { m with
    rides := m.rides.filter (fun r => r.page / 128 ≠ k), periods := m.periods.filter (fun p => p.page / 128 ≠ k),
    ring := { m.ring with tails := m.ring.tails.filter (fun (t : RingTail) => t.page / 128 ≠ k) } }
  s3.flashLaunch 4 2 false (.cmd (.erase (ringAddr (128 * k))))

/-- A block of the ring is being erased, or waits for it. -/
def State.ringErasing (s : State) : Bool :=
  s.led.ring.used.any (fun k => (s.bank 1).erasingAt (ringAddr (128 * k))) || (s.fown 4).waiting.isSome

/-- With no more free pages than the reserve and one block, the oldest block in which something may be reclaimed is, if what it keeps has
room (R395, R396). DESIGN CHOICE (log 87). -/
def State.reclaimRing (s : State) : State :=
  let l := s.led
  if 224 < l.freePages || s.ringErasing then s
  else
    match l.ring.used.find? (fun k => decide (l.keptPages k < 128) && decide (l.keptPages k + 4 ≤ l.freePages)) with
    | none => s
    | some k => s.reclaimBlock k

/-- The end of an erase of a ring block by the Steward: it is blank again, or retired (R408). -/
def State.ringErased (s : State) (k : Nat) (verified : Bool) : State :=
  if verified then s.setLed { s.led with ring := { s.led.ring with used := s.led.ring.used.filter (· ≠ k) } } else s.retireRing k

/-! Tails -/

/-- The high-water mark raised to the present wall time (R366). -/
def LedgerTail.raiseHwm (t : LedgerTail) : LedgerTail := { t with hwm := max t.hwm t.clock.wall }

/-- The tail as it is stored: TCAP_WCNT restarts at 0, so the open ride's pulses so far are carried (R505). -/
def State.storedTail (s : State) : LedgerTail :=
  let t := s.led.cur.raiseHwm
  { t with ride := t.ride.map (fun (r : OpenRide) => { r with wheel := (r.wheel + 0x1000000 - s.mot.tcap.wcnt.toNat) % 0x1000000 }) }

/-- The ledger tail is written to the ring and read back (R157, R366, R393); answers whether it stands. -/
def State.tailWritten (s : State) (w : RingWrite) : State × Bool :=
  let s0 := s.setTail s.led.cur.raiseHwm
  let t := s0.storedTail
  if s.isCut then (s0, false)
  else
  match s0.ringWrite w t.record with
  | (s1, none) => (s1, false)
  | (s1, some p) =>
    let s2 := s1.setLed { s1.led with ring := { s1.led.ring with tails := { page := p, tail := t } :: s1.led.ring.tails } }
    (s2.reclaimRing, true)

/-- The ledger tail is written. -/
def State.writeTail (s : State) : State := (s.tailWritten .done).1

/-- A page of the ring as it reads, none where a line of it is uncorrectable. -/
def State.ringReads (s : State) (f : FlashFacts) (page n : Nat) : Option (List Word) := s.wordsRead f (ringAddr page) n

/-- A tail of the ring is valid: it reads, and its CRC matches (R392, R393). -/
def State.tailValid (s : State) (f : FlashFacts) (t : RingTail) : Bool :=
  match s.ringReads f t.page t.tail.record.length with
  | none => false
  | some ws => ws.drop (ws.length - 3) = crcWords (ws.take (ws.length - 3))

/-- The tails that are not valid are given up: the newest valid one governs (R393). -/
def State.findTail (s : State) (f : FlashFacts) : State :=
  s.setLed { s.led with ring := { s.led.ring with tails := s.led.ring.tails.dropWhile (fun t => !s.tailValid f t) } }

end Sys2Proof.Machine
end

