-- ==== Sys2Proof/Machine/LedgerOps.lean ====
section
/-! DEFINITION. The ledger (spec/07_ledger.md): boundaries, time blocks, segments, the price and the record of a ride, the
sealing of periods, the closure check, changes of wall time, and the setting of an epoch. -/
namespace Sys2Proof.Machine

/-- A time block now (Table Ledger-4). -/
def State.timeBlock (s : State) (cause : Nat) : TimeBlock :=
  let c := s.clock
  { era := c.era, seconds := c.seconds, fraction := c.fraction, wall := c.wall, cls := c.cls, tier := s.boot.tier.toNat,
    cause := cause }

/-- The 12 words of a time block. -/
def TimeBlock.words (b : TimeBlock) : List Word :=
  leWords 1 b.era ++ leWords 4 b.seconds ++ leWords 2 b.fraction ++ leWords 4 b.wall ++
    leWords 1 (b.cls + 16 * b.tier + 64 * b.cause)

/-! The tariff -/

/-- Offset in minutes, length and anchor in seconds of a tariff payload; the built-in default's (R376). -/
def tariffOffset (p : List Word) : Int := if p.isEmpty then 0 else wInt p 0
def tariffLength (p : List Word) : Nat := if p.isEmpty then 86400 else wNum p 1 2
def tariffAnchor (p : List Word) : Nat := if p.isEmpty then 0 else wNum p 3 2
def tariffScale (p : List Word) : Nat := wN p 5 % 8
def tariffMode (p : List Word) : Nat := wN p 5 / 16 % 4
/-- A DS field of a tariff, as its coefficient at scale 6 (R375). -/
def tariffRate (p : List Word) (i : Nat) : Nat := unbcd dsDigits (wordsNat ((p.drop i).take 5))
def tariffMaxRide (p : List Word) : Nat := wNum p 31 2

/-- The first boundary above a wall time (R376). -/
def nextBoundary (p : List Word) (t : Nat) : Nat :=
  let len := tariffLength p
  t + len - (((t : Int) + 60 * tariffOffset p - tariffAnchor p) % (len : Int)).toNat

/-! Segments -/

/-- The energy of a segment by itself (R381). -/
def Segment.own (g : Segment) : Energy :=
  if g.disputed then .disputed
  else match g.start, g.last with
    | some a, some b => .num (b - a)
    | _, _ => .noData

/-- Two energies added: a number when both are, else the first that is none (R382). -/
def Energy.add : Energy → Energy → Energy
  | .num a, .num b => .num (a + b)
  | .num _, y => y
  | x, _ => x

/-- The energy of a recorded segment with what is folded into it. -/
def Segment.energy (g : Segment) : Energy := match g.folded with | none => g.own | some e => g.own.add e

/-- A segment opens (R380). -/
def OpenRide.openSegment (r : OpenRide) (bay pack seconds : Nat) : OpenRide :=
  let g : Segment := { bay := bay, pack := pack, disputed := false, discontinuous := false, aggregate := false, endCause := 0,
                       start := none, last := none, startSeconds := seconds, duration := 0, folded := none }
  { r with segments := r.segments ++ [g] }

/-- The last report of the same pack's latest ended segment of the ride that had one (R381). -/
def OpenRide.endCounter (r : OpenRide) (pack : Nat) : Option Nat :=
  r.segments.reverse.findSome? (fun g => if g.pack = pack && g.endCause ≠ 0 then g.last else none)

/-- A report taken into a segment (R380, R381). -/
def Segment.report (g : Segment) (before : Option Nat) (v : Nat) : Segment :=
  match g.last with
  | none =>
    let low := match before with | none => false | some e => decide (v < e)
    { g with start := some v, last := some v, disputed := g.disputed || low }
  | some l => { g with last := some v, disputed := g.disputed || decide (v < l) }

/-- A pack's report reaches its open segment. -/
def OpenRide.report (r : OpenRide) (pack v : Nat) : OpenRide :=
  let e := r.endCounter pack
  { r with segments := r.segments.map (fun g => if g.pack = pack && g.endCause = 0 then g.report e v else g) }

/-- The tenth segment takes a further one that has ended (R382). DESIGN CHOICE (log 90). -/
def foldSegment (g x : Segment) : Segment :=
  { g with aggregate := true, duration := g.duration + x.duration, discontinuous := g.discontinuous || x.discontinuous,
           folded := some (match g.folded with | none => x.own | some e => e.add x.own) }

/-- Segments past the tenth that have ended are folded into the tenth (R382). DESIGN CHOICE (log 90). -/
def foldSegments (l : List Segment) : List Segment :=
  match l[9]? with
  | none => l
  | some ten =>
    let rest := l.drop 10
    let t := (rest.filter (fun g => g.endCause ≠ 0)).foldl foldSegment ten
    l.take 9 ++ [t] ++ rest.filter (fun g => g.endCause = 0)

/-- A segment ends (R380). -/
def Segment.close (g : Segment) (cause seconds : Nat) (disc : Bool) : Segment :=
  { g with endCause := cause, duration := g.duration + (seconds - g.startSeconds),
           discontinuous := g.discontinuous || disc }

/-- The flags of the ride that a segment's end may set (R381). -/
def RideFlags.afterSegment (f : RideFlags) (g : Segment) : RideFlags :=
  { f with disputed := f.disputed || g.disputed, noEnergy := f.noEnergy || g.start.isNone,
           discontinuous := f.discontinuous || g.discontinuous }

/-- Every open segment that passes a test ends. Answers the ride and the segments ended. -/
def OpenRide.endSegments (r : OpenRide) (cause seconds : Nat) (disc : Bool) (p : Segment → Bool) : OpenRide × List Segment :=
  let hit (g : Segment) : Bool := g.endCause = 0 && p g
  let ended := (r.segments.filter hit).map (fun g => g.close cause seconds disc)
  let segs := r.segments.map (fun g => if hit g then g.close cause seconds disc else g)
  let f := ended.foldl RideFlags.afterSegment r.flags
  ({ r with segments := foldSegments segs, flags := { f with aggregate := f.aggregate || decide (10 < segs.length) } }, ended)

/-- Segments of the open ride end, each with its event (R380). -/
def State.endedSegments (s : State) (cause seconds : Nat) (disc : Bool) (p : Segment → Bool) : State :=
  match s.led.cur.ride with
  | none => s
  | some r =>
    let (r1, ended) := r.endSegments cause seconds disc p
    if ended.isEmpty then s
    else
      ended.foldl (fun (s : State) (g : Segment) =>
        s.raise 0x4002 (leOctets 3 r.number ++ [BitVec.ofNat 8 g.bay, BitVec.ofNat 8 cause,
          BitVec.ofNat 8 (g.disputed.toNat + 2 * g.start.isNone.toNat)])) (s.setTail { s.led.cur with ride := some r1 })

/-- The open ride has an open segment that passes a test. -/
def State.hasSegment (s : State) (p : Segment → Bool) : Bool :=
  match s.led.cur.ride with
  | none => false
  | some r => r.segments.any (fun g => g.endCause = 0 && p g)

/-- Segments of the open ride end, and the tail is written (R157, R380). -/
def State.endSegments (s : State) (cause seconds : Nat) (disc : Bool) (p : Segment → Bool) : State :=
  if s.hasSegment p then (s.endedSegments cause seconds disc p).writeTail else s

/-- A pack begins a segment of the open ride (R380). -/
def State.openSegment (s : State) (bay pack : Nat) : State :=
  match s.led.cur.ride with
  | none => s
  | some r => (s.setTail { s.led.cur with ride := some (r.openSegment bay pack s.clock.seconds) }).writeTail

/-- The 16 words of a segment (Table Ledger-6). -/
def Segment.words (g : Segment) : List Word :=
  let counter (c : Option Nat) : List Word :=
    match c with | none => (DVal.nan 11 0).encode dsDigits | some v => decNat dsDigits v
  leWords 1 (boolsNat [decide (g.bay = 1), g.disputed, g.start.isNone, g.discontinuous, g.aggregate] + 32 * g.endCause) ++
    leWords 3 g.pack ++ counter g.start ++ counter g.last ++ leWords 2 g.duration

/-! The price of a ride -/

/-- A DL coefficient, or an overflow (R728). -/
def dlFits (x : Nat) : Option Nat := if x < 10 ^ 29 then some x else none

/-- Σ of charges, none where one overflowed (R727). -/
def addAll (l : List (Option Nat)) : Option Nat :=
  l.foldl (fun a x => match a, x with | some y, some z => dlFits (y + z) | _, _ => none) (some 0)

/-- The fare formula of R386. -/
def priceRide (p : List Word) (duration pulses distance energy : Nat) : Fare :=
  let t := dlFits (duration * tariffRate p 11 * 10 ^ 7 / 60)
  let d := dlFits (distance * tariffRate p 16 * 10 ^ 7 / 1000)
  let e := dlFits (energy * tariffRate p 21 * 100)
  let total := addAll [some (tariffRate p 6 * 10 ^ 7), t, d, e]
  let cap := tariffRate p 26 * 10 ^ 7
  let capped := total.map (fun x => if 0 < cap && decide (cap < x) then cap else x)
  let fare := capped.bind (fun x =>
    let f := (roundDiv (tariffMode p) x (10 ^ (13 - tariffScale p))).1.toNat
    if f < 10 ^ 14 then some f else none)
  { duration := duration, pulses := pulses, distance := distance, energy := energy, time := t, dist := d, ener := e,
    fare := fare }

/-- A stored charge: truncated to scale 6 (R386). -/
def chargeWords (x : Option Nat) : List Word :=
  match x with | none => (DVal.nan 14 0).encode dsDigits | some v => decNat dsDigits (v / 10 ^ 7)

def fareWords (x : Option Nat) : List Word :=
  match x with | none => (DVal.nan 14 0).encode dsDigits | some v => decNat dsDigits v

/-- The metres of a pulse count (R383). -/
def State.metres (s : State) (pulses : Nat) : Nat := pulses * s.veh 38 / (s.veh 39 * 1000)

/-- Wheel pulses of the open ride (R383, Table Motor-5). -/
def State.ridePulses (s : State) (r : OpenRide) : Nat := (s.mot.tcap.wcnt.toNat + 0x1000000 - r.wheel) % 0x1000000

/-- The sum of the segments whose energy is a number (R386). -/
def OpenRide.energySum (r : OpenRide) : Nat :=
  r.segments.foldl (fun n g => match g.energy with | .num e => n + e | .disputed | .noData => n) 0

/-- Whole ledger seconds of a ride up to a time in LFX periods (R386). DEDUCED (log 91). -/
def OpenRide.secondsTo (r : OpenRide) (ticks : Nat) : Nat := (ticks - (r.opened.seconds * 32768 + r.opened.fraction)) / 32768

/-- Whole ledger seconds of a ride so far (R386). -/
def State.rideSeconds (s : State) (r : OpenRide) : Nat := r.secondsTo s.clock.ticks

/-- The HMAC of a record's words, 22 words by R11; without a sealing key, of zeros. -/
def State.sealWords (s : State) (ws : List Word) : List Word :=
  match s.cus.keys.sealing with
  | none => List.replicate 22 0
  | some k => (octetsToWords (sealMac k (packWords ws)) ++ List.replicate 22 0).take 22

/-- A record with its HMAC, padding and CRC (Tables Ledger-5 and Ledger-8). -/
def State.sealRecord (s : State) (body : List Word) : List Word :=
  let ws := body ++ s.sealWords body
  let full := (ws ++ List.replicate 253 0).take 253
  full ++ leWords 3 (crc32c (packWords full)).toNat

/-- Words 0 to 230 of a ride record (Table Ledger-5). -/
def rideBody (r : OpenRide) (epoch period : Nat) (close : TimeBlock) (f : Fare) : List Word :=
  let segs := (r.segments.take 10).map Segment.words
  leWords 2 0x2B1DE0 ++ leWords 2 r.number ++ leWords 1 epoch ++ leWords 1 r.flags.word ++ leWords 2 r.tariffEdition ++
    r.opened.words ++ close.words ++ leWords 2 period ++ leWords 2 f.duration ++ leWords 3 f.distance ++ leWords 3 f.pulses ++
    decNat dsDigits f.energy ++ chargeWords f.time ++ chargeWords f.dist ++ chargeWords f.ener ++ fareWords f.fare ++
    leWords 1 segs.length ++ leWords 3 (BitVec.ofInt 36 r.offset).toNat ++
    ((segs.foldl (· ++ ·) []) ++ List.replicate 160 0).take 160

/-! Periods -/

/-- The MAC of the newest sealed period of an epoch (Table Ledger-8, words 94 to 115; R409). -/
def Ledger.lastMac (l : Ledger) (epoch : Nat) : List Word :=
  match l.periods.reverse.find? (fun p => p.epoch = epoch) with
  | none => List.replicate 22 0
  | some p => p.mac

/-- Words 0 to 115 of a period record (Table Ledger-8). -/
def State.periodBody (s : State) (epoch kind intervals : Nat) (late : Bool) (o : OpenPeriod) (stop : Nat) : List Word :=
  leWords 2 0x5E41A7 ++ leWords 2 o.index ++ leWords 1 epoch ++
    leWords 1 (kind + 4 * boolsNat [decide (0 < o.retroCount), decide (0 < o.tests), decide (0 < o.disputed), o.lfxLost, late] +
      128 * o.scale) ++
    leWords 4 o.start ++ leWords 4 stop ++ leWords 2 intervals ++ (s.timeBlock 0).words ++
    leWords 2 o.lowEdition ++ leWords 2 o.highEdition ++
    leWords 2 o.rides ++ leWords 2 o.disputed ++ leWords 2 o.tests ++ leWords 2 o.nanFares ++
    decNat dlDigits o.fare ++ decNat dlDigits o.testFare ++ leWords 3 o.duration ++ leWords 3 o.distance ++
    decNat dlDigits o.energy ++ leWords 2 o.retroCount ++ leWords 4 o.retroLargest ++ leWords 4 o.retroTotal ++
    leWords 2 o.firstRide ++ leWords 2 o.lastRide ++ leWords 4 s.led.cur.hwm ++
    s.led.lastMac epoch

/-- A period is sealed: its record is written, read back, and queued for the journal (R390, R394); answers whether it stands. -/
def State.seal (s : State) (w : RingWrite) (epoch kind intervals : Nat) (late : Bool) (o : OpenPeriod) : State × Bool :=
  let ws := s.sealRecord (s.periodBody epoch kind intervals late o o.stop)
  match s.ringWrite w ws with
  | (s1, none) => (s1, false)
  | (s1, some p) =>
    let x : PeriodRecord := { epoch := epoch, index := o.index, page := p, mac := (ws.drop 116).take 22, key := s.cus.keys.sealing,
                              mirrored := false, acked := false, lost := false }
    let s2 := s1.setLed { s1.led with periods := s1.led.periods ++ [x] }
    (((s2.raise 0x4003 (leOctets 3 o.index ++ [BitVec.ofNat 8 kind])).journal s2.clock 2 (.period epoch o.index) (recOctets ws)).reclaimRing, true)

/-- A period is sealed if the ring has a page for it and none before it waits, else it waits (R396); one whose record stands is not sealed
again (R390). Answers false where PWR_FAIL came before the read-back (Table Ledger-9). -/
def State.sealOrWait (s : State) (w : RingWrite) (kind intervals : Nat) (o : OpenPeriod) : State × Bool :=
  let l := s.led
  let waits (s : State) : State := s.setLed { s.led with due := s.led.due ++ [(l.epoch, kind, intervals, o)] }
  if l.sealed l.epoch o.index then (s, true)
  else if !l.due.isEmpty then (waits s, true)
  else
    match s.seal w l.epoch kind intervals false o with
    | (s1, true) => (s1, true)
    | (s1, false) => if s1.isCut then (s1, false) else (waits s1, true)

/-- Periods that wait are sealed late as pages free (R396). -/
def State.sealDue : Nat → State → State
  | 0, s => s
  | n + 1, s =>
    match s.led.due with
    | [] => s
    | (p, k, i, o) :: rest =>
      match s.seal .done p k i true o with
      | (_, false) => s
      | (s1, true) => State.sealDue n (s1.setLed { s1.led with due := rest })

/-- Consecutive empty periods from an index and a start (Table Ledger-7). -/
def State.sealEmpty (lfx : Bool) (p : List Word) : Nat → Nat → Nat → State → State
  | 0, _, _, s => s
  | n + 1, index, start, s =>
    let stop := nextBoundary p start
    State.sealEmpty lfx p n (index + 1) stop (s.sealOrWait .done 1 1 (OpenPeriod.fresh index start stop lfx)).1

/-- The first boundary that is the last at or below a wall time, and how many intervals lie between (Table Ledger-7). -/
def boundariesTo (p : List Word) (e wall : Nat) : Nat × Nat :=
  let b2 := nextBoundary p e
  if wall < b2 then (1, e) else ((wall - b2) / tariffLength p + 2, b2 + (wall - b2) / tariffLength p * tariffLength p)

def State.openPeriodAt (s : State) (index start : Nat) : State :=
  s.setTail { s.led.cur with
    period := some (OpenPeriod.fresh index start (nextBoundary (s.edition .tariff) start) s.led.lfxLost) }

/-- The closure check (R388, Table Ledger-7), with the end of the first seal's write. -/
def State.closureCheckWith (s : State) (w : RingWrite) : State :=
  let s := s.setTail s.led.cur.raiseHwm
  let s := if s.led.due.isEmpty then s else State.sealDue 64 s
  match s.led.cur.period with
  | none => s
  | some o =>
    let wall := s.clock.wall
    if s.boot.tier.toNat < 1 || wall < o.stop || 0xFFFFFF ≤ o.index then s
    else
      let p := s.edition .tariff
      let (k0, last0) := boundariesTo p o.stop wall
      let left := 0xFFFFFF - o.index
      let k := if left < 64 then min k0 left else k0
      let last := if k = k0 then last0 else if k = 1 then o.stop else nextBoundary p o.stop + (k - 2) * tariffLength p
      let (s1, stands) := s.sealOrWait w 0 1 o
      let lfx := s.led.lfxLost
      if !stands then s1
      else if k ≤ 63 then (State.sealEmpty lfx p (k - 1) (o.index + 1) o.stop s1).openPeriodAt (o.index + k) last |>.writeTail
      else
        let gapStart := nextBoundary p o.stop + 61 * tariffLength p
        let s2 := State.sealEmpty lfx p 62 (o.index + 1) o.stop s1
        let s3 := (s2.sealOrWait .done 2 (k - 63) (OpenPeriod.fresh (o.index + 63) gapStart last lfx)).1
        (s3.openPeriodAt (o.index + 64) last).writeTail

/-- The closure check, its records read back as written. -/
def State.closureCheck (s : State) : State := s.closureCheckWith .done

/-! Opening and closing a ride -/

/-- A fare at one scale brought to another, higher, scale. -/
def rescale (x frm til : Nat) : Nat := x * 10 ^ (til - frm)

/-- A closed ride's figures enter the open period (R389, R391). -/
def OpenPeriod.addRide (o : OpenPeriod) (r : OpenRide) (f : Fare) : OpenPeriod :=
  let sc := max o.scale (tariffScale r.tariff)
  let v := match f.fare with | none => 0 | some x => rescale x (tariffScale r.tariff) sc
  let a := rescale o.fare o.scale sc
  let b := rescale o.testFare o.scale sc
  { o with rides := o.rides + 1, disputed := o.disputed + r.flags.disputed.toNat, tests := o.tests + r.flags.test.toNat,
           nanFares := o.nanFares + f.fare.isNone.toNat, scale := sc,
           fare := if r.flags.test then a else a + v, testFare := if r.flags.test then b + v else b,
           duration := o.duration + f.duration, distance := o.distance + f.distance, energy := o.energy + f.energy,
           firstRide := if o.rides = 0 then r.number else o.firstRide, lastRide := r.number,
           lowEdition := if o.rides = 0 then r.tariffEdition else min o.lowEdition r.tariffEdition,
           highEdition := max o.highEdition r.tariffEdition, lfxLost := o.lfxLost || r.flags.lfxLost }

/-- A ride record is written for the record in the course of closing, and the ride is closed (R384, R386, R389, R394, R407): answers its
words, none where it does not stand; without a free page the ride stays open. The limits change with the ride state (R493). -/
def State.finishClose (s : State) (w : RingWrite) : State × List Word :=
  match s.led.cur.ride with
  | none => (s, [])
  | some r =>
    match r.closing with
    | none => (s, [])
    | some (b, pulses) =>
      let secs := r.secondsTo (b.seconds * 32768 + b.fraction)
      let dur := min secs (if r.tariff.isEmpty then secs else tariffMaxRide r.tariff)
      let f := priceRide r.tariff dur pulses (s.metres pulses) r.energySum
      let index := match s.led.cur.period with | none => 0 | some o => o.index
      let ws := s.sealRecord (rideBody r s.led.epoch index b f)
      match s.ringWrite w ws with
      | (s1, none) => (if s1.isCut then s1 else s1.setTail { s1.led.cur with ride := some { r with closing := none } }, [])
      | (s1, some p) =>
        let x : RideRecord := { epoch := s.led.epoch, number := r.number, period := index, page := p, ride := r, fare := f,
                                key := s.cus.keys.sealing, mirrored := false }
        let s2 := s1.setLed { s1.led with rides := s1.led.rides ++ [x] }
        let s3 := s2.setTail { s2.led.cur with ride := none, period := s2.led.cur.period.map (fun (o : OpenPeriod) => o.addRide r f) }
        let s4 := s3.writeTail.raise 0x4001 (leOctets 3 r.number ++ [BitVec.ofNat 8 b.cause] ++ leOctets 2 r.flags.word ++
          packWords (fareWords f.fare))
        let s5 := s4.journal s4.clock 1 (.ride s.led.epoch r.number index) (recOctets ws)
        ((s5.reclaimRing).writeLimits.setForce, ws)

/-- The open ride closes with a cause (R384): its segments end, and its record is written with the present times. -/
def State.closeRide (s : State) (cause : Nat) (w : RingWrite) : State × List Word :=
  let s1 := s.endedSegments 1 s.clock.seconds false (fun _ => true)
  match s1.led.cur.ride with
  | none => (s1, [])
  | some r => (s1.setTail { s1.led.cur with ride := some { r with closing := some (s1.timeBlock cause, s1.ridePulses r) } }).finishClose w

/-- The totals of the open period computed again from the ride records that carry its index (R393), and a ride whose record stands is
closed (Table Ledger-9). -/
def State.recount (s : State) : State :=
  let l := s.led
  let t := l.cur
  let closed := match t.ride with | none => false | some r => l.rides.any (fun x => x.epoch = l.epoch && x.number = r.number)
  let again (o : OpenPeriod) : OpenPeriod :=
    (l.rides.filter (fun x => x.epoch = l.epoch && x.period = o.index)).foldl (fun (o : OpenPeriod) (x : RideRecord) => o.addRide x.ride x.fare)
      { OpenPeriod.fresh o.index o.start o.stop o.lfxLost with
        retroCount := o.retroCount, retroLargest := o.retroLargest, retroTotal := o.retroTotal }
  s.setTail { t with ride := if closed then none else t.ride, period := t.period.map again }

/-- A flag of the open ride is set. -/
def State.flagRide (s : State) (f : RideFlags → RideFlags) : State :=
  match s.led.cur.ride with
  | none => s
  | some r => s.setTail { s.led.cur with ride := some { r with flags := f r.flags } }

/-! Wall time -/

/-- Wall time and class take new values (R371, R374), with event 0x4004 of a Table Ledger-2 row, or 0 for Concord. DEDUCED (log 85). DEDUCED (log 86). -/
def State.stepWall (s : State) (row wall fraction cls : Nat) : State :=
  let c := s.clock
  (s.setTail { s.led.cur with clock := { c with wall := wall, wallFraction := fraction, cls := cls } }.raiseHwm).raise 0x4004
    ([BitVec.ofNat 8 row, BitVec.ofNat 8 c.cls, BitVec.ofNat 8 cls] ++ leOctets 5 c.wall ++ leOctets 5 wall)

/-- A setback's figures enter the open period (R372, Table Ledger-7). -/
def OpenPeriod.setback (o : OpenPeriod) (n : Nat) : OpenPeriod :=
  { o with retroCount := o.retroCount + 1, retroLargest := max o.retroLargest n, retroTotal := o.retroTotal + n }

/-- The entry of a pending setback is marked taken: the period's and the ride's retrograde marks follow (R372). -/
def State.takeSetback (s : State) (amount : Nat) : State :=
  let s1 := s.setTail { s.led.cur with setback := none, period := s.led.cur.period.map (fun (o : OpenPeriod) => o.setback amount) }
  (s1.flagRide (fun f => { f with retrograde := true })).writeTail

/-- A setback (R372): persisted and read back first, then the step; answers whether the entry stood. -/
def State.setBack (s : State) (w : RingWrite) (wall fraction cls : Nat) : State × Bool :=
  let c := s.clock
  let amount := (c.wall * 32768 + c.wallFraction - (wall * 32768 + fraction) + 32767) / 32768
  let (s1, stands) := (s.setTail { s.led.cur with setback := some (wall, amount) }).tailWritten w
  if !stands then (s1.setTail { s1.led.cur with setback := none }, false)
  else if s1.isCut then (s1, true)
  else ((s1.stepWall 6 wall fraction cls).takeSetback amount, true)

/-! Epochs -/

/-- The open period is sealed as final, ending at the present wall time (R387, Table Ledger-7); answers false where PWR_FAIL came before
its read-back. DEDUCED (log 91). -/
def State.sealFinal (s : State) (w : RingWrite) : State × Bool :=
  match s.led.cur.period with
  | none => (s, true)
  | some o =>
    match (s.setTail s.led.cur.raiseHwm).sealOrWait w 3 1 { o with stop := s.clock.wall } with
    | (s1, false) => (s1, false)
    | (s1, true) => (s1.setTail { s1.led.cur with period := none }, true)

/-- A new epoch is set (R397); answers false where PWR_FAIL came before the final period stood. -/
def State.setEpoch (s : State) (w : RingWrite) : State × Bool :=
  let (s1, stands) := s.sealFinal w
  if !stands then (s1, false)
  else
    let n := s1.led.epoch + 1
    let c := s1.clock
    let t := { s1.led.cur with clock := { c with era := 0, seconds := 0, fraction := 0 }, hwm := c.wall }
    let s2 := { s1 with led := { s1.led with cur := t, epoch := n, nextRide := 1, eraExhausted := false, base := s1.ticks } }
    let s3 := { s2 with jou := { s2.jou with epochSeq := s2.jou.nextSeq } }
    (((s3.openPeriodAt 1 c.wall).writeTail).raise 0x4008 (leOctets 2 n), true)

/-! Reading sealed records -/

/-- A record's words verify: their HMAC, n words from their start, or their CRC where the key that sealed them is not held any more.
DESIGN CHOICE (log 87). -/
def State.recordGood (s : State) (key : Option Nat) (n : Nat) (ws : List Word) : Bool :=
  decide (ws.length = 256) &&
    (if s.cus.keys.sealing = key then decide ((ws.drop n).take 22 = s.sealWords (ws.take n)) else decide (ws.drop 253 = crcWords (ws.take 253)))

/-- The journal's newest copy of a sealed period. -/
def State.journalPeriod (s : State) (epoch index : Nat) : Option (List Word) :=
  ((s.jou.held.filter (fun q => q.2.link = .period epoch index)).foldl (fun (o : Option (Nat × Rec)) q => match o with
    | none => some q
    | some x => if x.1 < q.1 then some q else some x) none).map (fun q => octetsToWords q.2.body)

def State.setPeriod (s : State) (p : PeriodRecord) : State :=
  s.setLed { s.led with periods := s.led.periods.map (fun x => if x.epoch = p.epoch && x.index = p.index then p else x) }

/-- The words of a sealed period (R51, R409): those of its page where they read and verify; else those of the journal copy that verifies,
written to the ring again; else it is lost. `copy`: the journal copy can be read. -/
def State.readPeriod (s : State) (f : FlashFacts) (copy : Bool) (p : PeriodRecord) : State × Option (List Word) :=
  match (s.ringReads f p.page 256).filter (s.recordGood p.key 116) with
  | some ws => (s, some ws)
  | none =>
    match (if copy then s.journalPeriod p.epoch p.index else none).filter (s.recordGood p.key 116) with
    | some ws =>
      (match s.ringWrite .done ws with
       | (s1, none) => (s1, some ws)
       | (s1, some n) => ((s1.setPeriod { p with page := n, lost := false }).raise 0x4007 (leOctets 3 p.index ++ [0]), some ws))
    | none => (if p.lost then s else (s.setPeriod { p with lost := true }).raise 0x4007 (leOctets 3 p.index ++ [1]), none)

/-- A sealed period in flash against its journal mirror (R208, R394, R51): a mirror that differs or cannot be read is written again. -/
def State.comparePeriod (s : State) (f : FlashFacts) (unread : List (Nat × Nat)) (p : PeriodRecord) : State :=
  let gone := unread.contains (p.epoch, p.index)
  match s.readPeriod f (!gone) p with
  | (s1, none) => s1
  | (s1, some ws) =>
    let differs := match s.journalPeriod p.epoch p.index with | none => false | some j => decide (j ≠ ws)
    if gone || differs then
      s1.setLed { s1.led with periods := s1.led.periods.map (fun x =>
        if x.epoch = p.epoch && x.index = p.index then { x with mirrored := false } else x) }
    else s1

end Sys2Proof.Machine
end

