-- ==== Sys2Proof/Machine/CanLink.lean ====
section
/-! DEFINITION. The frames of Concord (spec/08_concord.md, R415 to R424, R435 to R437): identifiers, fragments, padding and MACs of a
message that is sent, and what becomes of a frame that is received. -/
namespace Sys2Proof.Machine

def State.setCon (s : State) (c : Concord) : State := { s with con := c }

/-! Identifiers (R417, Tables Concord-2 to Concord-4) -/

/-- The priority class of a message type (Table Concord-4). -/
def concordPri (type : Nat) : Nat :=
  if type = 0x01 then 7
  else if type = 0x06 || type = 0x08 then 1
  else if type = 0x02 || type = 0x03 || type = 0x04 || type = 0x05 || type = 0x07 then 3
  else if type = 0x09 || type = 0x0A || type = 0x0B then 2
  else if type = 0x0C || type = 0x0D || type = 0x0E then 4
  else if type = 0x0F || type = 0x10 then 5
  else 6

/-- An identifier (Table Concord-2). -/
def concordId (type src dst tie : Nat) : BitVec 29 :=
  BitVec.ofNat 29 (0xB * 2 ^ 25 + concordPri type * 2 ^ 22 + type * 2 ^ 17 + src * 2 ^ 14 + dst * 2 ^ 11 + tie % 2048)

def concordType (f : CanFrame) : Nat := f.id.toNat / 2 ^ 17 % 32
def concordSrc (f : CanFrame) : Nat := f.id.toNat / 2 ^ 14 % 8
def concordDst (f : CanFrame) : Nat := f.id.toNat / 2 ^ 11 % 8
def concordTie (f : CanFrame) : Nat := f.id.toNat % 2048

/-- A frame of the identifier plan (R415, Tables Concord-2 and Concord-3). -/
def inPlan (f : CanFrame) : Bool :=
  f.ide && f.fdf && !f.rtr && decide (f.id.toNat / 2 ^ 25 = 0xB) &&
    [concordSrc f, concordDst f].all (fun n => decide (n ≠ 4) && decide (n ≠ 5))

/-- A type of Table Concord-4 between nodes of its From → to column (R419). DEDUCED (log 99). -/
def nodesAgree (type src dst : Nat) : Bool :=
  let member (n : Nat) : Bool := decide (1 ≤ n) && decide (n ≤ 3)
  if type = 0x01 then decide (dst = 7) && decide (src ≠ 7)
  else if type = 0x02 || type = 0x04 then decide (src = 6) && decide (dst = 0)
  else if type = 0x03 || type = 0x05 then decide (src = 0) && decide (dst = 6)
  else if type = 0x06 || type = 0x07 || type = 0x08 || type = 0x0C then
    (decide (src = 0) && member dst) || (member src && decide (dst = 0))
  else if type = 0x09 || type = 0x0E || type = 0x11 then decide (src = 0) && member dst
  else if type = 0x0A then (decide (src = 1) || decide (src = 2)) && decide (dst = 0)
  else if type = 0x0B then decide (src = 0) && (decide (dst = 1) || decide (dst = 2))
  else if type = 0x0D || type = 0x12 then member src && decide (dst = 0)
  else if type = 0x0F then decide (src = 3) && decide (dst = 0)
  else if type = 0x10 then decide (src = 0) && decide (dst = 3)
  else false

/-- A device's own node (R418). -/
def State.ownNode (s : State) : Nat := if s.boot.role = .vehicle then 0 else if s.con.phase = .member then s.con.node else 6

/-- Bits 10:0 of the device's identity. -/
def ownTie : Nat := Config.identity.toNat % 2048

/-- A frame is for this device (R417, R418). -/
def State.addressed (s : State) (f : CanFrame) : Bool :=
  concordDst f = 7 || (concordDst f = s.ownNode && (decide (concordDst f ≠ 6) || decide (concordTie f = ownTie)))

/-! Frames that are sent -/

/-- The smallest CAN FD data length that holds n octets (R422). -/
def fdLength (n : Nat) : Nat :=
  (([0, 1, 2, 3, 4, 5, 6, 7, 8, 12, 16, 20, 24, 32, 48, 64] : List Nat).find? (fun k => decide (n ≤ k))).getD 64

/-- The data-length code of a CAN FD data length. -/
def fdCode (n : Nat) : BitVec 4 :=
  BitVec.ofNat 4 (([0, 1, 2, 3, 4, 5, 6, 7, 8, 12, 16, 20, 24, 32, 48, 64] : List Nat).findIdx (fun k => decide (n ≤ k)))

/-- A body cut into fragments: n octets in the first, m in each later one (R420, R421). -/
def fragments (n m : Nat) : Nat → List Octet → List (List Octet)
  | 0, _ => []
  | fuel + 1, body =>
    if body.length ≤ n then [body] else body.take n :: fragments m m fuel (body.drop n)

/-- FRAG (R420, R421). -/
def fragOctet (index : Nat) (gen last : Bool) : Octet := BitVec.ofNat 8 (index + 64 * gen.toNat + 128 * last.toNat)

def dataFrame (id : BitVec 29) (brs : Bool) (data : List Octet) : CanFrame :=
  { id := id, ide := true, fdf := true, brs := brs, rtr := false, dlc := fdCode data.length, data := data }

/-- Content filled up with 0xCC to a length (R422). -/
def fillTo (n : Nat) (content : List Octet) : List Octet := content ++ List.replicate (n - content.length) 0xCC

/-- The frames of an unsecured message (R420, R422). -/
def plainFrames (id : BitVec 29) (brs : Bool) (transfer : Nat) (body : List Octet) : List CanFrame :=
  let l := fragments 60 62 65 body
  l.zipIdx.map (fun q =>
    let content := [fragOctet q.2 false (decide (q.2 + 1 = l.length)), BitVec.ofNat 8 transfer] ++
      (if q.2 = 0 then leOctets 2 body.length else []) ++ q.1
    dataFrame id brs (fillTo (fdLength content.length) content))

/-- The MAC of a secured frame (R435): of the identifier and the octets before the MAC. -/
def frameMac (key : List Octet) (id : BitVec 29) (octets : List Octet) : List Octet := (cmac key (leOctets 4 id.toNat ++ octets)).take 8

/-- The frames of a secured message (R421, R422, R435). -/
def securedFrames (id : BitVec 29) (brs : Bool) (key : List Octet) (gen : Bool) (ctr : Nat) (body : List Octet) : List CanFrame :=
  let l := fragments 49 51 65 body
  l.zipIdx.map (fun q =>
    let content := [fragOctet q.2 gen (decide (q.2 + 1 = l.length))] ++ leOctets 4 ctr ++
      (if q.2 = 0 then leOctets 2 body.length else []) ++ q.1
    let octets := fillTo (fdLength (content.length + 8) - 8) content
    dataFrame id brs (octets ++ frameMac key id octets))

/-- An unsecured message is queued (R420, R477); `tie`: of a device at node 6 that it goes to. A message of more than 64 fragments is not
sent (R422). DESIGN CHOICE (log 103). -/
def State.sendPlain (s : State) (type dst tie : Nat) (body : List Octet) : State :=
  let src := s.ownNode
  let id := concordId type src dst (if src = 6 then ownTie else if dst = 6 then tie else 0)
  let fs := plainFrames id (!s.con.fallback) s.con.transfer body
  if 64 < fs.length then s
  else
    s.setCon { s.con with sent := s.con.sent ++ [{ type := type, dst := dst, body := body, frames := fs }],
                          transfer := (s.con.transfer + 1) % 256 }

/-- A member's record changed. -/
def State.mapMember (s : State) (node : Nat) (f : Member → Member) : State :=
  s.setCon { s.con with members := s.con.members.map (fun m => if m.node = node then f m else m) }

def State.member (s : State) (node : Nat) : Option Member := s.con.members.find? (fun m => m.node = node)

/-- The session with a node: a member's at the vehicle, the device's own with node 0. -/
def State.sessionWith (s : State) (node : Nat) : Option Session :=
  if s.boot.role = .vehicle then (s.member node).map (·.session) else if node = 0 then s.con.session else none

def State.mapSession (s : State) (node : Nat) (f : Session → Session) : State :=
  if s.boot.role = .vehicle then s.mapMember node (fun m => { m with session := f m.session })
  else s.setCon { s.con with session := s.con.session.map f }

/-- The key of a direction (R430): octets 0 to 15 from the vehicle, 16 to 31 to it. -/
def halfKey (fromVehicle : Bool) (keys : List Octet) : List Octet := if fromVehicle then keys.take 16 else (keys.drop 16).take 16

/-- A secured message to the holder of a node's session, under a destination of its own (R421, R422, R435, R436, R440). The counter
2³² − 1 is kept for LEAVE. DESIGN CHOICE (log 103). -/
def State.sendSecuredTo (s : State) (type node dst tie : Nat) (body : List Octet) : State :=
  match s.sessionWith node with
  | none => s
  | some x =>
    let id := concordId type s.ownNode dst tie
    let fs := securedFrames id (!s.con.fallback) (halfKey (decide (s.boot.role = .vehicle)) x.keys) x.gen (x.tx + 1) body
    if 64 < fs.length || (0xFFFFFFFE ≤ x.tx && type ≠ 0x06) then s
    else
      (s.setCon { s.con with sent := s.con.sent ++ [{ type := type, dst := dst, body := body, frames := fs }] }).mapSession node
        (fun (y : Session) => { y with tx := y.tx + 1 })

/-- A secured message from the vehicle to a member, or from a member to node 0. -/
def State.sendSecured (s : State) (type dst : Nat) (body : List Octet) : State := s.sendSecuredTo type dst dst 0 body

/-! Frames that are received -/

/-- A fragment as a frame carries it. -/
structure Fragment where
  index : Nat
  last : Bool
  gen : Bool
  /-- The message counter, or the transfer number. -/
  ctr : Nat
  /-- Body length, in fragment 0. -/
  len : Nat
  content : List Octet
  deriving DecidableEq, Repr

/-- The fragment of an unsecured frame (R420). -/
def plainFragment (d : List Octet) : Fragment :=
  let frag := octetAt d 0
  let i := (frag &&& 0x3F).toNat
  { index := i, last := frag.getLsbD 7, gen := frag.getLsbD 6, ctr := (octetAt d 1).toNat, len := if i = 0 then fieldNat d 2 2 else 0,
    content := d.drop (if i = 0 then 4 else 2) }

/-- The fragment of a secured frame, its MAC taken off (R421). -/
def securedFragment (d : List Octet) : Fragment :=
  let frag := octetAt d 0
  let i := (frag &&& 0x3F).toNat
  let d8 := d.take (d.length - 8)
  { index := i, last := frag.getLsbD 7, gen := frag.getLsbD 6, ctr := fieldNat d 1 4, len := if i = 0 then fieldNat d 5 2 else 0,
    content := d8.drop (if i = 0 then 7 else 5) }

/-- What a fragment makes of a message. -/
inductive Joined where
  | more (p : Partial)
  | whole (body : List Octet)
  | broken
  deriving DecidableEq, Repr

/-- A fragment joins what has come before it (R423, R436): in index order, of one counter, with neither more nor fewer octets than the
body length. -/
def joinFragment (sender type : Nat) (old : Option Partial) (x : Fragment) : Joined :=
  let start : Option Partial :=
    if x.index = 0 then some { sender := sender, type := type, index := 0, gen := x.gen, ctr := x.ctr, len := x.len, got := [] }
    else old.filter (fun p => decide (p.type = type) && decide (p.ctr = x.ctr) && p.gen == x.gen && decide (p.index = x.index))
  match start with
  | none => .broken
  | some p =>
    let got := p.got ++ x.content.take (p.len - p.got.length)
    if x.last then (if got.length = p.len then .whole got else .broken)
    else if p.len ≤ got.length || 63 ≤ x.index then .broken
    else .more { p with index := x.index + 1, got := got }

/-- Messages and frames discarded are counted (R419, R423, R436). -/
def State.discardFrame (s : State) : State := s.setCon { s.con with discarded := satAdd 65535 s.con.discarded 1 }

/-- The sender of a frame: its node, and at node 6 its tie. -/
def senderOf (f : CanFrame) : Nat := concordSrc f * 2048 + concordTie f

/-- A fragment that passes its checks (R423): a message that it completes does its work; a message that it breaks off is counted. -/
def State.takeFragment (s : State) (f : CanFrame) (x : Fragment) (act : State → Nat → List Octet → State) : State :=
  let sender := senderOf f
  let old := s.con.partials.find? (fun p => p.sender = sender)
  let s1 := if x.index = 0 && old.isSome then s.discardFrame else s
  let rest := s1.con.partials.filter (fun p => p.sender ≠ sender)
  match joinFragment sender (concordType f) old x with
  | .more p => s1.setCon { s1.con with partials := p :: rest }
  | .whole body => act (s1.setCon { s1.con with partials := rest }) (concordSrc f) body
  | .broken => (s1.setCon { s1.con with partials := rest }).discardFrame

/-- The key under which a session accepts a generation (R435, R439). -/
def Session.rxKey (x : Session) (vehicle gen : Bool) : Option (List Octet) :=
  if gen = x.gen then some (halfKey (!vehicle) x.keys) else if x.prevOk then some (halfKey (!vehicle) x.prevKeys) else none

/-- A frame's MAC verifies (R435). -/
def macVerifies (key : List Octet) (f : CanFrame) : Bool :=
  let n := f.data.length - 8
  decide (13 ≤ f.data.length) && decide (frameMac key f.id (f.data.take n) = f.data.drop n)

/-- The highest counter accepted in a generation rises (R436). -/
def Session.raise (x : Session) (gen : Bool) (ctr : Nat) : Session := if gen = x.gen then { x with rx := ctr } else { x with prevRx := ctr }

/-- Fragment 0 passes R436 in a session. -/
def Session.fresher (x : Session) (gen : Bool) (ctr : Nat) : Bool := decide ((if gen = x.gen then x.rx else x.prevRx) < ctr)

/-- A secured frame of a session (R435, R436); `failed` is done where its MAC fails. -/
def State.securedFrame (s : State) (x : Session) (f : CanFrame) (failed : State) (act : State → Nat → List Octet → State) : State :=
  let y := securedFragment f.data
  match x.rxKey (decide (s.boot.role = .vehicle)) y.gen with
  | none => s.discardFrame
  | some key =>
    if !macVerifies key f then failed
    else if y.index ≠ 0 then s.takeFragment f y act
    else if x.fresher y.gen y.ctr then (s.mapSession (concordSrc f) (fun z => z.raise y.gen y.ctr)).takeFragment f y act
    else s.discardFrame

/-- A MAC failure of a peer within the last second is added to its session (R437). -/
def Session.failMac (x : Session) (now : Nat) : Session :=
  { x with macFails := now :: x.macFails.filter (fun t => decide (now < t + 32768)) }

def State.countMac (s : State) : State := s.setCon { s.con with macFailures := satAdd 65535 s.con.macFailures 1 }

/-- A new command begins: nothing is sent yet. -/
def State.quiet (s : State) : State := s.setCon { s.con with sent := [] }

/-- CAN-A and the crypto engine serve, and the bus is not lost (R467, R478, R479). -/
def State.canLive (s : State) : Bool :=
  s.pow.pm = .running && s.boot.role ≠ .bringUp && s.boot.tier.toNat ≥ 1 &&
    s.boot.units.get UnitId.canA = .passed && s.boot.units.get UnitId.crypto = .passed && !s.con.busOff

/-- A frame without error ends restricted operation (R416). -/
def State.heardFrame (s : State) : State := s.setCon { s.con with restricted := false }

/-- A frame of a type reaches this device: frames outside the plan are ignored, those between wrong nodes discarded, and those for others
pass by (R415, R418, R419). DESIGN CHOICE (log 102). -/
def State.onFrame (s : State) (type : Nat) (f : CanFrame) (take : State → State) : State :=
  if !s.canLive then s
  else
    let s1 := s.heardFrame
    if !inPlan f then s1.setCon { s1.con with ignored := satAdd 65535 s1.con.ignored 1 }
    else if concordType f ≠ type then s1
    else if !nodesAgree type (concordSrc f) (concordDst f) then s1.discardFrame
    else if !s1.addressed f then s1
    else take s1

/-- The frames of unsecured messages of a type, whose bodies pass a test of their length. DESIGN CHOICE (log 103). -/
def State.onPlain (s : State) (type : Nat) (fs : List CanFrame) (ok : Nat → Bool) (act : State → Nat → List Octet → State) : State :=
  fs.foldl (fun (s : State) (f : CanFrame) => s.onFrame type f (fun s =>
    s.takeFragment f (plainFragment f.data) (fun s src b => if ok b.length then act s src b else s.discardFrame))) s.quiet

end Sys2Proof.Machine
end

