-- ==== Sys2Proof/Machine/Coherence.lean ====
section
/-! DEFINITION. The directory protocol (spec/14_inflight.md, Tables Flight-6 to Flight-10), on the memory's own state: what
a home does with a request, a notice, a response and a Done, and what a cache does with an access, a snoop, a grant and a
PutAck. A line is named by its word address divided by 16. -/
namespace Sys2Proof.Machine

def Memory.homeOf (m : Memory) (line : Nat) : HomeLine := lookupD HomeLine.reset line m.home
def Memory.setHome (m : Memory) (line : Nat) (h : HomeLine) : Memory :=
  { m with home := if h = HomeLine.reset then dropKey line m.home else setKey line h m.home }

/-- The line as its tile holds it. -/
def Memory.tileLine (m : Memory) (line : Nat) : LineData := Vector.ofFn (fun i : Fin 16 => memGet 0 m.sram (line * 16 + i.val))

/-- Words written to a tile. -/
def Memory.writeTile (m : Memory) (addr : Nat) (ws : List Word) : Memory := { m with sram := memSetList 0 addr ws m.sram }

/-- A full line written to its tile; an error mark goes (R806). -/
def Memory.writeLine (m : Memory) (line : Nat) (d : LineData) : Memory :=
  let m1 := m.writeTile (line * 16) d.toList
  m1.setHome line { m1.homeOf line with err := false }

def Memory.send (m : Memory) (line : Nat) (c : CacheId) (x : CohMsg) : Memory :=
  { m with msgs := m.msgs ++ [{ line := line, cache := c, msg := x }] }

/-- One message to each of several caches. -/
def Memory.sendAll (m : Memory) (line : Nat) (cs : List CacheId) (x : CohMsg) : Memory :=
  cs.foldl (fun m c => m.send line c x) m

/-- The caches of a sharer set. -/
def members (set : Vector Bool 5) : List CacheId :=
  (([0, 1, 2, 3, 4] : List (Fin 5)).filter (fun i => set.get i)).map CacheId.ofSlot

/-- A transaction that has sent its grant and waits for Done. -/
def Txn.granted (q : HomeReq) (d : DirState) : Txn :=
  { req := q, snoop := none, acks := Vector.replicate 5 false, put := none, crossed := false, final := some d }

/-- A transaction that waits for a snooped owner. -/
def Txn.snooping (q : HomeReq) (o : CacheId) (k : SnoopKind) : Txn :=
  { req := q, snoop := some (o, k), acks := Vector.replicate 5 false, put := none, crossed := false, final := none }

/-- The caches that could hold a line: of tile 0 the Steward's alone (R769). -/
def holdersOf (line : Nat) : List CacheId :=
  if line / 4096 % 16 = 0 then [.steward] else [.core 0, .core 1, .core 2, .core 3, .steward]

/-- A rebuild that waits for the answer of each of some caches (R807). -/
def Txn.rebuilding (cs : List CacheId) : Txn :=
  { req := .rebuild, snoop := none, acks := Vector.ofFn (fun i : Fin 5 => cs.contains (CacheId.ofSlot i)), put := none, crossed := false,
    final := none }

/-- A transaction that waits for the InvAck of each member of a set. -/
def Txn.invalidating (q : HomeReq) (set : Vector Bool 5) : Txn :=
  { req := q, snoop := none, acks := set, put := none, crossed := false, final := none }

def Memory.setBusy (m : Memory) (line : Nat) (t : Option Txn) : Memory := m.setHome line { m.homeOf line with busy := t }
def Memory.setDir (m : Memory) (line : Nat) (d : DirState) : Memory := m.setHome line { m.homeOf line with dir := d }

/-- Words delivered to an agent (Table Flight-10, R806). -/
def Memory.deliver (m : Memory) (line offset len : Nat) : Memory :=
  { m with agentData := memGetList 0 m.sram (line * 16 + offset) len, agentErr := (m.homeOf line).err }

/-- An agent's words written to the tile and acknowledged (Table Flight-10, R782). -/
def Memory.agentPut (m : Memory) (line offset : Nat) (ws : List Word) : Memory :=
  let m1 := m.writeTile (line * 16 + offset) ws
  let m2 := if ws.length = 16 then m1.setHome line { m1.homeOf line with err := false } else m1
  { m2 with agentAcks := m2.agentAcks + 1 }

/-- GetM, or Upg from a sharer, of a line shared by a set (Table Flight-8). -/
def Memory.invalidate (m : Memory) (line : Nat) (q : HomeReq) (r : CacheId) (set : Vector Bool 5) (grant : CohMsg) : Memory :=
  let others := set.set r.slot false
  if (members others).isEmpty then (m.send line r grant).setBusy line (some (.granted q (.x r)))
  else (m.sendAll line (members others) (.snoop .inv)).setBusy line (some (.invalidating q others))

/-- GetM at a home that is not busy. -/
def Memory.serveGetM (m : Memory) (line : Nat) (r : CacheId) : Memory :=
  let h := m.homeOf line
  let grant := CohMsg.dataM (m.tileLine line) h.err
  match h.dir with
  | .u => (m.send line r grant).setBusy line (some (.granted (.getM r) (.x r)))
  | .s set => m.invalidate line (.getM r) r set grant
  | .x o => (m.send line o (.snoop .snpI)).setBusy line (some (.snooping (.getM r) o .snpI))

/-- A home that is not busy serves a request (Tables Flight-8 and Flight-10). Answers whether a notice came from a cache
that is not the owner. -/
def Memory.serve (m : Memory) (line : Nat) (q : HomeReq) : Memory × Bool :=
  let h := m.homeOf line
  match q with
  | .getS r =>
    (match h.dir with
     | .u => (m.send line r (.dataE (m.tileLine line) h.err)).setBusy line (some (.granted q (.x r)))
     | .s set => (m.send line r (.dataS (m.tileLine line) h.err)).setBusy line (some (.granted q (.s (set.set r.slot true))))
     | .x o => (m.send line o (.snoop .snpS)).setBusy line (some (.snooping q o .snpS)), false)
  | .getM r => (m.serveGetM line r, false)
  | .upg r =>
    (match h.dir with
     | .s set => if set.get r.slot then m.invalidate line q r set .upgAck else m.serveGetM line r
     | .u | .x _ => m.serveGetM line r, false)
  | .put r d =>
    (match h.dir with
     | .x o =>
       if o = r then
         let m1 := match d with | none => m | some l => m.writeLine line l
         ((m1.setDir line .u).send line r .putAck, false)
       else (m.send line r .putAck, true)
     | .u | .s _ => (m.send line r .putAck, true))
  | .agentRead _ o n =>
    (match h.dir with
     | .u | .s _ => m.deliver line o n
     | .x w => (m.send line w (.snoop .snpRd)).setBusy line (some (.snooping q w .snpRd)), false)
  | .agentWrite _ o ws =>
    (match h.dir with
     | .u => m.agentPut line o ws
     | .s set =>
       if (members set).isEmpty then (m.agentPut line o ws).setDir line .u
       else (m.sendAll line (members set) (.snoop .inv)).setBusy line (some (.invalidating q set))
     | .x w => (m.send line w (.snoop .snpI)).setBusy line (some (.snooping q w .snpI)), false)
  | .rebuild => ((m.sendAll line (holdersOf line) (.snoop .snpI)).setBusy line (some (.rebuilding (holdersOf line))), false)

/-- Queued requests are served in order until one makes the line busy (R771). Answers how many notices came from a cache
that is not the owner. -/
def Memory.serveQueue (line : Nat) : List HomeReq → Memory → Memory × Nat
  | [], m => (m.setHome line { m.homeOf line with queue := [] }, 0)
  | q :: qs, m =>
    let (m1, bad) := m.serve line q
    if (m1.homeOf line).busy.isSome then (m1.setHome line { m1.homeOf line with queue := qs }, bad.toNat)
    else let (m2, n) := Memory.serveQueue line qs m1; (m2, n + bad.toNat)

/-- The line's transaction has ended in a directory state; the next queued request is served. -/
def Memory.endTxn (m : Memory) (line : Nat) (d : DirState) : Memory × Nat :=
  let h := m.homeOf line
  Memory.serveQueue line h.queue (m.setHome line { h with dir := d, busy := none })

/-- A request reaches its home: served, or queued while the line is busy (R771). -/
def Memory.request (m : Memory) (line : Nat) (q : HomeReq) : Memory × Nat :=
  let h := m.homeOf line
  if h.busy.isSome then (m.setHome line { h with queue := h.queue ++ [q] }, 0)
  else Memory.serveQueue line [q] m

/-- The snooped owner has answered and the tile holds the newest line: the requester is answered. `kept`: the owner keeps
a copy (Tables Flight-8 and Flight-10); otherwise it is leaving (R777, R778). -/
def Memory.answer (m : Memory) (line : Nat) (t : Txn) (o : CacheId) (kept : Bool) : Memory × Nat :=
  let err := (m.homeOf line).err
  let d := m.tileLine line
  match t.req with
  | .getS r =>
    if kept then
      ((m.send line r (.dataS d err)).setBusy line
        (some (.granted t.req (.s (((Vector.replicate 5 false).set o.slot true).set r.slot true)))), 0)
    else ((m.send line r (.dataE d err)).setBusy line (some (.granted t.req (.x r))), 0)
  | .getM r | .upg r => ((m.send line r (.dataM d err)).setBusy line (some (.granted t.req (.x r))), 0)
  | .agentRead _ off len => (m.deliver line off len).endTxn line (if kept then .x o else .u)
  | .agentWrite _ off ws => (m.agentPut line off ws).endTxn line .u
  | .put _ _ | .rebuild => (m, 0)

/-- The dirty line of a notice of a cache that waits in the home's queue (R780). -/
def HomeLine.putOf (h : HomeLine) (c : CacheId) : Option LineData :=
  h.queue.findSome? (fun q => match q with | .put r d => if r = c then d else none | _ => none)

/-- A rebuild goes on (R807): once every cache has answered, and the PutM of one that answered InFlight has come (R777), the entry is U,
what waits is served, and that PutM is acknowledged last. -/
def Memory.settleRebuild (m : Memory) (line : Nat) (t : Txn) : Memory × Nat :=
  if !(members t.acks).isEmpty then (m.setBusy line (some t), 0)
  else
    match t.snoop with
    | none => m.endTxn line .u
    | some (c, _) =>
      match t.put with
      | some (some d) =>
        let (m1, n) := (m.writeLine line d).endTxn line .u
        (m1.send line c .putAck, n)
      | some none | none =>
        let h := m.homeOf line
        (match h.putOf c with
         | none => (m.setBusy line (some t), 0)
         | some d =>
           let m0 := m.setHome line { h with queue := h.queue.filter (fun q => match q with | .put r _ => decide (r ≠ c) | _ => true) }
           let (m1, n) := (m0.writeLine line d).endTxn line .u
           (m1.send line c .putAck, n))

/-- A cache's answer to the SnpI of a rebuild (R777, R807). -/
def Memory.rebuildAnswer (m : Memory) (line : Nat) (t : Txn) (c : CacheId) (x : CohMsg) : Memory × Nat :=
  if !t.acks.get c.slot then (m, 0)
  else
    let t1 := { t with acks := t.acks.set c.slot false }
    match x with
    | .snpData d => (m.writeLine line d).settleRebuild line t1
    | .inFlight => m.settleRebuild line { t1 with crossed := true, snoop := some (c, .snpI) }
    | .snpClean | .snpNone | .invAck => m.settleRebuild line t1
    | _ => (m, 0)

/-- Both halves of a crossing have come (R777, R778): the notice's line is the data, and PutAck comes last. -/
def Memory.settleCrossing (m : Memory) (line : Nat) (t : Txn) (o : CacheId) : Memory × Nat :=
  match t.put with
  | none => (m, 0)
  | some d =>
    if !t.crossed then (m, 0)
    else
      let m1 := match d with | none => m | some l => m.writeLine line l
      let (m2, n) := m1.answer line t o false
      (m2.send line o .putAck, n)

/-- An eviction notice reaches its home (Table Flight-8, R777 to R780). -/
def Memory.notice (m : Memory) (line : Nat) (r : CacheId) (d : Option LineData) : Memory × Nat :=
  match (m.homeOf line).busy with
  | none => m.request line (.put r d)
  | some t =>
    if t.req = .rebuild then
      (if d.isSome && t.put.isNone then m.settleRebuild line { t with put := some d, snoop := some (r, .snpI) }
       else m.request line (.put r d))
    else
    match t.snoop with
    | none => m.request line (.put r d)
    | some (o, _) =>
      if o = r && t.final.isNone then
        let t1 := { t with put := some d }
        (m.setBusy line (some t1)).settleCrossing line t1 o
      else m.request line (.put r d)

/-- A response reaches the home (Table Flight-8). -/
def Memory.response (m : Memory) (line : Nat) (c : CacheId) (x : CohMsg) : Memory × Nat :=
  match (m.homeOf line).busy with
  | none => (m, 0)
  | some t =>
    let fromOwner : Bool := match t.snoop with | none => false | some (o, _) => o = c && t.final.isNone
    if t.req = .rebuild then m.rebuildAnswer line t c x
    else
    match x with
    | .invAck =>
      if !t.acks.get c.slot then (m, 0)
      else
        let t1 := { t with acks := t.acks.set c.slot false }
        if !(members t1.acks).isEmpty then (m.setBusy line (some t1), 0)
        else
          (match t.req with
           | .getM r => ((m.send line r (.dataM (m.tileLine line) (m.homeOf line).err)).setBusy line
               (some (.granted t.req (.x r))), 0)
           | .upg r => ((m.send line r .upgAck).setBusy line (some (.granted t.req (.x r))), 0)
           | .agentWrite _ off ws => (m.agentPut line off ws).endTxn line .u
           | .getS _ | .put _ _ | .agentRead _ _ _ | .rebuild => (m.setBusy line (some t1), 0))
    | .snpData d =>
      if fromOwner then
        (match t.req with
         | .getS _ | .agentRead _ _ _ => (m.writeLine line d).answer line t c true
         | .getM _ | .upg _ | .agentWrite _ _ _ | .put _ _ | .rebuild => (m.writeLine line d).answer line t c false)
      else (m, 0)
    | .snpClean =>
      if fromOwner then
        (match t.req with
         | .getS _ | .agentRead _ _ _ => m.answer line t c true
         | .getM _ | .upg _ | .agentWrite _ _ _ | .put _ _ | .rebuild => m.answer line t c false)
      else (m, 0)
    | .inFlight | .snpNone =>
      if fromOwner then
        let t1 := { t with crossed := true }
        (m.setBusy line (some t1)).settleCrossing line t1 c
      else (m, 0)
    | _ => (m, 0)

/-- Done reaches the home (Table Flight-8). -/
def Memory.doneAt (m : Memory) (line : Nat) : Memory × Nat :=
  match (m.homeOf line).busy with
  | none => (m, 0)
  | some t =>
    match t.final with
    | none => (m, 0)
    | some d => m.endTxn line d

/-- The lines that a cache holds. -/
def Memory.cache (m : Memory) (c : CacheId) : List (Nat × CacheLine) := m.dcache.get c.slot
def Memory.lineIn (m : Memory) (c : CacheId) (line : Nat) : Option CacheLine :=
  ((m.cache c).find? (fun p => p.1 = line)).map (·.2)
def Memory.putLine (m : Memory) (c : CacheId) (line : Nat) (l : CacheLine) : Memory :=
  { m with dcache := m.dcache.set c.slot (setKey line l (m.cache c)) }
def Memory.dropLine (m : Memory) (c : CacheId) (line : Nat) : Memory :=
  { m with dcache := m.dcache.set c.slot (dropKey line (m.cache c)) }

/-- Sets of a cache (Table Flight-5). -/
def CacheId.sets : CacheId → Nat
  | .core _ => 64
  | .steward => 32

/-- A stable copy: it can be replaced. -/
def LineState.stable : LineState → Bool
  | .s | .e | .m => true
  | .isD | .imD | .smA | .miA | .eiA => false

/-- A cache replaces a line (Table Flight-7). -/
def Memory.evict (m : Memory) (c : CacheId) (line : Nat) : Memory :=
  match m.lineIn c line with
  | none => m
  | some l =>
    match l.state with
    | .s => m.dropLine c line
    | .e => (m.putLine c line { l with state := .eiA }).send line c .putE
    | .m => (m.putLine c line { l with state := .miA }).send line c (.putM l.data)
    | .isD | .imD | .smA | .miA | .eiA => m

/-- Room in the line's set for one more line: with all four ways taken, one stable line is replaced; the spec gives
pseudo-LRU without its state, so which is `pick`. DESIGN CHOICE (log 19). -/
def Memory.room (m : Memory) (c : CacheId) (line pick : Nat) : Memory :=
  let inSet := (m.cache c).filter (fun p => p.1 % c.sets = line % c.sets && p.2.state != .miA && p.2.state != .eiA)
  if inSet.length < 4 then m
  else
    let victims := inSet.filter (fun p => p.2.state.stable)
    match victims[pick % victims.length]? with
    | none => m
    | some p => m.evict c p.1

def emptyLine : LineData := Vector.replicate 16 0

/-- Words written into a line from an offset. -/
def writeInto (d : LineData) (off : Nat) : List Word → LineData
  | [] => d
  | w :: ws => writeInto (if h : off < 16 then d.set off w else d) (off + 1) ws

/-- The words of a line from an offset. -/
def readFrom (d : LineData) (off n : Nat) : List Word := (d.toList.drop off).take n

/-- The address of an access. -/
def WaitAccess.addr : WaitAccess → Nat
  | .load _ a _ => a
  | .store a _ => a

/-- An access is tried at its cache: served, or it waits (Table Flight-7). -/
def Memory.access (m : Memory) (c : CacheId) (pick : Nat) (w : WaitAccess) : Memory :=
  let line := w.addr / 16
  match m.lineIn c line with
  | none =>
    let m1 := m.room c line pick
    (match w with
     | .load _ _ _ => (m1.putLine c line { state := .isD, data := emptyLine, err := false, waits := [w] }).send line c .getS
     | .store _ _ => (m1.putLine c line { state := .imD, data := emptyLine, err := false, waits := [w] }).send line c .getM)
  | some l =>
    match l.state, w with
    | .s, .load t a n | .e, .load t a n | .m, .load t a n =>
      { m with loaded := m.loaded ++ [{ cache := c, tag := t, addr := a, words := readFrom l.data (a % 16) n, err := l.err }] }
    | .s, .store _ _ => (m.putLine c line { l with state := .smA, waits := [w] }).send line c .upg
    | .e, .store a ws | .m, .store a ws => m.putLine c line { l with state := .m, data := writeInto l.data (a % 16) ws }
    | _, _ => m.putLine c line { l with waits := l.waits ++ [w] }

/-- Waiting accesses are tried again in order. -/
def Memory.accesses (c : CacheId) (pick : Nat) : List WaitAccess → Memory → Memory
  | [], m => m
  | w :: ws, m => Memory.accesses c pick ws (m.access c pick w)

/-- A snoop reaches a cache (Table Flight-7). A shared copy meets SnpI only in a rebuild, which makes every cache give up the line (R807);
an upgrade in progress is then served as a GetM, as after Inv (R803). DEDUCED (log 138). -/
def Memory.snoopAt (m : Memory) (c : CacheId) (line : Nat) (k : SnoopKind) : Memory :=
  match m.lineIn c line with
  | none => m.send line c (if k = .inv then .invAck else .snpNone)
  | some l =>
    match k, l.state with
    | .inv, .s => (m.dropLine c line).send line c .invAck
    | .inv, .smA => (m.putLine c line { l with state := .imD }).send line c .invAck
    | .inv, _ => m.send line c .invAck
    | .snpS, .e => (m.putLine c line { l with state := .s }).send line c .snpClean
    | .snpRd, .e => m.send line c .snpClean
    | .snpI, .e | .snpI, .s => (m.dropLine c line).send line c .snpClean
    | .snpI, .smA => (m.putLine c line { l with state := .imD }).send line c .snpClean
    | .snpS, .m => (m.putLine c line { l with state := .s }).send line c (.snpData l.data)
    | .snpRd, .m => (m.putLine c line { l with state := .e }).send line c (.snpData l.data)
    | .snpI, .m => (m.dropLine c line).send line c (.snpData l.data)
    | _, .miA => m.send line c .inFlight
    | _, _ => m.send line c .snpNone

/-- A granted line is taken, Done is sent, and the waiting accesses are served (Table Flight-7). -/
def Memory.take (m : Memory) (c : CacheId) (line pick : Nat) (st : LineState) (d : LineData) (err : Bool) : Memory :=
  let waits := match m.lineIn c line with | none => [] | some l => l.waits
  Memory.accesses c pick waits ((m.putLine c line { state := st, data := d, err := err, waits := [] }).send line c .done)

/-- A grant reaches a cache (Table Flight-7). -/
def Memory.grantAt (m : Memory) (c : CacheId) (line pick : Nat) (x : CohMsg) : Memory :=
  match m.lineIn c line with
  | none => m
  | some l =>
    match l.state, x with
    | .isD, .dataS d e => m.take c line pick .s d e
    | .isD, .dataE d e => m.take c line pick .e d e
    | .imD, .dataM d e => m.take c line pick .m d e
    | .smA, .upgAck => m.take c line pick .m l.data l.err
    | _, _ => m

/-- PutAck reaches a cache (Table Flight-7): the line is gone, and accesses that waited proceed as from I. -/
def Memory.putAckAt (m : Memory) (c : CacheId) (line pick : Nat) : Memory :=
  match m.lineIn c line with
  | none => m
  | some l =>
    match l.state with
    | .miA | .eiA => Memory.accesses c pick l.waits (m.dropLine c line)
    | .s | .e | .m | .isD | .imD | .smA => m

/-- The class of a message by the row that delivers it. -/
inductive MsgClass where
  | request | notice | snoop | response | grant | done | putAck
  deriving DecidableEq, Repr

def CohMsg.cls : CohMsg → MsgClass
  | .getS | .getM | .upg => .request
  | .putM _ | .putE => .notice
  | .done => .done
  | .dataS _ _ | .dataE _ _ | .dataM _ _ | .upgAck => .grant
  | .putAck => .putAck
  | .snoop _ => .snoop
  | .invAck | .snpData _ | .snpClean | .inFlight | .snpNone => .response

/-- The oldest message of a class between a cache and a line's home, and the others. -/
def Memory.pop (m : Memory) (c : CacheId) (line : Nat) (k : MsgClass) : Option (CohMsg × Memory) :=
  match m.msgs.find? (fun f => f.line = line && f.cache = c && f.msg.cls = k) with
  | none => none
  | some f => some (f.msg, { m with msgs := m.msgs.erase f })

/-- A message reaches its end. -/
def Memory.receive (m : Memory) (c : CacheId) (line pick : Nat) (x : CohMsg) : Memory × Nat :=
  match x with
  | .getS => m.request line (.getS c)
  | .getM => m.request line (.getM c)
  | .upg => m.request line (.upg c)
  | .putM d => m.notice line c (some d)
  | .putE => m.notice line c none
  | .done => m.doneAt line
  | .snoop k => (m.snoopAt c line k, 0)
  | .putAck => (m.putAckAt c line pick, 0)
  | .invAck | .snpData _ | .snpClean | .inFlight | .snpNone => m.response line c x
  | .dataS _ _ | .dataE _ _ | .dataM _ _ | .upgAck => (m.grantAt c line pick x, 0)

/-- Messages about one line are delivered, oldest first, until none is left or the fuel is spent. -/
def Memory.drain (line pick : Nat) : Nat → Memory → Memory
  | 0, m => m
  | n + 1, m =>
    match m.msgs.find? (fun f => f.line = line) with
    | none => m
    | some f => Memory.drain line pick n ({ m with msgs := m.msgs.erase f }.receive f.cache line pick f.msg).1

/-- The newest content of a line: the owner's dirty copy, else what a message on its way or the home's own queue carries
of it, else the tile's (R786). -/
def Memory.newest (m : Memory) (line : Nat) : LineData :=
  let h := m.homeOf line
  let dirty := (([0, 1, 2, 3, 4] : List (Fin 5)).map CacheId.ofSlot).findSome? (fun c =>
    match m.lineIn c line with
    | none => none
    | some l => if l.state = .m then some l.data else none)
  let sent := m.msgs.findSome? (fun f =>
    if f.line = line then (match f.msg with | .putM d => some d | .snpData d => some d | _ => none) else none)
  let queued := h.queue.findSome? (fun q => match q with | .put _ (some d) => some d | _ => none)
  let held := h.busy.bind (fun t => t.put.bind id)
  match dirty, sent, held, queued with
  | some d, _, _, _ => d
  | none, some d, _, _ => d
  | none, none, some d, _ => d
  | none, none, none, some d => d
  | none, none, none, none => m.tileLine line

/-- A free choice: the next free value, drawn. DESIGN CHOICE (log 6). DESIGN CHOICE (log 19). -/
def State.draw (s : State) : Nat × State := (Config.freeValue s.free, { s with free := s.free + 1 })

/-- One diagnostics event for each notice from a cache that is not the owner (Table Flight-8). -/
def State.strayPuts (line : Nat) : Nat → State → State
  | 0, s => s
  | n + 1, s => State.strayPuts line n (s.raise 0xC001 ([0] ++ leOctets 1 (line / 4096 % 16)))

/-- A home begins to rebuild a line's entry, or will once the line is idle, with one diagnostics event (R807). -/
def State.rebuildLine (s : State) (line : Nat) : State :=
  let (m, bad) := s.mem.request line .rebuild
  (State.strayPuts line bad { s with mem := m }).raise 0xC001 ([1] ++ leOctets 1 (line / 4096 % 16))

/-- A directory entry names a cache. -/
def DirState.names (d : DirState) (c : CacheId) : Bool :=
  match d with
  | .u => false
  | .s set => set.get c.slot
  | .x o => o = c

/-- Every entry that names a cache is rebuilt, to its end (R810). -/
def State.rebuildCache (s : State) (c : CacheId) (pick : Nat) : State :=
  ((s.mem.home.filter (fun p => p.2.dir.names c)).map (·.1)).foldl (fun (s : State) (line : Nat) =>
    let s1 := s.rebuildLine line
    { s1 with mem := Memory.drain line pick 64 s1.mem }) s

/-- The oldest message of a class between a cache and a home reaches its end. -/
def State.deliverMsg (s : State) (c : CacheId) (line : Nat) (k : MsgClass) : State :=
  match s.mem.pop c line k with
  | none => s
  | some (x, m) =>
    let (pick, s1) := s.draw
    let (m1, bad) := m.receive c line pick x
    State.strayPuts line bad { s1 with mem := m1 }

/-- The words of [addr, addr + n) as the Steward or the DMA engine reads them, whole (R786, R790). DEDUCED (log 20). -/
def State.cohRead (s : State) (addr n : Nat) : List Word :=
  (List.range n).map (fun i => (s.mem.newest ((addr + i) / 16)).toList.getD ((addr + i) % 16) 0)

/-- Words of one line written whole for the Steward or the DMA engine: the line's transactions in progress end first, then
every copy is given up and the words stand in the tile (Table Flight-10). -/
def Memory.cohWriteLine (m : Memory) (pick : Nat) (addr : Nat) (ws : List Word) : Memory :=
  let line := addr / 16
  let m1 := Memory.drain line pick 64 m
  let d := writeInto (m1.newest line) (addr % 16) ws
  let m2 := ([0, 1, 2, 3, 4] : List (Fin 5)).foldl (fun m i =>
    let c := CacheId.ofSlot i
    match m.lineIn c line with
    | none => m
    | some l => if l.state.stable then m.dropLine c line else m) m1
  (m2.writeLine line d).setDir line .u

/-- Consecutive words grouped by line. -/
def Memory.cohWrite (pick : Nat) : Nat → Nat → List Word → Memory → Memory
  | 0, _, _, m => m
  | fuel + 1, addr, ws, m =>
    if ws.isEmpty then m
    else
      let n := 16 - addr % 16
      Memory.cohWrite pick fuel (addr + n) (ws.drop n) (m.cohWriteLine pick addr (ws.take n))

/-- Words written whole for the Steward or the DMA engine. DEDUCED (log 20). -/
def State.cohWrite (s : State) (addr : Nat) (ws : List Word) : State :=
  let (pick, s1) := s.draw
  { s1 with mem := Memory.cohWrite pick (ws.length + 1) addr ws s1.mem }

end Sys2Proof.Machine
end

