-- ==== Sys2Proof/Machine/ConcordOps.lean ====
section
/-! DEFINITION. Concord (spec/08_concord.md): messages sent, admission and the end of a membership, sessions, the merge of
the fleet parameters, time offers, energy reports, and the bus. -/
namespace Sys2Proof.Machine

/-- One secured message to every admitted member. -/
def State.sendMembers (s : State) (type : Nat) (body : Member → List Octet) : State :=
  s.con.members.foldl (fun (s : State) (m : Member) => s.sendSecured type m.node (body m)) s

/-- One secured message to each peer: the members, or the vehicle. -/
def State.sendPeers (s : State) (type : Nat) (body : List Octet) : State :=
  if s.boot.role = .vehicle then s.sendMembers type (fun _ => body)
  else if s.con.phase = .member then s.sendSecured type 0 body else s

/-! Bodies -/

def identityOctets : List Octet := leOctets 5 Config.identity.toNat

/-- ANNOUNCE (Table Concord-7). -/
def State.announceBody (s : State) : List Octet :=
  [BitVec.ofNat 8 s.boot.role.code, 3, BitVec.ofNat 8 s.boot.tier.toNat] ++ identityOctets ++
    leOctets 8 (Config.freeValue s.con.startNonce)

/-- ROSTER (R434). -/
def State.rosterBody (s : State) : List Octet :=
  leOctets 2 s.con.epoch ++ (s.con.members.map (fun m =>
    [BitVec.ofNat 8 m.node] ++ leOctets 5 m.identity ++ [BitVec.ofNat 8 m.role.code, BitVec.ofNat 8 m.level,
      BitVec.ofNat 8 m.limited.toNat])).foldl (· ++ ·) []

/-- ENERGY_REPORT (R445). -/
def reportBody (r : EnergyReport) : List Octet :=
  leOctets 3 r.number ++ packWords (decNat dsDigits r.discharge) ++ packWords (decNat dsDigits r.charge) ++
    leOctets 3 r.voltage ++ leOctets 3 (BitVec.ofInt 24 r.current).toNat ++
    [BitVec.ofInt 8 r.lowTemp, BitVec.ofInt 8 r.highTemp, BitVec.ofNat 8 r.soc,
      BitVec.ofNat 8 (boolsNat [r.resumedOld, r.afeFailed])]

/-- The eight parameters, 2 octets each. -/
def paramOctets (p : FleetParams) : List Octet :=
  (p.toList.map (fun x => leOctets 2 (BitVec.ofInt 16 x).toNat)).foldl (· ++ ·) []

/-- TIME_OFFER (R457). -/
def State.offerBody (s : State) : List Octet :=
  leOctets 5 s.clock.wall ++ leOctets 2 s.clock.wallFraction ++ [BitVec.ofNat 8 s.clock.cls, BitVec.ofNat 8 s.boot.role.code]

/-- Every peer is offered the time (R457, Table Concord-4). -/
def State.offerTime (s : State) : State :=
  if s.canLive then
    let s1 := s.sendPeers 0x0C s.offerBody
    s1.setCon { s1.con with offerQueued := !s1.con.sent.isEmpty }
  else s

/-- HEARTBEAT with an epoch (R441). -/
def State.heartbeatBody (s : State) (epoch : Nat) : List Octet :=
  leOctets 2 epoch ++ [BitVec.ofNat 8 s.boot.tier.toNat, 3,
    BitVec.ofNat 8 (boolsNat [decide (0 < s.hold.ready), s.con.presenceFor.isSome, s.con.limited])]

/-! The merge of fleet parameters -/

/-- Low and high end of each row of Table Concord-10, and whether the lower value is the more restrictive. -/
def paramRange (i : Fin 8) : Int × Int × Bool :=
  if i = 0 then (10, 800, true) else if i = 1 then (1, 300, true) else if i = 2 then (3600, 4350, true)
  else if i = 3 then (2500, 3400, false) else if i = 4 then (-20, 20, false) else if i = 5 then (30, 60, true)
  else if i = 6 then (40, 75, true) else (6, 45, true)

/-- The more restrictive of two values of a row. -/
def tighter (i : Fin 8) (a b : Int) : Int :=
  let (_, _, low) := paramRange i
  if low then min a b else max a b

def tightest (a b : FleetParams) : FleetParams := Vector.ofFn (fun i => tighter i (a.get i) (b.get i))

/-- An offered value lies in its row's range (R449). -/
def paramOk (i : Fin 8) (x : Int) : Bool :=
  let (lo, hi, _) := paramRange i
  decide (lo ≤ x) && decide (x ≤ hi)

/-- Values out of range count as the restrictive end (R449). -/
def clampParams (p : FleetParams) : FleetParams :=
  Vector.ofFn (fun i =>
    let (lo, hi, low) := paramRange i
    if paramOk i (p.get i) then p.get i else if low then lo else hi)

/-- The eight parameters of a body, from an offset. -/
def paramsAt (b : List Octet) (i : Nat) : FleetParams :=
  Vector.ofFn (fun k : Fin 8 => (BitVec.ofNat 16 (fieldNat b (i + 2 * k.val) 2)).toInt)

/-- The device's own fleet parameters. -/
def State.ownParams (s : State) : FleetParams := paramsOf (s.edition .fleet)

/-- The most restrictive values among the vehicle and its members (R448). -/
def State.mergeTarget (s : State) : FleetParams :=
  s.con.members.foldl (fun (p : FleetParams) (m : Member) => match m.params with | none => p | some q => tightest p q) s.ownParams

/-- The merge applied by R450; a change goes to every member and into the limits (R493). -/
def State.remerge (s : State) : State :=
  if s.boot.role = .vehicle then
    let target := s.mergeTarget
    let now := if s.led.cur.ride.isSome then tightest s.con.merged target else target
    let c := { s.con with merged := now, loosening := if now = target then none else some target }
    let s1 := s.setCon c
    if now = s.con.merged then s1
    else
      let s2 := if s1.canLive then s1.sendMembers 0x0E (fun _ => paramOctets now) else s1
      s2.writeLimits
  else if s.con.phase = .member then s
  else s.setCon { s.con with merged := s.ownParams }

/-! Membership -/

/-- The ensemble epoch rises (R434). -/
def nextEpoch (e : Nat) : Nat := if 0xFFFE ≤ e then 0 else e + 1

/-- A relay to a node whose session has ended is answered (R933). -/
def State.relayEnds (s : State) (p : Nat → Bool) : State :=
  match s.con.relay with
  | none => s
  | some r => if p r.node then (s.setCon { s.con with relay := none }).finish 0x0403 (refuse 0x30) else s

/-- Memberships end at the vehicle (R434, R459, R474, R476): segments end, one epoch, ROSTER to the rest, one event each.
`leave`: LEAVE is sent first. -/
def State.endMembers (s : State) (cause : Nat) (leave : Bool) (p : Member → Bool) : State :=
  let gone := s.con.members.filter p
  if gone.isEmpty then s
  else
    let s1 := if leave && s.canLive then gone.foldl (fun (s : State) (m : Member) => s.sendSecured 0x06 m.node []) s else s
    let dockGone := gone.any (fun m => m.role = .dock)
    let s2 := s1.setCon { s1.con with members := s1.con.members.filter (fun m => !p m), epoch := nextEpoch s1.con.epoch,
                                      dock := if dockGone then none else s1.con.dock }
    let s3 := s2.endSegments 2 s2.clock.seconds false (fun g => gone.any (fun m => m.role = .pack && m.identity = g.pack))
    let s4 := if s3.canLive then s3.sendMembers 0x09 (fun _ => s3.rosterBody) else s3
    let s5 := gone.foldl (fun (s : State) (m : Member) =>
      s.raise 0x5001 ([BitVec.ofNat 8 m.node] ++ leOctets 5 m.identity ++ [BitVec.ofNat 8 cause])) s4
    (((s5.relayEnds (fun n => gone.any (fun m => m.node = n))).remerge).writeLimits)

/-- A member's own session is dropped (Table Concord-6, R451, R461). DEDUCED (log 100). -/
def State.dropSession (s : State) (phase : MemberPhase) : State :=
  let c := s.con
  s.setCon { c with phase := phase, session := none, node := 6, bay := 0, limited := false, joining := none, proved := false, roster := [], partials := [], vehicleTier := 0, vehicleLevel := 0,
                    epochMisses := 0, presenceFor := none, merged := s.ownParams }

/-- The event of a session that ends at a member. DEDUCED (log 100). -/
def State.memberEnded (s : State) (cause : Nat) : State :=
  let id := match s.con.vehicle with | none => 0 | some (i, _) => i
  s.raise 0x5001 ([0] ++ leOctets 5 id ++ [BitVec.ofNat 8 cause])

/-- The guard G of Table Concord-6 (R428). -/
def State.joinGuard (s : State) : Bool :=
  (s.boot.role = .pack || s.boot.role = .dock) && s.boot.tier = .t3 && decide (0 < s.hold.ready) &&
    (s.lifecycle = .provisioned || s.lifecycle = .fielded) && s.pow.pm = .running && s.canLive

/-- 16 octets of a nonce drawn as free value n. -/
def nonceOctets (n : Nat) : List Octet := leOctets 16 (Config.freeValue n)

/-- Octets of a drawn public key, 64. -/
def ephemeral (n : Nat) : List Octet := (ecPublic n ++ List.replicate 64 0).take 64

/-- This device's certificate, 153 octets. -/
def State.certOctets (s : State) : List Octet := (s.cus.keys.cert.getD [] ++ List.replicate 153 0).take 153

/-- A signature by the identity key over the digest of a message, 64 octets. -/
def identitySigned (msg : List Octet) : List Octet := (Config.identitySign (sha256 msg) ++ List.replicate 64 0).take 64

/-- JOIN_REQ is sent, with a nonce and a key pair from the TRNG (R429). -/
def State.sendJoinReq (s : State) : State :=
  let (n, k) := (s.free, s.free + 1)
  let s1 := s.draw.2.draw.2
  let body := [BitVec.ofNat 8 s.boot.role.code, 3, 0, 0] ++ nonceOctets n ++ ephemeral k ++ s.certOctets
  let s2 := (s1.setCon { s1.con with phase := .joining, proved := false, session := none,
                                     joining := some { nonce := nonceOctets n, key := k, req := body } })
  s2.sendPlain 0x02 0 0 body

/-- An ANNOUNCE from a vehicle reaches a member (Table Concord-6, R481). DEDUCED (log 101). -/
def State.hearVehicle (s : State) (m : AnnounceMsg) : State :=
  let now := s.ticks
  let rest := s.con.heard.filter (fun h => h.1 ≠ m.identity && decide (now < h.2 + 98304))
  let two := !rest.isEmpty
  let s1 := s.setCon { s.con with heard := (m.identity, now) :: rest, twoVehicles := two }
  let s2 := match two && !s.con.twoVehicles, rest with
    | true, h :: _ => s1.raise 0x5007 (leOctets 5 h.1 ++ leOctets 5 m.identity)
    | _, _ => s1
  match s2.con.phase with
  | .idle =>
    if s2.joinGuard && !two then (s2.setCon { s2.con with vehicle := some (m.identity, m.nonce) }).sendJoinReq else s2
  | .member =>
    (match s2.con.vehicle with
     | some (i, n) =>
       if i = m.identity && n ≠ m.nonce && s2.joinGuard then
         ((s2.dropSession .joining).setCon
           { (s2.dropSession .joining).con with vehicle := some (m.identity, m.nonce) }).sendJoinReq
       else s2
     | none => s2)
  | .joining | .backoff => s2

/-- The body of an ANNOUNCE (Table Concord-7). -/
def announceOf (b : List Octet) : AnnounceMsg :=
  { role := Role.ofCode (octetAt b 0).toNat, level := (octetAt b 1).toNat, tier := (octetAt b 2).toNat, identity := fieldNat b 3 5 % 2 ^ 36,
    nonce := fieldNat b 8 8 }

/-- Any ANNOUNCE. -/
def State.announced (s : State) (m : AnnounceMsg) : State :=
  if m.role = .vehicle && s.boot.role ≠ .vehicle then s.hearVehicle m else s

/-! Certificates (R425 to R427) -/

def certIdentity (cert : List Octet) : Nat := fieldNat cert 4 5
def certKey (cert : List Octet) : List Octet := (cert.drop 25).take 64

/-- A certificate's fields are valid, its fleet is that of the effective fleet edition where this names one, its key is a point, and its
signature verifies under a fleet root key (Table Concord-5, R426). -/
def State.certVerifies (s : State) (root cert : List Octet) : Bool :=
  let named := wNum (s.edition .fleet) 0 3
  octetAt cert 0 = 3 && decide ((octetAt cert 1).toNat ≤ 2) && decide (fieldNat cert 2 2 = 0) && decide ((octetAt cert 8).toNat < 16) &&
    decide (fieldNat cert 13 2 = 0) && (named = 0 || decide (named = fieldNat cert 9 4)) && ecPoint (certKey cert) &&
    ecdsaVerify root (sha256 (cert.take 89)) ((cert.drop 89).take 64)

/-- A peer's certificate is accepted but for its dates (R426). -/
def State.certAccepted (s : State) (cert : List Octet) : Bool :=
  decide (fieldNat cert 9 4 = fieldNat s.certOctets 9 4) &&
    (match s.cus.keys.fleetRoot with
     | none => false
     | some root => s.certVerifies root cert)

/-- The dates of a certificate, where the class lets them be checked (R427). -/
def State.datesHold (s : State) (cert : List Octet) : Bool :=
  let wall := s.clock.wall
  decide (s.clock.cls < 2) || (decide (fieldNat cert 15 5 ≤ wall) && decide (wall ≤ fieldNat cert 20 5))

/-- Octets 0 to 31 of K (R430); none where the peer's ephemeral key is no point. -/
def sessionKeys (key : Nat) (peer vNonce mNonce : List Octet) (vehicle member : Nat) : Option (List Octet) :=
  (ecShared key peer).map (fun z => hmac z ([0x43, 0x43, 0x44, 0x33] ++ vNonce ++ mNonce ++ leOctets 5 vehicle ++ leOctets 5 member))

/-- The parts of a JOIN_REQ body (Table Concord-7). -/
def JoinRequest.nonce (j : JoinRequest) : List Octet := (j.body.drop 4).take 16
def JoinRequest.ephemeral (j : JoinRequest) : List Octet := (j.body.drop 20).take 64
def JoinRequest.cert (j : JoinRequest) : List Octet := (j.body.drop 84).take 153

/-- A JOIN_REQ body as a request; the identity is that of its certificate. -/
def joinRequestOf (b : List Octet) : JoinRequest :=
  { identity := fieldNat b 88 5 % 2 ^ 36, role := Role.ofCode (octetAt b 0).toNat, level := (octetAt b 1).toNat, body := b }

/-- Why a join is refused, before its proof (Table Concord-8). DEDUCED (log 99). -/
def State.joinRefusal (s : State) (j : JoinRequest) : Option Nat :=
  let t1ok := decide (2 ≤ s.boot.tier.toNat) ||
    (s.boot.units.get UnitId.canA = .passed && s.boot.units.get UnitId.crypto = .passed)
  let ready := s.pow.pm = .running && (s.lifecycle = .provisioned || s.lifecycle = .fielded) &&
    (match j.role with
     | .pack => decide (2 ≤ s.boot.tier.toNat)
     | .dock => decide (1 ≤ s.boot.tier.toNat) && t1ok
     | .vehicle | .bringUp => false)
  let packs := (s.con.members.filter (fun m => m.role = .pack)).length
  if !ready then some 1
  else if !(s.certAccepted j.cert && decide ((octetAt j.cert 1).toNat = j.role.code)) then some 2
  else if !s.datesHold j.cert then some 3
  else if j.level < 2 then some 4
  else if s.con.members.any (fun m => m.identity = j.identity) then some 5
  else if (j.role = .dock && s.con.members.any (fun m => m.role = .dock)) || (j.role = .pack && decide (min 2 (s.veh 42) ≤ packs))
  then some 6
  else none

/-- A refusal is sent and logged (R432). -/
def State.refuseJoin (s : State) (j : JoinRequest) (reason : Nat) : State :=
  (s.sendPlain 0x05 6 j.identity ([BitVec.ofNat 8 reason] ++ leOctets 5 j.identity)).raise 0x5002
    ([BitVec.ofNat 8 reason] ++ leOctets 5 j.identity)

/-- A join is served: refused, or challenged (R427, R429, R431, R432). -/
def State.serveJoin (s : State) (j : JoinRequest) : State :=
  match s.joinRefusal j with
  | some r => s.refuseJoin j r
  | none =>
    let s1 := if s.clock.cls < 2 then s.raise 0x5003 (leOctets 5 j.identity) else s
    let (n, k) := (s1.free, s1.free + 1)
    let s2 := s1.draw.2.draw.2
    let pre := nonceOctets n ++ ephemeral k ++ s.certOctets
    let chal := pre ++ identitySigned (j.body ++ pre)
    let s3 := s2.sendPlain 0x03 6 j.identity chal
    s3.setCon { s3.con with serving := some { request := j, nonce := nonceOctets n, key := k, chal := chal } }

/-- Queued joins are served until one waits for its proof (R431). -/
def State.serveNext : Nat → State → State
  | 0, s => s
  | n + 1, s =>
    match s.con.serving, s.con.joinQueue with
    | none, j :: rest => State.serveNext n ((s.setCon { s.con with joinQueue := rest }).serveJoin j)
    | _, _ => s

/-- A JOIN_REQ reaches the vehicle (R431). -/
def State.joinReq (s : State) (j : JoinRequest) : State :=
  if s.boot.role ≠ .vehicle then s
  else if s.con.serving.isNone then s.serveJoin j
  else if s.con.joinQueue.length < 3 then s.setCon { s.con with joinQueue := s.con.joinQueue ++ [j] }
  else s

/-- The bay and the node of a new member (R433). -/
def State.placeFor (s : State) (r : Role) : Nat × Nat :=
  if r = .dock then (0xFF, 3)
  else if s.con.members.any (fun m => m.node = 1) then (1, 2) else (0, 1)

/-- A member is admitted, its session under the keys of R430 (R431, R433, R434, R459). -/
def State.takeIn (s1 : State) (j : JoinRequest) (keys : List Octet) : State :=
  let (bay, node) := s1.placeFor j.role
  let limited := decide (j.level < wN (s1.edition .fleet) 3)
  let m : Member :=
    { node := node, identity := j.identity, role := j.role, level := j.level, limited := limited,
      session := Session.fresh keys s1.ticks, report := none, tier := 3, holdUpReady := false, presence := false,
      fleetEdition := none, params := none }
  let s2 := s1.setCon { s1.con with members := s1.con.members ++ [m], serving := none, epoch := nextEpoch s1.con.epoch }
  let s3 := s2.sendSecuredTo 0x05 node 6 j.identity ([0, BitVec.ofNat 8 node, BitVec.ofNat 8 bay, BitVec.ofNat 8 limited.toNat] ++
    leOctets 2 s2.con.epoch)
  let s4 := (s3.sendMembers 0x09 (fun _ => s3.rosterBody)).raise 0x5000
    ([BitVec.ofNat 8 node] ++ leOctets 5 j.identity ++ [BitVec.ofNat 8 limited.toNat])
  let s5 := if j.role = .pack then s4.openSegment bay j.identity else s4
  let s6 := if j.role = .pack && limited then s5.flagRide (fun f => { f with speedwell := true }) else s5
  s6.offerTime.writeLimits

/-- JOIN_PROOF reaches the vehicle (R430, R432). DEDUCED (log 99). -/
def State.joinProof (s : State) (proof : List Octet) : State :=
  match s.con.serving with
  | none => s
  | some v =>
    let j := v.request
    let s1 := s.setCon { s.con with serving := none }
    let s2 := match s1.joinRefusal j with
      | some r => s1.refuseJoin j r
      | none =>
        let signed := ecdsaVerify (certKey j.cert) (sha256 (j.body ++ v.chal)) proof
        match signed, sessionKeys v.key j.ephemeral v.nonce j.nonce Config.identity.toNat j.identity with
        | true, some keys => s1.takeIn j keys
        | _, _ => s1.refuseJoin j 7
    State.serveNext 4 s2

/-- A join fails at the member (Table Concord-6). -/
def State.joinFails (s : State) : State :=
  s.setCon { s.con with phase := .backoff, failures := s.con.failures + 1, joining := none, proved := false, session := none }

/-- JOIN_CHAL reaches a joining member (R426, R427, R429, R430). -/
def State.joinChal (s : State) (b : List Octet) : State :=
  match s.con.joining with
  | none => s
  | some o =>
    if s.con.phase ≠ .joining || s.con.proved then s
    else
      let cert := (b.drop 80).take 153
      let id := certIdentity cert
      let good := s.certAccepted cert && decide (octetAt cert 1 = 0) && s.datesHold cert &&
        ecdsaVerify (certKey cert) (sha256 (o.req ++ b.take 233)) ((b.drop 233).take 64)
      match good, sessionKeys o.key ((b.drop 16).take 64) (b.take 16) o.nonce id Config.identity.toNat with
      | true, some keys =>
        let s1 := if s.clock.cls < 2 then s.raise 0x5003 (leOctets 5 id) else s
        let nonce := match s.con.vehicle with | none => 0 | some (_, n) => n
        let s2 := s1.sendPlain 0x04 0 0 (identitySigned (o.req ++ b))
        s2.setCon { s2.con with proved := true, session := some (Session.fresh keys s.ticks), vehicle := some (id, nonce) }
      | _, _ => s.joinFails

/-- A JOIN_RESULT that accepts (Table Concord-6): the node is taken and the keys are in use. -/
def State.joinAccepted (s : State) (b : List Octet) : State :=
  let s1 := s.setCon { s.con with
    phase := .member, failures := 0, joining := none, proved := false, node := (octetAt b 1).toNat, bay := (octetAt b 2).toNat,
    limited := decide ((octetAt b 3).toNat = 1), epoch := fieldNat b 4 2 }
  (s1.sendSecured 0x0D 0 (leOctets 2 (s1.editionNumber .fleet) ++ paramOctets s1.ownParams)).offerTime

/-- A JOIN_RESULT that refuses: its reason is logged (Table Concord-6). -/
def State.joinRefused (s : State) (b : List Octet) : State :=
  (s.setCon { s.con with phase := .backoff, joining := none, proved := false, session := none }).raise 0x5002
    (b.take 1 ++ identityOctets)

/-- A frame of JOIN_RESULT at a joining member: an acceptance is secured, and a frame that does not verify is a refusal where it reads as one
(Tables Concord-4 and Concord-7). DEDUCED (log 99). -/
def State.resultFrame (s : State) (f : CanFrame) : State :=
  if s.con.phase ≠ .joining then s
  else
    let b := (plainFragment f.data).content
    let refusal := decide (f.data.length = 12) && decide ((plainFragment f.data).len = 6) && decide (octetAt f.data 0 = 0x80) &&
      decide (octetAt b 0 ≠ 0) && decide (fieldNat b 1 5 = Config.identity.toNat)
    match s.con.session, s.con.proved with
    | some x, true =>
      s.securedFrame x f (if refusal then s.joinRefused b else s.countMac)
        (fun s _ b => if b.length = 6 && octetAt b 0 = 0 then s.joinAccepted b else s.discardFrame)
    | _, _ => if refusal then s.joinRefused b else s.discardFrame

/-! Secured messages -/

/-- A frame's MAC has failed: sixteen within a second end the session (R437). -/
def State.macFailed (s : State) (node : Nat) : State :=
  let now := s.ticks
  let s1 := (s.countMac).mapSession node (fun x => x.failMac now)
  match s1.sessionWith node with
  | none => s1
  | some x =>
    if x.macFails.length < 16 then s1
    else if s1.boot.role = .vehicle then s1.endMembers 2 false (fun m => m.node = node)
    else (s1.memberEnded 2).dropSession .idle

/-- The frames of secured messages of a type, whose bodies pass a test of their length: messages do their work when they pass R436. DESIGN CHOICE
(log 103). -/
def State.onSecured (s : State) (type : Nat) (fs : List CanFrame) (ok : Nat → Bool) (act : State → Nat → List Octet → State) : State :=
  fs.foldl (fun (s : State) (f : CanFrame) => s.onFrame type f (fun s =>
    match s.sessionWith (concordSrc f) with
    | none => s.discardFrame
    | some x =>
      if s.boot.role ≠ .vehicle && s.con.phase ≠ .member then s.discardFrame
      else s.securedFrame x f (s.macFailed (concordSrc f)) (fun s src b => if ok b.length then act s src b else s.discardFrame))) s.quiet

/-- A session takes new keys (R438, R439). -/
def Session.renew (x : Session) (keys : List Octet) (now : Nat) : Session :=
  { x with keys := keys, gen := !x.gen, tx := 0, rx := 0, prevOk := true, prevKeys := x.keys, prevRx := x.rx, madeAt := now, rekey := .none }

/-- A key is due for renewal (R438). -/
def Session.aged (x : Session) (now : Nat) : Bool :=
  decide (0x80000000 ≤ x.tx) || decide (0x80000000 ≤ x.rx) || decide (x.madeAt + 86400 * 32768 ≤ now)

/-- The vehicle sends REKEY to a member (R438, R440). -/
def State.startRekey (s : State) (node : Nat) : State :=
  let (n, k) := (s.free, s.free + 1)
  (s.draw.2.draw.2.sendSecured 0x07 node (nonceOctets n ++ ephemeral k)).mapSession node (fun x => { x with rekey := .waiting n k })

/-- REKEY received: both sides take new keys from the new nonces and ephemeral keys (R430, R438); one whose key is no point of the curve is
discarded. -/
def State.rekeyed (s : State) (node : Nat) (b : List Octet) : State :=
  let peerNonce := b.take 16
  let peer := b.drop 16
  if s.boot.role = .vehicle then
    match s.member node with
    | none => s
    | some m =>
      match m.session.rekey with
      | .none | .retry => s
      | .waiting n k =>
        match sessionKeys k peer (nonceOctets n) peerNonce Config.identity.toNat m.identity with
        | none => s.discardFrame
        | some keys => s.mapSession node (fun x => x.renew keys s.ticks)
  else
    let (n, k) := (s.free, s.free + 1)
    let vehicle := match s.con.vehicle with | none => 0 | some (i, _) => i
    match sessionKeys k peer peerNonce (nonceOctets n) vehicle Config.identity.toNat with
    | none => s.discardFrame
    | some keys =>
      (s.draw.2.draw.2.sendSecured 0x07 0 (nonceOctets n ++ ephemeral k)).mapSession 0 (fun x => x.renew keys s.ticks)

/-- A session whose counter has reached its end is left (R440). -/
def State.endSpent (s : State) : State :=
  if s.boot.role = .vehicle then s.endMembers 0 true (fun m => decide (0xFFFFFFFE ≤ m.session.tx))
  else
    match s.con.session with
    | none => s
    | some x =>
      if s.con.phase = .member && decide (0xFFFFFFFE ≤ x.tx) then (s.sendSecured 0x06 0 []).dropSession .idle else s

/-! Time -/

/-- A time offer is settled (R373, R458); `dt`: TSCLK periods since fragment 0 arrived. DEDUCED (log 86). -/
def State.settleOffer (s : State) (wall fraction cls : Nat) (peer : Role) (dt : Nat) : State :=
  if 96000000 < dt then s
  else
    let c := s.clock
    let offered := wall * 32768 + fraction + dt * 32768 / 96000000
    let own := c.wall * 32768 + c.wallFraction
    let loses := decide (c.cls < cls) || (cls = c.cls && peer = .vehicle)
    if !loses then s
    else if own + 32768 < offered then
      let cap := if peer = .dock then min cls 2 else if peer = .pack then min cls 1 else cls
      let s1 := s.stepWall 0 (offered / 32768) (offered % 32768) cap
      ((s1.setTail { s1.led.cur with offset := 0 }).closureCheck).offerTime
    else if offered + 32768 < own then
      s.setTail { s.led.cur with offset := -(((own - offered) / 32768 : Nat) : Int) }
    else s.setTail { s.led.cur with offset := 0 }

/-! Reports -/

/-- A pack's report as it stands (R445). -/
def Pack.report (p : Pack) : EnergyReport :=
  { number := p.reportNumber, discharge := p.discharge, charge := p.charge, voltage := p.voltage, current := p.current,
    lowTemp := p.lowTemp, highTemp := p.highTemp, soc := 0, resumedOld := p.resumedOld, afeFailed := p.afeFailed }

/-- State of charge in percent (R443); the capacity is word 68 of the vehicle edition, in Wh. -/
def State.soc (s : State) : Nat :=
  let p := s.con.pack
  let cap : Int := s.veh 68 * 100
  let net : Int := (p.discharge - p.fullDischarge : Int) - (p.charge - p.fullCharge : Int)
  if cap ≤ 0 then 0 else (max 0 (min 100 (100 * (cap - net) / cap))).toNat

/-- A pack sends ENERGY_REPORT (R445). -/
def State.sendReport (s : State) : State :=
  if s.canLive && s.boot.role = .pack && s.con.phase = .member then
    let r := { s.con.pack.report with soc := s.soc }
    let s1 := s.sendSecured 0x0A 0 (reportBody r)
    s1.setCon { s1.con with pack := { s1.con.pack with reportNumber := (s1.con.pack.reportNumber + 1) % 0x1000000 } }
  else s

/-- The bay of a pack's node. -/
def bayOf (node : Nat) : Nat := node - 1

/-- The body of CHARGE_REPORT (R462): of each admitted pack, its bay, its limited flag and its latest report. DESIGN CHOICE (log 103). -/
def State.chargeBody (s : State) : List Octet :=
  s.con.members.foldl (fun (l : List Octet) (m : Member) => match m.report with
    | none => l
    | some r => l ++ [BitVec.ofNat 8 (bayOf m.node), BitVec.ofNat 8 m.limited.toNat] ++ reportBody r) []

/-- The body of an ENERGY_REPORT (R445). -/
def reportOf (b : List Octet) : EnergyReport :=
  let ds (i : Nat) : Nat := unbcd dsDigits (wordsNat (octetsToWords ((b.drop i).take 8)))
  { number := fieldNat b 0 3, discharge := ds 3, charge := ds 11, voltage := fieldNat b 19 3, current := (BitVec.ofNat 24 (fieldNat b 22 3)).toInt,
    lowTemp := (octetAt b 25).toInt, highTemp := (octetAt b 26).toInt, soc := (octetAt b 27).toNat, resumedOld := (octetAt b 28).getLsbD 0,
    afeFailed := (octetAt b 28).getLsbD 1 }

/-- The vehicle takes an energy report (R446, R462, R468). -/
def State.takeReport (s : State) (node : Nat) (r : EnergyReport) : State :=
  match s.member node with
  | none => s
  | some m =>
    let old := match m.report with | none => false | some q => decide (r.number ≤ q.number)
    if m.role ≠ .pack || old then s
    else
      let s1 := s.mapMember node (fun m => { m with report := some r })
      let s2 := match s1.led.cur.ride with
        | none => s1
        | some ride =>
          if r.afeFailed then s1 else s1.setTail { s1.led.cur with ride := some (ride.report m.identity r.discharge) }
      if s2.con.members.any (fun m => m.role = .dock) then s2.sendSecured 0x10 3 s2.chargeBody else s2

/-- REPORT_REQ to every pack (R459). -/
def State.requestReports (s : State) : State :=
  if s.canLive then
    s.con.members.foldl (fun (s : State) (m : Member) => if m.role = .pack then s.sendSecured 0x0B m.node [] else s) s
  else s

/-- A ride closes, and what waited for its close follows (R384, R450, R459); answers its record, none where it does not stand. -/
def State.endRide (s : State) (cause : Nat) (w : RingWrite) : State × List Word :=
  let (s1, ws) := s.closeRide cause w
  (if ws.isEmpty then s1 else s1.requestReports.remerge, ws)

/-! The bus -/

/-- A bus-off (R478). DEDUCED (log 104). -/
def State.busOff (s : State) : State :=
  let now := s.ticks
  let recent := now :: s.con.busOffTimes.filter (fun t => decide (now < t + 1966080))
  let quietly := match s.con.busOffTimes with | t :: _ => decide (now < t + 32768) | [] => false
  let s1 := s.setCon { s.con with busOff := true, busOffs := satAdd 65535 s.con.busOffs 1, busOffTimes := recent }
  if quietly then s1 else s1.raise 0x5006 (leOctets 1 recent.length)

/-- The error counts move (R477). DEDUCED (log 104). -/
def State.busError (s : State) (te re : Nat) : State :=
  let s1 := s.setCon { s.con with txErrors := min 255 te, rxErrors := min 255 re,
                                  fallback := s.con.fallback || decide (96 ≤ te) || decide (96 ≤ re) }
  if 256 ≤ te && !s.con.busOff then s1.busOff else s1

/-! The dock's ball -/

/-- What the dock drives at DOCK_PRES (R39, R461). -/
inductive BallDrive where
  | low
  /-- LFX divided by 8, 4.096 kHz. -/
  | lfxOver8
  deriving DecidableEq, Repr

/-- DOCK_PRES carries the signal only while a dock holds a session with the vehicle for which its host has enabled presence (R39). -/
def State.dockPres (s : State) : BallDrive :=
  match s.con.presenceFor, s.con.vehicle with
  | some a, some (b, _) => if s.boot.role = .dock && s.con.phase = .member && s.canLive && decide (a = b) then .lfxOver8 else .low
  | _, _ => .low

end Sys2Proof.Machine
end

