-- ==== Sys2Proof/Machine/PackOps.lean ====
section
/-! DEFINITION. The pack's reading of its analog front end (R442 to R447, Tables Cmd-20 and Cmd-21). -/
namespace Sys2Proof.Machine

/-- A read descriptor in use. -/
structure Descriptor where
  quantity : Nat
  first : Nat
  count : Nat
  format : Nat
  weight : Nat
  deriving DecidableEq, Repr

/-- The descriptors in use of a vehicle payload, in order (Table Cmd-21). -/
def descriptors (p : List Word) : List Descriptor :=
  (List.range 6).filterMap (fun j =>
    let b := 70 + 4 * j
    let w0 := wN p b
    if w0 % 8 = 0 then none
    else some { quantity := w0 % 8, first := w0 / 16 % 16, count := w0 / 256 + 1, format := wN p (b + 2) / 256 % 4,
                weight := wN p (b + 3) })

/-- Octets of one value of a format. -/
def valueOctets (format : Nat) : Nat := if format = 3 then 3 else 2

/-- One value read in a format (Table Cmd-21). -/
def valueOf (format : Nat) (os : List Octet) : Int :=
  let be := leNat os.reverse
  if format = 0 then leNat os
  else if format = 1 then be
  else if format = 2 then (BitVec.ofNat 16 be).toInt
  else (BitVec.ofNat 24 be).toInt

/-- The values of a descriptor's response, each times its weight. -/
def Descriptor.values (d : Descriptor) (rsp : List Octet) : List Int :=
  let n := valueOctets d.format
  (List.range d.count).map (fun k => valueOf d.format ((rsp.drop (n * k)).take n) * d.weight)

/-- A response's frame check (R443). -/
def checkOk (checked : Bool) (d : Descriptor) (rsp : List Octet) : Bool :=
  let n := valueOctets d.format * d.count
  !checked || (rsp.drop n).head? == some (crc8 (rsp.take n))

/-- What a sample reads: voltages in µV by cell, pack voltage, current in 10 µA, temperatures in 0.01 K. -/
structure Sample where
  ok : Bool
  cells : List (Nat × Int)
  voltage : Option Int
  current : Option Int
  temps : List Int
  deriving DecidableEq, Repr

/-- The descriptors run in order (R443). -/
def readSample (checked : Bool) (ds : List Descriptor) (rsp : List (List Octet)) : Sample :=
  (ds.zip (rsp ++ List.replicate 6 [])).foldl (fun (x : Sample) (q : Descriptor × List Octet) =>
    let d := q.1
    let vs := d.values q.2
    let x1 := { x with ok := x.ok && checkOk checked d q.2 }
    if d.quantity = 1 then { x1 with cells := x1.cells ++ vs.zipIdx.map (fun v => (d.first + v.2, v.1)) }
    else if d.quantity = 2 then { x1 with current := vs.head? }
    else if d.quantity = 3 then { x1 with voltage := vs.head? }
    else { x1 with temps := x1.temps ++ vs }) { ok := true, cells := [], voltage := none, current := none, temps := [] }

/-- Every cell of the pack was read. -/
def Sample.allCells (x : Sample) (n : Nat) : Bool := (List.range n).all (fun i => x.cells.any (fun c => c.1 = i))

/-- The pack voltage: as read, or the sum of the cells (R443). -/
def Sample.packVoltage (x : Sample) (n : Nat) : Option Int :=
  match x.voltage with
  | some v => some v
  | none => if x.allCells n then some (x.cells.foldl (fun a c => a + c.2) 0) else none

/-- 0.01 Wh in units of 1 µV × 10 µA × one TSCLK period. -/
def energyUnit : Nat := 345600000000000000000

/-- A temperature in whole °C, rounded half-up (R443). -/
def celsius (t : Int) : Int := (t - 27315 + 50) / 100

/-- A good sample enters the counters (R443); `i` is positive when discharging. -/
def Pack.good (p : Pack) (x : Sample) (v i : Int) (dt full : Nat) (n : Nat) : Pack :=
  let e := (v * i).natAbs * dt
  let dis := decide (0 < v * i)
  let d := p.dischargeRem + (if dis then e else 0)
  let c := p.chargeRem + (if dis then 0 else e)
  let p1 := { p with failed := 0, afeFailed := false, discharge := p.discharge + d / energyUnit, dischargeRem := d % energyUnit,
                     charge := p.charge + c / energyUnit, chargeRem := c % energyUnit, voltage := (v / 1000).toNat,
                     current := i.tdiv 1000 }
  let ts := x.temps.map celsius
  let p2 := match ts with
    | [] => p1
    | t :: r => { p1 with lowTemp := r.foldl min t, highTemp := r.foldl max t }
  if x.allCells n && x.cells.all (fun c => decide ((full : Int) * 1000 ≤ c.2)) then
    { p2 with fullDischarge := p2.discharge, fullCharge := p2.charge }
  else p2

/-- A failed sample (R443, R447). -/
def Pack.bad (p : Pack) (limit : Nat) : Pack :=
  { p with failed := p.failed + 1, afeFailed := p.afeFailed || decide (limit ≤ p.failed + 1) }

/-- The counters are persisted (R444). -/
def State.persistPack (s : State) : State :=
  let p := s.con.pack
  (s.setCon { s.con with pack := { p with savedDischarge := p.discharge, savedCharge := p.charge } }).writeTail

/-- A sample of the front end (R443, R444). -/
def State.afeSample (s : State) (rsp : List (List Octet)) (dt : Nat) : State :=
  if s.boot.role ≠ .pack || s.pow.pm ≠ .running then s
  else
    let v := s.edition .vehicle
    let n := wN v 65
    let x := readSample (decide (wN v 64 / 8 % 2 = 1)) (descriptors v) rsp
    let p := s.con.pack
    let p1 := match x.ok, x.packVoltage n, x.current with
      | true, some u, some i => p.good x u (if wN v 67 = 1 then -i else i) dt (s.con.merged.get 2).toNat n
      | _, _, _ => p.bad (wN v 69)
    let s1 := s.setCon { s.con with pack := p1 }
    if p1.savedDischarge + 50 ≤ p1.discharge || p1.savedCharge + 50 ≤ p1.charge then s1.persistPack else s1

end Sys2Proof.Machine
end

