-- ==== Sys2Proof/Machine/Concord.lean ====
section
/-! DEFINITION. The commands of Concord (spec/08_concord.md). -/
namespace Sys2Proof.Machine

/-- An ANNOUNCE is received (Table Concord-6). -/
def execAnnounce (fs : List CanFrame) (s : State) : Host.Outcome State Fault Refusal :=
  .next (s.onPlain 0x01 fs (· == 16) (fun s _ b => s.announced (announceOf b)))

/-- The 1 s timer (Tables Concord-4 and Concord-6). -/
def execAnnounceTimer (s : State) : Host.Outcome State Fault Refusal :=
  let s := s.quiet
  .next (if !s.canLive then s
    else if s.boot.role = .vehicle then s.sendPlain 0x01 7 0 s.announceBody
    else if s.con.phase = .idle && s.joinGuard && !s.con.twoVehicles then (s.sendPlain 0x01 7 0 s.announceBody).sendJoinReq
    else s)

/-- A JOIN_REQ is received (R431). -/
def execJoinReq (fs : List CanFrame) (s : State) : Host.Outcome State Fault Refusal :=
  .next (s.onPlain 0x02 fs (· == 237) (fun s _ b => s.joinReq (joinRequestOf b)))

/-- A JOIN_CHAL is received (R428, R430). -/
def execJoinChal (fs : List CanFrame) (s : State) : Host.Outcome State Fault Refusal :=
  .next (s.onPlain 0x03 fs (· == 297) (fun s _ b => s.joinChal b))

/-- A JOIN_PROOF is received (R432). -/
def execJoinProof (fs : List CanFrame) (s : State) : Host.Outcome State Fault Refusal :=
  .next (s.onPlain 0x04 fs (· == 64) (fun s _ b => s.joinProof b))

/-- A JOIN_RESULT is received (R428). -/
def execJoinResult (fs : List CanFrame) (s : State) : Host.Outcome State Fault Refusal :=
  .next (fs.foldl (fun (s : State) (f : CanFrame) => s.onFrame 0x05 f (fun s => s.resultFrame f)) s.quiet)

/-- The joining member's timer expires (R428). -/
def execJoinTimeout (s : State) : Host.Outcome State Fault Refusal :=
  .next (if s.con.phase = .joining then s.quiet.joinFails else s.quiet)

/-- The vehicle's wait for JOIN_PROOF ends (R431). -/
def execProofTimeout (s : State) : Host.Outcome State Fault Refusal :=
  let s := s.quiet
  .next (State.serveNext 4 (s.setCon { s.con with serving := none }))

/-- The back-off ends (R428). -/
def execBackoffExpiry (s : State) : Host.Outcome State Fault Refusal :=
  .next (if s.con.phase = .backoff then s.quiet.setCon { s.quiet.con with phase := .idle } else s.quiet)

/-- LEAVE (R428, R434). -/
def execLeave (fs : List CanFrame) (s : State) : Host.Outcome State Fault Refusal :=
  .next (s.onSecured 0x06 fs (· == 0) (fun s src _ =>
    if s.boot.role = .vehicle then s.endMembers 0 false (fun m => m.node = src) else s.dropSession .idle))

/-- REKEY (R438). -/
def execRekey (fs : List CanFrame) (s : State) : Host.Outcome State Fault Refusal :=
  .next (s.onSecured 0x07 fs (· == 80) (fun s src b => s.rekeyed src b))

/-- The vehicle starts a rekey (R438). -/
def execKeyAgeRekey (node : Nat) (s : State) : Host.Outcome State Fault Refusal :=
  let s := s.quiet
  .next (match s.member node with
    | none => s
    | some m => if s.canLive && m.session.rekey = .none && m.session.aged s.ticks then s.startRekey node else s)

/-- A rekey is abandoned (R440). -/
def execRekeyTimeout (node : Nat) (s : State) : Host.Outcome State Fault Refusal :=
  .next (s.quiet.mapMember node (fun m =>
    { m with session := match m.session.rekey with
        | .waiting _ _ => { m.session with rekey := .retry }
        | .none | .retry => m.session }))

/-- The vehicle tries again (R440). -/
def execRekeyRetry (node : Nat) (s : State) : Host.Outcome State Fault Refusal :=
  let s := s.quiet
  .next (match s.member node with
    | none => s
    | some m => if s.canLive && m.session.rekey = .retry then s.startRekey node else s)

/-- Frames of the previous generation are no longer accepted (R439); node 0 names a member's own session. -/
def execPrevGenerationExpiry (node : Nat) (s : State) : Host.Outcome State Fault Refusal :=
  let s := s.quiet
  .next (if node = 0 then s.setCon { s.con with session := s.con.session.map (fun x => { x with prevOk := false }) }
    else s.mapMember node (fun m => { m with session := { m.session with prevOk := false } }))

/-- A HEARTBEAT of a member at the vehicle (R441): one below T3 takes no part any more (R38). -/
def State.memberBeat (s : State) (node epoch tier : Nat) (flags : Octet) : State :=
  let s1 := s.mapMember node (fun m => { m with tier := tier, holdUpReady := flags.getLsbD 0, presence := flags.getLsbD 1 })
  if tier < 3 then s1.endMembers 0 false (fun m => m.node = node)
  else if epoch = 0xFFFF then s1.sendSecured 0x09 node s1.rosterBody
  else s1

/-- A HEARTBEAT of the vehicle at a member (R441). -/
def State.vehicleBeat (s : State) (epoch tier level : Nat) : State :=
  let s := s.setCon { s.con with vehicleTier := tier, vehicleLevel := level }
  if epoch = s.con.epoch then s.setCon { s.con with epochMisses := 0 }
  else if 1 ≤ s.con.epochMisses then
    (s.setCon { s.con with epochMisses := 0 }).sendSecured 0x08 0 (s.heartbeatBody 0xFFFF)
  else s.setCon { s.con with epochMisses := 1 }

/-- HEARTBEAT received (R441). -/
def execHeartbeat (fs : List CanFrame) (s : State) : Host.Outcome State Fault Refusal :=
  .next (s.onSecured 0x08 fs (· == 5) (fun s src b =>
    let epoch := fieldNat b 0 2
    let tier := (octetAt b 2).toNat
    if s.boot.role = .vehicle then s.memberBeat src epoch tier (octetAt b 4) else s.vehicleBeat epoch tier (octetAt b 3).toNat))

/-- The 100 ms timer (R440, R441). -/
def execHeartbeatTimer (s : State) : Host.Outcome State Fault Refusal :=
  let s := s.quiet
  .next (if s.canLive then (s.sendPeers 0x08 (s.heartbeatBody s.con.epoch)).endSpent else s)

/-- The entries of a ROSTER body (R434). -/
def rosterOf : Nat → List Octet → List RosterEntry
  | 0, _ => []
  | n + 1, b =>
    if b.length < 9 then []
    else { node := (octetAt b 0).toNat, identity := fieldNat b 1 5, role := Role.ofCode (octetAt b 6).toNat, level := (octetAt b 7).toNat,
           limited := (octetAt b 8).getLsbD 0 } :: rosterOf n (b.drop 9)

/-- ROSTER received (R434). -/
def execRoster (fs : List CanFrame) (s : State) : Host.Outcome State Fault Refusal :=
  .next (s.onSecured 0x09 fs (fun n => decide (n % 9 = 2)) (fun s _ b =>
    s.setCon { s.con with epoch := fieldNat b 0 2, roster := rosterOf 6 (b.drop 2), epochMisses := 0 }))

/-- ENERGY_REPORT received (R446, R462). -/
def execEnergyReport (fs : List CanFrame) (s : State) : Host.Outcome State Fault Refusal :=
  .next (s.onSecured 0x0A fs (· == 29) (fun s src b => s.takeReport src (reportOf b)))

/-- The pack's 1 s timer (R445). -/
def execEnergyReportTimer (s : State) : Host.Outcome State Fault Refusal := .next s.quiet.sendReport

/-- REPORT_REQ received (R445). -/
def execReportReq (fs : List CanFrame) (s : State) : Host.Outcome State Fault Refusal :=
  .next (s.onSecured 0x0B fs (· == 0) (fun s _ _ => s.sendReport))

/-- TIME_OFFER received (R373, R458); `dt`: TSCLK periods from the arrival of fragment 0 to the decision. -/
def execTimeOffer (fs : List CanFrame) (dt : Nat) (s : State) : Host.Outcome State Fault Refusal :=
  .next (s.onSecured 0x0C fs (· == 9) (fun s _ b =>
    s.settleOffer (fieldNat b 0 5) (fieldNat b 5 2) (octetAt b 7).toNat (Role.ofCode (octetAt b 8).toNat) dt))

/-- The 60 s timer (R457). -/
def execTimeOfferTimer (s : State) : Host.Outcome State Fault Refusal := .next s.quiet.offerTime

/-- An offer not begun in time is withdrawn, and a fresh one queued (R458). -/
def execOfferWithdraw (s : State) : Host.Outcome State Fault Refusal :=
  .next (if s.con.offerQueued then s.quiet.offerTime else s.quiet)

/-- A member's parameters reach the vehicle (R448, R449, R452). -/
def State.takeOffer (s : State) (node number : Nat) (params : FleetParams) : State :=
  let bad := ([0, 1, 2, 3, 4, 5, 6, 7] : List (Fin 8)).filter (fun i => !paramOk i (params.get i))
  let s1 := bad.foldl (fun (s : State) (i : Fin 8) => s.raise 0x5004 [BitVec.ofNat 8 node, BitVec.ofNat 8 i.val]) s
  let own := s.editionNumber .fleet
  let s2 := if number = own then s1
    else s1.raise 0x5005 ([BitVec.ofNat 8 node] ++ leOctets 2 number ++ leOctets 2 own)
  let s3 := (s2.mapMember node (fun m => { m with fleetEdition := some number, params := some (clampParams params) })).remerge
  if s3.con.merged = s.con.merged then s3.sendSecured 0x0E node (paramOctets s3.con.merged) else s3

/-- CONFIG_OFFER received (R448, R449, R452). -/
def execConfigOffer (fs : List CanFrame) (s : State) : Host.Outcome State Fault Refusal :=
  .next (s.onSecured 0x0D fs (· == 18) (fun s src b => s.takeOffer src (fieldNat b 0 2) (paramsAt b 2)))

/-- CONFIG_MERGED received (R451). -/
def execConfigMerged (fs : List CanFrame) (s : State) : Host.Outcome State Fault Refusal :=
  .next (s.onSecured 0x0E fs (· == 16) (fun s _ b => s.setCon { s.con with merged := paramsAt b 0 }))

/-- DOCK_STATE received (R460). -/
def execDockState (fs : List CanFrame) (s : State) : Host.Outcome State Fault Refusal :=
  .next (s.onSecured 0x0F fs (· == 5) (fun s _ b =>
    let f := octetAt b 0
    s.setCon { s.con with dock := some { presence := f.getLsbD 0, chargerOn := f.getLsbD 1, chargerFault := f.getLsbD 2,
                                         limit := fieldNat b 1 2, edition := fieldNat b 3 2 } }))

/-- The dock's 1 s timer (R460). DEDUCED (log 105). -/
def execDockStateTimer (chargerOn chargerFault : Bool) (s : State) : Host.Outcome State Fault Refusal :=
  let s := s.quiet
  .next (if s.canLive && s.boot.role = .dock && s.con.phase = .member then
      s.sendSecured 0x0F 0 ([BitVec.ofNat 8 (boolsNat [s.con.presenceFor.isSome, chargerOn, chargerFault])] ++
        leOctets 2 (s.veh 96) ++ leOctets 2 (s.editionNumber .fleet))
    else s)

/-- The reports of a CHARGE_REPORT body (R462). -/
def chargesOf : Nat → List Octet → List (Nat × Bool × EnergyReport)
  | 0, _ => []
  | n + 1, b => if b.length < 31 then [] else ((octetAt b 0).toNat, (octetAt b 1).getLsbD 0, reportOf (b.drop 2)) :: chargesOf n (b.drop 31)

/-- CHARGE_REPORT received (R462, R463). -/
def execChargeReport (fs : List CanFrame) (s : State) : Host.Outcome State Fault Refusal :=
  .next (s.onSecured 0x10 fs (fun n => decide (n % 31 = 0)) (fun s _ b =>
    s.setCon { s.con with chargeReports := chargesOf 2 b, chargeReportAt := some s.ticks }))

/-- RELAY_RESULT received (R933). -/
def execRelayResult (fs : List CanFrame) (s : State) : Host.Outcome State Fault Refusal :=
  .next (s.onSecured 0x12 fs (· == 1) (fun s src b =>
    match s.con.relay with
    | none => s
    | some r => if r.node = src then (s.setCon { s.con with relay := none }).finish 0x0403 (ok [octetAt b 0]) else s))

/-- The relay's 2.0 s end (R933). -/
def execRelayTimeout (s : State) : Host.Outcome State Fault Refusal :=
  let s := s.quiet
  .next (if s.con.relay.isNone then s else (s.setCon { s.con with relay := none }).finish 0x0403 (refuse 0x32))

/-- A member has been silent for 2.0 s (R474). -/
def execMemberSilenceTimeout (node : Nat) (s : State) : Host.Outcome State Fault Refusal :=
  let s := s.quiet
  .next (if s.boot.role = .vehicle then s.endMembers 1 false (fun m => m.node = node) else s)

/-- The vehicle has been silent for 2.0 s (R428). -/
def execVehicleSilenceTimeout (s : State) : Host.Outcome State Fault Refusal :=
  let s := s.quiet
  .next (if s.con.phase = .member then (s.memberEnded 1).dropSession .idle else s)

/-- The next fragment of a message has not come (R423); `sender`: its source node × 2 048 + TIE. -/
def execFragmentTimeout (sender : Nat) (s : State) : Host.Outcome State Fault Refusal :=
  .next (if s.con.partials.any (fun p => p.sender = sender) then
      (s.setCon { s.con with partials := s.con.partials.filter (fun p => p.sender ≠ sender) }).discardFrame
    else s)

/-- A frame outside the plan (R415, R416). -/
def execCanAFrameIgnored (f : CanFrame) (s : State) : Host.Outcome State Fault Refusal :=
  .next (if s.canLive && !inPlan f then s.setCon { s.con with ignored := satAdd 65535 s.con.ignored 1, restricted := false } else s)

/-- A frame with an unlisted TYPE or wrong nodes (R419, R416). -/
def execConcordUnknownType (f : CanFrame) (s : State) : Host.Outcome State Fault Refusal :=
  .next (if s.canLive && inPlan f && !nodesAgree (concordType f) (concordSrc f) (concordDst f) then s.heardFrame.discardFrame else s)

/-- A bus error leaves the controller's error counts at these values; above 255 the transmit count is bus-off (R477, R478). -/
def execCanABusError (txErrors rxErrors : Nat) (s : State) : Host.Outcome State Fault Refusal := .next (s.busError txErrors rxErrors)

/-- The bus-off recovery begins; restricted operation follows its end (R416, R478). -/
def execBusOffRecovery (s : State) : Host.Outcome State Fault Refusal :=
  .next (if s.con.busOff then s.setCon { s.con with recovering := true } else s)

/-- Bit-rate switching resumes (R416, R477). -/
def execRateFallbackEnd (s : State) : Host.Outcome State Fault Refusal :=
  .next (if s.con.fallback && decide (s.con.txErrors < 96) && decide (s.con.rxErrors < 96) then
      s.setCon { s.con with fallback := false, restricted := true }
    else s)

/-- Restricted operation ends after 50 ms (R416). -/
def execRestrictedModeTimeout (s : State) : Host.Outcome State Fault Refusal :=
  .next (s.setCon { s.con with restricted := false })

/-- An ANNOUNCE from a second vehicle within 3 s (R481). -/
def execTwoVehiclesHeard (fs : List CanFrame) (s : State) : Host.Outcome State Fault Refusal :=
  .next (s.onPlain 0x01 fs (· == 16) (fun s _ b => s.announced (announceOf b)))

/-- A sample of the pack's front end: the responses of the descriptors in use, and TSCLK periods since the last sample
(R443). -/
def execAfeSample (rsp : List (List Octet)) (dt : Nat) (s : State) : Host.Outcome State Fault Refusal := .next (s.afeSample rsp dt)

/-- The pack's counters are persisted (R444). -/
def execPackCounterPersist (s : State) : Host.Outcome State Fault Refusal :=
  .next (if s.boot.role = .pack then s.persistPack else s)

end Sys2Proof.Machine
end

