-- ==== Sys2Proof/Machine/Flags.lean ====
section
/-! DEFINITION. The flags of FL (Table Jieles-2) and their computation by the A and M units (Table Ops-1, R664), and the
conditions of the B unit (Table Ops-15). -/
namespace Sys2Proof.Machine

/-- The bits of FL. -/
def bitC : Word := 0x001
def bitZ : Word := 0x002
def bitN : Word := 0x004
def bitV : Word := 0x008
def bitDZ : Word := 0x010

/-- A flag bit where a condition holds. -/
def flagIf (b : Bool) (f : Word) : Word := if b then f else 0

/-- Z and N of a result. -/
def znBits {w : Nat} (r : BitVec w) : Word := flagIf (r == 0#w) bitZ ||| flagIf r.msb bitN

/-- What an operation gives: a result, the FL bits it writes and their values, and the sticky bits it sets. -/
structure AluResult (w : Nat) where
  res : BitVec w
  mask : Word
  value : Word
  sticky : Word
  deriving DecidableEq, Repr

/-- A result that writes Z and N alone. -/
def AluResult.zn {w : Nat} (r : BitVec w) : AluResult w := { res := r, mask := bitZ ||| bitN, value := znBits r, sticky := 0 }
/-- A result that writes Z, N and V. -/
def AluResult.znv {w : Nat} (r : BitVec w) (v : Bool) : AluResult w :=
  { res := r, mask := bitZ ||| bitN ||| bitV, value := znBits r ||| flagIf v bitV, sticky := 0 }
/-- A result that writes C, Z and N. -/
def AluResult.czn {w : Nat} (r : BitVec w) (c : Bool) : AluResult w :=
  { res := r, mask := bitC ||| bitZ ||| bitN, value := znBits r ||| flagIf c bitC, sticky := 0 }
/-- A result that writes C, Z, N and V. -/
def AluResult.cznv {w : Nat} (r : BitVec w) (c v : Bool) : AluResult w :=
  { res := r, mask := bitC ||| bitZ ||| bitN ||| bitV, value := znBits r ||| flagIf c bitC ||| flagIf v bitV, sticky := 0 }

/-- a + b + carry: C is the carry out of the top bit, V a signed sum that does not fit (Table Ops-1). -/
def addFlags {w : Nat} (a b : BitVec w) (carry : Bool) : AluResult w :=
  let n := a.toNat + b.toNat + carry.toNat
  let r := BitVec.ofNat w n
  .cznv r (decide (2 ^ w ≤ n)) (decide (r.toInt ≠ a.toInt + b.toInt + (carry.toNat : Int)))

/-- a − b − borrow: C is no borrow, V a signed difference that does not fit (Table Ops-1). -/
def subFlags {w : Nat} (a b : BitVec w) (borrow : Bool) : AluResult w :=
  let r := a - b - BitVec.ofNat w borrow.toNat
  .cznv r (decide (b.toNat + borrow.toNat ≤ a.toNat)) (decide (r.toInt ≠ a.toInt - b.toInt - (borrow.toNat : Int)))

/-- SHL (R664). -/
def shlFlags (a : Word) (n : Nat) : AluResult 12 :=
  .czn (a <<< n) (if n = 0 then false else if n ≤ 12 then a.getLsbD (12 - n) else false)

/-- SHR (R664). -/
def shrFlags (a : Word) (n : Nat) : AluResult 12 :=
  .czn (a >>> n) (if n = 0 then false else if n ≤ 12 then a.getLsbD (n - 1) else false)

/-- SAR (R664). -/
def sarFlags (a : Word) (n : Nat) : AluResult 12 :=
  .czn (a.sshiftRight n) (if n = 0 then false else if n ≤ 12 then a.getLsbD (n - 1) else a.msb)

/-- A division or remainder with its edges (R668, R669, Table Ops-7), DZT at 0. The remainder is wanted where `rem`. -/
def divFlags {w : Nat} (signed rem : Bool) (a : BitVec w) (b : Word) : AluResult w :=
  if b = 0 then { AluResult.znv a false with sticky := bitDZ }
  else if signed then
    let x := a.toInt
    let y := b.toInt
    if y = -1 ∧ x = -(2 ^ (w - 1) : Nat) then (if rem then .znv 0 false else .znv a true)
    else .znv (BitVec.ofInt w (if rem then Int.tmod x y else Int.tdiv x y)) false
  else .znv (BitVec.ofNat w (if rem then a.toNat % b.toNat else a.toNat / b.toNat)) false

/-- MULL: the low word of a product, V where the signed product does not fit (Table Ops-5). -/
def mullFlags (a b : Word) : AluResult 12 :=
  let p := a.toInt * b.toInt
  .znv (a * b) (decide (p < -2048) || decide (2047 < p))

/-- acc shifted right and saturated to a pair (ACCRD, R667). -/
def accReadFlags (acc : BitVec 36) (n : Nat) : AluResult 24 :=
  let x := (acc.sshiftRight n).toInt
  if x < -8388608 then .znv 0x800000 true else if 8388607 < x then .znv 0x7FFFFF true else .znv (BitVec.ofInt 24 x) false

/-- FL after a write by an operation (R586): C, Z, N and V are replaced where written, sticky bits only set. -/
def flAfter (fl mask value sticky : Word) : Word := (fl &&& ~~~mask) ||| (value &&& mask) ||| sticky

/-- A condition of BC and BCR holds of FL (Table Ops-15). -/
def condHolds (fl : Word) (sel : Fin 16) : Bool :=
  let c := fl.getLsbD 0
  let z := fl.getLsbD 1
  let n := fl.getLsbD 2
  let v := fl.getLsbD 3
  match sel.val with
  | 0 => z
  | 1 => !z
  | 2 => c
  | 3 => !c
  | 4 => n
  | 5 => !n
  | 6 => v
  | 7 => !v
  | 8 => c && !z
  | 9 => !c || z
  | 10 => n == v
  | 11 => n != v
  | 12 => !z && (n == v)
  | 13 => z || (n != v)
  | 14 => fl.getLsbD 4
  | _ => fl.getLsbD 5

end Sys2Proof.Machine
end

