-- ==== Sys2Proof/Machine/Operands.lean ====
section
/-! DEFINITION. Operand forms of Jieles syllables (R585, R592, R601, R602, R687): registers, pairs and runs, long values, and which
registers a syllable reads and writes. -/
namespace Sys2Proof.Machine

/-! Registers -/

/-- A general register (R585). PRESUMED (log 45). -/
def CoreState.rw (c : CoreState) (i : Fin 32) : Word := c.w.get i
/-- Low and high word register of a pair (R585). -/
def loReg (p : Fin 16) : Fin 32 := ⟨2 * p.val, by omega⟩
def hiReg (p : Fin 16) : Fin 32 := ⟨2 * p.val + 1, by omega⟩
/-- The pair in which a w register lies. -/
def pairOf (i : Fin 32) : Fin 16 := ⟨i.val / 2, by omega⟩
/-- A pair's value (R13). -/
def CoreState.rp (c : CoreState) (p : Fin 16) : Pair := c.rw (hiReg p) ++ c.rw (loReg p)
/-- The words of a run of m pairs (R687), least significant first. -/
def CoreState.run' (c : CoreState) (p : Fin 16) (m : Nat) : List Word := (c.w.toList.drop (2 * p.val)).take (2 * m)
def loWord (v : Pair) : Word := v.setWidth 12
def hiWord (v : Pair) : Word := (v >>> 12).setWidth 12

def CoreState.setW (c : CoreState) (i : Fin 32) (v : Word) : CoreState := { c with w := c.w.set i v }
def CoreState.setK (c : CoreState) (i : Fin 4) (v : Pair) : CoreState := { c with k := c.k.set i v }

/-- Loop counter named by the low bits of SEL. -/
def kOf (sel : Fin 16) : Fin 4 := ⟨sel.val % 4, Nat.mod_lt _ (by decide)⟩

/-- The destinations and the writes of a pair. -/
def pairDests (p : Fin 16) : List Reg := [.w (loReg p), .w (hiReg p)]
def pairWrites (p : Fin 16) (v : Pair) : List RegWrite := [.w (loReg p) (loWord v), .w (hiReg p) (hiWord v)]
/-- A run of m pairs keeps within p15 (R687). -/
def runFits (p : Fin 16) (m : Nat) : Bool := decide (p.val + m ≤ 16)
/-- The w registers of a run. -/
def runRegs (p : Fin 16) (m : Nat) : List (Fin 32) :=
  (List.range (2 * m)).filterMap (fun i => if h : 2 * p.val + i < 32 then some ⟨2 * p.val + i, h⟩ else none)
def runDests (p : Fin 16) (m : Nat) : List Reg := (runRegs p m).map Reg.w
/-- Words written to a run; a word beyond the list is 0 (R714). -/
def runWrites (p : Fin 16) (m : Nat) (ws : List Word) : List RegWrite :=
  (runRegs p m).zipIdx.map (fun q => RegWrite.w q.1 ((ws.drop q.2).headD 0))

/-! Long values -/

/-- The 24-bit value of an X syllable and its target's immediate of k bits (R602). -/
def longValue (k : Nat) (x : BitVec 17) (imm : Nat) : Pair := BitVec.ofNat 24 (x.toNat * 2 ^ k + imm)
/-- Bits 16 to 24 − k of the value are 0 (R603). -/
def xFits (k : Nat) (x : BitVec 17) : Bool := decide (x.toNat < 2 ^ (24 - k))

/-- Width of a syllable's immediate; none where its format takes no X syllable (R602, R603). -/
def Syl.immWidth : Syl → Option Nat
  | .ai _ _ _ | .mi _ _ _ => some 12
  | .l _ _ _ _ => some 7
  | .io _ _ _ => some 12
  | .b _ _ _ => some 12
  | .a _ _ _ _ | .m _ _ _ _ | .c _ _ _ _ _ | .x _ _ | .unassigned _ => none

/-- A B operation accepts an X syllable (R679). -/
def BOp.takesX : BOp → Bool
  | .br | .bc | .dbnz | .call | .kset => true
  | .jr | .bcr | .callr | .ret | .kget | .wait | .brk | .trap => false

/-- The unit code of a syllable (Table Jieles-5). -/
def Syl.unit : Syl → Nat
  | .a _ _ _ _ | .ai _ _ _ => 0
  | .m _ _ _ _ | .mi _ _ _ => 1
  | .l _ _ _ _ | .io _ _ _ => 2
  | .c _ _ _ _ _ => 3
  | .x _ _ => 4
  | .b _ _ _ => 5
  | .unassigned r => r.toNat / 2 ^ 20

/-! Coprocessor operands -/

/-- The form of a C-slot operand. -/
inductive CForm where
  /-- The field must be 0. -/
  | zero
  /-- The field is a number below the bound. -/
  | num (bound : Nat)
  /-- A run of so many pairs. -/
  | run (pairs : Nat)
  deriving DecidableEq, Repr

/-- A field keeps its form (R658, R687). -/
def CForm.ok (f : CForm) (p : Fin 16) : Bool :=
  match f with
  | .zero => p = 0
  | .num b => decide (p.val < b)
  | .run n => runFits p n

/-- Classes of C-slot operations (R686). -/
inductive CClass where
  | pure
  | stateful
  | effectful
  deriving DecidableEq, Repr

/-- A C-slot operation: its class, and the forms of pd, pa and pb; pd is a destination where `dest`. -/
structure CInfo where
  cls : CClass
  pd : CForm
  pa : CForm
  pb : CForm
  dest : Bool
  deriving DecidableEq, Repr

/-- Pairs of a DS and a DL operand (R714). -/
def dsPairs : Nat := 3
def dlPairs : Nat := 5

/-- The assigned operations of Tables Decimal-3, Ops-17 and Ops-18; `pb` is the field, which for DCLS selects the form. -/
def cInfo (cp cop : Nat) (pb : Fin 16) : Option CInfo :=
  let mk (cls : CClass) (pd pa pb : CForm) (dest : Bool) : Option CInfo := some { cls := cls, pd := pd, pa := pa, pb := pb, dest := dest }
  if cp = 0 then
    if cop = 0 then mk .pure (.run 1) .zero .zero true
    else if cop = 1 then mk .stateful .zero (.run 1) .zero false
    else if 2 ≤ cop && cop ≤ 17 then
      let m := if cop ≤ 9 then dsPairs else dlPairs
      let k := (cop - 2) % 8
      if k ≤ 3 then mk .pure (.run m) (.run m) (.run m) true
      else if k = 4 then mk .pure .zero (.run m) (.run m) false
      else mk .pure (.run m) (.run m) .zero true
    else if cop = 18 then mk .pure (.run dlPairs) (.run dsPairs) .zero true
    else if cop = 19 then mk .pure (.run dsPairs) (.run dlPairs) .zero true
    else if cop = 20 then mk .pure (.run dsPairs) (.run 1) .zero true
    else if cop = 21 then mk .pure (.run 1) (.run dsPairs) .zero true
    else if cop = 22 then mk .pure (.run dsPairs) (.run 1) .zero true
    else if cop = 23 then mk .pure (.run 1) (.run (if pb = 0 then dsPairs else dlPairs)) (.num 2) true
    else none
  else if cp = 1 then
    if cop = 0 then mk .pure (.run 1) (.run 1) (.run 1) true
    else if cop = 1 then mk .pure (.run 1) (.run 1) .zero true
    else if cop = 2 || cop = 3 then mk .pure (.run 1) (.run 1) (.run 1) true
    else if cop = 4 then mk .stateful (.num 4) (.run 1) (.run 1) false
    else if cop = 5 then mk .stateful (.num 4) .zero .zero false
    else if cop = 6 then mk .stateful (.run 1) (.run 1) (.num 4) true
    else none
  else if cp = 2 then
    if cop = 0 then mk .pure (.run 1) (.run 1) (.run 1) true
    else if cop = 1 then mk .effectful (.run 1) (.run 1) (.run 1) true
    else if cop = 17 then mk .pure (.run 1) (.run 1) (.run 1) true
    else if cop = 2 || cop = 3 || cop = 9 || cop = 14 || cop = 15 then mk .stateful (.run 1) (.run 1) (.run 1) false
    else if cop ≤ 19 then mk .effectful (.run 1) (.run 1) (.run 1) false
    else none
  else none

/-! What a syllable reads and writes -/

/-- Registers that a syllable reads, by R607; `x`: it has an X syllable. BC and BCR are exempt for FL (R681). -/
def Syl.reads (y : Syl) (x : Bool) : List Reg :=
  match y with
  | .a op rd ra rb =>
    (match op with
     | .add | .sub | .and | .or | .xor | .andn | .shl | .shr | .sar | .cmp => [.w ra, .w rb]
     | .adc | .sbc => [.w ra, .w rb, .fl]
     | .addp | .subp => pairDests (pairOf ra) ++ pairDests (pairOf rb)
     | .mfs => if ra = 0 then [.fl] else [.special ra]
     | .mts => [.w ra, .special rd])
  | .ai op rd _ =>
    (match op with
     | .ldi => []
     | .addi | .andi | .cmpi => if x then pairDests (pairOf rd) else [.w rd])
  | .m op _ ra rb =>
    (match op with
     | .muls | .mulu | .mull | .divs | .divu | .rems | .remu => [.w ra, .w rb]
     | .macs | .macu | .msus => [.w ra, .w rb, .acc]
     | .divps | .divpu => pairDests (pairOf ra) ++ [.w rb]
     | .accrd | .acch => [.acc]
     | .accw => pairDests (pairOf ra)
     | .accz => [])
  | .mi op rd _ =>
    (match op with
     | .muli => if x then pairDests (pairOf rd) else [.w rd]
     | .maci => [.w rd, .acc])
  | .l op rd pb _ =>
    (match op with
     | .ldw | .ldp | .ldwi => pairDests pb
     | .stw | .stwi => .w rd :: pairDests pb
     | .stp => pairDests (pairOf rd) ++ pairDests pb
     | .macp => .acc :: (pairDests pb ++ pairDests (pairOf rd))
     | .cmo => if rd = 0 || rd = 2 then [] else pairDests pb)
  | .io op rd _ => (match op with | .inp => [] | .out => [.w rd])
  | .c cp cop pd pa pb =>
    (match cInfo cp.val cop.val pb with
     | none => []
     | some i =>
       let r (f : CForm) (p : Fin 16) : List Reg := match f with | .run n => runDests p n | .zero | .num _ => []
       r i.pa pa ++ r i.pb pb ++ (if i.dest then [] else r i.pd pd))
  | .x _ _ => []
  | .b op sel disp =>
    let q : Fin 16 := ⟨disp.toNat % 16, Nat.mod_lt _ (by decide)⟩
    (match op with
     | .br | .bc | .call | .wait | .brk | .trap => []
     | .ret => [.special 1, .special 4, .special 5, .special 11]
     | .dbnz | .kget => [.k (kOf sel)]
     | .jr => pairDests sel
     | .bcr | .callr => pairDests q
     | .kset => if x then [] else pairDests q)
  | .unassigned _ => []

/-- FL is written by the operation (Tables Ops-2, Ops-3, Ops-5, Ops-6, Decimal-3). -/
def Syl.writesFl : Syl → Bool
  | .a op rd _ _ =>
    (match op with
     | .add | .adc | .sub | .sbc | .and | .or | .xor | .andn | .shl | .shr | .sar | .cmp | .addp | .subp => true
     | .mfs => false
     | .mts => rd = 0)
  | .ai op _ _ => (match op with | .ldi => false | .addi | .andi | .cmpi => true)
  | .m op _ _ _ =>
    (match op with
     | .muls | .mulu | .mull | .divs | .divu | .rems | .remu | .divps | .divpu | .accrd => true
     | .macs | .macu | .msus | .accw | .acch | .accz => false)
  | .mi op _ _ => (match op with | .muli => true | .maci => false)
  | .c cp cop _ _ _ => decide (cp.val = 0) && decide (2 ≤ cop.val) && decide (cop.val ≤ 22)
  | .l _ _ _ _ | .io _ _ _ | .x _ _ | .b _ _ _ | .unassigned _ => false

/-- Registers that a syllable writes, FL aside (R605). -/
def Syl.dests (y : Syl) (x : Bool) : List Reg :=
  match y with
  | .a op rd _ _ =>
    (match op with
     | .add | .adc | .sub | .sbc | .and | .or | .xor | .andn | .shl | .shr | .sar | .mfs => [.w rd]
     | .cmp => []
     | .addp | .subp => pairDests (pairOf rd)
     | .mts => if rd = 0 then [] else [.special rd])
  | .ai op rd _ =>
    (match op with
     | .ldi | .addi | .andi => if x then pairDests (pairOf rd) else [.w rd]
     | .cmpi => [])
  | .m op rd _ _ =>
    (match op with
     | .mull | .divs | .divu | .rems | .remu | .acch => [.w rd]
     | .muls | .mulu | .divps | .divpu | .accrd => pairDests (pairOf rd)
     | .macs | .macu | .msus | .accw | .accz => [.acc])
  | .mi op rd _ =>
    (match op with
     | .muli => if x then pairDests (pairOf rd) else [.w rd]
     | .maci => [.acc])
  | .l op rd pb _ =>
    (match op with
     | .ldw => [.w rd]
     | .ldp => pairDests (pairOf rd)
     | .stw | .stp | .cmo => []
     | .ldwi => .w rd :: pairDests pb
     | .stwi => pairDests pb
     | .macp => .acc :: (pairDests pb ++ pairDests (pairOf rd)))
  | .io op rd _ => (match op with | .inp => [.w rd] | .out => [])
  | .c cp cop pd _ pb =>
    (match cInfo cp.val cop.val pb with
     | none => []
     | some i => if i.dest then (match i.pd with | .run n => runDests pd n | .zero | .num _ => []) else [])
  | .x _ _ => []
  | .b op sel disp =>
    (match op with
     | .br | .bc | .jr | .bcr | .wait | .brk | .trap => []
     | .ret => [.special 1]
     | .dbnz | .kset => [.k (kOf sel)]
     | .call | .callr => pairDests sel
     | .kget => pairDests ⟨disp.toNat % 16, Nat.mod_lt _ (by decide)⟩)
  | .unassigned _ => []

/-- Everything a syllable writes, by R607. -/
def Syl.allDests (y : Syl) (x : Bool) : List Reg := y.dests x ++ (if y.writesFl then [.fl] else [])

/-- A w register number is even. -/
def evenReg (i : Fin 32) : Bool := decide (i.val % 2 = 0)

/-- A field keeps what its entry requires of it (R658, R668 and the entries); a reserved special register is not judged here. DEDUCED (log 38). -/
def Syl.fieldsOk (y : Syl) (x : Bool) (xv : Option Pair) : Bool :=
  match y with
  | .a op rd ra rb =>
    (match op with
     | .add | .adc | .sub | .sbc | .and | .or | .xor | .andn | .shl | .shr | .sar => true
     | .cmp => rd = 0
     | .addp | .subp => evenReg rd && evenReg ra && evenReg rb
     | .mfs | .mts => rb = 0)
  | .ai _ rd _ => !x || evenReg rd
  | .m op rd ra rb =>
    (match op with
     | .mull | .divs | .divu | .rems | .remu => true
     | .muls | .mulu => evenReg rd
     | .macs | .macu | .msus => rd = 0
     | .divps | .divpu => evenReg rd && evenReg ra
     | .accrd => evenReg rd && decide (rb.val ≤ 12)
     | .accw => evenReg ra && rd = 0 && rb = 0
     | .acch => ra = 0 && rb = 0
     | .accz => rd = 0 && ra = 0 && rb = 0)
  | .mi op rd _ => (match op with | .muli => !x || evenReg rd | .maci => true)
  | .l op rd pb disp =>
    (match op with
     | .ldw | .stw | .stwi => true
     | .ldp | .stp => evenReg rd
     | .ldwi => decide (pairOf rd ≠ pb)
     | .macp => evenReg rd && decide (pairOf rd ≠ pb)
     | .cmo =>
       decide (rd.val ≤ 4) &&
         (!(rd = 0 || rd = 2) || (pb = 0 && (match xv with | some v => decide (v = 0) | none => decide (disp = 0)))))
  | .io _ _ _ => true
  | .c cp cop pd pa pb =>
    (match cInfo cp.val cop.val pb with
     | none => false
     | some i => i.pd.ok pd && i.pa.ok pa && i.pb.ok pb)
  | .x _ _ => true
  | .b op sel disp =>
    (match op with
     | .br => sel = 0
     | .bc | .call | .brk | .trap => (match op with | .brk | .trap => sel = 0 | _ => true)
     | .dbnz => decide (sel.val < 4)
     | .jr => decide (disp = 0)
     | .bcr | .callr => decide (disp.toNat < 16)
     | .ret | .wait => sel = 0 && decide (disp = 0)
     | .kset => decide (sel.val < 4) && (x || decide (disp.toNat < 16))
     | .kget => decide (sel.val < 4) && decide (disp.toNat < 16))
  | .unassigned _ => false

/-- The special register that MFS or MTS names. -/
def Syl.specialNo : Syl → Option (Fin 32)
  | .a .mfs _ ra _ => some ra
  | .a .mts rd _ _ => some rd
  | _ => none

/-- MTS to CTL, ESTAT or TVB, and RET, serialise (R589, Table Ops-14). -/
def Syl.serial : Syl → Bool
  | .a .mts rd _ _ => rd = 1 || rd = 11 || rd = 13 || rd = 14
  | .b .ret _ _ => true
  | _ => false

end Sys2Proof.Machine
end

