-- ==== Sys2Proof/Machine/Trace.lean ====
section
/-! DEFINITION. The trace packets of the cores and the trace port (R986, Table Elec-23). -/
namespace Sys2Proof.Machine

/-- A core replaced. -/
def State.setCore (s : State) (i : Fin 4) (c : CoreState) : State := { s with core := s.core.set i c }

/-- A packet: header octet and payload. -/
def tracePacket (i : Fin 4) (kind : Nat) (payload : List Octet) : List Octet :=
  BitVec.ofNat 8 (32 * kind + 8 * i.val + payload.length % 8) :: payload

/-- An overflow packet, once the FIFO has room for it. -/
def TraceCtx.overflow (t : TraceCtx) (i : Fin 4) : TraceCtx :=
  if t.lost = 0 || 61 < t.fifo.length then t
  else { t with fifo := t.fifo ++ tracePacket i 5 (leOctets 2 t.lost), lost := 0, sinceSync := t.sinceSync + 1 }

/-- A packet enters the 64-octet FIFO, or is dropped and counted. -/
def TraceCtx.push (t : TraceCtx) (i : Fin 4) (kind : Nat) (payload : List Octet) : TraceCtx :=
  let t1 := t.overflow i
  let p := tracePacket i kind payload
  if t1.lost = 0 && t1.fifo.length + p.length ≤ 64 then { t1 with fifo := t1.fifo ++ p, sinceSync := t1.sinceSync + 1 }
  else { t1 with lost := satAdd 65535 t1.lost 1 }

/-- The payload of a synchronisation packet. -/
def syncPayload (pc : Pair) : List Octet := 0xA5#8 :: leOctets 3 pc.toNat

/-- A packet of a core with tracing enabled; a synchronisation packet follows every 256. -/
def State.trace (s : State) (i : Fin 4) (kind : Nat) (payload : List Octet) : State :=
  if s.dbg.traceRate = 0 || !s.dbg.traceEn.getLsbD i.val then s
  else
    let c := s.core.get i
    let t := c.trace.push i kind payload
    let t1 := if t.sinceSync < 256 then t else { t with sinceSync := 0 }.push i 1 (syncPayload c.pc)
    s.setCore i { c with trace := if t.sinceSync < 256 then t1 else { t1 with sinceSync := 0 } }

/-- The port sends the next packet, round-robin over the cores' FIFOs; it sends none while off or with nothing to send. DESIGN CHOICE (log 3). -/
def State.traceDrain (s : State) : State :=
  if s.dbg.traceRate = 0 || s.clk.domains.get ClockDomain.trclk.row ≠ .running then s
  else
    let order : List (Fin 4) := (List.range 4).map (fun k => ⟨(s.dbg.traceTurn.val + k) % 4, Nat.mod_lt _ (by decide)⟩)
    match order.find? (fun i => !(s.core.get i).trace.fifo.isEmpty) with
    | none => s
    | some i =>
      let c := s.core.get i
      let n := 1 + (c.trace.fifo.headD 0).toNat % 8
      let t := { c.trace with fifo := c.trace.fifo.drop n }
      let s1 := s.setCore i { c with trace := t.overflow i }
      { s1 with dbg := { s1.dbg with traceOut := c.trace.fifo.take n, traceTurn := ⟨(i.val + 1) % 4, Nat.mod_lt _ (by decide)⟩ } }

end Sys2Proof.Machine
end

