-- ==== Sys2Proof/Machine/CopCompute.lean ====
section
/-! DEFINITION. What the coprocessors compute: the decimal units (spec/13_decimal_ct.md), the vector units (R690 to R692) and the
crypto engine (R693, R694, Table Ops-18), and their pools, arbiters and units (R749 to R766). -/
namespace Sys2Proof.Machine

/-! Decimal units -/

/-- The scales that a context gives (Table Decimal-2). -/
def DecCtx.scales (x : DecCtx) : DecScales := { sa := x.sa.toNat, sb := x.sb.toNat, sd := x.sd.toNat, mode := x.mode.toNat }

/-- DSTAT (Table Decimal-2). -/
def DecCtx.word (x : DecCtx) : Pair :=
  BitVec.ofNat 24 (x.sa.toNat + 16 * x.sb.toNat + 256 * x.sd.toNat + 4096 * x.mode.toNat + 16384 * x.err.toNat)

/-- DSET (R716). -/
def DecCtx.setBy (x : DecCtx) (v : Pair) : DecCtx :=
  let sa : BitVec 4 := v.setWidth 4
  let sb : BitVec 4 := (v >>> 4).setWidth 4
  let sd : BitVec 4 := (v >>> 8).setWidth 4
  if 14 ≤ sa.toNat || 14 ≤ sb.toNat || 14 ≤ sd.toNat || v.toNat / 2 ^ 14 ≠ 0 then { x with err := true }
  else { sa := sa, sb := sb, sd := sd, mode := (v >>> 12).setWidth 2, err := false }

/-- The operation of COP 2 to 9 or 10 to 17 in a format of n digits (Table Decimal-3). -/
def decOp (n k : Nat) (x : DecScales) (a b : List Word) : DecResult :=
  match k with
  | 0 => decAdd n x false a b
  | 1 => decAdd n x true a b
  | 2 => decMul n x a b
  | 3 => decDiv n x a b
  | 4 => decCmp n x a b
  | 5 => decUnary n n x id a
  | 6 => decUnary n n x (fun c => -c) a
  | _ => decUnary n n x (fun c => (c.natAbs : Int)) a

/-- The result of a pure decimal operation (Table Decimal-3); `va` is pair pa, a and b the words of the operand runs, and `pb` the
field of DCLS. -/
def decCompute (x : DecCtx) (cop : Nat) (va : Pair) (a b : List Word) (pb : Fin 16) : DecResult :=
  let s := x.scales
  if cop = 0 then { words := leWords 2 x.word.toNat, mask := 0, value := 0, sticky := 0 }
  else if 2 ≤ cop && cop ≤ 9 then decOp dsDigits (cop - 2) s a b
  else if 10 ≤ cop && cop ≤ 17 then decOp dlDigits (cop - 10) s a b
  else if cop = 18 then decUnary dsDigits dlDigits s id a
  else if cop = 19 then decUnary dlDigits dsDigits s id a
  else if cop = 20 then decFromB s va
  else if cop = 21 then decToB s a
  else if cop = 22 then decNan va
  else decCls (if pb = 0 then dsDigits else dlDigits) a

/-- A DDIVS or DDIVL that divides a number by zero (R730). -/
def decTraps (cop : Nat) (a b : List Word) : Bool :=
  (cop = 5 && decDivZero dsDigits a b) || (cop = 13 && decDivZero dlDigits a b)

/-! Vector units -/

/-- π × 2⁹⁶, truncated. -/
def piScaled : Nat := 0x3243F6A8885A308D313198A2E

/-- The series of sin x, x in units of 2⁻⁹⁶, from its j-th term on. -/
def sineSeries (x : Nat) : Nat → Nat → Int → Int
  | 0, _, _ => 0
  | n + 1, j, term => term + sineSeries x n (j + 1) (-(term * x * x) / ((2 ^ 192 * ((2 * j + 2) * (2 * j + 3)) : Nat) : Int))

/-- round(2 048 × sin(2πθ ÷ 4 096)) for θ from 0 to 1 024 (R690). The series is carried to 2⁻⁹⁰; no value lies within 2⁻¹¹ of a tie. -/
def sineQuarter (t : Nat) : Int :=
  let x := piScaled * t / 2048
  (roundDiv 1 (2048 * sineSeries x 13 0 x) (2 ^ 96)).1

/-- S(θ) (R690). -/
def sineTable (t : Nat) : Int :=
  let a := t % 4096
  let v := if a ≤ 1024 then sineQuarter a else if a ≤ 2048 then sineQuarter (2048 - a)
    else if a ≤ 3072 then -sineQuarter (a - 2048) else -sineQuarter (4096 - a)
  min v 2047

/-- C(θ) (R690). -/
def cosineTable (t : Nat) : Int := sineTable (t + 1024)

/-- A sum of products divided by 2 048, rounded and limited (R691). -/
def q11 (x : Int) : Word := BitVec.ofInt 12 (max (-2048) (min 2047 (roundDiv 1 x 2048).1))

/-- Two Q11 values as a pair, the first in the low word (R690). -/
def q11Pair (first second : Word) : Pair := second ++ first

/-- CLARKE, SINCOS, PARK and IPARK (Table Ops-17). -/
def vecCompute (cop : Nat) (va vb : Pair) : Pair :=
  let a := (loWord va).toInt
  let b := (hiWord va).toInt
  let t := (loWord vb).toNat
  let s := sineTable t
  let c := cosineTable t
  match cop with
  | 0 => q11Pair (loWord va) (q11 ((a + 2 * b) * 1182))
  | 1 =>
    let u := (loWord va).toNat
    q11Pair (BitVec.ofInt 12 (sineTable u)) (BitVec.ofInt 12 (cosineTable u))
  | 2 => q11Pair (q11 (a * c + b * s)) (q11 (b * c - a * s))
  | _ => q11Pair (q11 (a * c - b * s)) (q11 (a * s + b * c))

/-- PISET (Table Ops-17, R692). -/
def PiChannel.gains (p : PiChannel) (va vb : Pair) : PiChannel :=
  if (hiWord vb).toInt < (loWord vb).toInt then p
  else { p with kp := loWord va, ki := hiWord va, lo := loWord vb, hi := hiWord vb }

/-- PISTEP (R692): u, and the channel after it. -/
def PiChannel.stepBy (p : PiChannel) (e : Word) : Word × PiChannel :=
  let i0 := p.integ.toInt + p.ki.toInt * e.toInt
  let i1 := if p.hi.toInt * 2048 < i0 then p.hi.toInt * 2048 else i0
  let i2 := if i1 < p.lo.toInt * 2048 then p.lo.toInt * 2048 else i1
  let u := (roundDiv 1 (p.kp.toInt * e.toInt + i2) 2048).1
  (BitVec.ofInt 12 (max p.lo.toInt (min p.hi.toInt u)), { p with integ := BitVec.ofInt 24 i2 })

/-! Crypto engine -/

/-- Words that hold n octets (R11). -/
def octetWords (n : Nat) : Nat := (2 * n + 2) / 3

/-- The extents that a crypto operation reads and writes: address and octets (R693, Table Ops-18). -/
def cryptoExtents (cop : Nat) (d a n : Nat) : Option (Nat × Nat) × Option (Nat × Nat) :=
  match cop with
  | 2 | 9 | 15 => (some (a, n), none)
  | 3 => (some (a, 16), none)
  | 4 | 5 | 6 | 7 | 8 | 10 | 11 => (some (a, n), some (d, n))
  | 12 => (none, some (d, 16))
  | 13 => (some (a, n), some (d, 16))
  | 16 => (none, some (d, 32))
  | 17 => (some (a, 160), none)
  | 18 => (none, some (d, 64))
  | 19 => (some (a, 64), some (d, 32))
  | _ => (none, none)

/-- The first word of an extent that lies outside tiles 1 to 15 (R693). -/
def extentFault : Option (Nat × Nat) → Option Nat
  | none => none
  | some (a, n) =>
    if n = 0 then none
    else if a < 0x110000 || 0x200000 ≤ a then some a
    else if 0x200000 < a + octetWords n then some 0x200000 else none

/-- Vector 4's sub-cause and the address where an extent cannot be reached (R693). DEDUCED (log 32). -/
def cryptoFault (cop d a n : Nat) : Option (Nat × Nat) :=
  let e := cryptoExtents cop d a n
  match extentFault e.1, extentFault e.2 with
  | some x, _ | none, some x => some (if 0x100000 ≤ x && x < 0x110000 then 1 else 0, x)
  | none, none => none

/-- Octets held in shared SRAM (R11, R693). -/
def State.tileOctets (s : State) (a n : Nat) : List Octet := wordsToOctets n (s.cohRead a (octetWords n))
def State.putTileOctets (s : State) (a : Nat) (os : List Octet) : State := if os.isEmpty then s else s.cohWrite a (octetsToWords os)

/-- The first word of an extent in a line with an error mark (R806). -/
def State.markedWord (s : State) : Option (Nat × Nat) → Option Nat
  | none => none
  | some (a, n) =>
    if n = 0 then none
    else (List.range (octetWords n)).find? (fun k => (s.mem.homeOf ((a + k) / 16)).err) |>.map (fun k => a + k)

/-- A string cut into blocks of 16 octets. -/
def blocks16 : Nat → List Octet → List (List Octet)
  | 0, _ => []
  | n + 1, os => if os.isEmpty then [] else os.take 16 :: blocks16 n (os.drop 16)
def blocksOf (os : List Octet) : List (List Octet) := blocks16 (os.length / 16 + 1) os

/-- A 128-bit big-endian counter plus k. -/
def beAdd (iv : List Octet) (k : Nat) : List Octet := (leOctets 16 (leNat iv.reverse + k)).reverse

/-- CBC encryption and decryption: the output, and the IV block after it. -/
def cbcEnc (key : List Octet) : List (List Octet) → List Octet → List Octet × List Octet
  | [], iv => ([], iv)
  | b :: bs, iv =>
    let c := aesEnc key (xorOctets b iv)
    let (r, iv1) := cbcEnc key bs c
    (c ++ r, iv1)
def cbcDec (key : List Octet) : List (List Octet) → List Octet → List Octet × List Octet
  | [], iv => ([], iv)
  | b :: bs, iv =>
    let p := xorOctets (aesDec key b) iv
    let (r, iv1) := cbcDec key bs b
    (p ++ r, iv1)

/-- n octets of the key stream of a counter block from its k-th block on. -/
def keyStream (key iv : List Octet) (k n : Nat) : List Octet :=
  ((List.range ((n + 15) / 16)).map (fun j => aesEnc key (beAdd iv (k + j)))).flatten.take n

/-- GCM's key stream at an octet offset: its counter block is the 12-octet IV and a 32-bit count that data starts at 2. DESIGN CHOICE (log 35). -/
def gcmStream (g : GcmState) (at_ n : Nat) : List Octet :=
  ((List.range ((at_ + n + 15) / 16)).map (fun j =>
    aesEnc g.key (g.iv ++ (leOctets 4 (2 + j)).reverse))).flatten.drop at_ |>.take n

/-- An operand that Table Ops-18 refuses. -/
def CryptoCtx.refuses (x : CryptoCtx) (cop n : Nat) (point : Bool) : Bool :=
  let noKey := x.key.isEmpty
  match cop with
  | 2 => !(n = 16 || n = 32)
  | 4 | 5 | 6 | 7 => n % 16 ≠ 0 || noKey
  | 8 | 9 | 13 => noKey
  | 10 | 11 | 12 => x.gcm.isNone
  | 14 => decide (1 < n) || (n = 1 && x.key.length ≠ 32)
  | 15 | 16 => x.sha.isNone
  | 19 => x.ephemeral.isNone || !point
  | _ => false

/-- CSTAT (Table Ops-18). -/
def CryptoCtx.status (x : CryptoCtx) : Pair :=
  BitVec.ofNat 24 (boolsNat [!x.key.isEmpty, x.sha.isSome, x.gcm.isSome, x.err])

/-- What an operation that is not refused leaves: the context and the octets written at pd; `inp` is what it read, `fresh` the number of
the free value that a key pair or a random number draws. -/
def CryptoCtx.run (x : CryptoCtx) (cop n : Nat) (inp : List Octet) (fresh : Nat) : CryptoCtx × List Octet :=
  match cop with
  | 2 => ({ x with key := inp }, [])
  | 3 => ({ x with iv := inp }, [])
  | 4 => (x, ((blocksOf inp).map (aesEnc x.key)).flatten)
  | 5 => (x, ((blocksOf inp).map (aesDec x.key)).flatten)
  | 6 => let (o, iv) := cbcEnc x.key (blocksOf inp) x.iv; ({ x with iv := iv }, o)
  | 7 => let (o, iv) := cbcDec x.key (blocksOf inp) x.iv; ({ x with iv := iv }, o)
  | 8 => ({ x with iv := beAdd x.iv ((n + 15) / 16) }, xorOctets inp (keyStream x.key x.iv 0 n))
  | 9 => ({ x with gcm := some { key := x.key, iv := x.iv.take 12, aad := inp, text := [] } }, [])
  | 10 =>
    (match x.gcm with
     | none => (x, [])
     | some g =>
       let o := xorOctets inp (gcmStream g g.text.length n)
       ({ x with gcm := some { g with text := g.text ++ o } }, o))
  | 11 =>
    (match x.gcm with
     | none => (x, [])
     | some g =>
       ({ x with gcm := some { g with text := g.text ++ inp } }, xorOctets inp (gcmStream g g.text.length n)))
  | 12 =>
    (match x.gcm with
     | none => (x, [])
     | some g => ({ x with gcm := none }, (gcmTag g.key g.iv g.aad g.text).take 16))
  | 13 => (x, (cmac x.key inp).take 16)
  | 14 => ({ x with sha := some { hmac := if n = 1 then some x.key else none, fed := [] } }, [])
  | 15 => ({ x with sha := x.sha.map (fun h => { h with fed := h.fed ++ inp }) }, [])
  | 16 =>
    (match x.sha with
     | none => (x, [])
     | some h =>
       ({ x with sha := none },
        (match h.hmac with | none => sha256 h.fed | some k => hmac k h.fed).take 32))
  | 18 => ({ x with ephemeral := some fresh }, (ecPublic fresh).take 64)
  | 19 =>
    (match x.ephemeral with
     | none => (x, [])
     | some k => ({ x with ephemeral := none }, ((ecShared k inp).getD []).take 32))
  | _ => (x, [])

/-- ECDH's peer key gives a shared secret (Table Ops-18). -/
def CryptoCtx.pointOk (x : CryptoCtx) (inp : List Octet) : Bool :=
  match x.ephemeral with | none => true | some k => (ecShared k inp).isSome

/-- ECVER (Table Ops-18): 1 when the point is valid and the signature verifies. -/
def ecVerify (os : List Octet) : Pair :=
  let key := os.take 64
  if ecPoint key && ecdsaVerify key ((os.drop 64).take 32) ((os.drop 96).take 64) then 1 else 0

/-! Operations released by a core -/

/-- What a coprocessor does with an operation that a core has released: the state, the registers written, or vector, sub-cause and
address of a trap (R691 to R694, R716). -/
abbrev Performed := State × List RegWrite × Option (Nat × Nat × Option Pair)

/-- Stateful vector operations (Table Ops-17). -/
def State.vectorPerform (s : State) (i : Fin 4) (d : Dispatch) : Performed :=
  let c := s.core.get i
  let ch (n : Fin 16) : Fin 4 := ⟨n.val % 4, Nat.mod_lt _ (by decide)⟩
  if d.cop = 4 then (s.setCore i { c with pi := c.pi.set (ch d.pd) ((c.pi.get (ch d.pd)).gains d.va d.vb) }, [], none)
  else if d.cop = 5 then (s.setCore i { c with pi := c.pi.set (ch d.pd) { c.pi.get (ch d.pd) with integ := 0 } }, [], none)
  else
    let (u, p) := (c.pi.get (ch d.pb)).stepBy (loWord d.va)
    (s.setCore i { c with pi := c.pi.set (ch d.pb) p }, pairWrites d.pd (q11Pair u 0), none)

/-- Stateful and effectful crypto operations (Table Ops-18); a read that meets an error mark does nothing and traps (R704, R806). -/
def State.cryptoPerform (s : State) (i : Fin 4) (d : Dispatch) : Performed :=
  let c := s.core.get i
  let n := d.vb.toNat
  if d.cop = 1 then
    let (v, s1) := s.draw
    (s1, pairWrites d.pd (BitVec.ofNat 24 v), none)
  else
    let ex := cryptoExtents d.cop d.vd.toNat d.va.toNat n
    match s.markedWord ex.1 with
    | some a => (s, [], some (6, 0, some (BitVec.ofNat 24 a)))
    | none =>
      let inp := match ex.1 with | none => [] | some (a, k) => s.tileOctets a k
      if c.crypto.refuses d.cop n (c.crypto.pointOk inp) then (s.setCore i { c with crypto := { c.crypto with err := true } }, [], none)
      else
        let (x, out) := c.crypto.run d.cop n inp s.free
        let s1 := if d.cop = 18 then { s with free := s.free + 1 } else s
        let s2 := s1.setCore i { c with crypto := x }
        (match ex.2 with | none => s2 | some (a, _) => s2.putTileOctets a out, [], none)

/-- A stateful or effectful operation takes effect. -/
def State.copPerform (s : State) (i : Fin 4) (d : Dispatch) : Performed :=
  if d.cp = 0 then
    let c := s.core.get i
    (s.setCore i { c with dec := c.dec.setBy d.va }, [], none)
  else if d.cp = 1 then s.vectorPerform i d
  else s.cryptoPerform i d

end Sys2Proof.Machine
end

