-- ==== Sys2Proof/Machine/PeriphOps.lean ====
section
/-! DEFINITION. The operations and registers of the general I/O blocks (spec/11_jieles_model.md, Tables Jieles-16 to
Jieles-21). -/
namespace Sys2Proof.Machine

def State.setPer (s : State) (p : Periph) : State := { s with per := p }

/-! DMA -/

def State.dma (s : State) (i : DmaIndex) : DmaChannel := s.per.dma.get i
def State.setDma (s : State) (i : DmaIndex) (c : DmaChannel) : State := s.setPer { s.per with dma := s.per.dma.set i c }

/-- The owner of a channel: cores 0 to 3 own four each, the Steward (4) sixteen (R630). -/
def dmaOwner (i : DmaIndex) : Fin 5 := if h : i.val < 16 then ⟨i.val / 4, by omega⟩ else 4

/-- [a, a + n) lies within SRAM tiles 1 to 15. -/
def inTiles (a n : Nat) : Bool := decide (0x110000 ≤ a) && decide (a + n ≤ 0x200000)

/-- A source extent is allowed (R631): tiles 1 to 15, or the owner's flash window; the Steward reaches tile 0 too. -/
def State.dmaSource (s : State) (r : Fin 5) (a n : Nat) : Bool :=
  inTiles a n || (s.inWindow r a && s.inWindow r (a + n - 1) && decide (bankOf a = bankOf (a + n - 1))) ||
    (decide (r.val = 4) && decide (0x100000 ≤ a) && decide (a + n ≤ 0x200000))

/-- A destination extent is allowed. -/
def dmaDest (r : Fin 5) (a n : Nat) : Bool :=
  inTiles a n || (decide (r.val = 4) && decide (0x100000 ≤ a) && decide (a + n ≤ 0x200000))

/-- The requester holds the ADC_ grant. -/
def State.holdsAdc (s : State) (r : Fin 5) : Bool :=
  if h : r.val < 4 then (s.core.get ⟨r.val, h⟩).grants.blocks.getLsbD 4 else true

/-- The error of a GO, 0 with none (R631). DEDUCED (log 44). -/
def State.dmaCheck (s : State) (i : DmaIndex) (c : DmaChannel) : Nat :=
  let r := dmaOwner i
  let n := c.cnt.toNat
  if n = 0 || (c.srck = 2 && n % 3 ≠ 0) then 4
  else if c.srck = 2 && !s.holdsAdc r then 5
  else if !dmaDest r c.dst.toNat (if c.dfix then 1 else n) then 1
  else if c.srck ≠ 2 && !s.dmaSource r c.src.toNat (if c.srck = 1 then 1 else n) then 1
  else 0

/-- A write of DMA_CTL (R631, Table Jieles-16). -/
def State.dmaCtl (s : State) (i : DmaIndex) (v : Word) : State :=
  let c := s.dma i
  if v.toNat % 4 = 3 then s.setDma i { c with badWr := true }
  else if v.getLsbD 4 && c.busy then s.setDma i { c with badWr := true }
  else
    let c1 := { c with srck := v.setWidth 2, dfix := v.getLsbD 2, ie := v.getLsbD 3 }
    if !v.getLsbD 4 then s.setDma i c1
    else
      let e := s.dmaCheck i c1
      if e ≠ 0 then s.setDma i { c1 with done := true, err := BitVec.ofNat 3 e }
      else s.setDma i { c1 with busy := true, err := 0, rem := c1.cnt, curSrc := c1.src, curDst := c1.dst }

/-- Words of the next line access: to the end of the source's line and of the destination's (R630). -/
def DmaChannel.chunk (c : DmaChannel) : Nat :=
  let s := if c.srck = 1 then 16 else 16 - c.curSrc.toNat % 16
  let d := if c.dfix then 16 else 16 - c.curDst.toNat % 16
  min c.rem.toNat (min s d)

/-- A transfer ends (R630, R631). -/
def DmaChannel.finish (c : DmaChannel) (err : Nat) : DmaChannel := { c with busy := false, done := true, err := BitVec.ofNat 3 err }

/-- Words written by a transfer to its destination. -/
def State.dmaStore (s : State) (c : DmaChannel) (ws : List Word) : State :=
  if c.dfix then (match ws.getLast? with | none => s | some w => s.cohWrite c.curDst.toNat [w])
  else s.cohWrite c.curDst.toNat ws

/-- A transfer's registers after n words. -/
def DmaChannel.advance (c : DmaChannel) (n : Nat) : DmaChannel :=
  let k := BitVec.ofNat 24 n
  { c with rem := c.rem - k, curSrc := if c.srck = 0 then c.curSrc + k else c.curSrc,
           curDst := if c.dfix then c.curDst else c.curDst + k }

/-- A line access of a memory transfer is acknowledged (R630, R631, R808, R826): `ec` is the error count of a flash line read, and
`tileErr` an uncorrectable tile read. -/
def State.dmaLine (s : State) (i : DmaIndex) (ec : BitVec 2) (tileErr : Bool) : State :=
  let c := s.dma i
  if !c.busy || c.srck = 2 then s
  else
    let n := c.chunk
    let put (s : State) (ws : List Word) : State :=
      let c1 := c.advance n
      (s.dmaStore c ws).setDma i (if c1.rem = 0 then c1.finish 0 else c1)
    let a := c.curSrc.toNat
    if (!inArray a && s.tileFailed a) || s.tileFailed c.curDst.toNat then s.setDma i (c.finish 1)
    else if inArray a then
      (match s.flashDirect (dmaOwner i) a (if c.srck = 1 then 1 else n) ec with
       | (.words ws, s1) => put s1 (if c.srck = 1 then List.replicate n (ws.headD 0) else ws)
       | (.busy, s1) => s1.setDma i (c.finish 2)
       | (.uncorrectable, s1) => s1.setDma i (c.finish 3))
    else if tileErr then s.setDma i (c.finish 3)
    else put s (if c.srck = 1 then List.replicate n ((s.cohRead a 1).headD 0) else s.cohRead a n)

/-- n entries popped from the ADC FIFO as words. -/
def popEntries : Nat → Adc → List Word → List Word × Adc
  | 0, a, ws => (ws, a)
  | n + 1, a, ws =>
    match a.fifo with
    | [] => (ws, a)
    | e :: rest => popEntries n { a with fifo := rest } (ws ++ [e.tag, e.a, e.b])

/-- Channels of the DMA engine in the round-robin order after a channel. -/
def dmaOrder (last : Nat) : List DmaIndex :=
  (List.range 32).map (fun k => ⟨(last + 1 + k) % 32, Nat.mod_lt _ (by decide)⟩)

/-- A DMA request of the ADC is served by one channel (R503, R632). -/
def State.dmaAdc (s : State) : State :=
  if !s.mot.adc.dmaDue then s
  else
    match (dmaOrder s.per.dmaTurn).find? (fun i => (s.dma i).busy && (s.dma i).srck = 2) with
    | none => s
    | some i =>
      let c := s.dma i
      if s.tileFailed c.curDst.toNat then s.setDma i (c.finish 1)
      else
      let n := min (4 * (s.mot.adc.thr.toNat + 1)) (c.rem.toNat / 3)
      let (ws, a) := popEntries n s.mot.adc []
      let c1 := c.advance ws.length
      let s1 := ((s.setAdc a).dmaStore c ws).setDma i (if c1.rem = 0 then c1.finish 0 else c1)
      s1.setPer { s1.per with dmaTurn := i.val }

/-- The register of a pair of words with its low or high half replaced. -/
def setHalf (x : Pair) (high : Bool) (v : Word) : Pair :=
  if high then v ++ (x.setWidth 12 : Word) else ((x >>> 12).setWidth 12 : Word) ++ v
def half24 (x : Pair) (high : Bool) : Word := if high then (x >>> 12).setWidth 12 else x.setWidth 12

/-- A read of a register of one channel (Table Jieles-16). -/
def State.dmaRead (s : State) (i : DmaIndex) (off : Nat) : Word × State :=
  let c := s.dma i
  let just (w : Word) : Word × State := (w, s)
  match off with
  | 0 => just (half24 c.src false)
  | 1 => just (half24 c.src true)
  | 2 => just (half24 c.dst false)
  | 3 => just (half24 c.dst true)
  | 4 => just (half24 c.cnt false)
  | 5 => just (half24 c.cnt true)
  | 6 => just (BitVec.ofNat 12 (c.srck.toNat + 4 * c.dfix.toNat + 8 * c.ie.toNat))
  | 7 => just (BitVec.ofNat 12 (c.busy.toNat + 2 * c.done.toNat + 4 * c.err.toNat + 32 * c.badWr.toNat))
  | 8 => (half24 c.rem false, s.setDma i { c with remLatch := half24 c.rem true })
  | 9 => just c.remLatch
  | _ => just 0

/-- A write of a register of one channel (R631). -/
def State.dmaWrite (s : State) (i : DmaIndex) (off : Nat) (v : Word) : State :=
  let c := s.dma i
  let addr (d : DmaChannel) : State := s.setDma i (if c.busy then { c with badWr := true } else d)
  match off with
  | 0 => addr { c with src := setHalf c.src false v }
  | 1 => addr { c with src := setHalf c.src true v }
  | 2 => addr { c with dst := setHalf c.dst false v }
  | 3 => addr { c with dst := setHalf c.dst true v }
  | 4 => addr { c with cnt := setHalf c.cnt false v }
  | 5 => addr { c with cnt := setHalf c.cnt true v }
  | 6 => s.dmaCtl i v
  | 7 => s.setDma i { c with done := c.done && !v.getLsbD 1, badWr := c.badWr && !v.getLsbD 5 }
  | _ => s

/-! CAN-B -/

/-- Octets of a data length code (ISO 11898-1). -/
def dlcOctets (fdf : Bool) (d : BitVec 4) : Nat :=
  let n := d.toNat
  if n ≤ 8 then n
  else if !fdf then 8
  else if n ≤ 12 then 8 + 4 * (n - 8)
  else if n = 13 then 32 else if n = 14 then 48 else 64

/-- The bit timing passes R635. -/
def CanB.timingOk (c : CanB) : Bool :=
  let nq := (c.npre.toNat + 1) * (1 + (c.ntseg1.toNat + 1) + (c.ntseg2.toNat + 1))
  let dq := (c.dpre.toNat + 1) * (1 + (c.dtseg1.toNat + 1) + (c.dtseg2.toNat + 1))
  decide (nq ≤ 640) && decide (80 ≤ nq) && decide (dq ≤ nq) && decide (16 ≤ dq) &&
    decide (c.nsjw.toNat ≤ c.ntseg2.toNat) && decide (c.dsjw.toNat ≤ c.dtseg2.toNat)

/-- A write of CANB_CTL (R635, R637). -/
def CanB.ctl (c : CanB) (v : Word) : CanB :=
  let mode : BitVec 2 := v.setWidth 2
  let c1 := { c with fden := v.getLsbD 2, brsen := v.getLsbD 3, tdcen := v.getLsbD 4, ie := (v >>> 5).setWidth 3 }
  if mode = 0 then { c1 with mode := 0 }
  else if c1.timingOk then { c1 with mode := mode }
  else { c1 with mode := 0, badCfg := true }

/-- An octet joins the staged frame; beyond the DLC's length it is ignored (Table Jieles-17). -/
def CanB.txData (c : CanB) (v : Word) : CanB :=
  let f := c.stage
  if f.data.length < dlcOctets f.fdf f.dlc then { c with stage := { f with data := f.data ++ [v.setWidth 8] } } else c

/-- The staged frame is committed to a buffer (R636). -/
def CanB.commit (c : CanB) (b : Fin 3) : CanB :=
  if (c.tx.get b).isSome then { c with badWr := true } else { c with tx := c.tx.set b (some c.stage), stage := emptyFrame }

/-- Buffers are aborted (R636); one whose frame is on the bus waits for that frame's end. -/
def CanB.abort (c : CanB) (m : BitVec 3) (onBus : Option (Fin 3)) : CanB :=
  ([0, 1, 2] : List (Fin 3)).foldl (fun (c : CanB) (b : Fin 3) =>
    if !m.getLsbD b || (c.tx.get b).isNone then c
    else if onBus = some b then { c with txAbort := c.txAbort ||| (1#3 <<< b.val) }
    else { c with tx := c.tx.set b none, txAbtd := c.txAbtd ||| (1#3 <<< b.val) }) c

/-- A filter matches a frame (R636). -/
def CanFilter.pass (f : CanFilter) (x : CanFrame) : Bool :=
  f.en && decide (x.id &&& f.mask = f.id &&& f.mask) && decide (x.ide = f.ide)

/-- Error active or passive by the counts (ISO 11898-1); bus off stays until its recovery ends (R637). PRESUMED (log 15). -/
def CanB.judge (c : CanB) : CanB :=
  if c.state = 2 then c else { c with state := if 128 ≤ c.tec.toNat || 128 ≤ c.recv.toNat then 1 else 0 }

/-- The bus-off recovery that a write of MODE 1 or 2 has begun ends (R637). -/
def CanB.recovered (c : CanB) : CanB :=
  if c.state = 2 && (c.mode = 1 || c.mode = 2) then { c with state := 0, tec := 0, recv := 0 } else c

/-- A frame is received (R634, R636). -/
def CanB.receive (c : CanB) (x : CanFrame) : CanB :=
  if c.mode = 0 || (c.state = 2 && c.mode ≠ 3) || (x.fdf && !c.fden) then c
  else
    let c1 := ({ c with recv := if 127 < c.recv.toNat then 120 else c.recv - (if c.recv = 0 then 0 else 1), lec := 0 } : CanB).judge
    let any := c.filters.toList.any (·.en)
    if any && !c.filters.toList.any (fun f => f.pass x) then c1
    else if 16 ≤ c1.rx.length then { c1 with rxOvf := true }
    else { c1 with rx := c1.rx ++ [x] }

/-- The frame of a buffer has left the bus, sent or not; `lec` is the error it met, 0 for lost arbitration (R636). PRESUMED (log 15). -/
def CanB.sent (c : CanB) (b : Fin 3) (ok : Bool) (lec : BitVec 3) : CanB :=
  match c.tx.get b with
  | none => c
  | some f =>
    if c.mode = 0 || (c.state = 2 && c.mode ≠ 3) then c
    else if ok then
      let c1 := { c with tx := c.tx.set b none, txDone := c.txDone ||| (1#3 <<< b.val), lec := 0,
                         txAbort := c.txAbort &&& ~~~(1#3 <<< b.val), tec := c.tec - (if c.tec = 0 then 0 else 1) }.judge
      if c.mode = 3 then c1.receive f else c1
    else
      let t := if lec = 0 then c.tec.toNat else min 255 (c.tec.toNat + 8)
      let c1 := { c with tec := BitVec.ofNat 8 t, lec := if lec = 0 then c.lec else lec }.judge
      if c.txAbort.getLsbD b then
        { c1 with tx := c1.tx.set b none, txAbort := c1.txAbort &&& ~~~(1#3 <<< b.val), txAbtd := c1.txAbtd ||| (1#3 <<< b.val) }
      else c1

/-- The head frame moves into the RX registers (Table Jieles-17). -/
def CanB.pop (c : CanB) : CanB :=
  match c.rx with
  | [] => { c with rxFrame := emptyFrame, rxRead := 0 }
  | f :: rest => { c with rx := rest, rxFrame := f, rxRead := 0 }

/-- Word 2 of an identifier (TXID2, RXID2). -/
def idWord2 (f : CanFrame) : Word :=
  BitVec.ofNat 12 (f.id.toNat / 0x1000000 + 32 * boolsNat [f.ide, f.fdf, f.brs, f.rtr])

def idSet (x : BitVec 29) (i : Nat) (v : Word) : BitVec 29 :=
  if i = 0 then (x &&& ~~~(0xFFF : BitVec 29)) ||| v.setWidth 29
  else if i = 1 then (x &&& ~~~(0xFFF000 : BitVec 29)) ||| (v.setWidth 29 <<< 12)
  else (x &&& (0xFFFFFF : BitVec 29)) ||| ((v.setWidth 29 &&& 0x1F) <<< 24)

def idGet (x : BitVec 29) (i : Nat) : Word := if i = 0 then x.setWidth 12 else (x >>> 12).setWidth 12

/-- The frame's kind bits from word 2. -/
def frameKind (f : CanFrame) (v : Word) : CanFrame :=
  { f with id := idSet f.id 2 v, ide := v.getLsbD 5, fdf := v.getLsbD 6, brs := v.getLsbD 7, rtr := v.getLsbD 8 }

/-- The CANB block requests (R637). -/
def CanB.requests (c : CanB) : Bool :=
  (!c.rx.isEmpty && c.ie.getLsbD 0) || ((c.txDone ||| c.txAbtd) != 0 && c.ie.getLsbD 1) ||
    ((c.boff || c.rxOvf) && c.ie.getLsbD 2)

/-- A write of a timing register: only in configuration mode (R635). -/
def CanB.timing (c d : CanB) : CanB := if c.mode = 0 then d else { c with badCfg := true }

/-- A read of a CANB_ register. -/
def CanB.read (c : CanB) (off : Nat) : Word × CanB :=
  let just (n : Nat) : Word × CanB := (BitVec.ofNat 12 n, c)
  match off with
  | 0x000 => just (c.mode.toNat + 4 * boolsNat [c.fden, c.brsen, c.tdcen] + 32 * c.ie.toNat)
  | 0x001 => just c.npre.toNat
  | 0x002 => just c.ntseg1.toNat
  | 0x003 => just c.ntseg2.toNat
  | 0x004 => just c.nsjw.toNat
  | 0x005 => just c.dpre.toNat
  | 0x006 => just c.dtseg1.toNat
  | 0x007 => just c.dtseg2.toNat
  | 0x008 => just c.dsjw.toNat
  | 0x009 => just c.tdco.toNat
  | 0x00A => (idGet c.stage.id 0, c)
  | 0x00B => (idGet c.stage.id 1, c)
  | 0x00C => (idWord2 c.stage, c)
  | 0x00D => just c.stage.dlc.toNat
  | 0x010 =>
    just (boolsNat (c.tx.toList.map (·.isSome)) + 8 * c.txDone.toNat + 64 * c.txAbtd.toNat)
  | 0x012 => just c.rx.length
  | 0x014 => (idGet c.rxFrame.id 0, c)
  | 0x015 => (idGet c.rxFrame.id 1, c)
  | 0x016 => (idWord2 c.rxFrame, c)
  | 0x017 => just c.rxFrame.dlc.toNat
  | 0x018 => ((c.rxFrame.data.getD c.rxRead 0).setWidth 12, { c with rxRead := c.rxRead + 1 })
  | 0x019 => just c.tec.toNat
  | 0x01A => just c.recv.toNat
  | 0x01B => just (c.state.toNat + 4 * boolsNat [c.boff, c.rxOvf, c.badCfg, c.badWr] + 64 * c.lec.toNat)
  | _ =>
    if h : 0x020 ≤ off ∧ off < 0x040 then
      let f := c.filters.get ⟨(off - 0x020) / 8, by omega⟩
      (match off % 8 with
       | 0 => (idGet f.id 0, c)
       | 1 => (idGet f.id 1, c)
       | 2 => just (f.id.toNat / 0x1000000 + 32 * f.ide.toNat + 64 * f.idHigh.toNat)
       | 3 => (idGet f.mask 0, c)
       | 4 => (idGet f.mask 1, c)
       | 5 => just (f.mask.toNat / 0x1000000 + 32 * f.maskHigh.toNat)
       | 6 => just f.en.toNat
       | _ => just 0)
    else just 0

/-- A write of a CANB_ register. -/
def CanB.write (c : CanB) (off : Nat) (v : Word) : CanB :=
  match off with
  | 0x000 => c.ctl v
  | 0x001 => c.timing { c with npre := v.setWidth 5 }
  | 0x002 => c.timing { c with ntseg1 := v.setWidth 8 }
  | 0x003 => c.timing { c with ntseg2 := v.setWidth 7 }
  | 0x004 => c.timing { c with nsjw := v.setWidth 7 }
  | 0x005 => c.timing { c with dpre := v.setWidth 5 }
  | 0x006 => c.timing { c with dtseg1 := v.setWidth 5 }
  | 0x007 => c.timing { c with dtseg2 := v.setWidth 4 }
  | 0x008 => c.timing { c with dsjw := v.setWidth 4 }
  | 0x009 => c.timing { c with tdco := v.setWidth 7 }
  | 0x00A => { c with stage := { c.stage with id := idSet c.stage.id 0 v } }
  | 0x00B => { c with stage := { c.stage with id := idSet c.stage.id 1 v } }
  | 0x00C => { c with stage := frameKind c.stage v }
  | 0x00D => { c with stage := { c.stage with dlc := v.setWidth 4 } }
  | 0x00E => c.txData v
  | 0x00F => if h : v.toNat % 4 < 3 then c.commit ⟨v.toNat % 4, h⟩ else { c with stage := emptyFrame }
  | 0x010 => { c with txDone := c.txDone &&& ~~~((v >>> 3).setWidth 3), txAbtd := c.txAbtd &&& ~~~((v >>> 6).setWidth 3) }
  | 0x011 => c.abort (v.setWidth 3) none
  | 0x013 => c.pop
  | 0x01B => { c with boff := c.boff && !v.getLsbD 2, rxOvf := c.rxOvf && !v.getLsbD 3,
                      badCfg := c.badCfg && !v.getLsbD 4, badWr := c.badWr && !v.getLsbD 5 }
  | _ =>
    if h : 0x020 ≤ off ∧ off < 0x040 then
      let n : Fin 4 := ⟨(off - 0x020) / 8, by omega⟩
      let f := c.filters.get n
      let put (f : CanFilter) : CanB := { c with filters := c.filters.set n f }
      (match off % 8 with
       | 0 => put { f with id := idSet f.id 0 v }
       | 1 => put { f with id := idSet f.id 1 v }
       | 2 => put { f with id := idSet f.id 2 v, ide := v.getLsbD 5, idHigh := (v >>> 6).setWidth 3 }
       | 3 => put { f with mask := idSet f.mask 0 v }
       | 4 => put { f with mask := idSet f.mask 1 v }
       | 5 => put { f with mask := idSet f.mask 2 v, maskHigh := (v >>> 5).setWidth 4 }
       | 6 => put { f with en := v.getLsbD 0 }
       | _ => c)
    else c

/-! I2C -/

/-- A transfer ends with a result (R638). -/
def I2c.finish (i : I2c) (res : Nat) : I2c := { i with busy := false, done := true, res := BitVec.ofNat 3 res }

/-- Command 1 or 2 starts a transfer; with the mode off or a transfer in progress it does nothing (R638). DEDUCED (log 113). -/
def I2c.start (i : I2c) (hold : Bool) : I2c :=
  if i.mode = 0 || i.busy then i
  else
    let i1 := { i with held := false, holdAfter := hold, cnt := 0, res := 0 }
    if i.len = 0 || (!i.rd && decide (i.tx.length < i.len.toNat)) then i1.finish 7 else { i1 with busy := true }

/-- The transfer in progress ends: n octets acknowledged, or the octets received, with the result of the bus. -/
def I2c.ends (i : I2c) (res n : Nat) (got : List Octet) : I2c :=
  if !i.busy then i
  else
    let hold := i.holdAfter && decide (res = 1)
    if i.rd then
      let g := got.take (min i.len.toNat (256 - i.rx.length))
      { i.finish res with rx := i.rx ++ g, cnt := BitVec.ofNat 9 g.length, held := hold }
    else
      let k := min n i.len.toNat
      { i.finish res with tx := i.tx.drop k, cnt := BitVec.ofNat 9 k, held := hold }

/-- A read of an I2C_ register. -/
def I2c.read (i : I2c) (off : Nat) : Word × I2c :=
  let just (n : Nat) : Word × I2c := (BitVec.ofNat 12 n, i)
  match off with
  | 0x000 => just (i.mode.toNat + 4 * i.ie.toNat)
  | 0x001 => just (i.ta.toNat + 128 * i.rd.toNat)
  | 0x002 => just i.len.toNat
  | 0x005 => ((i.rx.headD 0).setWidth 12, { i with rx := i.rx.drop 1 })
  | 0x006 => just (i.busy.toNat + 2 * i.done.toNat + 4 * i.res.toNat + 32 * i.badWr.toNat)
  | 0x007 => just i.cnt.toNat
  | 0x008 => just i.tx.length
  | 0x009 => just i.rx.length
  | _ => just 0

/-- A write of an I2C_ register (R638). -/
def I2c.write (i : I2c) (off : Nat) (v : Word) : I2c :=
  match off with
  | 0x000 => if i.busy then { i with badWr := true } else { i with mode := v.setWidth 2, ie := v.getLsbD 2 }
  | 0x001 => if i.busy then { i with badWr := true } else { i with ta := v.setWidth 7, rd := v.getLsbD 7 }
  | 0x002 => if i.busy then { i with badWr := true } else { i with len := v.setWidth 9 }
  | 0x003 => if v.toNat % 4 = 1 then i.start false else if v.toNat % 4 = 2 then i.start true else i
  | 0x004 => if 256 ≤ i.tx.length then { i with badWr := true } else { i with tx := i.tx ++ [v.setWidth 8] }
  | 0x006 => { i with done := i.done && !v.getLsbD 1, badWr := i.badWr && !v.getLsbD 5 }
  | _ => i

/-! Sensor SPI -/

/-- GO (R639). -/
def Sspi.go (x : Sspi) : Sspi :=
  if x.busy || x.len = 0 then { x with badWr := true }
  else
    let n := x.len.toNat
    { x with busy := true, sent := x.tx.take n ++ List.replicate (n - x.tx.length) 0, tx := x.tx.drop n }

/-- The transaction ends with the octets received (R639). -/
def Sspi.ends (x : Sspi) (got : List Octet) : Sspi :=
  if !x.busy then x
  else
    let g := got.take x.len.toNat
    let room := 256 - x.rx.length
    { x with busy := false, done := true, rx := x.rx ++ g.take room, rxOvf := x.rxOvf || decide (room < g.length) }

def Sspi.read (x : Sspi) (off : Nat) : Word × Sspi :=
  let just (n : Nat) : Word × Sspi := (BitVec.ofNat 12 n, x)
  match off with
  | 0x000 => just (x.mode.toNat + 4 * x.div.toNat + 64 * x.cs.toNat + 128 * x.ie.toNat)
  | 0x001 => just x.len.toNat
  | 0x004 => ((x.rx.headD 0).setWidth 12, { x with rx := x.rx.drop 1 })
  | 0x005 => just (boolsNat [x.busy, x.done, x.rxOvf, x.badWr])
  | 0x006 => just x.tx.length
  | 0x007 => just x.rx.length
  | _ => just 0

def Sspi.write (x : Sspi) (off : Nat) (v : Word) : Sspi :=
  match off with
  | 0x000 =>
    if x.busy then { x with badWr := true }
    else { x with mode := v.setWidth 2, div := (v >>> 2).setWidth 4, cs := v.getLsbD 6, ie := v.getLsbD 7 }
  | 0x001 => if x.busy then { x with badWr := true } else { x with len := v.setWidth 9 }
  | 0x002 => if v.getLsbD 0 then x.go else x
  | 0x003 => if 256 ≤ x.tx.length then { x with badWr := true } else { x with tx := x.tx ++ [v.setWidth 8] }
  | 0x005 => { x with done := x.done && !v.getLsbD 1, rxOvf := x.rxOvf && !v.getLsbD 2, badWr := x.badWr && !v.getLsbD 3 }
  | _ => x

/-! GNSS -/

/-- An octet is received (Table Jieles-20). -/
def Gnss.receive (g : Gnss) (o : Octet) (ferr : Bool) : Gnss :=
  if !g.en then g else if 256 ≤ g.rx.length then { g with rxOvf := true } else { g with rx := g.rx ++ [(o, ferr)] }

/-- A PPS edge is captured (R640). -/
def Gnss.ppsAt (g : Gnss) (now : BitVec 36) : Gnss := { g with pps := some now, ppsMiss := g.ppsMiss || g.ppsNew, ppsNew := true }

/-- An octet joins the transmit FIFO (Table Jieles-20). DEDUCED (log 113). -/
def Gnss.txd (g : Gnss) (v : Word) : Gnss :=
  if 64 ≤ g.tx.length then { g with badWr := true } else { g with tx := g.tx ++ [v.setWidth 8] }

def Gnss.read (g : Gnss) (r : Fin 6) (off : Nat) : Word × Gnss :=
  let just (n : Nat) : Word × Gnss := (BitVec.ofNat 12 n, g)
  match off with
  | 0x000 => just (g.rate.toNat + 8 * boolsNat [g.en, g.ieRx, g.iePps, g.ppsEdge])
  | 0x002 =>
    (match g.rx with
     | [] => just 0
     | (o, f) :: rest => (BitVec.ofNat 12 (o.toNat + 256 + 512 * f.toNat), { g with rx := rest }))
  | 0x003 => just (boolsNat [g.rxOvf, g.ppsNew, g.ppsMiss, g.badWr])
  | 0x004 => just g.rx.length
  | 0x005 => just g.tx.length
  | 0x006 =>
    let p := g.pps.getD 0
    (p.setWidth 12, { g with ppsLatch := g.ppsLatch.set r ((p >>> 12).setWidth 24) })
  | 0x007 => (half24 (g.ppsLatch.get r) false, g)
  | 0x008 => (half24 (g.ppsLatch.get r) true, g)
  | _ => just 0

def Gnss.write (g : Gnss) (off : Nat) (v : Word) : Gnss :=
  match off with
  | 0x000 => { g with rate := v.setWidth 3, en := v.getLsbD 3, ieRx := v.getLsbD 4, iePps := v.getLsbD 5, ppsEdge := v.getLsbD 6 }
  | 0x001 => g.txd v
  | 0x003 => { g with rxOvf := g.rxOvf && !v.getLsbD 0, ppsNew := g.ppsNew && !v.getLsbD 1,
                      ppsMiss := g.ppsMiss && !v.getLsbD 2, badWr := g.badWr && !v.getLsbD 3 }
  | _ => g

/-- The SERIAL source's request of each block (R638 to R640). -/
def I2c.requests (i : I2c) : Bool := i.done && i.ie
def Sspi.requests (x : Sspi) : Bool := x.done && x.ie
def Gnss.requests (g : Gnss) : Bool := (!g.rx.isEmpty && g.ieRx) || (g.ppsNew && g.iePps)

/-- A PPS edge, while the PLL is locked (R640). -/
def State.ppsEdge (s : State) : State :=
  if s.clk.pllLocked then s.setPer { s.per with gnss := s.per.gnss.ppsAt s.clk.now } else s

/-! GPIO -/

/-- Word j of a per-ball register of 40 bits (Table Jieles-21). -/
def ballWord (x : BitVec 40) (j : Nat) : Word := (x >>> (12 * j)).setWidth 12
def setBallWord (x : BitVec 40) (j : Nat) (v : Word) : BitVec 40 :=
  (x &&& ~~~((0xFFF : BitVec 40) <<< (12 * j))) ||| (v.setWidth 40 <<< (12 * j))

/-- An edge at a ball (R641, Table Jieles-21). -/
def Gpio.edge (g : Gpio) (n : Fin 40) (level : Bool) : Gpio :=
  if g.inp.getLsbD n = level then g
  else
    let bit := (1#40 <<< n.val)
    let hit := g.ien.getLsbD n && (g.iedge.getLsbD n != level)
    { g with inp := if level then g.inp ||| bit else g.inp &&& ~~~bit, iflg := if hit then g.iflg ||| bit else g.iflg }

/-- The end of a PWM period: the shadows take effect (R641). -/
def Gpio.periodEnd (g : Gpio) : Gpio := { g with actPer := g.per, actHigh := g.high }

/-- Word 1 of the period (8) or of a high time (0 to 7) (R641). With no word 0 staged, bits 11:0 keep the shadow's. -/
def Gpio.word1 (g : Gpio) (n : Fin 9) (v : Word) : Gpio :=
  if h : n.val < 8 then
    let lo := (g.highStage.get ⟨n.val, h⟩).getD ((g.high.get ⟨n.val, h⟩).setWidth 12)
    { g with high := g.high.set n.val (v ++ lo) h, highStage := g.highStage.set n.val none h }
  else
    let lo := g.perStage.getD (g.per.setWidth 12)
    let x : Pair := v ++ lo
    if x.toNat < 16 then { g with badWr := true, perStage := none } else { g with per := x, perStage := none }

def Gpio.read (g : Gpio) (off : Nat) : Word :=
  if off < 0x004 then ballWord g.dir off
  else if off < 0x008 then ballWord g.out (off - 0x004)
  else if off < 0x00C then ballWord ((g.inp &&& ~~~g.dir) ||| (g.out &&& g.dir)) (off - 0x008)
  else if off < 0x010 then ballWord g.pull (off - 0x00C)
  else if off < 0x014 then ballWord g.ien (off - 0x010)
  else if off < 0x018 then ballWord g.iedge (off - 0x014)
  else if off < 0x01C then ballWord g.iflg (off - 0x018)
  else if off = 0x01C then BitVec.ofNat 12 g.badWr.toNat
  else if off = 0x020 then g.pwmEn.setWidth 12
  else if off = 0x021 then half24 g.per false
  else if off = 0x022 then half24 g.per true
  else if h : 0x028 ≤ off ∧ off < 0x038 then half24 (g.high.get ⟨(off - 0x028) / 2, by omega⟩) (off % 2 = 1)
  else 0

def Gpio.write (g : Gpio) (off : Nat) (v : Word) : Gpio :=
  if off < 0x004 then { g with dir := setBallWord g.dir off v }
  else if off < 0x008 then { g with out := setBallWord g.out (off - 0x004) v }
  else if off < 0x00C then g
  else if off < 0x010 then { g with pull := setBallWord g.pull (off - 0x00C) v }
  else if off < 0x014 then { g with ien := setBallWord g.ien (off - 0x010) v }
  else if off < 0x018 then { g with iedge := setBallWord g.iedge (off - 0x014) v }
  else if off < 0x01C then { g with iflg := g.iflg &&& ~~~((v.setWidth 40 : BitVec 40) <<< (12 * (off - 0x018))) }
  else if off = 0x01C then { g with badWr := g.badWr && !v.getLsbD 0 }
  else if off = 0x020 then { g with pwmEn := v.setWidth 8 }
  else if off = 0x021 then { g with perStage := some v }
  else if off = 0x022 then g.word1 8 v
  else if h : 0x028 ≤ off ∧ off < 0x038 then
    (if off % 2 = 0 then { g with highStage := g.highStage.set ((off - 0x028) / 2) (some v) (by omega) }
     else g.word1 ⟨(off - 0x028) / 2, by omega⟩ v)
  else g

end Sys2Proof.Machine
end

