-- ==== Sys2Proof/Machine/CoreOps.lean ====
section
/-! DEFINITION. Program images (R621 to R628), the start, stop and reset of a core (R199, R624, R627), and the PMU_ block
(Tables Fabric-3, Power-3, Start-9). -/
namespace Sys2Proof.Machine

/-! The VCORE target -/

def allCores : List (Fin 4) := [0, 1, 2, 3]

/-- The highest of the Steward's request and the enabled requests of the cores (R88). -/
def Clocks.highest (c : Clocks) : Nat :=
  allCores.foldl (fun m i => let r := c.opreq.get i; if r.en then max m r.vcode.toNat else m) c.stewardReq.toNat

/-- The vehicle edition's ceiling (R88). -/
def State.ceiling (s : State) : Nat := s.veh 2

/-- The target that the requests give (R88, R94, R122). -/
def State.wantedTarget (s : State) : Nat :=
  if s.clk.held then 50
  else
    let t := min s.clk.highest s.ceiling
    if s.clk.alarm then min t 10 else t

/-- The power manager applies the target; SETTLED falls with a new one (R88, R121). DEDUCED (log 72). -/
def State.retarget (s : State) : State :=
  let t := BitVec.ofNat 7 s.wantedTarget
  if t = s.clk.target then s else { s with clk := { s.clk with target := t, settled := false } }

/-- PMU_OPSTAT.CLAMP (Table Fabric-3, R126): a clamp that the rise of ALARM made lasts until ALARM falls. DEDUCED (log 72). -/
def State.clamped (s : State) : Bool :=
  decide (s.ceiling < s.clk.highest) || s.clk.clamp || (s.clk.alarm && decide (10 < s.clk.highest))

/-- A core writes PMU_OPREQ (R88, R92, R122). -/
def State.opreqWrite (s : State) (i : Fin 4) (v : Word) : State :=
  let code : BitVec 7 := v.setWidth 7
  if 100 < code.toNat then { s with clk := { s.clk with badReq := s.clk.badReq.set i true } }
  else ({ s with clk := { s.clk with opreq := s.clk.opreq.set i { en := v.getLsbD 7, vcode := code } } }).retarget

def State.setWdt (s : State) (i : Fin 4) (w : CoreWdt) : State := { s with boot := { s.boot with wdt := s.boot.wdt.set i w } }

/-- A core writes PMU_WDT (R227 to R229, Table Start-9). -/
def State.wdtWrite (s : State) (i : Fin 4) (v : Word) : State :=
  let per : BitVec 4 := (v >>> 1).setWidth 4
  let w := s.boot.wdt.get i
  if 12 ≤ per.toNat then s.raise 0x1008 [BitVec.ofNat 8 i.val, per.setWidth 8]
  else if w.en then s
  else s.setWdt i { w with en := v.getLsbD 5, per := per }

/-- PMU_SUPPLY (Table Power-3). -/
def State.pmuSupply (s : State) : Word :=
  let level := match s.pow.cLevel with | .absent => 0 | .v18 => 32 | .v33 => 96
  BitVec.ofNat 12 (s.pow.aoSrc.toNat + 2 * s.pow.aoLow.toNat + 4 * s.hold.ready + level)

/-- A core's read of a PMU_ register. -/
def State.pmuRead (s : State) (i : Fin 4) (off : Nat) : Word :=
  let c := s.clk
  let w := s.boot.wdt.get i
  match off with
  | 0x000 => let r := c.opreq.get i; BitVec.ofNat 12 (r.vcode.toNat + 128 * r.en.toNat)
  | 0x001 => BitVec.ofNat 12 (c.target.toNat + 128 * boolsNat [c.settled, c.badReq.get i, s.clamped])
  | 0x002 => c.temp
  | 0x003 => BitVec.ofNat 12 (c.band.toNat + 4 * c.alarm.toNat)
  | 0x004 => s.pmuSupply
  | 0x005 => BitVec.ofNat 12 (2 * w.per.toNat + 32 * w.en.toNat + 64 * w.cause.toNat)
  | _ => 0

/-! Program images -/

/-- The words that a Speedwell or plain entry takes from an image: its place 0 to 4 (R621). -/
abbrev EntryNo := Fin 5

/-- The active program image (R621, R1018). -/
def State.activeImage (s : State) : Option (List Word) := s.cus.imageActive.bind (fun k => (s.img.slots.get k).map (·.words))

/-- Length L of an image (R621). -/
def imageLength (ws : List Word) : Nat := wNum ws 28 2

/-- The signature of an image verifies under a key (R621). -/
def imageSigned (key : List Octet) (ws : List Word) : Bool :=
  let n := imageLength ws
  ecdsaVerify key (sha256 (packWords (ws.take n))) (wordsToOctets 64 ((ws.drop n).take 43))

/-- The active image verifies under the key that verified it at staging (R624, R1016). -/
def State.imageVerified (s : State) : Bool :=
  match s.cus.imageActive.bind (fun k => s.img.slots.get k) with
  | none => false
  | some x => match x.key with | none => false | some k => imageSigned k x.words

/-- One section of an image (Table Jieles-14). -/
structure Section where
  kind : Nat
  /-- Bits 7:4 of word 0 for cores 0 to 3, bit 8 for the Speedwell core. -/
  targets : Nat
  load : Nat
  len : Nat
  contents : List Word
  deriving DecidableEq, Repr

/-- The sections of an image. -/
def imageSections (ws : List Word) : List Section :=
  (List.range (wN ws 27)).map (fun j =>
    let b := 40 + 8 * j
    let n := wNum ws (b + 3) 2
    { kind := wN ws b % 8, targets := wN ws b / 16 % 32, load := wNum ws (b + 1) 2, len := n,
      contents := (ws.drop (wNum ws (b + 5) 2)).take n })

/-- The scratch of a core started at an entry (R624, R627). -/
def scratchOf (ws : List Word) (e : EntryNo) : List (Nat × Word) :=
  (imageSections ws).foldl (fun m x =>
    if x.targets / 2 ^ e.val % 2 = 0 then m
    else if x.kind = 4 then memSetList 0 x.load x.contents m
    else if x.kind = 5 then memClear x.load (x.load + x.len) m
    else m) []

/-- Tiles 1 to 15 as a program start leaves them: zero, then the sections, then the parameter area (R624, R931). -/
def State.loadTiles (s : State) (ws : List Word) : State :=
  let m0 := memClear 0x110000 0x200000 s.mem.sram
  let m1 := (imageSections ws).foldl (fun m x =>
    if x.kind = 1 || x.kind = 2 then memSetList 0 x.load x.contents m
    else if x.kind = 3 then memClear x.load (x.load + x.len) m
    else m) m0
  let v := s.edition .vehicle
  let m2 := if wN v 126 = 0 then m1 else memSetList 0 (wNum v 124 2) ((v.drop 128).take (wN v 126)) m1
  { s with mem := { s.mem with sram := m2, home := s.mem.home.filter (fun p => p.1 < 0x11000),
                               dcache := Vector.replicate 5 [], icache := Vector.replicate 4 [],
                               msgs := [], loaded := [] } }

/-- The routes of a grants payload that name a target (0 to 3 a core, 4 the Speedwell core), as bits (R283). -/
def routeBits (p : List Word) (e : EntryNo) : BitVec 4 :=
  BitVec.ofNat 4 (boolsNat ((List.range 4).map (fun c => decide (wN p (80 + 4 * c) = e.val))))

/-- The grant set of an entry (R597, Table Cmd-25). -/
def grantSetOf (p : List Word) (e : EntryNo) : GrantSet :=
  let b := 16 * e.val
  { crypto := (wAt p b).getLsbD 0,
    blocks := BitVec.ofNat 15 (wN p b / 2 * 2 + 4096 * (wN p (b + 1) % 8)),
    routes := routeBits p e, windowValid := decide (wN p (b + 2) = 1), bank := (wAt p (b + 3)).getLsbD 0,
    first := BitVec.ofNat 7 (wN p (b + 3) / 2), last := BitVec.ofNat 7 (wN p (b + 4)) }

/-- The routes of the application channels to a core that starts at an entry (R283, R598); other cores' routes stay. DEDUCED (log 124). -/
def State.takeRoutes (s : State) (i : Fin 4) (e : EntryNo) : State :=
  let p := s.edition .grants
  let r (c : Fin 4) : Option AppRoute :=
    let b := 80 + 4 * c.val
    if wN p b = e.val then some { core := i, base := wNum p (b + 1) 2, limit := wN p (b + 3) }
    else
      match s.host.routes.get c with
      | none => none
      | some x => if x.core = i then none else some x
  { s with host := { s.host with routes := #v[r 0, r 1, r 2, r 3], pend := s.host.pend.set i 0 } }

/-- Released operations of a core that a coprocessor still holds run to completion (R800). -/
def State.finishReleased (s : State) (i : Fin 4) : State :=
  (s.core.get i).window.foldl (fun (s : State) (e : Entry) =>
    match e.effect with
    | some (.inFlight d _) => (s.copPerform i d).1
    | _ => s) s

/-- Cancel tokens for pure operations that a coprocessor holds for a core (R755, R800). -/
def cancelTokens (i : Fin 4) (l : List Entry) : List (Coproc × Fin 5 × Nat) :=
  l.filterMap (fun e => match e.cop, e.effect with
    | some p, none => if e.late then some (p, ⟨i.val, by omega⟩, e.tag) else none
    | _, _ => none)

/-- A core starts at an entry of an image (R229, R598, R624). -/
def State.startCore (s : State) (ws : List Word) (i : Fin 4) (e : EntryNo) : State :=
  let old := s.core.get i
  let wd := wN ws (17 + e.val)
  let entry := wNum ws (5 + 2 * e.val) 2
  let c : CoreState :=
    { CoreState.reset with
        run := .running, speedwell := decide (e.val = 4), ctl := BitVec.ofNat 5 (wN ws (22 + e.val) % 8),
        tvb := BitVec.ofNat 24 (wNum ws 15 2 / 128 * 128), pc := BitVec.ofNat 24 entry, scratch := scratchOf ws e,
        grants := grantSetOf (s.edition .grants) e, nextTag := old.nextTag, nextBundle := old.nextBundle,
        trace := old.trace,
        doubleVector := old.doubleVector, doubleEpc := old.doubleEpc, doubleEaddr := old.doubleEaddr }
  let w := s.boot.wdt.get i
  ((s.setCore i c).setWdt i { cause := w.cause, en := decide (wd / 16 % 2 = 1), per := BitVec.ofNat 4 (wd % 16) }).takeRoutes i e

/-- A core passed its self-test (R652). -/
def State.corePassed (s : State) (i : Fin 4) : Bool := s.boot.units.get (UnitId.core i) = .passed

/-- The cores that a program start starts at a tier, with their entries (R216, R624). -/
def State.toStart (s : State) (ws : List Word) (t : Tier) : List (Fin 4 × EntryNo) :=
  let passed := allCores.filter (fun i => s.corePassed i)
  match t with
  | .t3 => (passed.filter (fun i => (wAt ws 4).getLsbD i.val)).map (fun i => (i, ⟨i.val, by omega⟩))
  | .t2 => if (wAt ws 4).getLsbD 4 then (passed.take 1).map (fun i => (i, 4)) else []
  | .t0 | .t1 => []

/-- A program start at the present tier (R216, R624, R626); `bad`: a section read met an uncorrectable error. -/
def State.startPrograms (s : State) (bad : Bool) : State :=
  match s.activeImage with
  | none => s
  | some ws =>
    let l := s.toStart ws s.boot.tier
    if l.isEmpty then s
    else if !s.imageVerified then ({ s with img := { s.img with rejected := true } }).raise 0x7001 [0]
    else if bad then ({ s with img := { s.img with rejected := true } }).raise 0x7001 [1]
    else
      l.foldl (fun (s : State) (p : Fin 4 × EntryNo) => s.startCore ws p.1 p.2)
        (({ s with img := { s.img with rejected := false } }).loadTiles ws)

/-! Stopping and resetting a core -/

/-- A cache gives up every line, dirty ones to their homes (R199, Tables Flight-7 and Flight-8). -/
def Memory.flushCache (m : Memory) (c : CacheId) : Memory :=
  let m1 := (m.cache c).foldl (fun (m : Memory) (p : Nat × CacheLine) =>
    Memory.drain p.1 0 64 ((Memory.drain p.1 0 64 m).evict c p.1)) m
  { m1 with loaded := m1.loaded.filter (fun x => x.cache ≠ c) }

/-- The DMA channels of a core return to their reset values (R633). -/
def State.dmaResetCore (s : State) (i : Fin 4) : State :=
  s.setPer { s.per with dma := Vector.ofFn (fun j : Fin 32 => if j.val / 4 = i.val then DmaChannel.reset else s.per.dma.get j) }

/-- A core is stopped as a core reset stops it (R199, R224, R628): its cache is written back, its state is zero, its
operations in flight will return stale, its PMU_OPREQ, its DMA channels and its flash assembly are reset, and the Teasel
latch is set when it held the PWM_ grant. Its window tags are free at once (R754). Its latch of TCAP_NOW (R118) stays as it is. DEDUCED
(log 79). DESIGN CHOICE (log 142). -/
def State.stopCore (s0 : State) (i : Fin 4) (run : RunState) : State :=
  let s := s0.finishReleased i
  let old := s.core.get i
  let m := s.mem.flushCache (.core i)
  let c : CoreState :=
    { CoreState.reset with
        run := run, speedwell := old.speedwell, grants := old.grants, nextTag := old.nextTag,
        nextBundle := old.nextBundle, trace := old.trace,
        doubleVector := old.doubleVector, doubleEpc := old.doubleEpc, doubleEaddr := old.doubleEaddr }
  let s1 := s.setCore i c
  let s2 := { s1 with
    mem := { m with icache := m.icache.set i [] },
    cop := { s1.cop with
      ops := s1.cop.ops.map (fun (o : CopOp) => if o.owner.val = i.val then { o with stale := true } else o),
      tokens := s1.cop.tokens ++ cancelTokens i old.window },
    clk := { s1.clk with opreq := s1.clk.opreq.set i OpReq.reset, badReq := s1.clk.badReq.set i false },
    host := { s1.host with pend := s1.host.pend.set i 0 } }
  let s3 := ((s2.dmaResetCore i).flashDiscard ⟨i.val, by omega⟩).retarget
  if old.grants.blocks.getLsbD 3 && old.run ≠ .stopped then s3.setLatch 0x080 else s3

/-- Every running core is stopped (R222, R224, R628). -/
def State.stopAll (s : State) : State :=
  allCores.foldl (fun (s : State) (i : Fin 4) => if (s.core.get i).run = .stopped then s else s.stopCore i .stopped) s

/-- A core reset with its cause (R199, R627, Table Start-9): the core restarts at its image's entry. DEDUCED (log 124). -/
def State.coreReset (s : State) (i : Fin 4) (cause : Nat) : State :=
  let old := s.core.get i
  if old.run = .stopped then s
  else
    let s1 := s.stopCore i .inReset
    let s2 := s1.setWdt i { CoreWdt.reset with cause := BitVec.ofNat 2 cause }
    match s2.activeImage with
    | none => s2.setCore i { s2.core.get i with run := .stopped }
    | some ws => (s2.startCore ws i (if old.speedwell then 4 else ⟨i.val, by omega⟩)).trace i 6 [2]

end Sys2Proof.Machine
end

