-- ==== Sys2Proof/Machine/CustodyOps.lean ====
section
/-! DEFINITION. Custody (spec/06_custody.md): the presence window, the slot map's changes, staging, commit, probation and
rollback, the comparison of the copies, and records sent in parts (R925, R926). -/
namespace Sys2Proof.Machine

def State.setPresence (s : State) (p : Presence) : State := s.setCus { s.cus with presence := p }

/-! Custody levels -/

/-- The Blank state with JMP_PRES fitted (R315). -/
def State.blankJumper (s : State) : Bool := s.lifecycle = .blank && s.cus.presence.jumperFitted
/-- C2 (R315). -/
def State.c2 (s : State) : Bool :=
  let p := s.cus.presence
  (p.windowOpen && p.sources.service && p.jumperFitted) || s.blankJumper
/-- C1 (R315). -/
def State.c1 (s : State) : Bool := s.cus.presence.windowOpen || s.blankJumper

/-- LFO serves (R131). DEDUCED (log 56). -/
def State.lfoGood (s : State) : Bool := s.cel.lfo = .good

def Sources.bits (x : Sources) : Nat := boolsNat [x.service, x.dock, x.jumper]
def Sources.join (x y : Sources) : Sources :=
  { service := x.service || y.service, dock := x.dock || y.dock, jumper := x.jumper || y.jumper }

/-! The store -/

/-- The slots of a domain replaced. -/
def Custody.setSlot (c : Custody) (d : EdDomain) (f : DomainSlots → DomainSlots) : Custody :=
  { c with slots := c.slots.set (domIdx d) (f (c.slots.get (domIdx d))) }

/-- Domains of a mask, bit d − 1 for domain d. -/
def maskDomains (m : BitVec 5) : List EdDomain := allDomains.filter (fun d => m.getLsbD (domIdx d).val)
/-- The mask of domains that pass a test. -/
def domainMask (p : EdDomain → Bool) : BitVec 5 := BitVec.ofNat 5 (boolsNat (allDomains.map p))

/-! What an edition's change does (R332) -/

/-- The vehicle edition is applied (R332; CEL_PWLEN by R312). -/
def State.applyVehicle (s : State) : State :=
  ((s.setCel { s.cel with pwLen := s.veh 1 }).retarget.loadSeals.loadDisplay).writeLimits

/-- A member offers its fleet edition's values again (Table Concord-4); the vehicle merges anew. -/
def State.applyFleet (s : State) : State :=
  let s1 :=
    if s.boot.role ≠ .vehicle && s.con.phase = .member && s.canLive then
      s.sendSecured 0x0D 0 (leOctets 2 (s.editionNumber .fleet) ++ paramOctets s.ownParams)
    else s
  s1.remerge.writeLimits

/-- The effective edition of a domain has changed. -/
def State.applyDomain (s : State) (d : EdDomain) : State :=
  match d with
  | .vehicle => s.applyVehicle
  | .fleet => s.applyFleet
  | .tariff => s
  | .grants => s
  | .teasel => if s.boot.role = .vehicle then s.loadTeasel (teaselCfgOf (s.edition .teasel)) else s

def State.applyDomains (s : State) (l : List EdDomain) : State := l.foldl (fun (s : State) (d : EdDomain) => s.applyDomain d) s

/-- The program image changed: every core stops and the new image starts (R628). -/
def State.restartPrograms (s : State) (bad : Bool) : State := s.stopAll.startPrograms bad

/-! Rollback, probation -/

/-- R336 for the named domains and the program; what remains of a probation keeps running (R337). -/
def Custody.rollBack (c : Custody) (m : BitVec 5) (program : Bool) : Custody :=
  let c1 := (maskDomains m).foldl (fun (c : Custody) (d : EdDomain) =>
    c.setSlot d (fun x => { x with current := x.previous, previous := none, currentBad := false })) c
  let c2 := if program then { c1 with imageActive := c1.imagePrevious, imagePrevious := none } else c1
  let p := match c2.probation with
    | none => none
    | some p =>
      let doms := Vector.ofFn (fun i : Fin 5 => p.domains.get i && !m.getLsbD i.val)
      let q := { p with domains := doms, program := p.program && !program }
      if doms.toList.any id || q.program then some q else none
  { c2 with probation := p }

/-- A rollback takes place (R336), with its event. -/
def State.rollBack (s : State) (m : BitVec 5) (program : Bool) (cause : Nat) (e : StoreEnv) : State × Bool :=
  let (s1, done) := s.writeMap e.write (fun c => c.rollBack m program)
  if !done then (s1, false)
  else
    let s2 := s1.applyDomains (maskDomains m)
    let s3 := if program then s2.restartPrograms e.imageBad else s2
    (s3.raise 0x3003 [m.setWidth 8, BitVec.ofNat 8 cause], true)

/-- A failed probation is rolled back while no ride is open (R336). -/
def State.settleProbation (s : State) (e : StoreEnv) : State :=
  match s.cus.probation with
  | none => s
  | some p =>
    if p.failed && s.led.cur.ride.isNone then (s.rollBack p.mask p.program p.cause e).1 else s

/-- A probation fails (R335): the failed bit is written, then R336. Causes as event 0x3003. DEDUCED (log 53). -/
def State.failProbation (s : State) (cause : Nat) (e : StoreEnv) : State :=
  match s.cus.probation with
  | none => s
  | some p =>
    if p.failed then s
    else
      let (s1, done) := s.writeMap e.write (fun c => { c with probation := some { p with failed := true, cause := cause } })
      if done then s1.settleProbation { e with write := .done } else s1

/-- A probation ends as a success (R334). -/
def State.passProbation (s : State) (w : StoreWrite) : State × Bool :=
  match s.cus.probation with
  | none => (s, true)
  | some p =>
    let (s1, done) := s.writeMap w (fun c => { c with probation := none })
    if done then (s1.raise 0x3004 [p.mask.setWidth 8], true) else (s1, false)

/-- A ride has closed: it counts toward a probation, or a failed one is rolled back (R334, R336). -/
def State.rideCounted (s : State) (e : StoreEnv) : State :=
  match s.cus.probation with
  | none => s
  | some p =>
    if p.failed then s.settleProbation e
    else
      let s1 := s.setCus { s.cus with probation := some { p with rides := p.rides + 1 } }
      if 5 ≤ p.rides + 1 then (s1.passProbation e.write).1 else s1

/-- A ride closes and counts toward a probation, if its record stands. -/
def State.rideEnded (s : State) (cause : Nat) (w : RingWrite) (e : StoreEnv) : State :=
  match s.endRide cause w with
  | (s1, []) => s1
  | (s1, _ :: _) => s1.rideCounted e

/-- Ledger seconds since the start of a probation reach 86 400 (R334, R338); an epoch that sets the seconds back (R397) leaves the stamp as it
is. DESIGN CHOICE (log 137). -/
def State.probationDue (s : State) : Bool :=
  match s.cus.probation with
  | none => false
  | some p => !p.failed && decide (p.seconds + 86400 ≤ s.clock.seconds)

/-! Commit -/

/-- The program slot into which an image is staged (R622). -/
def Custody.stageSlot (c : Custody) : Fin 2 := match c.imageActive with | none => 0 | some k => 1 - k

/-- A staged program image waits for a commit. -/
def State.programStaged (s : State) : Bool :=
  match s.img.slots.get s.cus.stageSlot with | none => false | some x => x.staged

/-- The Zheyr set that does not run, 0 A and 1 B. -/
def State.zheyrIdle (s : State) : Fin 2 := if s.boot.runningB then 0 else 1
def State.zheyrStaged (s : State) : Bool := (s.img.zheyr.get s.zheyrIdle).staged
/-- Swap cells that count as programmed: with those programmed by ordinary read, a marginal next cell (R855, R856). DEDUCED (log 47). -/
def State.swapsCounted (s : State) : Nat :=
  if s.fl.marginal && decide (s.boot.swapCells < 256) then s.boot.swapCells + 1 else s.boot.swapCells

/-- The preferred set (R855, R856). -/
def State.preferredSet (s : State) : Fin 2 := if s.swapsCounted % 2 = 0 then 0 else 1

/-- The commit of a Zheyr image needs a swap cell and none is left (R855). -/
def State.swapExhausted (s : State) : Bool := s.zheyrIdle ≠ s.preferredSet && decide (256 ≤ s.boot.swapCells)

/-- A staged Zheyr image is activated (R857, R858): its boot block, erased where an earlier try left something, is programmed and
verified, then the next swap cell where the set is not the preferred one. Of the activation alone, what PWR_FAIL or a hang leaves
(Table Flash-13): before the boot block stands, before the swap cell, or with that cell marginal. DEDUCED (log 140). -/
def State.activateZheyr (s : State) (w : StoreWrite) : State :=
  let k := s.zheyrIdle
  let swap := decide (k ≠ s.preferredSet)
  let z := s.img.zheyr.get k
  let base := blockBase k.val 0
  let blank (s : State) : State := if s.fl.programmed.contains base then s.eraseTarget base else s
  let booted (s : State) : State :=
    let s1 := (blank s).putPage (base, z.boot ++ List.replicate 204 0)
    { s1 with fl := { s1.fl with bootValid := s1.fl.bootValid.set k true } }
  let stop (s : State) : State := s.setCus { s.cus with cut := some w }
  let torn (n : Nat) : State :=
    if n = 0 then stop ((blank s).putPage (base, z.boot.take 16))
    else if n = 1 || !swap then stop (booted s)
    else
      let s1 := booted s
      stop { s1 with fl := { s1.fl with marginal := true } }
  match w with
  | .cut n _ | .hang n => torn n
  | .done | .again _ | .failed _ _ | .behind _ =>
    let s1 := booted s
    ({ s1 with img := { s1.img with zheyr := s1.img.zheyr.set k { z with staged := false, present := true } },
               boot := { s1.boot with swapCells := if swap then s1.boot.swapCells + 1 else s1.boot.swapCells } }).raise
      0x7004 [BitVec.ofNat 8 k.val]

/-- The slot map of a commit (R331, R1018). DEDUCED (log 55). -/
def Custody.commit (c : Custody) (m : BitVec 5) (program : Bool) (era seconds : Nat) : Custody :=
  let c1 := (maskDomains m).foldl (fun (c : Custody) (d : EdDomain) =>
    c.setSlot d (fun x =>
      match x.staged with
      | none => x
      | some r => { staged := none, current := some r, previous := if x.currentBad then none else x.current,
                    highest := r.number, requested := false, currentBad := false })) c
  let c2 := if program then { c1 with imageActive := some c.stageSlot, imagePrevious := c.imageActive } else c1
  { c2 with probation := some { domains := Vector.ofFn (fun i : Fin 5 => m.getLsbD i.val), program := program,
                                failed := false, era := era, seconds := seconds, rides := 0, cause := 0 } }

/-- A domain's number in its slots; 0xFFFF an empty slot, 0 the built-in default (Table Cmd-5). -/
def slotNumber (o : Option EdRecord) : Nat := match o with | none => 0xFFFF | some r => r.number
def currentNumber (x : DomainSlots) : Nat := match x.current with | none => 0 | some r => r.number

/-- A slot of the store compared (R341, R342, R345): a copy that serves is written anew in both copies and named by a slot map. `start`: the
request for custody is sent once for all domains at the end of a start. DEDUCED (log 50). -/
def State.twinFound (s : State) (e : StoreEnv) (start : Bool) (d : EdDomain) (j : Fin 3) (known : Bool) : State :=
  let code := BitVec.ofNat 8 (domCode d)
  let rewrite (ws : List Word) (key : List Octet) : State :=
    let f (c : Custody) : Custody := c.setSlot d (fun x => x.setHeld j (some (edRecordOf key ws)))
    ((s.writeStore .done [(d, j)] f).1).reclaim
  match (s.slot d).held j, s.cus.store.loc d j with
  | some r, some l =>
    match s.compareRecord e.flash d l r.key with
    | .agreement => s
    | .corrected ws => rewrite ws r.key
    | .benign ws => (rewrite ws r.key).raise 0x3005 [code, 0]
    | .singleLoss ws => (rewrite ws r.key).raise 0x3005 [code, 1]
    | .material =>
      if j = 0 then ((s.writeMap .done (·.setSlot d (fun x => { x with staged := none }))).1).raise 0x300B [code, 0]
      else if j = 2 then
        (((s.writeMap .done (·.setSlot d (fun x => { x with previous := none }))).1).raise 0x300B [code, 2]).applyDomain d
      else
        let mark (c : Custody) : Custody := c.setSlot d (fun x => { x with currentBad := true, requested := true })
        let s1 := if (s.slot d).requested then s.setCus (mark s.cus) else (s.writeMap .done mark).1
        let s2 := (if start || known then s1 else s1.raise 0x3006 [(domainMask (fun y => y = d)).setWidth 8]).applyDomain d
        match s2.cus.probation with
        | none => s2
        | some p => if p.domains.get (domIdx d) then s2.failProbation 4 { e with write := .done } else s2
  | _, _ => s

/-- The comparison of R339: nothing where all copies agree, else the slot maps are read and every slot is compared. DEDUCED (log 50). DEDUCED
(log 52). -/
def State.compareTwins (s : State) (e : StoreEnv) (start : Bool) : State :=
  let s0 := s.changeCells e.changed
  if s0.storeAgrees e.flash then (if start then (s0.scanStore (s0.cus.store.mapAt.get 0)).reclaim else s0)
  else
    let s1 := s0.readMaps e.flash
    (everySlot.foldl (fun (s : State) q => s.twinFound e start q.1 q.2 (s0.slot q.1).currentBad) s1).reclaim

/-- A commit (R331, R332, R628, R857, R929). Answers whether it stands. -/
def State.commit (s : State) (m : BitVec 5) (program zheyr : Bool) (e : StoreEnv) : State × Bool :=
  let doms := maskDomains m
  let slot := s.cus.stageSlot
  let bad := doms.filter (fun d => (s.slot d).currentBad)
  let (s1, done) :=
    if m = 0 && !program then (s, true)
    else s.writeMap e.write (fun c => c.commit m program s.clock.era s.clock.seconds)
  if !done then (s1, false)
  else
    let s2 := if program then
        { s1 with img := { s1.img with slots := s1.img.slots.set slot ((s1.img.slots.get slot).map (fun x => { x with staged := false })) } }
      else s1
    let s3 := s2.raise 0x3002 ([m.setWidth 8, BitVec.ofNat 8 (boolsNat [program, zheyr])] ++
      (allDomains.map (fun d => leOctets 2 (currentNumber (s2.slot d)))).foldl (· ++ ·) [])
    let s4 := bad.foldl (fun (s : State) (d : EdDomain) => s.raise 0x300B [BitVec.ofNat 8 (domCode d), 2]) s3
    let s5 := s4.applyDomains doms
    let s6 := if program then s5.restartPrograms e.imageBad else s5
    let s7 := if zheyr then s6.activateZheyr (if m = 0 && !program then e.write else .done) else s6
    ((s7.compareTwins { e with write := .done } false), true)

/-- The guards of R330 other than custody and what is staged. DEDUCED (log 56). -/
def State.commitBlocked (s : State) : Option Nat :=
  if s.led.cur.ride.isSome then some 0x17 else if s.cus.probation.isSome then some 0x18 else none

/-- The commit on dock (R333); one that a guard blocks is tried again at the accepted gates that follow. -/
def State.dockCommit (s : State) (e : StoreEnv) : State :=
  let m := domainMask (fun d => match (s.slot d).staged with | none => false | some r => r.onDock)
  let blocked (b : Bool) : State := s.setPresence { s.cus.presence with dockBlocked := b }
  if m = 0 || !s.cus.presence.windowOpen then blocked false
  else if !s.eventsLive || s.boot.tier.toNat < 1 || !s.lfoGood || s.commitBlocked.isSome then blocked true
  else ((blocked false).commit m false false e).1

/-! The presence window -/

/-- The domains that request custody. -/
def State.requestMask (s : State) : BitVec 5 := domainMask (fun d => (s.slot d).requested)

/-- Custody is asked for, at a start and at each opening of the window (R342). -/
def State.askCustody (s : State) : State := if s.requestMask = 0 then s else s.raise 0x3006 [s.requestMask.setWidth 8]

/-- Sources are recognised (Table Custody-2, R353). DEDUCED (log 54). -/
def State.recognise (s : State) (x : Sources) (e : StoreEnv) : State :=
  let p := s.cus.presence
  if p.windowOpen then
    let s1 := s.setPresence { p with windowLeft := p.windowLen, windowPhase := 0, sources := p.sources.join x }
    if x.dock then s1.dockCommit e else s1
  else if !s.lfoGood then s.raise 0x300A [BitVec.ofNat 8 x.bits]
  else
    let s1 := (s.setPresence { p with windowOpen := true, windowLeft := s.cel.pwLen, windowPhase := 0, windowLen := s.cel.pwLen, sources := x }).raise 0x3000
      [BitVec.ofNat 8 x.bits]
    let s2 := s1.askCustody
    if x.dock then s2.dockCommit e else s2

/-- The window closes; causes by event 0x3001. DEDUCED (log 60). -/
def State.closeWindow (s : State) (cause : Nat) : State :=
  let p := s.cus.presence
  if p.windowOpen then
    (s.setPresence { p with windowOpen := false, windowLeft := 0, sources := .none, dockBlocked := false }).raise 0x3001 [BitVec.ofNat 8 cause]
  else s

/-! Staging -/

/-- A header or field of a record is out of range (R321, R322, R930). DEDUCED (log 82). -/
def recordRange (d : EdDomain) (role : Role) (ws : List Word) : Bool :=
  let n := wN ws 6
  decide (wNum ws 0 2 ≠ 0x3D1E71) || decide (wN ws 2 ≠ domCode d) || !inRange (wNum ws 3 2) 1 65535 ||
    decide (wN ws 5 % 16 ≠ 1) || decide (wN ws 5 / 32 ≠ 0) || decide (wN ws 7 ≠ 0) || !inRange n 1 1920 ||
    decide (ws.length ≠ 51 + n) || !payloadOk d role ((ws.drop 8).take n)

/-- A record is staged (R321, R328, R357); answers the status. -/
def State.stage (s : State) (d : EdDomain) (ws : List Word) (w : StoreWrite) : State × Nat :=
  if !domHeld d s.boot.role then (s, 0x1A)
  else if recordRange d s.boot.role ws then (s, 0x13)
  else
    match s.cus.keys.config with
    | none => (s, 0x12)
    | some k =>
      let r := edRecordOf k ws
      if !recordSigned d k ws then (s, 0x12)
      else if r.number ≤ (s.slot d).highest then (s, 0x14)
      else if s.cus.store.full r.pages then (s, 0x15)
      else
        let (s1, done) := s.writeMap w (·.setSlot d (fun x => { x with staged := some r }))
        if done then (s1.raise 0x300D ([BitVec.ofNat 8 (domCode d)] ++ leOctets 2 r.number), 0) else (s1, 0x35)

/-! Records sent in parts -/

/-- A part as R925 lays it out: selector, last, total, offset, chunk. -/
structure Part where
  selector : Nat
  last : Bool
  total : Nat
  offset : Nat
  chunk : List Word
  deriving DecidableEq, Repr

/-- The part at an octet offset of a payload; none where the chunk breaks R925. DEDUCED (log 81). -/
def partAt (p : List Octet) (at_ : Nat) : Option Part :=
  let x := p.drop at_
  let chunk := unpackOctets (x.drop 8)
  let o1 := (octetAt x 1).toNat
  let last := decide (o1 % 2 = 1)
  if 672 < chunk.length || (!last && decide (chunk.length % 2 = 1)) then none
  else some { selector := (octetAt x 0).toNat, last := last, total := fieldNat x 2 3, offset := fieldNat x 5 3, chunk := chunk }

/-- What becomes of an assembly (R926). -/
inductive Assembled where
  /-- The part breaks the assembly: 0x13. -/
  | broken
  /-- More parts follow. -/
  | more
  /-- The record is whole. -/
  | whole (words : List Word)
  deriving DecidableEq, Repr

/-- A part joins the assembly of its command and selector (R926). DEDUCED (log 81). -/
def State.assemble (s : State) (cmd selector : Nat) (q : Part) : State × Assembled :=
  let rest := s.host.assemblies.filter (fun a => !(a.cmd = cmd && a.selector = selector))
  let old := s.host.assemblies.find? (fun a => a.cmd = cmd && a.selector = selector)
  let put (l : List Assembly) : State := { s with host := { s.host with assemblies := l } }
  let words := if q.offset = 0 then some q.chunk
    else match old with
      | none => none
      | some a => if a.total = q.total && a.words.length = q.offset then some (a.words ++ q.chunk) else none
  match words with
  | none => (s, .broken)
  | some ws =>
    if q.total < ws.length then (s, .broken)
    else if !q.last then (put (rest ++ [{ cmd := cmd, selector := selector, total := q.total, words := ws }]), .more)
    else if ws.length ≠ q.total then (put rest, .broken)
    else (put rest, .whole ws)

end Sys2Proof.Machine
end

