-- ==== Sys2Proof/Machine/HoldOps.lean ====
section
/-! DEFINITION. The hold-up ring (R158 to R167, R1014): which block an image takes, its sequence number, its pages, and
what the end of an erase means for its block. -/
namespace Sys2Proof.Machine

/-- Bank of ring block k (R158: bank 0 block 127, bank 1 block 127, bank 0 block 126, bank 1 block 126). -/
def holdBank (k : Fin 4) : Fin 2 := if k.val % 2 = 0 then 0 else 1
/-- Block number of ring block k. -/
def holdBlockNo (k : Fin 4) : Nat := if k.val < 2 then 127 else 126
/-- Address of ring block k. -/
def holdBase (k : Fin 4) : Nat := blockBase (holdBank k).val (holdBlockNo k)

/-- The ring block at an address, if it is one. -/
def holdAt (base : Nat) : Option (Fin 4) :=
  if blockOf base = 127 then (if bankOf base = 0 then some 0 else some 1)
  else if blockOf base = 126 then (if bankOf base = 0 then some 2 else some 3)
  else none

/-- a is newer than b in the order of R1014. -/
def seqNewer (a b : Nat) : Bool :=
  let d := (a + 0x1000000 - b) % 0x1000000
  decide (1 ≤ d) && decide (d ≤ 0x7FFFFF)

/-- The newer of two sequence numbers, where they exist. -/
def newerSeq (a b : Option Nat) : Option Nat :=
  match a, b with
  | none, y => y
  | x, none => x
  | some x, some y => if seqNewer x y then some x else some y

/-- The sequence number of a new image (R1014). -/
def State.nextImageSeq (s : State) : Nat :=
  match newerSeq s.led.cur.imageSeq s.hold.found with
  | none => 1
  | some n => (n + 1) % 0x1000000

/-- Ring blocks in ring order after the one used last. -/
def holdOrder (last : Option (Fin 4)) : List (Fin 4) :=
  match last with
  | none => [0, 1, 2, 3]
  | some k => if k = 0 then [1, 2, 3, 0] else if k = 1 then [2, 3, 0, 1] else if k = 2 then [3, 0, 1, 2] else [0, 1, 2, 3]

/-- The block that an image takes (R160). -/
def State.chooseHold (s : State) : Option (Fin 4) :=
  let ready := (holdOrder s.hold.lastUsed).filter (fun k => (s.hold.blocks.get k).ready)
  match ready.filter (fun k => (s.bank (holdBank k)).suspended.isNone) with
  | k :: _ => some k
  | [] => ready.head?

def State.setHoldBlock (s : State) (k : Fin 4) (b : HoldBlock) : State :=
  { s with hold := { s.hold with blocks := s.hold.blocks.set k b } }

/-- A ring block retired, with its event (R167). -/
def State.retireHold (s : State) (k : Fin 4) : State :=
  (s.setHoldBlock k { s.hold.blocks.get k with ready := false, retired := true }).raise 0x2005
    (bankBlock (holdBank k).val (holdBlockNo k))

/-- The Steward erases a ring block, ahead of the other deferred erases of its bank and never twice (R164). -/
def State.eraseHold (s : State) (k : Fin 4) : State :=
  let s1 := s.setHoldBlock k { s.hold.blocks.get k with ready := false, awaiting := none }
  let b := holdBank k
  let q := s1.bank b
  if q.erasingAt (holdBase k) then s1
  else if s1.fl.refusing || !s1.fl.tagFree 4 then s1.flashLaunch 4 2 false (.cmd (.erase (holdBase k)))
  else
    let ring (c : FlashCmd) : Bool := match c.op with | .erase a => (holdAt a).isSome | .program _ _ => true
    s1.setBank b { q with queue := q.queue.takeWhile ring ++ [{ owner := 4, op := .erase (holdBase k) }] ++ q.queue.dropWhile ring }

/-- An erase of a ring block has ended: the block is ready after a passing blank check, erased again after one that
fails, and retired after a failed erase or two failed blank checks in a row (R159, R167). DEDUCED (log 74). -/
def State.holdErased (s : State) (k : Fin 4) (verified blankOk : Bool) : State :=
  let b := s.hold.blocks.get k
  if b.retired then s
  else if !verified then s.retireHold k
  else if blankOk then s.setHoldBlock k { ready := true, retired := false, blankFails := 0, image := none, awaiting := none }
  else if 1 ≤ b.blankFails then s.retireHold k
  else (s.setHoldBlock k { b with blankFails := b.blankFails + 1, image := none }).eraseHold k

/-- A queued command of a bank starts; a ring block that is erased is not ready (R159). -/
def State.flashBegin (s : State) (b : Fin 2) : State :=
  let s1 := s.flashStart b
  match (s.bank b).run, (s1.bank b).run with
  | .idle, .erasing e =>
    (match holdAt e.block with
     | none => s1
     | some k => s1.setHoldBlock k { s1.hold.blocks.get k with ready := false })
  | _, _ => s1

/-! The image (Table Power-9) -/

/-- The words of journal records in an image, one record after another (R6, R892). -/
def journalWords (l : List Rec) : List Word := l.foldl (fun ws r => ws ++ octetsToWords r.stored) []

/-- The header page (Table Power-9). -/
def HoldImage.header (i : HoldImage) : List Word :=
  let blk (o : Option Nat) : Nat := match o with | none => 0xFFF | some n => n
  pageOf 0 (leWords 2 0x7E14B5 ++ leWords 2 i.seq ++ leWords 1 i.causes.toNat ++ leWords 1 (i.role.code + 4 * i.tier.toNat) ++
    leWords 1 i.clock.era ++ leWords 4 i.clock.seconds ++ leWords 2 i.clock.fraction ++ leWords 4 i.clock.wall ++
    leWords 1 i.clock.cls ++ leWords 4 i.hwm ++ leWords 1 (blk (i.suspended.get 0)) ++ leWords 1 (blk (i.suspended.get 1)) ++
    leWords 1 i.ledger.tailWords.length ++ leWords 1 (journalWords i.journal).length)

/-- A data page as programmed (Table Power-9). -/
def HoldPage.words (p : HoldPage) : List Word :=
  let ws := leWords 1 p.kind ++ leWords 1 p.index ++ (p.payload ++ List.replicate 251 0).take 251
  ws ++ crcWords ws

/-- Words cut into payloads of 251, numbered. -/
def payloads (kind : Nat) : Nat → Nat → List Word → List HoldPage
  | 0, _, _ => []
  | n + 1, k, ws =>
    if ws.isEmpty then []
    else { kind := kind, index := k, payload := ws.take 251 } :: payloads kind n (k + 1) (ws.drop 251)

/-- The data pages of an image: at most four of the ledger kind and ten of the journal kind. -/
def HoldImage.data (i : HoldImage) : List HoldPage :=
  payloads 1 4 0 i.ledger.tailWords ++ payloads 2 10 0 (journalWords i.journal)

/-- The commit page, from the header, the page map and the pages named in it (Table Power-9). -/
def commitPage (seq : Nat) (header : List Word) (map : List Word) (named : List (List Word)) : List Word :=
  let all := named.foldl (· ++ ·) header
  ((leWords 2 seq ++ leWords 1 map.length ++ (map ++ List.replicate 16 0).take 16 ++ crcWords all ++ crcWords header ++
    List.replicate 240 0).take 240) ++ List.replicate 16 0x5C3

/-- The replay page (Table Power-9). -/
def replayPage (seq : Nat) : List Word := pageOf 0x3C5 (leWords 2 seq)

/-- The page map's word of a data page. -/
def HoldPage.entry (p : HoldPage) : Word := BitVec.ofNat 12 (p.kind * 256 + p.index)

/-- A page that the Steward programs itself runs in its bank. -/
def State.stewardPage (s : State) (addr : Nat) (ws : List Word) : State :=
  let b := bankOf addr
  s.setBank b { s.bank b with run := .programming 4 addr ws }

/-! Reading an image back (R162) -/

/-- A page as it reads, none where a line of it is uncorrectable. -/
def State.pageReads (s : State) (f : FlashFacts) (addr : Nat) : Option (List Word) :=
  if f.bad.any (fun a => decide (addr ≤ a) && decide (a < addr + 256)) then none
  else some (memGetList 0xFFF s.fl.cells addr 256)

/-- What R162 finds in a block: the page number of a commit page, and the data pages dropped. -/
structure HoldFound where
  seq : Nat
  commit : Nat
  /-- Data pages that fail their own CRC: page number, kind, index. -/
  dropped : List (Nat × Nat × Nat)
  deriving DecidableEq, Repr

/-- Page p of a block is a commit page for a sequence number: its commit line reads with a corrected-error count of at most 1. -/
def State.isCommit (s : State) (f : FlashFacts) (base seq p : Nat) : Bool :=
  match s.pageReads f (base + 256 * p) with
  | none => false
  | some ws =>
    wNum ws 0 2 = seq && wN ws 2 = p - 1 && ws.drop 240 = List.replicate 16 0x5C3 &&
      !f.weak.contains (base + 256 * p + 240)

/-- Validity of a block's image (R162): none where it is invalid. -/
def State.findImage (s : State) (f : FlashFacts) (k : Fin 4) : Option HoldFound :=
  let base := holdBase k
  match s.pageReads f base with
  | none => none
  | some head =>
    let seq := wNum head 2 2
    if wNum head 0 2 ≠ 0x7E14B5 then none
    else
      match ((List.range 17).map (· + 1)).find? (fun p => s.isCommit f base seq p) with
      | none => none
      | some p =>
        match s.pageReads f (base + 256 * p) with
        | none => none
        | some c =>
          let named := ((List.range (p - 1)).map (fun i => (i + 1, wN c (3 + i)))).filter (fun q => decide (q.2 ≠ 0))
          let ok (q : Nat × Nat) : Bool := match s.pageReads f (base + 256 * q.1) with
            | none => false
            | some ws => ws.drop 253 = crcWords (ws.take 253)
          let dropped := (named.filter (fun q => !ok q)).map (fun q => (q.1, q.2 / 256, q.2 % 256))
          let all := named.foldl (fun acc q => acc ++ memGetList 0xFFF s.fl.cells (base + 256 * q.1) 256) head
          if (c.drop 22).take 3 ≠ crcWords head then none
          else if dropped.isEmpty && (c.drop 19).take 3 ≠ crcWords all then none
          else some { seq := seq, commit := p, dropped := dropped }

/-- The image of a block carries a replay page (R163). -/
def State.imageReplayed (s : State) (f : FlashFacts) (k : Fin 4) (h : HoldFound) : Bool :=
  match s.pageReads f (holdBase k + 256 * (h.commit + 1)) with
  | none => false
  | some ws => decide (ws = replayPage h.seq)

/-- Records of a journal tail that lie wholly or partly in a dropped page, by their place in the tail (R163). -/
def lostRecords (dropped : List (Nat × Nat × Nat)) (l : List Rec) : List Nat :=
  let gone : List Nat := (dropped.filter (fun d => d.2.1 = 2)).map (fun d => d.2.2)
  let spans := l.foldl (fun (acc : Nat × List (Nat × Nat)) r =>
    let n := (octetsToWords r.stored).length
    (acc.1 + n, acc.2 ++ [(acc.1 / 251, (acc.1 + n - 1) / 251)])) (0, [])
  (spans.2.zipIdx.filter (fun q => gone.any (fun g => decide (q.1.1 ≤ g) && decide (g ≤ q.1.2)))).map (·.2)

/-! The sequence -/

/-- The image that the Steward assembles (Table Power-9). DESIGN CHOICE (log 49). -/
def State.holdImage (s : State) (causes : BitVec 4) : HoldImage :=
  let sblk (b : Fin 2) : Option Nat := (s.bank b).suspended.map (fun e => blockOf e.block)
  let seq := s.nextImageSeq
  { seq := seq, causes := causes, role := s.boot.role, tier := s.boot.tier, clock := s.clock, hwm := s.led.cur.raiseHwm.hwm,
    suspended := #v[sblk 0, sblk 1], ledger := { s.storedTail with imageSeq := some seq },
    journal := s.jou.flying.filter (fun r => !r.copy) ++ s.jou.entries }

/-- No program runs in either bank. -/
def State.banksSettled (s : State) : Bool :=
  ([0, 1] : List (Fin 2)).all (fun b => match (s.bank b).run with
    | .programming _ _ _ => false
    | .idle | .erasing _ | .deferring _ _ => true)

/-- Step 6 of Table Power-8: the image is assembled in the block chosen and its header page begun. -/
def State.holdAssemble (s : State) (q : HoldSeq) : State :=
  match q.block with
  | none => { s with hold := { s.hold with seq := some { q with stage := .ending } } }
  | some k =>
    let i := s.holdImage q.causes
    let s1 := s.setHoldBlock k { s.hold.blocks.get k with ready := false, image := some i }
    let s2 := { s1 with hold := { s1.hold with lastUsed := some k,
                                               seq := some { q with stage := .header, todo := i.data } } }
    s2.stewardPage (holdBase k) i.header

/-- The page after the one that has ended is begun: the next data page, or the commit page when none waits. -/
def State.holdNext (s : State) (k : Fin 4) (q : HoldSeq) : State :=
  let addr := holdBase k + 256 * q.pages
  match q.todo with
  | p :: rest =>
    { s.stewardPage addr p.words with hold := { s.hold with seq := some { q with stage := .data p, todo := rest } } }
  | [] =>
    match q.written, (s.hold.blocks.get k).image with
    | head :: named, some i =>
      { s.stewardPage addr (commitPage i.seq head q.map named) with hold := { s.hold with seq := some { q with stage := .commit } } }
    | _, _ => { s with hold := { s.hold with seq := some { q with stage := .ending } } }

/-- A page of the image has been programmed, and reads back or not (R161): the first data page that does not is written
again at the next page and named 0 in the map; a later one keeps its place. DEDUCED (log 48). -/
def State.holdPage (s : State) (q : HoldSeq) (readBack : Bool) : State :=
  match q.block with
  | none => s
  | some k =>
    let q1 := { q with pages := q.pages + 1 }
    match q.stage with
    | .settling | .ending => s
    | .header =>
      let head := match (s.hold.blocks.get k).image with | none => [] | some i => i.header
      s.holdNext k { q1 with written := [head] }
    | .data p =>
      if readBack || q.rewritten then s.holdNext k { q1 with map := q.map ++ [p.entry], written := q.written ++ [p.words] }
      else s.holdNext k { q1 with map := q.map ++ [0], todo := p :: q.todo, rewritten := true }
    | .commit => { s with hold := { s.hold with seq := some { q1 with stage := .ending } } }

/-- The pages that remain are written and read back, as far as a number of them. -/
def State.holdFinish : Nat → State → State
  | 0, s => s
  | n + 1, s =>
    match s.hold.seq with
    | none => s
    | some q =>
      match q.stage, q.block with
      | .ending, _ => s
      | .settling, _ => State.holdFinish n (s.holdAssemble q)
      | .header, some k | .data _, some k | .commit, some k =>
        State.holdFinish n ((s.programDone (holdBank k)).holdPage q true)
      | .header, none | .data _, none | .commit, none => s

/-- The replay page of a block is programmed and the block erased, once the NAND has confirmed every record handed to it
(R163, R164). -/
def State.holdConfirm (s : State) (k : Fin 4) : State :=
  let b := s.hold.blocks.get k
  match b.awaiting, b.image with
  | some l, some i =>
    if s.jou.accepting && l.any (fun n => (s.jou.entries ++ s.jou.overflow ++ s.jou.flying).any (fun r => r.seq = n)) then s
    else
      let used := ((List.range 19).find? (fun p => s.fl.blank (holdBase k + 256 * p))).getD 19
      let addr := holdBase k + 256 * used
      let f := { s.fl with cells := memSetList 0xFFF addr (replayPage i.seq) s.fl.cells, programmed := addr :: s.fl.programmed }
      (({ s with fl := f }).unbuffer (holdBank k)).eraseHold k
  | _, _ => s

/-- Every block whose replayed records are now confirmed. -/
def State.holdConfirmed (s : State) : State :=
  if s.pow.pm = .holdUp then s else ([0, 1, 2, 3] : List (Fin 4)).foldl (fun (s : State) (k : Fin 4) => s.holdConfirm k) s

/-- What the end of a Steward's erase means for the structure that the block belongs to (R167, R358, R408). DEDUCED (log 89). DEDUCED (log 112). -/
def State.stewardErased (s : State) (e : EraseRun) (verified blankOk : Bool) : State :=
  if e.owner.val ≠ 4 then s
  else
    match holdAt e.block with
    | some k => s.holdErased k verified blankOk
    | none =>
      let n := blockOf e.block
      let b := bankOf e.block
      if h : 1 ≤ n ∧ n ≤ 4 then s.storeErased b ⟨n - 1, by omega⟩ verified
      else if b = 1 ∧ 5 ≤ n ∧ n ≤ 36 then s.ringErased (n - 5) verified
      else s

end Sys2Proof.Machine
end

