-- ==== Sys2Proof/Machine/PowerOps.lean ====
section
/-! DEFINITION. The power manager and the supply monitors (spec/03_power_and_swap.md): what the loss of VCORE leaves, the
V33-good period, the PWR_FAIL sequence, and VCORE faults. -/
namespace Sys2Proof.Machine

def State.setPow (s : State) (p : Power) : State := { s with pow := p }
def State.setBoot (s : State) (b : Boot) : State := { s with boot := b }

/-! V33 -/

/-- Every condition of R145 holds. -/
def Power.conditions (p : Power) : Bool := p.vddioAUp && p.vddaUp && p.vddioBUp && p.pfiHigh

/-- The 1 ms period starts from the beginning, if every condition holds (R145). -/
def Power.restartPeriod (p : Power) : Power := { p with v33Good := false, goodPeriod := p.conditions }

/-! What stays -/

/-- The host side with VCORE off: only what lies outside it (R304, R577). -/
def HostPort.unpowered (h : HostPort) : HostPort := { HostPort.reset with preEvents := h.preEvents ++ h.tierHeld.map (·.1), vbus := h.vbus, hcts := h.hcts }

/-- The flash with VCORE off: its cells and metadata (Table Start-2). -/
def Flash.unpowered (f : Flash) : Flash :=
  { f with banks := Vector.ofFn (fun i : Fin 2 => { Bank.reset with info := (f.banks.get i).info }),
           own := Vector.replicate 5 FctlOwn.reset, tap := 15, ecth := 2, refusing := false }

/-- Pages that a program in progress leaves as they are (R918, Table Journal-9). DEDUCED (log 73). -/
def Journal.cutNow (j : Journal) : List (Nat × JPage) :=
  j.busy.toList.filterMap (fun o => match o with
    | some (.program b p) => some (b, p)
    | some (.erase _) => none
    | none => none)

/-- The journal with VCORE off: what the NAND and its bad-block table hold. -/
def Journal.unpowered (j : Journal) : Journal :=
  { Journal.reset with info := j.info, identity := j.identity, bbtVersion := j.bbtVersion, blocks := j.blocks, active := j.active,
                       nextPage := j.nextPage, nextSeq := j.nextSeq, epochSeq := j.epochSeq, cutPages := j.cutPages ++ j.cutNow, lostTotal := j.lostTotal, confirmed := j.confirmed }

/-- Concord with VCORE off: the pack's persisted counters (R444). -/
def Concord.unpowered (c : Concord) : Concord :=
  let p := c.pack
  { Concord.reset with
      pack := { Pack.reset with discharge := p.savedDischarge, charge := p.savedCharge, savedDischarge := p.savedDischarge,
                                savedCharge := p.savedCharge, fullDischarge := p.fullDischarge, fullCharge := p.fullCharge } }

/-- The ledger with VCORE off: the tail in flash and the clocks of Celandine (R393). -/
def Ledger.unpowered (l : Ledger) : Ledger :=
  { l with cur := { (l.flashTail.getD LedgerTail.reset) with clock := l.cur.clock } }

/-- A fault of VCORE or a Beacon failure is counted (R147, R215). -/
def State.countFault (s : State) : Power :=
  let now := s.ticks
  { s.pow with faultCount := s.pow.faultCount + 1,
               faultTimes := (now :: s.pow.faultTimes.filter (fun t => decide (now < t + 1966080))).take 3 }

/-- Boot's state at a power-on reset of the VCORE domain (Table Start-2, R226). -/
def Boot.unpowered (b : Boot) : Boot :=
  { b with phase := .stopped, testen := false, tier := .t0, fclkLost := false, wdt := Vector.replicate 4 CoreWdt.reset,
           wdtExpiries := Vector.replicate 4 [], stewardExpiries := 0, stewardCause := false, serviceSince := none, alternateFirst := false,
           bootFallback := false, debugUnlocked := false }

/-- Everything that the power-on reset of the VCORE domain and the warm reset both return to its reset value (Table Start-2):
`cut` is what the programs and erases in progress leave (Table Flash-13). The temperature registers are the power
manager's, outside the extent of both resets (Table Start-1). DEDUCED (log 67). -/
def State.loseDomain (s : State) (cut : Vector PageCut 2) : State :=
  let s1 := (s.flashLost 0 (cut.get 0)).flashLost 1 (cut.get 1)
  { s1 with
    clk := { Clocks.reset with temp := s1.clk.temp, alarm := s1.clk.alarm, band := s1.clk.band }, host := s1.host.unpowered,
    con := s1.con.unpowered, mot := s1.mot.restarted, core := Vector.replicate 4 CoreState.reset, stewDec := DecCtx.reset,
    stewCrypto := CryptoCtx.reset, cop := Cop.reset, mem := Memory.reset, per := Periph.reset, fl := s1.fl.unpowered,
    img := { s1.img with writing := Vector.replicate 2 none, rejected := false }, jou := s1.jou.unpowered }

/-- VCORE goes, and the power manager enters AO; a PWR_FAIL sequence ends where it stands (Tables Power-6 and Power-10). -/
def State.toAo (s : State) (cut : Vector PageCut 2) : State :=
  let s1 := s.loseDomain cut
  let s2 := { s1 with hold := { s1.hold with seq := none } }
  (({ s2 with led := s2.led.unpowered, boot := s2.boot.unpowered, dbg := Debug.reset }).setPow { s2.pow with pm := .ao }).parkDisplay

/-- AO is entered from Hold-up, or from a loss of V33: the 1 ms period of R145 restarts (R146). -/
def State.toAoUnready (s : State) (cut : Vector PageCut 2) : State :=
  let s1 := s.toAo cut
  s1.setPow { s1.pow.restartPeriod with pm := .ao, orderly := false }

/-- The retry timer with the lock-out of R215. DEDUCED (log 61). -/
def State.lockOut (s : State) : State := s.setPow { s.pow with retry := .long }

/-! The PWR_FAIL sequence -/

/-- Issue stops on every core (R151). -/
def State.stopIssue (s : State) : State := { s with core := s.core.map (fun (c : CoreState) => { c with run := .stopped }) }

/-- B-LOW with VDDIO_A and VDDA in range is a rail mismatch, which the next start logs (R191). -/
def State.noteMismatch (s : State) (cause : SupplyCause) : State :=
  if cause = .bLow && s.pow.vddioAUp && s.pow.vddaUp then s.setPow { s.pow with mismatch := true } else s

/-- PWR_FAIL at a device of the ensemble (R428, R467): no frame is sent any more, a join in progress is abandoned, a member's session is dropped,
and DOCK_PRES goes low. -/
def Concord.abandoned (c : Concord) : Concord :=
  { c with presenceFor := none, serving := none, joinQueue := [], joining := none, proved := false, partials := [],
           session := none, phase := .idle }

/-- PWR_FAIL is raised (R151, R152, R178, R182, R236, Table Power-8 steps 1 to 4). A second trip adds its cause until step 6
(R184). DEDUCED (log 74). -/
def State.pwrFail (s : State) (cause : SupplyCause) : State :=
  let bit : BitVec 4 := 1#4 <<< cause.bit
  match s.pow.pm with
  | .off | .ao => s
  | .holdUp =>
    let s0 := s.noteMismatch cause
    (match s0.hold.seq with
     | none => s0
     | some q =>
       if q.stage = .settling then { s0 with hold := { s0.hold with seq := some { q with causes := q.causes ||| bit } } } else s0)
  | .starting | .running =>
    let s1 := (s.noteMismatch cause).setLatch 0x040
    if s1.boot.phase = .stopped then s1.toAoUnready noCut
    else
      let s2 := s1.flashFail
      let s3 := ((s2.flashSuspendNow 0).flashSuspendNow 1).stopIssue
      let k := s3.chooseHold
      let seq : HoldSeq := { causes := bit, block := k, stage := .settling, pages := 0, todo := [], map := [], written := [],
                             rewritten := false }
      let s4 := { s3 with
        clk := { s3.clk with held := true },
        host := { s3.host with admitting := false, usbConfigured := false, assemblies := [] },
        per := { s3.per with gpio := { Gpio.reset with inp := s3.per.gpio.inp } },
        con := s3.con.abandoned,
        hold := { s3.hold with seq := some seq, unavailable := k.isNone,
                               blocks := s3.hold.blocks.map (fun (b : HoldBlock) => { b with awaiting := none }) },
        img := { s3.img with writing := Vector.replicate 2 none } }
      (s4.retarget).setPow { s4.pow with pm := .holdUp }

/-- The PWR_FAIL sequence ends (Table Power-8, R155, R189): programs already running complete, and the pages that remain are
written and read back, the commit page last. Without FCLK no page is written. DEDUCED (log 48). -/
def State.holdComplete (s : State) : State :=
  match s.hold.seq with
  | none => s
  | some q =>
    let s1 := if q.stage = .settling then
        ([0, 1] : List (Fin 2)).foldl (fun (s : State) (b : Fin 2) => s.programDone b) s
      else s
    (if s.domainRuns .fclk then s1.holdFinish 40 else s1).toAoUnready noCut

/-! VCORE faults -/

/-- The retry timer after a fault: 3 600 s where it is the third within 60 s, else 10 ms (R147). -/
def Power.retryAfter (p : Power) : RetryTimer := if 3 ≤ p.faultTimes.length then .long else .short

/-- A VCORE fault (R147, R190, Table Power-6): the latch is set, the fault counted for the next start's event, the buck off, and
the retry timer started. DEDUCED (log 70). -/
def State.vcoreFault (s : State) (f : VcoreFault) (cut : Vector PageCut 2) : State :=
  if !s.pow.vcoreOn then s
  else
    let s1 := (s.setLatch 0x100).toAo cut
    let p := s1.countFault
    let e : Event := { code := 0x2002, number := 0, era := s.clock.era, seconds := s.clock.seconds, fraction := s.clock.fraction,
                       data := [BitVec.ofNat 8 f.code, BitVec.ofNat 8 p.faultCount] }
    let s2 := { s1 with host := { s1.host with preEvents := s1.host.preEvents ++ [e] } }
    let q := if s.pow.pm = .holdUp then p.restartPeriod else p
    s2.setPow { q with retry := p.retryAfter, orderly := false }

/-- VDDIO_A falls below IO-BOR (Table Power-5, Table Power-6). -/
def State.ioBor (s : State) (cut : Vector PageCut 2) : State :=
  match s.pow.pm with
  | .off => s
  | .ao => s.setPow { s.pow with ioUp := false }
  | .starting | .running | .holdUp =>
    let s1 := s.toAoUnready cut
    s1.setPow { s1.pow with ioUp := false }

/-- A supply monitor trips and raises PWR_FAIL in the course of a command or a start (R178, R236). -/
def State.supplyTrips (s : State) (c : SupplyCause) : State :=
  let p := s.pow
  let q := match c with
    | .vddioA => { p with vddioAUp := false }
    | .vdda => { p with vddaUp := false }
    | .pfiN => { p with pfiHigh := false }
    | .bLow => { p with vddioBUp := false }
  (s.setPow { q with v33Good := false, goodPeriod := false }).pwrFail c

/-- The end of a command whose write of the edition store was cut (R178, R241, R355): PWR_FAIL, or a Steward that hangs and serves nothing
more until its watchdog expires. -/
def State.cutShort (s : State) : State :=
  let s1 := s.setCus { s.cus with cut := none }
  match s.cus.cut with
  | some (.cut _ c) => s1.supplyTrips c
  | some (.hang _) => { s1 with boot := { s1.boot with phase := .stopped }, host := { s1.host with admitting := false } }
  | some .done | some (.again _) | some (.failed _ _) | some (.behind _) | none => s

end Sys2Proof.Machine
end

