-- ==== Sys2Proof/Machine/TierOps.lean ====
section
/-! DEFINITION. Tiers (spec/04_startup_and_tiers.md, Tables Arch-2, Arch-3, Start-7 and Start-8): which units a role has, the
tier that failed units allow, the fall of the tier at run time, its decision, and Beacon failure. -/
namespace Sys2Proof.Machine

/-- The unit is tested before step 9 (R211). -/
def testedEarly (u : UnitId) : Bool := u.val ≤ 3 || u.val = 19 || u.val = 20 || u.val = 21

def allUnits : List UnitId := List.ofFn (fun i : Fin 42 => i)

/-- A unit that Beacon needs has failed (R214, Table Arch-2); a run-time failure of the power manager (R131) or of the flash
banks (R130) limits the device to T1. -/
def beaconFails (u : Vector UnitResult 42) : Bool :=
  unitFailed (u.get 0) || u.get 1 = .failedAtStart || unitFailed (u.get 2) || unitFailed (u.get 3) ||
    unitFailed (u.get UnitId.hostPort) ||
    (u.get UnitId.flash0 = .failedAtStart && u.get UnitId.flash1 = .failedAtStart)

/-- The highest tier of the vehicle with this unit failed (Table Arch-2). -/
def unitCap (n : Nat) : Tier :=
  if n = 1 || n = 19 || n = 20 || n = 30 || inRange n 32 35 then .t1
  else if inRange n 4 18 || inRange n 22 29 || n = 31 || inRange n 36 40 then .t2
  else if n = 41 then .t3
  else .t0

/-- The tier that the self-test record gives in a role (R214). -/
def tierFor (r : Role) (u : Vector UnitResult 42) : Tier :=
  if beaconFails u then .t0
  else
    match r with
    | .vehicle =>
      let cores := allCores.all (fun i => unitFailed (u.get (UnitId.core i)))
      allUnits.foldl (fun t n => if unitFailed (u.get n) then t.min (unitCap n.val) else t) (if cores then .t1 else .t3)
    | .pack | .dock =>
      if allUnits.all (fun n => n.val = 41 || !unitOn r n || u.get n = .passed) then .t3 else .t1
    | .bringUp => .t1

/-- A bitmap of units, 6 octets. -/
def unitOctets (l : List UnitId) : List Octet := leOctets 6 (l.foldl (fun n u => n ||| 2 ^ u.val) 0)

/-- Units that have failed. -/
def State.failedUnits (s : State) : List UnitId := allUnits.filter (fun u => unitFailed (s.boot.units.get u))

def State.setUnit (s : State) (u : UnitId) (r : UnitResult) : State := s.setBoot { s.boot with units := s.boot.units.set u r }

/-- Beacon failure (R215): one record is written, VCORE is released in order (R150), and the lock-out starts. DEDUCED (log 62). -/
def State.beaconFailure (s : State) : State :=
  let r : BeaconRecord := { era := s.clock.era, seconds := s.clock.seconds, failed := s.failedUnits }
  let s1 := s.writeTail
  let s2 := (s1.setBoot { s1.boot with beacons := r :: s1.boot.beacons, beaconNew := true }).toAo noCut
  s2.setPow { s2.countFault with retry := .long, orderly := true }

/-- CAN-A and the crypto engine have both passed (R219). -/
def State.dockServed (s : State) : Bool :=
  s.boot.units.get UnitId.canA = .passed && s.boot.units.get UnitId.crypto = .passed

/-- Sessions after a fall of the tier (R219, R475, R476). DEDUCED (log 75). -/
def State.tierSessions (s : State) : State :=
  if s.boot.role = .vehicle then
    s.endMembers 4 true (fun m => m.role = .pack || !s.dockServed)
  else if s.con.phase = .member then (if s.canLive then s.sendSecured 0x06 0 [] else s).dropSession .idle
  else if s.con.phase = .joining then s.dropSession .idle
  else s

/-- The D+ pull-up goes, and with it the USB configuration (R266). -/
def State.detachUsb (s : State) : State := { s with host := { s.host with usbConfigured := false } }

/-- The tier falls at run time (R67, R68, R221, R223, R224); at T0 the Steward first finishes its relock attempts (R128). DEDUCED
(log 70). -/
def State.fallTo (s : State) (t : Tier) (newly : List UnitId) : State :=
  let old := s.boot.tier
  let s1 := (s.setBoot { s.boot with tier := t }).raiseTier
    ([BitVec.ofNat 8 old.toNat, BitVec.ofNat 8 t.toNat] ++ unitOctets newly ++ unitOctets [])
  match t with
  | .t3 => s1
  | .t2 => s1.writeLimits.setForce
  | .t1 =>
    (((s1.stopAll.setLatch 0x400).padsOff.flagRide (fun f => { f with tierFell := true })).tierSessions).writeLimits.setForce
  | .t0 =>
    let s2 := (((s1.stopAll.setLatch 0x400).padsOff).flagRide (fun f => { f with tierFell := true })).detachUsb
    if s2.clk.relocking then s2 else s2.beaconFailure

/-- Units fail at run time (R220, R238, R239, R479). Before the tier is decided they only count in that decision. -/
def State.failUnits (s : State) (l : List UnitId) : State :=
  let newly := l.filter (fun u => unitOn s.boot.role u && !unitFailed (s.boot.units.get u))
  if newly.isEmpty || (s.boot.phase ≠ .decided && s.boot.phase ≠ .beacon) then s
  else
    let s0 := newly.foldl (fun (s : State) (u : UnitId) => s.setUnit u .failedAtRun) s
    let s1 := if newly.contains UnitId.usb then s0.detachUsb else s0
    if s.boot.phase = .beacon then s1
    else
      let s2 := allCores.foldl (fun (s : State) (i : Fin 4) =>
        if newly.contains (UnitId.core i) && (s.core.get i).run ≠ .stopped then s.stopCore i .stopped else s) s1
      let s3 := if newly.contains UnitId.canA || newly.contains UnitId.crypto then
          (if s2.boot.role = .vehicle then s2.endMembers 3 false (fun _ => true)
           else if s2.con.phase = .member then (s2.memberEnded 3).dropSession .idle else s2)
        else s2
      let t := s3.boot.tier.min (tierFor s3.boot.role s3.boot.units)
      if t = s3.boot.tier then s3 else s3.fallTo t newly

/-- Units behind a clock domain (Table Start-7). -/
def State.domainUnits (s : State) (d : ClockDomain) : List UnitId :=
  match d with
  | .mclk | .tsclk => [UnitId.pwm]
  | .aclk => [UnitId.adc]
  | .cclk => [UnitId.canA, UnitId.canB]
  | .uclk => [UnitId.usb, UnitId.i2c, UnitId.gnss] ++ (if s.boot.hsel then [UnitId.hostPort] else [])
  | .ssck => [UnitId.sensorSpi]
  | .nclk => [UnitId.nand]
  | .fclk => [UnitId.flash0, UnitId.flash1]
  | .lfo => [UnitId.powerManager]
  | .lfx | .hfx | .hsck | .tck | .trclk => []

def pllDomains : List ClockDomain := [.mclk, .aclk, .cclk, .uclk, .nclk, .ssck, .tsclk, .trclk]

/-- The power manager needs the domain's clock for the strapped role (R28, R33): a domain whose unit is off is gated. -/
def State.wants (s : State) (d : ClockDomain) : Bool :=
  match d with
  | .mclk => unitOn s.boot.role UnitId.pwm
  | .aclk => unitOn s.boot.role UnitId.adc
  | .cclk => unitOn s.boot.role UnitId.canA
  | .nclk => unitOn s.boot.role UnitId.nand && decide (s.pow.cLevel ≠ .absent)
  | .ssck => unitOn s.boot.role UnitId.sensorSpi
  | .lfx | .lfo | .hfx | .uclk | .hsck | .tck | .fclk | .tsclk | .trclk => true

/-- Units behind a PLL domain that does not run: their tests cannot pass (Table Start-4 step 10, R129). -/
def State.clockless (s : State) : List UnitId :=
  (pllDomains.filter (fun d => s.wants d && !s.domainRuns d)).foldl (fun l d => l ++ s.domainUnits d) []

/-- A bay's pack: its identity and its discharge counter (Table Journal-7). -/
def State.bayOctets (s : State) (node : Nat) : List Octet :=
  match s.member node with
  | none => List.replicate 13 0
  | some m =>
    if m.role ≠ .pack then List.replicate 13 0
    else leOctets 5 m.identity ++ packWords (decNat dsDigits (match m.report with | none => 0 | some r => r.discharge))

/-- A snapshot record enters the tail (R894, Table Journal-7). DEDUCED (log 122). -/
def State.snapshot (s : State) : State :=
  let number := match s.led.cur.ride with | none => 0 | some r => r.number
  let body := leOctets 1 s.boot.tier.toNat ++ leOctets 1 s.boot.role.code ++ leOctets 5 s.clock.wall ++ leOctets 1 s.clock.cls ++
    leOctets 1 s.clk.target.toNat ++ leOctets 2 s.clk.temp.toNat ++ leOctets 2 s.pmuSupply.toNat ++ leOctets 3 s.mot.tcap.wcnt.toNat ++
    leOctets 1 s.led.cur.ride.isSome.toNat ++ leOctets 3 number ++ leOctets 2 s.con.epoch ++ s.bayOctets 1 ++ s.bayOctets 2 ++
    leOctets 2 s.tsl.trips ++ leOctets 3 (s.port .hostPort).lostTotal ++ List.replicate 11 0
  ({ s with jou := { s.jou with snapshotAt := some s.ticks } }).journal s.clock 4 .none body

/-- The tier is decided (R213, R214, R215, R216, R223, R246): `fails` are the units whose test failed or did not end. DEDUCED (log 122). -/
def State.decideTier (s : State) (fails : List UnitId) (e : StoreEnv) : State :=
  if s.boot.phase ≠ .beacon then s
  else
    let judge (u : UnitId) : UnitResult :=
      let r := s.boot.units.get u
      match r with
      | .untested => if fails.contains u || s.clockless.contains u then .failedAtStart else .passed
      | .passed =>
        if s.clockless.contains u then .failedAtStart
        else if u = UnitId.powerManager && s.cel.lfo ≠ .good then .failedAtRun else .passed
      | .failedAtStart | .failedAtRun | .notPresent => r
    let s1 := s.setBoot { s.boot with units := Vector.ofFn judge, phase := .decided, selfTestSeconds := s.clock.seconds }
    let s1 := if s1.jou.state = .probing then
        (s1.setJournal (if s1.boot.units.get UnitId.nand = .passed then .mounting else .failed)).holdConfirmed else s1
    let t := tierFor s1.boot.role s1.boot.units
    let t := if s1.boot.fclkLost then t.min .t1 else t
    let failed := s1.failedUnits
    let s2 := (s1.setBoot { s1.boot with tier := t }).raise 0xC000 ([BitVec.ofNat 8 t.toNat] ++ unitOctets failed)
    let s3 := s2.raise 0x1001 ([1, BitVec.ofNat 8 t.toNat] ++ unitOctets failed ++ unitOctets [])
    let s3 := s3.snapshot
    if t = .t0 then s3.beaconFailure else (s3.startPrograms e.imageBad).writeLimits.setForce

end Sys2Proof.Machine
end

