-- ==== Sys2Proof/Machine/CopOps.lean ====
section
/-! DEFINITION. The pools, arbiters and units of the coprocessors (R749 to R766). -/
namespace Sys2Proof.Machine

/-- The coprocessor of a CP value (R685). -/
def copOf (cp : Nat) : Coproc := if cp = 0 then .decimal else if cp = 1 then .vector else .crypto

/-- The units of a coprocessor (R938). -/
def Coproc.units : Coproc → List UnitId
  | .decimal => [UnitId.decimal0, UnitId.decimal1]
  | .vector => [UnitId.vector0, UnitId.vector1]
  | .crypto => [UnitId.crypto]

def Coproc.slot : Coproc → Fin 3
  | .decimal => 0
  | .vector => 1
  | .crypto => 2

/-- Tags that cores may hold together, and each core (Table Flight-2). -/
def Coproc.pool : Coproc → Nat
  | .decimal => 24
  | .vector => 32
  | .crypto => 12
def Coproc.coreCap : Coproc → Nat
  | .decimal | .vector => 8
  | .crypto => 12

/-- Units of a coprocessor that work in the role, by their places (R689, R763). -/
def State.workingUnits (s : State) (p : Coproc) : List Nat :=
  (p.units.zipIdx.filter (fun u => unitOn s.boot.role u.1 && !unitFailed (s.boot.units.get u.1))).map (·.2)

/-- The unit that takes the next operation: the first free one (R763). -/
def Cop.freeUnit (x : Cop) (p : Coproc) (units : List Nat) : Option Nat :=
  units.find? (fun n => !x.ops.any (fun o => o.cop = p && o.phase = .running && o.unit = n))

/-- A tag of the pool is free for a core (R750, R751). DEDUCED (log 143). -/
def Cop.tagFree (x : Cop) (p : Coproc) (i : Fin 4) : Bool :=
  let held := x.ops.filter (fun o => o.cop = p && decide (o.owner.val < 4))
  decide ((held.filter (fun o => o.owner.val = i.val)).length < p.coreCap) && decide (held.length < p.pool)

/-- Requesters in round-robin order after the one last admitted (R765). -/
def turnOrder (last : Fin 5) : List Nat := (List.range 5).map (fun k => (last.val + 1 + k) % 5)

/-- The operation that an arbiter admits next: each requester's oldest queued one, round-robin (R765). -/
def Cop.nextFor (x : Cop) (p : Coproc) : Option CopOp :=
  (turnOrder (x.turn.get p.slot)).findSome? (fun r => x.ops.find? (fun o => o.cop = p && o.owner.val = r && o.phase = .queued))

/-- Free units take queued operations (R763, R765). -/
def Cop.startOps (p : Coproc) (units : List Nat) : Nat → Cop → Cop
  | 0, x => x
  | n + 1, x =>
    match x.freeUnit p units, x.nextFor p with
    | some u, some o =>
      Cop.startOps p units n { x with ops := x.ops.map (fun q => if q = o then { q with phase := .running, unit := u } else q),
                                      turn := x.turn.set p.slot o.owner }
    | _, _ => x

def State.admitOps (s : State) (p : Coproc) : State := { s with cop := Cop.startOps p (s.workingUnits p) 2 s.cop }

/-- An operation is dispatched: it takes a tag, and starts when a unit is free (R749, R763). -/
def State.copDispatch (s : State) (p : Coproc) (i : Fin 4) (tag : Nat) (ct : Bool) : State :=
  let o : CopOp := { cop := p, owner := ⟨i.val, by omega⟩, tag := tag, phase := .queued, unit := 0, ct := ct, stale := false }
  ({ s with cop := { s.cop with ops := s.cop.ops ++ [o] } }).admitOps p

end Sys2Proof.Machine
end

