-- ==== Sys2Proof/Machine/StartOps.lean ====
section
/-! DEFINITION. Starts of the VCORE domain (spec/04_startup_and_tiers.md, R195 to R210; spec/03_power_and_swap.md, R146, R162 to
R164, R173 to R176): straps, boot block, repairs, Beacon; the warm reset; and wake requests. -/
namespace Sys2Proof.Machine

/-! Order -/

/-- Inserted before the first element that it does not come after. -/
def insertBy {α : Type} (le : α → α → Bool) (x : α) : List α → List α
  | [] => [x]
  | y :: r => if le x y then x :: y :: r else y :: insertBy le x r

/-- In order, elements that neither precede keeping theirs. -/
def sortBy {α : Type} (le : α → α → Bool) : List α → List α
  | [] => []
  | x :: r => insertBy le x (sortBy le r)

/-- Ledger time of an event as one number: era, then seconds, then fraction. -/
def Event.time (e : Event) : Nat := (e.era * 0x10000000000 + e.seconds) * 32768 + e.fraction

/-! Straps -/

/-- A strap from its windows of four samples (R201, R202): the level of the first of at most four windows whose samples
agree, none where none does. -/
def strapLevel (ws : List (BitVec 4)) : Option Bool :=
  ((ws.take 4).find? (fun w => w = 0 || w = 15)).map (fun w => decide (w = 15))

/-- The straps as the device takes them (R201, R202, Table Start-3, R995). -/
def Boot.sampled (b : Boot) (e : StartEnv) : Boot :=
  let role := match strapLevel e.role0, strapLevel e.role1 with
    | some r0, some r1 => Role.ofCode (r0.toNat + 2 * r1.toNat)
    | _, _ => .bringUp
  { b with role := role, hsel := (strapLevel e.hsel).getD false, jtagen := (strapLevel e.jtagen).getD false, testen := e.testen }

/-- Straps that stayed unstable, as event 0x1002 names them. -/
def unstableStraps (e : StartEnv) : Nat :=
  boolsNat [(strapLevel e.role0).isNone, (strapLevel e.role1).isNone, (strapLevel e.hsel).isNone, (strapLevel e.jtagen).isNone]

/-! The boot block -/

/-- The flash bank of a set fails its metadata-row read in this start (R206, Table Start-5). -/
def bankFails (e : StartEnv) (k : Fin 2) : Bool := e.failed.contains (if k = 0 then UnitId.flash0 else UnitId.flash1)

/-- The anti-rollback floor of a boot: 0 where the lifecycle record cannot be read (R204, R245). -/
def State.bootFloor (s : State) (e : StartEnv) : Nat := if e.lifecycleOk then s.boot.floor else 0

/-- The boot block of a set as it reads, and the image that it names, carry a signature that verifies (R204); of an image that the device
was made with, whose words the spec does not give, that is a fact of the start. DEDUCED (log 140). -/
def State.bootSigned (s : State) (e : StartEnv) (k : Fin 2) : Bool :=
  if (s.img.zheyr.get k).boot.isEmpty then e.bootOk.get k
  else
    match s.wordsRead e.flash (blockBase k.val 0) 52 with
    | none => false
    | some ws =>
      match s.wordsRead e.flash (wNum ws 3 2) (wNum ws 5 2) with
      | none => false
      | some image => zheyrSigned (ws ++ image)

/-- A set's boot block passes: it holds a valid image whose signature verifies and whose version is not below the floor, it
carries no unfinished-erase flag, and its bank's metadata row reads (R204, R206). -/
def State.setBoots (s : State) (e : StartEnv) (k : Fin 2) : Bool :=
  s.fl.bootValid.get k && s.bootSigned e k && decide (s.bootFloor e ≤ (s.img.zheyr.get k).version) &&
    !(s.blockMeta (blockBase k.val 0)).flag && !bankFails e k

/-- The set that the boot ROM runs (R205, R226). -/
def State.bootSet (s : State) (e : StartEnv) : Option (Fin 2) :=
  let p := s.preferredSet
  let order := if s.boot.alternateFirst then [1 - p, p] else [p, 1 - p]
  order.find? (fun k => s.setBoots e k)

/-! The repairs of R208 -/

/-- Blocks whose erase is unfinished are queued for erasing, hold-up blocks first (R208, R209); ring blocks of `keep` hold an
image that is still to be replayed. -/
def State.queueErases (s : State) (keep : List (Fin 4)) : State :=
  let flagged (s : State) (b : Fin 2) : List Nat := ((s.bank b).info.filter (fun p => p.2.flag)).map (fun p => blockBase b.val p.1)
  let all := flagged s 0 ++ flagged s 1
  let ring := all.filterMap holdAt
  let s1 := (ring.filter (fun k => !keep.contains k)).foldl (fun (s : State) (k : Fin 4) => s.eraseHold k) s
  (all.filter (fun a => (holdAt a).isNone)).foldl (fun (s : State) (a : Nat) => s.flashLaunch 4 2 false (.cmd (.erase a))) s1

/-- The journal tail of an image is handed to the queue within the bound of R156: records already held are dropped, lost ones
are counted (R163, R894). DEDUCED (log 65). -/
def Journal.replay (j : Journal) (now : Nat) (recs : List Rec) (lost : List Nat) : Journal :=
  recs.zipIdx.foldl (fun (j : Journal) (q : Rec × Nat) =>
    let top := { j with nextSeq := max j.nextSeq (q.1.seq + 1) }
    if lost.contains q.2 then top.lose q.1
    else if !top.accepting || top.entries.any (fun r => r.seq = q.1.seq) || top.held.any (fun r => r.2.seq = q.1.seq) then top
    else top.append q.1 now) j

/-- The ledger tail of an image is written to its place in flash (R163). -/
def State.replayTail (s : State) (t : LedgerTail) : State :=
  match s.ringWrite .done t.record with
  | (s1, none) => s1
  | (s1, some p) => s1.setLed { s1.led with ring := { s1.led.ring with tails := { page := p, tail := t } :: s1.led.ring.tails } }

/-- One image is replayed (R162, R163): the number counts as replayed even where its ledger tail is lost (R1014), and the
replay page waits for the NAND. -/
def State.replayImage (s : State) (k : Fin 4) (i : HoldImage) (h : HoldFound) : State :=
  let s1 := h.dropped.foldl (fun (s : State) (d : Nat × Nat × Nat) =>
    s.raise 0x2004 (bankBlock (holdBank k).val (holdBlockNo k) ++ [BitVec.ofNat 8 d.1])) s
  let s2 := s1.raise 0x2008 (leOctets 1 i.causes.toNat ++ leOctets 3 i.seq)
  let s3 := if h.dropped.any (fun d => d.2.1 = 1) then
      (s2.flagRide (fun f => { f with tailLost := true })).setTail
        { (s2.flagRide (fun f => { f with tailLost := true })).led.cur with imageSeq := some i.seq }
    else
      let t := { i.ledger with imageSeq := some i.seq }
      (({ s2 with led := { s2.led with cur := { t with clock := s2.clock } } }).replayTail t)
  let lost := lostRecords h.dropped i.journal
  let kept := ((i.journal.zipIdx.filter (fun q => !lost.contains q.2)).map (fun q => q.1.seq))
  let s4 := s3.setHoldBlock k { s3.hold.blocks.get k with awaiting := some kept }
  { s4 with jou := s4.jou.replay s4.ticks i.journal lost }

/-- Images of the ring that are valid and not replayed, oldest first. -/
def State.images (s : State) (f : FlashFacts) : List (Fin 4 × HoldImage × HoldFound) :=
  let l := ([0, 1, 2, 3] : List (Fin 4)).filterMap (fun k =>
    match (s.hold.blocks.get k).image, s.findImage f k with
    | some i, some h => if s.imageReplayed f k h then none else some (k, i, h)
    | _, _ => none)
  sortBy (fun a b => seqNewer b.2.2.seq a.2.2.seq) l

/-- Steps 6 and 7 of Table Start-4: the ring's newest number (R1014), the erasing of what is not ready, ring blocks first (R164,
R208), and the replay; `stop`: PWR_FAIL arrives while it runs (R180). Answers the newest image replayed. DEDUCED (log 65). -/
def State.replayAll (s : State) (f : FlashFacts) (stop : Bool) : State × Option HoldImage :=
  let l := s.images f
  let found := (s.hold.blocks.toList.filterMap (fun b => b.image)).foldl (fun m i => newerSeq m (some i.seq)) none
  let s0 := { s with hold := { s.hold with found := found } }
  let stale := ([0, 1, 2, 3] : List (Fin 4)).filter (fun k =>
    (s.hold.blocks.get k).image.isSome && !l.any (fun q => q.1 = k))
  let s1 := (stale.foldl (fun (s : State) (k : Fin 4) => s.eraseHold k) s0).queueErases (l.map (·.1))
  let s2 := l.foldl (fun (s : State) (q : Fin 4 × HoldImage × HoldFound) => s.replayImage q.1 q.2.1 q.2.2) s1
  let s3 := if s2.hold.unavailable then ({ s2 with hold := { s2.hold with unavailable := false } }).raise 0x2003 [] else s2
  let s4 := if s3.pow.mismatch then (s3.setPow { s3.pow with mismatch := false }).raise 0x2006 [] else s3
  (if stop then s4 else s4.holdConfirmed, (l.getLast?).map (·.2.1))

/-- Ledger time of a sealed period as its page reads: its seal time block and its high-water mark (Table Ledger-8). -/
def periodClock (ws : List Word) : Clock × Nat :=
  ({ Clock.reset with era := wN ws 16, seconds := wNum ws 17 4, fraction := wNum ws 21 2 }, wNum ws 90 4)

/-- A persisted record of time is newer than another, by era and then seconds. -/
def laterTime (a b : Clock × Nat) : Clock × Nat :=
  if a.1.era * 0x10000000000 + a.1.seconds < b.1.era * 0x10000000000 + b.1.seconds then b else a

/-- The persisted records of time: images, the tail in flash, sealed periods of the epoch (R173). -/
def State.timeRecords (s : State) (f : FlashFacts) (image : Option HoldImage) : List (Clock × Nat) :=
  (match image with | none => [] | some i => [(i.clock, i.hwm)]) ++
    (match s.led.flashTail with | none => [] | some t => [(t.clock, t.hwm)]) ++
    ((s.led.periods.filter (fun p => p.epoch = s.led.epoch && !p.lost)).filterMap (fun p => (s.ringReads f p.page 256).map periodClock))

/-- Time after a Celandine cold start (R173, R174, R176). -/
def State.restoreTime (s : State) (f : FlashFacts) (image : Option HoldImage) : State :=
  if !s.pow.coldStart then s
  else
    let s0 := s.setPow { s.pow with coldStart := false }
    match s0.timeRecords f image with
    | [] => s0
    | r :: rest =>
      let (c, hwm) := rest.foldl laterTime r
      let era := if c.era = 255 then 255 else c.era + 1
      let now : Clock := { era := era, seconds := c.seconds + 1, fraction := 0, wall := hwm, wallFraction := 0, cls := 0 }
      let s1 := { s0 with led := { s0.led with cur := { s0.led.cur with clock := now, hwm := hwm },
                                               eraExhausted := s0.led.eraExhausted || decide (c.era = 255) } }
      (s1.endSegments 3 c.seconds true (fun _ => true)).raise 0x2001 [BitVec.ofNat 8 c.era, BitVec.ofNat 8 era]

/-- The pending setback of a tail (Table Ledger-9): it took effect where wall time is below the high-water mark; else its entry is removed. -/
def State.resumeSetback (s : State) : State :=
  match s.led.cur.setback with
  | none => s
  | some (_, n) =>
    if s.clock.wall < s.led.cur.hwm then s.takeSetback n else s.setTail { s.led.cur with setback := none }

/-- Sealed periods against their journal mirrors (R208 step 5, R409): copies that differ are queued again. -/
def State.comparePeriods (s : State) (f : FlashFacts) (unread : List (Nat × Nat)) : State :=
  (s.led.periods.foldl (fun (s : State) (p : PeriodRecord) => s.comparePeriod f unread p) s).requeueLedger

/-! The start -/

/-- Step 9 of Table Start-4: the host port opens and the events are sent, the start event first (R207, R290, R572, R577). DEDUCED (log 63). -/
def State.beacon (s : State) (kind : Nat) (replayed : Bool) : State :=
  let (n, s0) := (s.free, (s.draw).2)
  let s1 := s0.reportSeals
  let pre := sortBy (fun a b => decide (a.time ≤ b.time)) s1.host.preEvents
  let wake := s1.cel.wake
  let p := s1.cus.presence
  let s2 := { s1 with
    pow := { s1.pow with wakePending := false, orderly := false },
    boot := { s1.boot with phase := .beacon, tier := .t1, serviceSince := some s1.ticks },
    host := { s1.host with enabled := true, admitting := true, preEvents := [], eventNumber := 0 },
    con := { s1.con with startNonce := n, merged := s1.ownParams, restricted := true },
    cel := { s1.cel with wakeCopy := wake, wake := 0 },
    cus := { s1.cus with presence := { p with jumperPending := p.jumperPending && decide (kind = 2) } } }
  let s3 := s2.raiseAt s2.clock 0x1000 (leOctets 2 wake.toNat ++ [BitVec.ofNat 8 kind, BitVec.ofNat 8 (boolsNat [s2.boot.bootFallback, replayed])])
  let s4 := (State.raisePre pre s3).setForce
  if kind = 2 || !p.jumperFitted then s4
  else s4.recognise { service := false, dock := false, jumper := true } StoreEnv.good

/-- Zheyr begins, and the power manager enters Running (Table Power-6): the self-test record starts, and what the boot ROM found
is logged (R203, R205, R211, R213). A NAND that the role has and VDDIO_C does not feed counts as fitted in the record. A
fallback that three watchdog expiries chose is logged as one. DESIGN CHOICE (log 134). -/
def State.zheyrBegins (s : State) (kind : Nat) (set : Fin 2) (e : StartEnv) : State :=
  let r := s.boot.role
  let units : Vector UnitResult 42 := Vector.ofFn (fun u : Fin 42 =>
    if !unitOn r u then .notPresent
    else if !testedEarly u then .untested
    else if e.failed.contains u then .failedAtStart else .passed)
  let fallback := decide (set ≠ s.preferredSet)
  let nand := unitOn r UnitId.nand && decide (s.pow.cLevel ≠ .absent)
  let clocks := s.clk.domains
  let s1 := { s with
    pow := { s.pow with pm := .running },
    boot := { s.boot with units := units, runningB := decide (set = 1), bootFallback := fallback, lifecycleReadable := e.lifecycleOk,
                          debugUnlocked := s.boot.debugUnlocked && e.lifecycleOk, phase := .zheyr },
    clk := { s.clk with domains := (((clocks.set ClockDomain.lfx.row .running).set ClockDomain.lfo.row .running).set
      ClockDomain.hfx.row .running).set ClockDomain.fclk.row .running },
    jou := { s.jou with state := if nand then .probing else .absent } }
  let s2 := if kind = 2 || unstableStraps e = 0 then s1 else s1.raise 0x1002 [BitVec.ofNat 8 (unstableStraps e)]
  let s3 := if fallback then s2.raise 0x1003 [BitVec.ofNat 8 set.val] else s2
  let s4 := if e.lifecycleOk then s3 else s3.raise 0x1009 []
  if s4.boot.beaconNew then
    (s4.setBoot { s4.boot with beaconNew := false }).raise 0x100B
      (unitOctets (match s4.boot.beacons with | [] => [] | b :: _ => b.failed))
  else s4

/-- Every start ends the Concord sessions, and with them the open segments, at the ledger time of the newest tail (R380); after a
cold start `restoreTime` has ended them (R174). DEDUCED (log 135). -/
def State.closeAtStart (s : State) (kind : Nat) (image : Option HoldImage) : State :=
  let stamp := if kind = 2 then s.clock.seconds
    else match image, s.led.flashTail with
      | some i, _ => i.clock.seconds
      | none, some t => t.clock.seconds
      | none, none => s.clock.seconds
  s.endSegments 2 stamp false (fun _ => true)

/-- The repairs of step 8 of Table Start-4, in the order of R208. -/
def State.repair (s : State) (kind : Nat) (image : Option HoldImage) (tailKept : Bool) (e : StartEnv) : State :=
  let whole := match image with
    | none => s.pow.orderly || tailKept
    | some _ => true
  let s1 := if whole then s else s.flagRide (fun f => { f with tailLost := true })
  let s2 := ((((s1.finishClose .done).1.recount).restoreTime e.flash image).resumeSetback).closeAtStart kind image
  let s3 := s2.setTail s2.led.cur.raiseHwm
  let s4 := ((s3.compareTwins { e.store with flash := e.flash } true).settleProbation { e.store with write := .done }).askCustody
  ((s4.applyVehicle).applyDomain .teasel).comparePeriods e.flash e.periods

/-- Zheyr's part of a start, from step 6 of Table Start-4 (R203, R208, R211), as far as nothing ends it (R236, R247); `tailKept`:
the ledger tail of a warm reset stands. DESIGN CHOICE (log 64). -/
def State.zheyr (s : State) (kind : Nat) (set : Fin 2) (tailKept : Bool) (e : StartEnv) : State :=
  let s1 := s.zheyrBegins kind set e
  match e.breaksAt 6 6 with
  | some c => s1.supplyTrips c
  | none =>
    let (s2, image) := s1.replayAll e.flash (e.breaksAt 7 7).isSome
    match e.breaksAt 7 7 with
    | some c => s2.supplyTrips c
    | none =>
      let s3 := s2.repair kind image tailKept e
      match e.breaksAt 8 11, e.stop with
      | some c, _ => s3.supplyTrips c
      | none, .hang => s3
      | none, _ => if beaconFails s3.boot.units then s3.beaconFailure else s3.beacon kind image.isSome

/-- The boot ROM programs a marginal swap cell again before it reads any boot block (R856). DEDUCED (log 47). -/
def State.settleSwap (s : State) : State :=
  let k := s.preferredSet
  let z := s.img.zheyr.get k
  let taken := s.fl.marginal && decide (s.boot.swapCells < 256)
  { s with boot := { s.boot with swapCells := s.swapsCounted }, fl := { s.fl with marginal := false },
           img := if taken then { s.img with zheyr := s.img.zheyr.set k { z with staged := false } } else s.img }

/-- The boot ROM's part: without a sound ROM and tile 0, or a boot block that verifies, the device stays at T0 with the
lock-out of R215 (R77, R244). PWR_FAIL before step 6 ends it with nothing written (R236). DESIGN CHOICE (log 13). DEDUCED
(log 61). -/
def State.bootRom (s : State) (kind : Nat) (tailKept : Bool) (e : StartEnv) : State :=
  match e.breaksAt 1 5 with
  | some c => s.supplyTrips c
  | none =>
    if !e.romOk then (s.toAo noCut).lockOut
    else
      let s1 := s.settleSwap
      match s1.bootSet e with
      | none => (s1.toAo noCut).lockOut
      | some k => (s1.streamFetch (blockBase k.val (zheyrFirst k)) true).zheyr kind k tailKept e

/-- The power manager enters Starting: the power-on reset of the VCORE domain, the straps and the boot (R146, R195, R201). With
TESTEN 1 the domain is held in reset (R995). Where Celandine or the power manager fails its own test, nothing starts (R29,
R73). A driven display's pump runs again (R562). DESIGN CHOICE (log 13). DEDUCED (log 66). -/
def State.start (s : State) (e : StartEnv) : State :=
  if e.failed.contains UnitId.celandine || e.failed.contains UnitId.powerManager then s.setPow { s.pow with wakePending := true }
  else
    let kind := if s.pow.coldStart then 0 else 1
    let s0 := s.loseDomain noCut
    let s1 := { s0 with
      led := (s0.findTail e.flash).led.unpowered, boot := s0.boot.unpowered.sampled e, dbg := Debug.reset,
      cel := { s0.cel with wake := s0.cel.wake ||| e.also.setWidth 9, pump := s0.cel.lcdEn },
      pow := { s0.pow with pm := .starting, retry := .stopped, cLevel := e.cLevel, cLow := false, teaselRail := true } }
    if s1.boot.testen then s1 else s1.bootRom kind false e

/-- A start is possible: one oscillator gives edges (R547). DEDUCED (log 46). -/
def State.canStart (s : State) : Bool := s.cel.lfoActive || s.cel.lfxActive

/-- Celandine asks for a start (R57, R146, R185). DEDUCED (log 46). -/
def State.wakeRequest (s : State) (e : StartEnv) : State :=
  match s.pow.pm with
  | .ao =>
    if s.pow.v33Good && s.pow.retry = .stopped && s.canStart then s.start e else s.setPow { s.pow with wakePending := true }
  | .holdUp => s.setPow { s.pow with wakePending := true }
  | .off | .starting | .running => s

/-- V33 becomes good (Table Power-6). DEDUCED (log 76). -/
def State.v33Rises (s : State) (e : StartEnv) : State :=
  if !(s.pow.goodPeriod && s.pow.conditions && s.pow.ioUp) then s
  else
    let s1 := (s.setPow { s.pow with v33Good := true, goodPeriod := false }).wakeBit 7
    if s.pow.pm = .ao && s.pow.retry = .stopped && s.canStart then s1.start e else s1

/-! The warm reset -/

/-- The retained area of tile 0: the ledger tail and the unconfirmed journal tail, each with its own CRC-32C (R156, R197); the
spec gives no layout inside it. DEDUCED (log 67). -/
def retainedArea (t : LedgerTail) (recs : List Rec) : List Word :=
  let l := (t.tailWords ++ List.replicate 1004 0).take 1004
  let j := (journalWords recs ++ List.replicate 2510 0).take 2510
  l ++ crcWords l ++ j ++ crcWords j

/-- Words that changed. -/
def upsetWords (ws : List Word) (l : List (Nat × Word)) : List Word := l.foldl (fun ws q => ws.set q.1 q.2) ws

/-- The CRC of n words of the area at an offset matches (R198). -/
def areaOk (ws : List Word) (off n : Nat) : Bool := (ws.drop (off + n)).take 3 = crcWords ((ws.drop off).take n)

/-- 60 s of service clear the watchdog's count (R226). -/
def Boot.credited (b : Boot) (now : Nat) : Boot :=
  match b.serviceSince with
  | none => b
  | some t => if t + 1966080 ≤ now then { b with stewardExpiries := 0, serviceSince := none } else { b with serviceSince := none }

/-- A warm reset (R74, R123, R195 to R198, R226, R947): VCORE stays up, the straps, the retained tails whose CRC checks and the
Steward's watchdog counts are kept, the latch is set with the edition's safe state, and the boot begins again at step 2 of Table
Start-4. DEDUCED (log 67). -/
def State.warmReset (s0 : State) (e : StartEnv) : State :=
  if s0.pow.pm ≠ .running || s0.boot.testen then s0
  else
    let s := s0.setLatch 0x080
    let tail := s.storedTail
    let entries := s.jou.flying.filter (fun r => !r.copy) ++ s.jou.entries
    let area := upsetWords (retainedArea tail entries) e.upset
    let ledgerOk := areaOk area 0 1004
    let journalOk := areaOk area 1007 2510
    let seq := s.jou.nextSeq
    let s1 := s.loseDomain e.cut
    let cur := if ledgerOk then { tail with clock := s1.clock } else s1.led.unpowered.cur
    let b := s1.boot.credited s.ticks
    let s2 := { s1 with
      led := { s1.led with cur := cur },
      clk := { s1.clk with target := s.clk.target, clamp := s.clk.clamp },
      mot := { s1.mot with tsl := { s1.mot.tsl with cfg := s.tsl.cfg, pads := s.tsl.pads } },
      mem := { s1.mem with sram := memSetList 0 0x100000 area s1.mem.sram },
      boot := { b with phase := .stopped, tier := .t0, fclkLost := false, wdt := Vector.replicate 4 CoreWdt.reset,
                       wdtExpiries := Vector.replicate 4 [], bootFallback := false },
      jou := { s1.jou with state := .probing, entries := if journalOk then entries else [], nextSeq := seq,
                           entriesSince := if journalOk && !entries.isEmpty then some s.ticks else none },
      dbg := { s1.dbg with wasWaiting := Vector.replicate 4 false },
      pow := { s1.pow with pm := .starting, orderly := false } }
    let s3 := if ledgerOk && journalOk then s2 else s2.raise (Config.tailEvent % 65536) []
    s3.bootRom 2 ledgerOk e

end Sys2Proof.Machine
end

