-- ==== Sys2Proof/Machine/ClockOps.lean ====
section
/-! DEFINITION. Oscillators, domain clocks, temperature and watchdogs (spec/02_fabric_and_domains.md; spec/10_celandine.md, R544 to
R547; spec/04_startup_and_tiers.md, R225 to R231). -/
namespace Sys2Proof.Machine

/-! Oscillators -/

/-- Celandine's time base (R546, R547): LFO ÷ 4 while LFX is failed, unless LFO is failed too and LFX still gives edges. -/
def Celandine.base (c : Celandine) : Celandine :=
  if c.lfxFailed then { c with onLfo := c.lfo = .good || !c.lfxActive, backToLfx := false } else c

/-- LFX is declared failed (R410, R544, R546, R360). -/
def State.lfxFails (s : State) : State :=
  let c := { s.cel with lfxFailed := true, lfxGood := 0, lfxBad := 0 }
  let s1 := (s.setCel c.base).setPresence { s.cus.presence with dockGates := 0 }
  let t := s1.led.cur
  let cur := { t with clock := { t.clock with cls := 0 }, period := t.period.map (fun o => { o with lfxLost := true }) }
  let s2 := s1.setLed { s1.led with lfxLost := true, cur := cur }
  (s2.flagRide (fun f => { f with lfxLost := true })).raise 0x9005 [1]

/-- LFX is declared good; the counters go back to it at the next carry of the ledger fraction (R544, R1019). -/
def State.lfxRecovers (s : State) : State :=
  let starting := s.cel.lfxStarting
  let s1 := s.setCel { s.cel with lfxFailed := false, lfxStarting := false, lfxBad := 0, backToLfx := true }
  if starting then s1 else s1.raise 0x9005 [0]

/-- LFO is declared failed (R131, R545, Table Custody-2): the presence window closes and the device falls to T1. -/
def State.lfoFails (s : State) (f : OscFault) : State :=
  let s1 := (s.setCel ({ s.cel with lfo := f, lfoGood := 0, lfxGood := 0 } : Celandine).base).raise 0x9006 [1]
  (s1.closeWindow 2).failUnits [UnitId.powerManager]

/-- LFO is declared good again (R545). -/
def State.lfoRecovers (s : State) : State :=
  (s.setCel ({ s.cel with lfo := .good, lfoGood := 0 } : Celandine).base).raise 0x9006 [0]

/-- An oscillator gives no edge for 200 µs (R545). -/
def State.oscStops (s : State) (lfx : Bool) : State :=
  if lfx then
    let s1 := s.setCel { s.cel with lfxActive := false }
    if s.cel.lfxFailed then s1.setCel s1.cel.base else s1.lfxFails
  else
    let s1 := s.setCel { s.cel with lfoActive := false }
    if s.cel.lfo = .good then s1.lfoFails .stopped else s1.setCel { s1.cel with lfo := .stopped }

/-- A window of 1 024 LFO periods ends with a count of LFX edges (R544, R545). LFO gives edges; while it is declared failed, LFX
is not checked, but good windows count toward LFO's return. The presence window runs on the same periods (R312). -/
def State.lfxWindow (s0 : State) (edges : Nat) : State :=
  let s := s0.windowTick
  let pass := inRange edges 240 272
  let c := { s.cel with lfoActive := true, lfxActive := decide (0 < edges),
                        lfxGood := if pass then s.cel.lfxGood + 1 else 0, lfxBad := if pass then 0 else s.cel.lfxBad + 1 }
  let s1 := s.setCel c
  match c.lfo with
  | .good =>
    if c.lfxFailed then (if 16 ≤ c.lfxGood then s1.lfxRecovers else s1.setCel c.base)
    else if 2 ≤ c.lfxBad then s1.lfxFails
    else s1
  | .stopped => if !c.lfxFailed && 16 ≤ c.lfxGood then s1.lfoRecovers else s1
  | .counted => s1

/-- The Steward's count of LFO: its deviation in tenths of a percent (R545). -/
def State.lfoCount (s : State) (off : Nat) : State :=
  if !(s.eventsLive && s.domainRuns .tsclk) then s
  else if 50 < off then
    (if s.cel.lfo = .good then s.lfoFails .counted else s.setCel { s.cel with lfoGood := 0 })
  else if off ≤ 40 then
    let s1 := s.setCel { s.cel with lfoGood := s.cel.lfoGood + 1 }
    if s.cel.lfo = .counted && 3 ≤ s1.cel.lfoGood then s1.lfoRecovers else s1
  else s.setCel { s.cel with lfoGood := 0 }

/-! Domain clocks -/

def State.setClk (s : State) (c : Clocks) : State := { s with clk := c }

/-- Clock domains put in a state. -/
def Clocks.setDomains (c : Clocks) (l : List ClockDomain) (x : DomainClock) : Clocks :=
  { c with domains := l.foldl (fun (v : Vector DomainClock 14) (d : ClockDomain) => v.set d.row x) c.domains }

/-- The PLL locks: the domains that the role needs run, and the power manager gates the others (R28, R104, R124); one that its
port has declared stopped stays so. TCAP_NOW counts from 0 after a reset (R102, R117, R128). A tier that fell to T0 with the
lock ends the start once the lock is back (R128, R215). DEDUCED (log 69). -/
def State.pllLocks (s : State) : State :=
  if !s.pow.vcoreOn || s.clk.hfxFailed || s.clk.pllLocked then s
  else
    let live := pllDomains.filter (fun d => s.clk.domains.get d.row ≠ .failed)
    let c0 := (s.clk.setDomains (live.filter s.wants) .running).setDomains (live.filter (fun d => !s.wants d)) .gated
    let c := { c0 with pllLocked := true, relocking := false, relocks := 0 }
    let s1 := { s.setClk c with mot := { s.mot with mclk := decide (c.domains.get ClockDomain.mclk.row = .running) } }
    if s.clk.relocking && s1.boot.tier = .t0 && s1.boot.phase = .decided then s1.beaconFailure else s1

/-- Every unit on a PLL domain (Table Start-7). -/
def State.pllUnits (s : State) : List UnitId := pllDomains.foldl (fun l d => l ++ s.domainUnits d) []

/-- The PLL loses its lock (R128). DEDUCED (log 69). -/
def State.pllLost (s : State) : State :=
  if !s.clk.pllLocked then s
  else
    let live := pllDomains.filter (fun d => s.clk.domains.get d.row ≠ .failed)
    let c := { s.clk.setDomains live .held with pllLocked := false, relocking := true, relocks := 1 }
    ({ (s.setLatch 0x100).setClk c with mot := { (s.setLatch 0x100).mot with mclk := false } }).failUnits s.pllUnits

/-- One relock wait ends without lock (R128); after the third, a tier that fell to T0 ends the start (R215). -/
def State.relockEnds (s : State) : State :=
  if !s.clk.relocking then s
  else if s.clk.relocks < 3 then s.setClk { s.clk with relocks := s.clk.relocks + 1 }
  else
    let s1 := s.setClk { s.clk with relocking := false }
    if s1.boot.tier = .t0 && s1.boot.phase = .decided then s1.beaconFailure else s1

/-- HFX gives no stable clock (R129): the PLL stays unlocked, and its units fail. DEDUCED (log 69). -/
def State.hfxFails (s : State) : State :=
  if s.clk.pllLocked || s.clk.hfxFailed || !s.pow.vcoreOn then s
  else (s.setClk { s.clk.setDomains [.hfx] .failed with hfxFailed := true }).failUnits s.pllUnits

/-- A port declares its running domain stopped (R127); only a register port of the PLL's domains has the detector (R100). An NCLK
stop fails the NAND unit and leaves the journal's state as it was, for Table Journal-8 has no row for it. DESIGN CHOICE (log 141). -/
def State.domainStops (s : State) (d : ClockDomain) (also : List UnitId) : State :=
  if !s.pow.vcoreOn || !d.isPll || d.portKind ≠ .register || s.clk.domains.get d.row ≠ .running then s
  else
    let s1 := s.setClk (s.clk.setDomains [d] .failed)
    let s2 := if d = .mclk then { s1 with mot := { s1.mot with mclk := false } } else s1
    (s2.raise 0x1005 [BitVec.ofNat 8 d.row.val]).failUnits (s.domainUnits d ++ also)

/-- FCLK stops (R130, R189, R870). -/
def State.fclkStops (s : State) (cut : Vector PageCut 2) : State :=
  if !s.domainRuns .fclk then s
  else
    let s1 := s.setClk (s.clk.setDomains [.fclk] .failed)
    let s2 := (s1.flashCut 0 (cut.get 0) (some 11)).flashCut 1 (cut.get 1) (some 11)
    if s.pow.pm = .holdUp then s2.toAoUnready noCut
    else
      (((s2.setBoot { s2.boot with fclkLost := true }).raise 0x1005 [BitVec.ofNat 8 ClockDomain.fclk.row.val])).failUnits
        (s.domainUnits .fclk)

/-! Temperature -/

/-- BAND with its hysteresis of 3 °C (R93), in units of 0.125 °C. DEDUCED (log 71). -/
def bandOf (old : BitVec 2) (t : Int) : BitVec 2 :=
  let up : BitVec 2 := if 1024 ≤ t then 2 else if 224 ≤ t then 1 else 0
  let down : BitVec 2 := if t ≤ 176 then 0 else if t ≤ 976 then 1 else 2
  if old.toNat < up.toNat then up else if down.toNat < old.toNat then down else old

/-- A sample of the junction temperature (R93, R94, R126). DEDUCED (log 71). -/
def State.sampleTj (s : State) (t : Word) : State :=
  let alarm := if 1200 < t.toInt then true else if t.toInt < 1120 then false else s.clk.alarm
  let clamp := if alarm then s.clk.clamp || (!s.clk.alarm && decide (10 < s.clk.highest)) else false
  let s1 := (s.setClk { s.clk with temp := t, band := bandOf s.clk.band t.toInt, alarm := alarm, clamp := clamp }).retarget
  if alarm && !s.clk.alarm then s1.raise 0x1004 (leOctets 2 t.toNat) else s1

/-! Watchdogs -/

/-- The Steward watchdog expires (R225, R226, R247, R335): it runs from the boot on, and is frozen in Hold-up. A running
probation fails first of all. DEDUCED (log 68). -/
def State.stewardExpires (s0 : State) (e : StartEnv) : State :=
  if s0.pow.pm ≠ .running || s0.boot.testen then s0
  else
    let s := s0.failProbation 2 e.store.uncut
    let n := (s.boot.credited s.ticks).stewardExpiries + 1
    let s1 := (s.setBoot { s.boot with stewardExpiries := n, serviceSince := none, stewardCause := true, phase := .stopped }).raise 0x100C
      [BitVec.ofNat 8 n]
    if n < 3 then s1.warmReset e
    else if s1.boot.alternateFirst then s1.beaconFailure
    else (s1.setBoot { s1.boot with alternateFirst := true, stewardExpiries := 0 }).warmReset e

/-- A core's watchdog expires (R220, R230, R240, R335); it is frozen while the core is halted (R982). -/
def State.coreExpires (s : State) (i : Fin 4) (cause : Nat) (e : StoreEnv) : State :=
  if s.pow.pm ≠ .running || !(s.boot.wdt.get i).en || (s.core.get i).run = .stopped || (s.core.get i).run = .halted then s
  else
    let now := s.ticks
    let l := now :: (s.boot.wdtExpiries.get i).filter (fun t => decide (now < t + 1966080))
    let s1 := (s.setBoot { s.boot with wdtExpiries := s.boot.wdtExpiries.set i (l.take 3) }).failProbation 3 e
    let s2 := (s1.raise 0x1007 [BitVec.ofNat 8 i.val, BitVec.ofNat 8 l.length]).coreReset i cause
    if 3 ≤ l.length then s2.failUnits [UnitId.core i] else s2

/-- A write of PMU_WDKICK (R227, R229, Table Start-10). -/
def State.wdKick (s : State) (i : Fin 4) (v : Word) (e : StoreEnv) : State :=
  if v = 0x6D9 || !(s.boot.wdt.get i).en then s else s.coreExpires i 3 e

end Sys2Proof.Machine
end

