-- ==== Sys2Proof/Machine/Host.lean ====
section
/-! DEFINITION. The commands of the host port, USB and the application channels (spec/05_host_port.md). -/
namespace Sys2Proof.Machine

def State.setHost (s : State) (h : HostPort) : State := { s with host := h }

/-! Frames out -/

/-- The frame of an event, with the losses since the last delivered one (R291, R292). -/
def Event.frame (e : Event) (lost : Nat) (mask : BitVec 16) : Frame :=
  { chan := 7, dir := true, seq := BitVec.ofNat 8 e.number, cmd := e.code, rtx := false, more := false, evt := true, stat := 0,
    payload := e.payload lost mask }

/-- The frame at the head of a transport's queue, and the queue without it (R253, R294): the frame whose delivery has begun, else
responses first, then events in order. R294 gives this order for the host port; USB takes the same. DESIGN CHOICE (log 136). -/
def Port.head (p : Port) : Option (Frame × Port) :=
  match p.staged, p.responses, p.events with
  | some f, _, _ => some (f, { p with staged := none })
  | none, f :: r, _ => some (f, { p with responses := r })
  | none, [], e :: r => some (e.frame p.lost p.lostMask, { p with events := r, lost := 0, lostMask := 0 })
  | none, [], [] => none

/-- Frames queued for transmission. -/
def Port.queued (p : Port) : Nat := p.staged.isSome.toNat + p.responses.length + p.events.length

/-- HIRQ_N is low (R281, R282). -/
def State.hirqLow (s : State) : Bool := s.portUp .hostPort && decide (0 < (s.port .hostPort).queued)

/-! Frames in -/

/-- A frame is discarded and counted. DEDUCED (log 78). -/
def State.discard (s : State) (t : Transport) : State :=
  s.setPort t (fun p => { p with discarded := (p.discarded + 1) % 256, discardedTotal := satAdd 65535 p.discardedTotal 1 })

/-- A corrupt frame (R301): discarded, counted, ERR on SPI, and an event at most every 100 ms. DEDUCED (log 84). -/
def State.corrupt (s : State) (t : Transport) : State :=
  let s1 := s.discard t
  let s2 := if t = .hostPort && !s.boot.hsel then s1.setHost { s1.host with err := true } else s1
  let due := match (s.port t).corruptAt with | none => true | some x => decide (x + 3277 ≤ s.ticks)
  if due then
    (s2.setPort t (fun p => { p with corruptAt := some s.ticks })).raise 0xB000
      ([BitVec.ofNat 8 t.slot.val] ++ leOctets 2 (s2.port t).discardedTotal)
  else s2

/-- The octets of a whole frame reach the Steward (R271, R275, R301). -/
def State.frameIn (s : State) (t : Transport) (os : List Octet) : State :=
  match parseFrame os with
  | none => s.corrupt t
  | some f => (s.arrive t f).1

/-! Host SPI -/

/-- The port status octet (Table Host-2). -/
def State.portStatus (s : State) : Octet :=
  BitVec.ofNat 8 (0xA0 + 8 * s.host.err.toNat + 2 * (decide (0 < (s.port .hostPort).queued)).toNat + (decide (s.host.rxUsed < 2)).toNat)

/-- A transaction on the host SPI: HCS_N falls and the status octet goes out (R252); `used`: receive buffers in use. With the port
disabled HMISO stays high impedance (R256). -/
def State.spi (s : State) (used : Fin 3) (f : State → State) : State :=
  if s.boot.hsel then s
  else if !s.portUp .hostPort then s.setHost { s.host with statusOctet := 0, hmiso := [] }
  else
    let s1 := s.setHost { s.host with rxUsed := used.val, hcsAbandoned := false, hmiso := [] }
    f (s1.setHost { s1.host with statusOctet := s1.portStatus })

/-- A written frame is discarded (R254). DEDUCED (log 78). -/
def State.discardWrite (s : State) : State :=
  let s1 := s.discard .hostPort
  s1.setHost { s1.host with err := true }

/-- n octets of a frame that the device sends, 0x00 beyond its end (R255). -/
def clockedOut (f : List Octet) (n : Nat) : List Octet := (f ++ List.replicate n 0).take n

/-- WRITE with the octets after the opcode (R254, R301). -/
def State.spiWrite (s : State) (os : List Octet) : State :=
  if 2 ≤ s.host.rxUsed then s.discardWrite else s.frameIn .hostPort os

/-- READ with n octets clocked after the opcode (R255): consumed when every octet has gone, else the frame stays at the head. DESIGN
CHOICE (log 128). -/
def State.spiRead (s : State) (n : Nat) : State :=
  match (s.port .hostPort).head with
  | none => s.setHost { s.host with hmiso := clockedOut nullFrame n }
  | some (f, p) =>
    let o := f.octets
    let s1 := s.setHost { s.host with hmiso := clockedOut o n }
    if n < o.length then s1.setPort .hostPort (fun _ => { p with staged := some f })
    else
      let s2 := s1.setPort .hostPort (fun _ => p)
      s2.setHost { s2.host with lastRead := some o }

/-- REREAD with n octets clocked (R255, R302). -/
def State.spiReread (s : State) (n : Nat) : State :=
  s.setHost { s.host with hmiso := clockedOut (s.host.lastRead.getD nullFrame) n }

/-- STATUS (Tables Host-1 and Host-2): ERR and the discarded count clear, however many of its octets are clocked. DESIGN CHOICE
(log 136). -/
def State.spiStatus (s : State) : State :=
  let p := s.port .hostPort
  let o := [BitVec.ofNat 8 (2 - s.host.rxUsed), BitVec.ofNat 8 (min 255 p.queued), BitVec.ofNat 8 p.discarded]
  let s1 := s.setPort .hostPort (fun p => { p with discarded := 0 })
  s1.setHost { s1.host with err := false, hmiso := o }

/-- A transaction by its opcode octet (Table Host-1), with the octets that the host sends after it and the number it clocks. -/
def State.transaction (s : State) (used : Fin 3) (op : Octet) (os : List Octet) (n : Nat) : State :=
  s.spi used (fun s =>
    match op.toNat with
    | 0x5A => s.spiWrite os
    | 0xA5 => s.spiRead n
    | 0xA6 => s.spiReread n
    | 0x3C => s.spiStatus
    | _ => s.discard .hostPort)

/-- WRITE (R254). -/
def execSpiWrite (used : Fin 3) (os : List Octet) (s : State) : Host.Outcome State Fault Refusal :=
  .next (s.transaction used 0x5A os os.length)

/-- READ (R255). -/
def execSpiRead (used : Fin 3) (n : Nat) (s : State) : Host.Outcome State Fault Refusal := .next (s.transaction used 0xA5 [] n)

/-- REREAD (R255). -/
def execSpiReread (used : Fin 3) (n : Nat) (s : State) : Host.Outcome State Fault Refusal := .next (s.transaction used 0xA6 [] n)

/-- STATUS (R252). -/
def execSpiStatus (used : Fin 3) (s : State) : Host.Outcome State Fault Refusal := .next (s.transaction used 0x3C [] 3)

/-- An opcode of no transaction (Table Host-1). -/
def execSpiBadOpcode (used : Fin 3) (op : Octet) (s : State) : Host.Outcome State Fault Refusal := .next (s.transaction used op [] 0)

/-- HCS_N low over 100 ms (R257); `write`: a WRITE was in progress. -/
def execHcsTimeout (write : Bool) (s : State) : Host.Outcome State Fault Refusal :=
  .next (if s.boot.hsel || !s.portUp .hostPort then s
    else
      let s1 := if write then s.discardWrite else s.discard .hostPort
      s1.setHost { s1.host with hcsAbandoned := true })

/-! Host UART -/

/-- HRTS_N is high: both receive buffers are in use (R262). -/
def State.hrtsHigh (s : State) : Bool := decide (2 ≤ s.host.rxUsed)

/-- A frame found on the UART is rejected, or discarded because both receive buffers are in use (R260, R262, R303). -/
def State.uartReject (s : State) : State := if s.hrtsHigh then s.discard .hostPort else s.corrupt .hostPort

/-- A whole frame behind a mark: taken, or discarded with both receive buffers in use (R262). -/
def State.uartTake (s : State) (os : List Octet) : State :=
  if s.hrtsHigh then s.discard .hostPort
  else ({ s with host := { s.host with rateUnproved := false } }).frameIn .hostPort os

/-- The receiver hunts for the mark 0x55, 0xC3 in the octets received (R260), having passed over `skip` of them: a header with a length
above 1 020 or a frame whose CRC fails is rejected, and the hunt goes on at the octet after the rejected mark's 0x55. What may still
become a frame is kept. -/
def State.huntMark : Nat → List Octet → State → State
  | _, [], s => { s with host := { s.host with uartRx := [] } }
  | skip + 1, _ :: r, s => State.huntMark skip r s
  | 0, o :: r, s =>
    let body := r.drop 1
    let n := fieldNat body 4 2 % 1024
    if o ≠ 0x55 || (match r with | [] => false | x :: _ => decide (x ≠ 0xC3)) then State.huntMark 0 r s
    else if body.length < 8 then { s with host := { s.host with uartRx := o :: r } }
    else if 1020 < n then State.huntMark 0 r s.uartReject
    else if body.length < 12 + n then { s with host := { s.host with uartRx := o :: r } }
    else if (parseFrame (body.take (12 + n))).isSome then State.huntMark (13 + n) r (s.uartTake (body.take (12 + n)))
    else State.huntMark 0 r s.uartReject

/-- Octets arrive on the UART (R260, R262, R301); `used`: receive buffers in use. -/
def execUartFrame (used : Fin 3) (os : List Octet) (s : State) : Host.Outcome State Fault Refusal :=
  .next (if !s.boot.hsel || !s.portUp .hostPort then s
    else State.huntMark 0 (s.host.uartRx ++ os) (s.setHost { s.host with rxUsed := used.val }))

/-- A gap of more than 2 ms inside a frame ends it (R261, R301). -/
def execUartGapTimeout (s : State) : Host.Outcome State Fault Refusal :=
  .next (if s.boot.hsel && s.portUp .hostPort then ({ s with host := { s.host with uartRx := [] } }).uartReject else s)

/-- The marked octets of a frame on the UART (R260). -/
def Frame.marked (f : Frame) : List Octet := [0x55, 0xC3] ++ f.octets

/-- HCTS_N changes (R262). When it rises after `sent` octets of the frame in transmission, what is left of the frame is held back. -/
def execHctsChange (high : Bool) (sent : Nat) (s : State) : Host.Outcome State Fault Refusal :=
  .next (let s1 := s.setHost { s.host with hcts := high }
    if !high || s.host.hcts || sent = 0 || !s.boot.hsel || !s.portUp .hostPort then s1
    else
      match (s.port .hostPort).head with
      | none => s1
      | some (f, p) =>
        let os := if s.host.uartLeft.isEmpty then f.marked else s.host.uartLeft
        let n := min sent (os.length - 1)
        let s2 := s1.setPort .hostPort (fun _ => { p with staged := some f })
        s2.setHost { s2.host with uartOut := os.take n, uartLeft := os.drop n })

/-- The new rate takes effect (R259). -/
def execUartRateApply (s : State) : Host.Outcome State Fault Refusal :=
  .next (match s.host.ratePending with
    | none => s
    | some r => s.setHost { s.host with rate := r, ratePending := none, rateUnproved := true })

/-- 5 s without a valid frame since the rate change (R259). -/
def execUartRateRevert (s : State) : Host.Outcome State Fault Refusal :=
  .next (if s.host.rateUnproved then (s.setHost { s.host with rate := 0, rateUnproved := false }).raise 0xB001 [] else s)

/-- A frame leaves HTXD with its mark, or what HCTS_N held back of it (R260, R262, R263, R281). -/
def execUartFrameSent (s : State) : Host.Outcome State Fault Refusal :=
  .next (if !s.boot.hsel || !s.portUp .hostPort || s.host.hcts then s
    else
      match (s.port .hostPort).head with
      | none => s
      | some (f, p) =>
        let s1 := s.setPort .hostPort (fun _ => p)
        s1.setHost { s1.host with uartOut := if s.host.uartLeft.isEmpty then f.marked else s.host.uartLeft, uartLeft := [] })

/-! USB -/

/-- The descriptors of Table Host-4. -/
structure UsbDescriptors where
  idVendor : BitVec 16
  idProduct : BitVec 16
  bcdDevice : BitVec 16
  bDeviceClass : Octet
  bMaxPacketSize0 : Nat
  interface : Octet × Octet × Octet
  endpoints : List (Octet × Nat)
  selfPowered : Bool
  remoteWakeup : Bool
  bMaxPower : Nat
  manufacturer : String
  product : String
  serial : String
  deriving DecidableEq, Repr

/-- The hexadecimal digits of an identity, nine of them. -/
def hexString (v : BitVec 36) : String :=
  String.ofList ((List.range 9).reverse.map (fun k => "0123456789ABCDEF".toList.getD (v.toNat / 16 ^ k % 16) '0'))

/-- What the USB device reports of itself (R264); the case of the hexadecimal digits is open. DESIGN CHOICE (log 136). -/
def usbDescriptors : UsbDescriptors :=
  { idVendor := 0x3C1D, idProduct := 0x1224, bcdDevice := 0x0B10, bDeviceClass := 0x00, bMaxPacketSize0 := 64,
    interface := (0xFF, 0x00, 0x00), endpoints := [(0x01, 64), (0x81, 64)], selfPowered := true, remoteWakeup := false, bMaxPower := 0,
    manufacturer := "Azkanov Silicon Works", product := "Plovzen PZ-1224", serial := hexString Config.identity }

/-- A bulk transfer: packets of 64 octets, ending with a short packet, which may be empty (R265). -/
def usbPackets : Nat → List Octet → List (List Octet)
  | 0, _ => []
  | n + 1, os => os.take 64 :: (if os.length < 64 then [] else usbPackets n (os.drop 64))

/-- The D+ pull-up is connected (R266, R954). -/
def State.usbPullUp (s : State) : Bool :=
  s.host.vbus && s.host.admitting && decide (1 ≤ s.boot.tier.toNat) && s.domainRuns .uclk

/-- A frame arrives as one bulk OUT transfer (R265); `used`: receive buffers in use, with both in use it is not taken. -/
def execUsbFrame (used : Fin 3) (os : List Octet) (s : State) : Host.Outcome State Fault Refusal :=
  .next (if !s.portUp .usb then s
    else
      let s1 := s.setHost { s.host with usbRxUsed := used.val }
      if 2 ≤ used.val then s1 else s1.frameIn .usb os)

/-- The USB host takes the head frame, or nothing (R265). -/
def execUsbInTransfer (s : State) : Host.Outcome State Fault Refusal :=
  .next (if !s.portUp .usb then s
    else
      match (s.port .usb).head with
      | none => s.setHost { s.host with usbOut := [] }
      | some (f, p) =>
        let s1 := s.setPort .usb (fun _ => p)
        s1.setHost { s1.host with usbOut := usbPackets 17 f.octets })

/-- USB_VBUS crosses its thresholds (R954). -/
def execUsbVbusChange (present : Bool) (s : State) : Host.Outcome State Fault Refusal :=
  .next (s.setHost { s.host with vbus := present, usbConfigured := s.host.usbConfigured && present })

/-- The USB host configures the device, or takes the configuration away (R264, R290). DESIGN CHOICE (log 128). -/
def execUsbConfiguration (on : Bool) (s : State) : Host.Outcome State Fault Refusal :=
  .next (s.setHost { s.host with usbConfigured := on && s.usbPullUp })

/-! Requests again, interim responses -/

/-- A request with the last accepted SEQ arrives again (R275). -/
def execDuplicateRequest (c : Fin 7) (cmd : Nat) (flags : Octet) (q : CmdReq) (s : State) : Host.Outcome State Fault Refusal :=
  .next (match ((s.port q.transport).chans.get c).last with
    | none => s
    | some r =>
      if s.portUp q.transport && r.seq = q.seq then
        (s.arrive q.transport { chan := c.val, dir := false, reserved := false, seq := q.seq, cmd := cmd, flags := flags,
                                payload := q.payload }).1
      else s)

/-- What remains, in ms, of the response limit of the request that a transport's application channel has with its core (R288). -/
def State.appRemains (s : State) (t : Transport) (c : Fin 7) : Option Nat :=
  if h : 1 ≤ c.val ∧ c.val ≤ 4 then
    let a : Fin 4 := ⟨c.val - 1, by omega⟩
    match s.host.app.get a, s.host.routes.get a with
    | some (u, _), some x => if u = t then some (x.limit - (s.ticks - s.host.appAt.get a) * 1000 / 32768) else none
    | _, _ => none
  else none

/-- An interim response is due (R275, R276, R277): it states what remains of an application request's limit (R288), else `ms`. -/
def execInterimDue (t : Transport) (c : Fin 7) (ms : Nat) (s : State) : Host.Outcome State Fault Refusal :=
  .next (if s.portUp t then s.interim t c ((s.appRemains t c).getD ms) else s)

/-! Bus-off -/

/-- The bus-off recovery of CAN-A, or with `canB` of CAN-B, completes; CAN-A enters restricted operation (R416, R478, R637). -/
def execBusOffRecoveryDone (canB : Bool) (s : State) : Host.Outcome State Fault Refusal :=
  .next (if canB then { s with per := { s.per with canb := s.per.canb.recovered } }
    else if s.con.busOff && s.con.recovering then
      ({ s with con := { s.con with busOff := false, recovering := false, txErrors := 0, rxErrors := 0, restricted := true } })
    else s)

/-! Application channels -/

/-- The channel of an application channel's number less one. -/
def appChan (c : Fin 4) : Fin 7 := ⟨c.val + 1, by omega⟩

/-- The request area (Table Host-9). -/
def requestArea (c : Fin 4) (t : Transport) (flags : Octet) (r : Request) : List Word :=
  let head : List Word := [BitVec.ofNat 12 (c.val + 1), r.seq.setWidth 12] ++ leWords 2 r.cmd ++
    [BitVec.ofNat 12 r.payload.length, flags.setWidth 12, BitVec.ofNat 12 t.slot.val]
  (head ++ octetsToWords r.payload ++ List.replicate 1024 0).take 1024

/-- The core to which a channel is routed, while it runs (R289). -/
def State.appRoute (s : State) (c : Fin 4) : Option AppRoute :=
  match s.host.routes.get c with
  | none => none
  | some x =>
    match (s.core.get x.core).run with
    | .running | .waiting | .halted => some x
    | .stopped | .inReset => none

/-- An accepted request of an application channel is given to its core (R284, R289, R296); while another request to the channel is
with the core, it waits. -/
def State.appDeliver (s : State) (t : Transport) (c : Fin 4) (r : Request) (flags : Octet) : State :=
  if s.boot.tier.toNat < 1 then s.respond t (appChan c) 0x06 []
  else
    match s.appRoute c with
    | none => s.respond t (appChan c) 0x07 []
    | some x =>
      if (s.host.app.get c).isSome then s
      else
        let s1 := s.cohWrite x.base (requestArea c t flags r)
        let s2 := s1.reply t (appChan c) .wait
        s2.setHost { s2.host with app := s2.host.app.set c (some (t, r)), appAt := s2.host.appAt.set c s.ticks,
                                  pend := s2.host.pend.set x.core (s2.host.pend.get x.core ||| (1#4 <<< c.val)) }

/-- A request on an application channel, arriving or accepted before and waiting (R284). -/
def execAppRequest (c : Fin 4) (cmd : Nat) (flags : Octet) (q : CmdReq) (s : State) : Host.Outcome State Fault Refusal :=
  .next (if !s.portUp q.transport || cmd < 0x8000 then s
    else
      let ch := (s.port q.transport).chans.get (appChan c)
      let r : Request := { seq := q.seq, cmd := cmd, payload := q.payload }
      if ch.phase = .executing && !ch.begun && ch.last = some r then s.appDeliver q.transport c r ch.flags
      else
        match s.arrive q.transport { chan := c.val + 1, dir := false, reserved := false, seq := q.seq, cmd := cmd, flags := flags,
                                     payload := q.payload } with
        | (s1, .settled) => s1
        | (s1, .run) => s1.appDeliver q.transport c r flags)

/-- The request with a core ends: PEND clears, and its answer is queued. DEDUCED (log 79). -/
def State.appEnd (s : State) (c : Fin 4) (core : Fin 4) (stat : Nat) (payload : List Octet) : State :=
  match s.host.app.get c with
  | none => s
  | some (t, _) =>
    (s.setHost { s.host with app := s.host.app.set c none,
                             pend := s.host.pend.set core (s.host.pend.get core &&& ~~~(1#4 <<< c.val)) }).respond t (appChan c) stat payload

/-- A stray DONE (R285). -/
def State.strayDone (s : State) (core : Fin 4) (chan : Nat) : State :=
  let due := match s.host.strayAt.get core with | none => true | some x => decide (x + 32768 ≤ s.ticks)
  if due then
    (s.setHost { s.host with strayAt := s.host.strayAt.set core (some s.ticks) }).raise 0xB002
      [BitVec.ofNat 8 core.val, BitVec.ofNat 8 chan]
  else s

/-- A core writes GRT_MBXDONE (R285, R286, R287). -/
def State.mbxDone (s : State) (core : Fin 4) (v : Word) : State :=
  let n := v.toNat % 8
  if h : 1 ≤ n ∧ n ≤ 4 then
    let c : Fin 4 := ⟨n - 1, by omega⟩
    match s.host.routes.get c with
    | none => s.strayDone core n
    | some x =>
      if x.core ≠ core || !(s.host.pend.get core).getLsbD c.val then s.strayDone core n
      else
        let head := s.cohRead (x.base + 1024) 2
        let stat := wordsNat (head.take 1)
        let len := wordsNat (head.drop 1)
        if (stat ≠ 0 && !(decide (0xC0 ≤ stat) && decide (stat ≤ 0xFF))) || 1020 < len then s.appEnd c core 0x0A []
        else s.appEnd c core stat (wordsToOctets len (s.cohRead (x.base + 1026) 680))
  else s.strayDone core n

/-- The route's response limit runs out (R288). -/
def execAppResponseTimeout (c : Fin 4) (s : State) : Host.Outcome State Fault Refusal :=
  .next (match s.host.routes.get c with
    | none => s.appEnd c 0 0x08 []
    | some x => s.appEnd c x.core 0x08 [])

/-- A core writes GRT_MBXEVT (R284, Table Host-10). -/
def State.mbxEvent (s : State) (core : Fin 4) (v : Word) : State := s.raise (0xA000 + v.toNat) [BitVec.ofNat 8 core.val]

end Sys2Proof.Machine
end

