-- ==== Sys2Proof/Machine/Periph.lean ====
section
/-! DEFINITION. The commands of DMA, CAN-B, I2C, sensor SPI, GNSS and GPIO (spec/11_jieles_model.md, R629 to R642). -/
namespace Sys2Proof.Machine

/-- A line access of a transfer is acknowledged; a transfer from the ADC takes what its request brings (R630, R632). -/
def execDmaLineDone (ch : Fin 32) (ec : BitVec 2) (tileErr : Bool) (s : State) : Host.Outcome State Fault Refusal :=
  .next (if (s.dma ch).srck = 2 then s.dmaAdc else s.dmaLine ch ec tileErr)

def State.setCanb (s : State) (c : CanB) : State := s.setPer { s.per with canb := c }
def State.setI2c (s : State) (c : I2c) : State := s.setPer { s.per with i2c := c }
def State.setSspi (s : State) (c : Sspi) : State := s.setPer { s.per with sspi := c }
def State.setGnss (s : State) (c : Gnss) : State := s.setPer { s.per with gnss := c }
def State.setGpio (s : State) (c : Gpio) : State := s.setPer { s.per with gpio := c }

/-- A frame is received (R636). -/
def execCanbFrameReceived (f : CanFrame) (s : State) : Host.Outcome State Fault Refusal :=
  .next (s.live 9 0 fun (s : State) => s.setCanb (s.per.canb.receive f))

/-- The frame of a buffer has left the bus: sent, or to be sent again after an error or lost arbitration (R636). Pending
buffers go lowest identifier first: `buf` is the one that went. -/
def execCanbFrameSent (buf : Fin 3) (sent : Bool) (lec : BitVec 3) (s : State) : Host.Outcome State Fault Refusal :=
  .next (s.live 9 0 fun (s : State) => s.setCanb (s.per.canb.sent buf sent lec))

/-- Bus-off: MODE 0, pending buffers kept (R637). -/
def execCanbBusOff (s : State) : Host.Outcome State Fault Refusal :=
  .next (s.live 9 0 fun (s : State) => s.setCanb { s.per.canb with mode := 0, state := 2, boff := true })

/-- The transfer ends: the result that the bus gives, the octets acknowledged or received (R638, R971). -/
def execI2cTransferDone (res : Fin 8) (n : Nat) (got : List Octet) (s : State) : Host.Outcome State Fault Refusal :=
  .next (s.live 10 0 fun (s : State) => s.setI2c (s.per.i2c.ends res.val n got))

/-- No command within 25 ms of command 2: STOP, RES unchanged (R638). -/
def execI2cHoldTimeout (s : State) : Host.Outcome State Fault Refusal :=
  .next (s.live 10 0 fun (s : State) => s.setI2c { s.per.i2c with held := false })

/-- A stretch of 25 ms: bus timeout, both lines released (R970). -/
def execI2cStretchTimeout (s : State) : Host.Outcome State Fault Refusal :=
  .next (s.live 10 0 fun (s : State) => if s.per.i2c.busy then s.setI2c { s.per.i2c.finish 5 with held := false } else s)

/-- The transaction ends with the octets exchanged (R639). -/
def execSspiDone (got : List Octet) (s : State) : Host.Outcome State Fault Refusal :=
  .next (s.live 11 0 fun (s : State) => s.setSspi (s.per.sspi.ends got))

/-- A UART octet arrives (R640). -/
def execGnssOctetReceived (o : Octet) (ferr : Bool) (s : State) : Host.Outcome State Fault Refusal :=
  .next (s.live 12 0 fun (s : State) => s.setGnss (s.per.gnss.receive o ferr))

/-- A PPS edge, dt TSCLK periods after the count was last observed (R640). -/
def execGnssPpsEdge (dt : Nat) (s : State) : Host.Outcome State Fault Refusal := .next ((s.tickTs dt).live 12 0 State.ppsEdge)

/-- An edge at a GPIO ball (R641). -/
def execGpioInputEdge (n : Fin 40) (level : Bool) (s : State) : Host.Outcome State Fault Refusal :=
  .next (s.live 13 0 fun (s : State) => s.setGpio (s.per.gpio.edge n level))

/-- The end of a GPIO PWM period (R641). -/
def execGpioPwmPeriodEnd (s : State) : Host.Outcome State Fault Refusal :=
  .next (s.live 13 0 fun (s : State) => s.setGpio s.per.gpio.periodEnd)

/-- A filtered edge of a hall, wheel or brake input, or of GPPS, dt TSCLK periods after the count was last observed (R504 to
R509, R640). -/
def execFilteredEdge (dt : Nat) (e : CapEdge) (s : State) : Host.Outcome State Fault Refusal :=
  .next (match e with
    | .gpps _ => (s.tickTs dt).live 12 0 State.ppsEdge
    | .hall _ | .wha _ | .whb _ | .brake _ => (s.tickTs dt).live 5 3 fun (s : State) => s.capEdge e)

/-- A sequence entry completes with the codes of its two conversions (R502, R494, R503, R632). -/
def execAdcEntryComplete (codeA codeB : Word) (s : State) : Host.Outcome State Fault Refusal :=
  .next (s.live 4 0 fun (s : State) =>
    let (a, three) := s.mot.adc.entry codeA codeB
    ((s.setAdc a).setPwm (s.pwm.seen three)).dmaAdc)

end Sys2Proof.Machine
end

