-- ==== Sys2Proof/Machine/IoSpace.lean ====
section
/-! DEFINITION. The I/O space of a core (R594 to R596, Tables Jieles-7, Jieles-9 and Jieles-10): what an address may be reached
for, and what a read or a write of it does. -/
namespace Sys2Proof.Machine

/-! Interrupt sources -/

/-- A core holds the grant of a block (R597). -/
def CoreState.granted (c : CoreState) (n : Nat) : Bool := c.grants.blocks.getLsbD n

def coreOwner (i : Fin 4) : Fin 5 := ⟨i.val, by omega⟩
def coreSlot (i : Fin 4) : Fin 6 := ⟨i.val, by omega⟩

/-- A DMA channel of a core. -/
def coreDma (i : Fin 4) (ch : Fin 4) : DmaIndex := ⟨4 * i.val + ch.val, by omega⟩

/-- The DMA interrupt source of a core (R633). -/
def State.dmaRequests (s : State) (i : Fin 4) : Bool :=
  ([0, 1, 2, 3] : List (Fin 4)).any (fun ch => let d := s.dma (coreDma i ch); d.done && d.ie)

/-- GRT_IPEND of a core (R618, Table Jieles-10). -/
def State.ipend (s : State) (i : Fin 4) : Word :=
  let c := s.core.get i
  let serial := (c.granted 10 && s.per.i2c.requests) || (c.granted 11 && s.per.sspi.requests) || (c.granted 12 && s.per.gnss.requests)
  BitVec.ofNat 12 (boolsNat [
    c.grants.routes ≠ 0 && s.host.pend.get i ≠ 0, c.dbsrc ≠ 0, c.granted 3 && c.pwmEvent,
    c.granted 4 && decide (4 * (s.mot.adc.thr.toNat + 1) ≤ s.mot.adc.fifo.length), c.granted 5 && !s.mot.tcap.fifo.isEmpty,
    c.granted 6 && c.tslEvent, c.granted 7 && !s.cel.keyFifo.isEmpty, c.granted 14 && s.dmaRequests i,
    c.granted 2 && (s.fown (coreOwner i)).requests, c.granted 9 && s.per.canb.requests, serial,
    c.granted 13 && decide (s.per.gpio.iflg ≠ 0)])

/-- Sources that are pending and enabled (R619). -/
def State.interrupts (s : State) (i : Fin 4) : Word := s.ipend i &&& (s.core.get i).ien

/-- The lowest-numbered source of a set (R619). -/
def lowestSource (v : Word) : Option Nat := (List.range 12).find? (fun n => v.getLsbD n)

/-! Reach -/

/-- The failure that stops a block's accesses: its unit has failed, with the capture inputs counted as the PWM timer's (R212), or
Teasel's supply has (R536, R596, Table Start-7). DEDUCED (log 36). -/
def State.blockFailed (s : State) (n off : Nat) : Bool :=
  (match blockUnit n with | none => false | some u => unitFailed (s.boot.units.get u)) ||
    (n = 5 && decide (3 ≤ off) && unitFailed (s.boot.units.get UnitId.pwm)) ||
    (n = 6 && !s.pow.teaselRail) ||
    (n = 2 && unitFailed (s.boot.units.get UnitId.flash0) && unitFailed (s.boot.units.get UnitId.flash1))

/-- The vector and sub-cause of an access that its block does not serve (R595, R596). DEDUCED (log 37). -/
def State.ioCause (s : State) (i : Fin 4) (addr : Nat) : Option (Nat × Nat) :=
  let c := s.core.get i
  let n := addr / 256
  let off := addr % 256
  if 15 ≤ n then some (7, 0)
  else if n = 0 then (if 0x010 ≤ off && off ≤ 0x012 && c.grants.routes = 0 then some (7, 3) else none)
  else if !(c.granted n || (n = 1 && (off = 5 || off = 6))) then some (7, 0)
  else if n = 7 && 0x020 ≤ off then some (7, 1)
  else if !blockOn s.boot.role n off then some (8, 0)
  else if s.blockFailed n off then some (8, 1)
  else
    match blockDomain n with
    | none => none
    | some d => if s.domainRuns d then none else some (8, 2)

/-! Reads -/

/-- GRT_ (Tables Jieles-9 and Host-10). -/
def State.grtRead (s : State) (i : Fin 4) (off : Nat) : Word × State :=
  let c := s.core.get i
  let g := c.grants
  let just (n : Nat) : Word × State := (BitVec.ofNat 12 n, s)
  match off with
  | 0x000 => just i.val
  | 0x001 => just (g.crypto.toNat + 2 * (g.blocks.toNat / 2 % 2048))
  | 0x002 => just (g.blocks.toNat / 4096 % 8 + 8 * g.routes.toNat)
  | 0x003 => (s.ipend i, s)
  | 0x004 => (c.ien, s)
  | 0x006 => (c.dbsrc.setWidth 12, s.setCore i { c with dbsrc := 0 })
  | 0x007 => just (g.windowValid.toNat + 2 * g.bank.toNat + 4 * g.first.toNat)
  | 0x008 => just g.last.toNat
  | 0x009 => just (s.boot.tier.toNat + 4 * s.speedwellNow.toNat)
  | 0x010 => just (s.host.pend.get i).toNat
  | _ => just 0

/-- The word read, or 0 at an offset that is not named (R595). -/
def orZero (s : State) : Option (Word × State) → Word × State
  | none => (0, s)
  | some x => x

/-- A core's read of an I/O address that it reaches. DEDUCED (log 132). -/
def State.ioRead (s : State) (i : Fin 4) (addr : Nat) (e : AccessEnv) : Word × State :=
  let off := addr % 256
  let r := coreSlot i
  let o := coreOwner i
  match addr / 256 with
  | 0 => s.grtRead i off
  | 1 => (s.pmuRead i off, s)
  | 2 => s.fctlRead o off
  | 3 => let s1 := if off = 0x00F then s.setPwm (s.pwm.counted e.pwmCnt) else s; orZero s1 (s1.pwmRead r off)
  | 4 => orZero s (s.adcRead r off)
  | 5 => let s1 := s.tickTs e.dt; orZero s1 (s1.tcapRead r off)
  | 6 => ((s.tslRead off).getD 0, s)
  | 7 => s.celKeyRead r off
  | 9 => let (w, c) := s.per.canb.read off; (w, s.setCanb c)
  | 10 => let (w, c) := s.per.i2c.read off; (w, s.setI2c c)
  | 11 => let (w, c) := s.per.sspi.read off; (w, s.setSspi c)
  | 12 => let (w, c) := s.per.gnss.read r off; (w, s.setGnss c)
  | 13 => (s.per.gpio.read off, s)
  | 14 => if h : off < 0x040 then s.dmaRead (coreDma i ⟨off / 16, by omega⟩) (off % 16) else (0, s)
  | _ => (0, s)

/-! Writes -/

/-- A core rings the doorbells of the named cores (R647, Table Jieles-9). -/
def State.ringDoorbells (s : State) (i : Fin 4) (v : Word) : State :=
  s.mapCores (fun j c => if v.getLsbD j.val then { c with dbsrc := c.dbsrc ||| (1#4 <<< i.val) } else c)

/-- GRT_ (Tables Jieles-9 and Host-10). -/
def State.grtWrite (s : State) (i : Fin 4) (off : Nat) (v : Word) : State :=
  let c := s.core.get i
  match off with
  | 0x003 => s.setCore i { c with pwmEvent := c.pwmEvent && !v.getLsbD 2, tslEvent := c.tslEvent && !v.getLsbD 5 }
  | 0x004 => s.setCore i { c with ien := v }
  | 0x005 => s.ringDoorbells i v
  | 0x011 => s.mbxDone i v
  | 0x012 => s.mbxEvent i v
  | _ => s

/-- PMU_, by a core (Tables Fabric-3 and Start-9). -/
def State.pmuWrite (s : State) (i : Fin 4) (off : Nat) (v : Word) (e : StoreEnv) : State :=
  match off with
  | 0x000 => s.opreqWrite i v
  | 0x001 => if v.getLsbD 8 then { s with clk := { s.clk with badReq := s.clk.badReq.set i false } } else s
  | 0x005 => s.wdtWrite i v
  | 0x006 => s.wdKick i v e
  | _ => s

/-- FCTL_, with `early` for a suspend within 250 µs of the last resume (R837, R844). -/
def State.fctlOut (s : State) (r : Fin 5) (off : Nat) (v : Word) (early : Bool) : State :=
  let o := s.fown r
  match o.asm, off with
  | .addr0 3 lo, 0x004 =>
    if early && o.waiting.isNone then (s.setFown r { o with addr1 := v }).flashControl r (lo.toNat + 4096 * v.toNat) false true
    else s.fctlWrite r (.reg off v)
  | _, _ => s.fctlWrite r (.reg off v)

/-- A word stored within a flash window (R835, R836), with `early` as above. -/
def State.flashStore (s : State) (r : Fin 5) (a : Nat) (v : Word) (early : Bool) : State :=
  let o := s.fown r
  if early && o.waiting.isNone && o.asm = .none && v = 0x6B5 then s.flashControl r a false true
  else s.fctlWrite r (.store a v)

/-- CANB_, with the buffer that is on the bus (R636). -/
def CanB.out (c : CanB) (off : Nat) (v : Word) (onBus : Option (Fin 3)) : CanB :=
  if off = 0x011 then c.abort (v.setWidth 3) onBus else c.write off v

/-- GNSS_, with the octets that have left its transmit FIFO (R640). -/
def Gnss.out (g : Gnss) (off : Nat) (v : Word) (left : Nat) : Gnss :=
  if off = 0x001 && g.en then { g with tx := g.tx.drop left }.write off v else g.write off v

/-- A write of a shared block by a requester whose slot in the units' own registers is `o` (R595, R18). -/
def State.blockWrite (s : State) (o : Fin 5) (who : Nat) (addr : Nat) (v : Word) (e : AccessEnv) : State :=
  let off := addr % 256
  match addr / 256 with
  | 2 => s.fctlOut o off v e.early
  | 3 => (s.pwmWrite off v).getD s
  | 4 => (s.adcWrite off v).getD s
  | 5 => let s1 := s.tickTs e.dt; (s1.tcapWrite off v).getD s1
  | 6 => (s.tslWrite who off v).getD s
  | 7 => s.celKeyWrite off v
  | 9 => s.setCanb (s.per.canb.out off v e.onBus)
  | 10 => s.setI2c (s.per.i2c.write off v)
  | 11 => s.setSspi (s.per.sspi.write off v)
  | 12 => s.setGnss (s.per.gnss.out off v e.txLeft)
  | 13 => s.setGpio (s.per.gpio.write off v)
  | _ => s

/-- A core's write of an I/O address that it reaches. -/
def State.ioWrite (s : State) (i : Fin 4) (addr : Nat) (v : Word) (e : AccessEnv) : State :=
  let off := addr % 256
  match addr / 256 with
  | 0 => s.grtWrite i off v
  | 1 => s.pmuWrite i off v e.store.uncut
  | 14 => if h : off < 0x040 then s.dmaWrite (coreDma i ⟨off / 16, by omega⟩) (off % 16) v else s
  | _ => s.blockWrite (coreOwner i) i.val addr v e

/-- The Steward's write of an I/O address: its own DMA channels 0 to 15 at offsets 0x000 to 0x0FF, and every register of CEL_. -/
def State.stewardWrite (s : State) (addr : Nat) (v : Word) (e : AccessEnv) : State :=
  let off := addr % 256
  match addr / 256 with
  | 7 => if off < 0x020 then s.celKeyWrite off v else s.celStewardWrite off v
  | 14 => if h : off < 256 then s.dmaWrite ⟨16 + off / 16, by omega⟩ (off % 16) v else s
  | _ => s.blockWrite 4 4 addr v e

/-! Commands of the I/O space -/

end Sys2Proof.Machine
end

