-- ==== Sys2Proof/Machine/Syllables.lean ====
section
/-! DEFINITION. The 24 bits of a syllable (R600, R601, Table Jieles-11), with the OP and COP values of Tables Ops-2 to Ops-14. -/
namespace Sys2Proof.Machine

/-- The operations of each format, in the order of their OP values. -/
def aOps : List AOp := [.add, .adc, .sub, .sbc, .and, .or, .xor, .andn, .shl, .shr, .sar, .cmp, .addp, .subp, .mfs, .mts]
def aImms : List AImm := [.ldi, .addi, .andi, .cmpi]
def mOps : List MOp :=
  [.muls, .mulu, .mull, .macs, .macu, .msus, .divs, .divu, .rems, .remu, .divps, .divpu, .accrd, .accw, .acch, .accz]
def mImms : List MImm := [.muli, .maci]
def lOps : List LOp := [.ldw, .ldp, .stw, .stp, .ldwi, .stwi, .macp, .cmo]
def ioOps : List IoOp := [.inp, .out]
def bOps : List BOp := [.br, .bc, .dbnz, .call, .jr, .bcr, .callr, .ret, .kset, .kget, .wait, .brk, .trap]

/-- Bits hi to lo of a syllable, as a number. -/
def bitsAt (v : BitVec 24) (lo k : Nat) : Nat := v.toNat / 2 ^ lo % 2 ^ k
def fin32 (n : Nat) : Fin 32 := ⟨n % 32, Nat.mod_lt _ (by decide)⟩
def fin16 (n : Nat) : Fin 16 := ⟨n % 16, Nat.mod_lt _ (by decide)⟩
def fin8 (n : Nat) : Fin 8 := ⟨n % 8, Nat.mod_lt _ (by decide)⟩

/-- A syllable from its 24 bits. -/
def decodeSyl (v : BitVec 24) : Syl :=
  let raw : Syl := .unassigned (v.setWidth 23)
  let rd (lo : Nat) : Fin 32 := fin32 (bitsAt v lo 5)
  let pr (lo : Nat) : Fin 16 := fin16 (bitsAt v lo 4)
  let imm : Word := v.setWidth 12
  let f := bitsAt v 19 1
  match bitsAt v 20 3 with
  | 0 =>
    if f = 0 then (match aOps[bitsAt v 15 4]? with | some op => .a op (rd 10) (rd 5) (rd 0) | none => raw)
    else (match aImms[bitsAt v 17 2]? with | some op => .ai op (rd 12) imm | none => raw)
  | 1 =>
    if f = 0 then (match mOps[bitsAt v 15 4]? with | some op => .m op (rd 10) (rd 5) (rd 0) | none => raw)
    else (match mImms[bitsAt v 17 2]? with | some op => .mi op (rd 12) imm | none => raw)
  | 2 =>
    if f = 0 then (match lOps[bitsAt v 16 3]? with | some op => .l op (rd 11) (pr 7) (v.setWidth 7) | none => raw)
    else (match ioOps[bitsAt v 17 2]? with | some op => .io op (rd 12) imm | none => raw)
  | 3 => .c (fin8 (bitsAt v 17 3)) (rd 12) (pr 8) (pr 4) (pr 0)
  | 4 => .x (fin8 (bitsAt v 17 3)) (v.setWidth 17)
  | 5 => (match bOps[bitsAt v 16 4]? with | some op => .b op (pr 12) imm | none => raw)
  | _ => raw

/-- The stop bit S. -/
def stopBit (v : BitVec 24) : Bool := v.getLsbD 23

/-- Fields of format R, bits 22:0. -/
def formatR (u op rd ra rb : Nat) : Nat := u * 2 ^ 20 + op * 2 ^ 15 + rd * 2 ^ 10 + ra * 2 ^ 5 + rb
/-- Fields of formats I and LI, bits 22:0. -/
def formatI (u op rd imm : Nat) : Nat := u * 2 ^ 20 + 2 ^ 19 + op * 2 ^ 17 + rd * 2 ^ 12 + imm

/-- Bits 22:0 of a syllable. -/
def Syl.bits : Syl → Nat
  | .a op rd ra rb => formatR 0 (aOps.idxOf op) rd.val ra.val rb.val
  | .ai op rd imm => formatI 0 (aImms.idxOf op) rd.val imm.toNat
  | .m op rd ra rb => formatR 1 (mOps.idxOf op) rd.val ra.val rb.val
  | .mi op rd imm => formatI 1 (mImms.idxOf op) rd.val imm.toNat
  | .l op rd pb disp => 2 * 2 ^ 20 + lOps.idxOf op * 2 ^ 16 + rd.val * 2 ^ 11 + pb.val * 2 ^ 7 + disp.toNat
  | .io op rd addr => formatI 2 (ioOps.idxOf op) rd.val addr.toNat
  | .c cp cop pd pa pb => 3 * 2 ^ 20 + cp.val * 2 ^ 17 + cop.val * 2 ^ 12 + pd.val * 2 ^ 8 + pa.val * 2 ^ 4 + pb.val
  | .x target value => 4 * 2 ^ 20 + target.val * 2 ^ 17 + value.toNat
  | .b op sel disp => 5 * 2 ^ 20 + bOps.idxOf op * 2 ^ 16 + sel.val * 2 ^ 12 + disp.toNat
  | .unassigned raw => raw.toNat

/-- The 24 bits of a syllable. -/
def encodeSyl (y : Syl) (stop : Bool) : Pair := BitVec.ofNat 24 (y.bits + stop.toNat * 2 ^ 23)

end Sys2Proof.Machine
end

