-- ==== Sys2Proof/Machine/Eval.lean ====
section
/-! DEFINITION. What each syllable of a bundle does as the bundle issues (spec/12_jieles_operations.md): its register writes, the
operation it holds back, the words it loads, and the cause it traps for. -/
namespace Sys2Proof.Machine

/-! Special registers -/

/-- A special register (Table Jieles-3). -/
def CoreState.special (c : CoreState) (i : Fin 4) (n : Fin 32) : Word :=
  match n.val with
  | 0 => c.fl
  | 1 => c.ctl.setWidth 12
  | 2 => 2
  | 3 => BitVec.ofNat 12 i.val
  | 4 => loWord c.epc
  | 5 => hiWord c.epc
  | 6 => c.ecause
  | 7 => loWord c.esyl
  | 8 => hiWord c.esyl
  | 9 => loWord c.eaddr
  | 10 => hiWord c.eaddr
  | 11 => c.estat.setWidth 12
  | 12 => c.eblen.setWidth 12
  | 13 => loWord c.tvb
  | 14 => hiWord c.tvb
  | _ => 0

/-- A write of a special register (R588, R589, R665, Tables Jieles-2 to Jieles-4). -/
def CoreState.setSpecial (c : CoreState) (n : Fin 32) (v : Word) : CoreState :=
  match n.val with
  | 0 => { c with fl := v &&& 0x07F }
  | 1 => { c with ctl := (c.ctl &&& 0x10) ||| (v.setWidth 5 &&& 0x0F) }
  | 4 => { c with epc := setHalf c.epc false v }
  | 5 => { c with epc := setHalf c.epc true v }
  | 11 => { c with estat := v.setWidth 5 }
  | 13 => { c with tvb := setHalf c.tvb false (v &&& 0xF80) }
  | 14 => { c with tvb := setHalf c.tvb true v }
  | _ => c

/-- A write that a completing result makes (R586, R609, R616). -/
def CoreState.write (c : CoreState) : RegWrite → CoreState
  | .w j v => c.setW j v
  | .k j v => c.setK j v
  | .acc v => { c with acc := v }
  | .flags mask value sticky => { c with fl := flAfter c.fl mask value sticky }
  | .special n v => c.setSpecial n v
  | .ret => { c with ctl := c.estat, pc := c.epc }
  | .cryptoErr => { c with crypto := { c.crypto with err := false } }

/-! What a syllable comes to -/

/-- Vector, sub-cause and address of a cause. -/
abbrev Trapped := Nat × Nat × Option Pair

/-- What a syllable does when its bundle issues. -/
structure Work where
  writes : List RegWrite
  cause : Option Trapped
  effect : Option Effect
  branch : Option Branch
  loads : List LoadPart
  loadKind : LoadKind
  canTrap : Bool
  /-- No later bundle issues before it completes. -/
  serial : Bool

def Work.writing (l : List RegWrite) : Work :=
  { writes := l, cause := none, effect := none, branch := none, loads := [], loadKind := .none, canTrap := false, serial := false }
def Work.trapping (t : Trapped) : Work := { Work.writing [] with cause := some t, canTrap := true }
def Work.holding (e : Effect) : Work := { Work.writing [] with effect := some e }

/-- A bundle as its syllables see it: the state and the core before it, its address and its length. -/
structure Issuing where
  s : State
  i : Fin 4
  c : CoreState
  pc : Pair
  len : Nat
  /-- A write of FL by an earlier bundle is pending. -/
  flPending : Bool

/-- The writes of a word or pair result with its flags. -/
def wordResult (rd : Fin 32) (r : AluResult 12) : Work := .writing [.w rd r.res, .flags r.mask r.value r.sticky]
def pairResult (rd : Fin 32) (r : AluResult 24) : Work :=
  .writing (pairWrites (pairOf rd) r.res ++ [.flags r.mask r.value r.sticky])

/-! A unit -/

/-- Format R (Table Ops-2). -/
def Issuing.evalA (f : Issuing) (op : AOp) (rd ra rb : Fin 32) : Work :=
  let a := f.c.rw ra
  let b := f.c.rw rb
  let carry := f.c.fl.getLsbD 0
  let n := b.toNat % 32
  match op with
  | .add => wordResult rd (addFlags a b false)
  | .adc => wordResult rd (addFlags a b carry)
  | .sub => wordResult rd (subFlags a b false)
  | .sbc => wordResult rd (subFlags a b !carry)
  | .and => wordResult rd (.zn (a &&& b))
  | .or => wordResult rd (.zn (a ||| b))
  | .xor => wordResult rd (.zn (a ^^^ b))
  | .andn => wordResult rd (.zn (a &&& ~~~b))
  | .shl => wordResult rd (shlFlags a n)
  | .shr => wordResult rd (shrFlags a n)
  | .sar => wordResult rd (sarFlags a n)
  | .cmp => let r := subFlags a b false; .writing [.flags r.mask r.value r.sticky]
  | .addp => pairResult rd (addFlags (f.c.rp (pairOf ra)) (f.c.rp (pairOf rb)) false)
  | .subp => pairResult rd (subFlags (f.c.rp (pairOf ra)) (f.c.rp (pairOf rb)) false)
  | .mfs => .writing [.w rd (f.c.special f.i ra)]
  | .mts => if rd = 0 then .writing [.flags 0x07F a 0] else { Work.writing [.special rd a] with serial := (Syl.a .mts rd ra rb).serial }

/-- Format I (Table Ops-3). -/
def Issuing.evalAI (f : Issuing) (op : AImm) (rd : Fin 32) (imm : Word) (long : Option Pair) : Work :=
  match long with
  | none =>
    let a := f.c.rw rd
    (match op with
     | .ldi => .writing [.w rd imm]
     | .addi => wordResult rd (addFlags a imm false)
     | .andi => wordResult rd (.zn (a &&& imm))
     | .cmpi => let r := subFlags a imm false; .writing [.flags r.mask r.value r.sticky])
  | some v =>
    let a := f.c.rp (pairOf rd)
    (match op with
     | .ldi => .writing (pairWrites (pairOf rd) v)
     | .addi => pairResult rd (addFlags a v false)
     | .andi => pairResult rd (.zn (a &&& v))
     | .cmpi => let r := subFlags a v false; .writing [.flags r.mask r.value r.sticky])

/-! M unit -/

/-- A division or remainder; with DZT at 1 a zero divisor traps (R669). -/
def Issuing.division (f : Issuing) (b : Word) (r : Work) : Work :=
  if f.c.ctl.getLsbD 2 then (if b = 0 then .trapping (9, 0, none) else { r with canTrap := true }) else r

/-- acc plus an exact product, modulo 2³⁶ (R667). -/
def accPlus (acc : BitVec 36) (x : Int) : BitVec 36 := acc + BitVec.ofInt 36 x

/-- Format R (Table Ops-5). -/
def Issuing.evalM (f : Issuing) (op : MOp) (rd ra rb : Fin 32) : Work :=
  let a := f.c.rw ra
  let b := f.c.rw rb
  let p := f.c.rp (pairOf ra)
  match op with
  | .muls => pairResult rd (.zn (BitVec.ofInt 24 (a.toInt * b.toInt)))
  | .mulu => pairResult rd (.zn (BitVec.ofNat 24 (a.toNat * b.toNat)))
  | .mull => wordResult rd (mullFlags a b)
  | .macs => .writing [.acc (accPlus f.c.acc (a.toInt * b.toInt))]
  | .macu => .writing [.acc (accPlus f.c.acc (a.toNat * b.toNat : Nat))]
  | .msus => .writing [.acc (accPlus f.c.acc (-(a.toInt * b.toInt)))]
  | .divs => f.division b (wordResult rd (divFlags true false a b))
  | .divu => f.division b (wordResult rd (divFlags false false a b))
  | .rems => f.division b (wordResult rd (divFlags true true a b))
  | .remu => f.division b (wordResult rd (divFlags false true a b))
  | .divps => f.division b (pairResult rd (divFlags true false p b))
  | .divpu => f.division b (pairResult rd (divFlags false false p b))
  | .accrd => pairResult rd (accReadFlags f.c.acc rb.val)
  | .accw => .writing [.acc (p.signExtend 36)]
  | .acch => .writing [.w rd ((f.c.acc >>> 24).setWidth 12)]
  | .accz => .writing [.acc 0]

/-- Format I (Table Ops-6). -/
def Issuing.evalMI (f : Issuing) (op : MImm) (rd : Fin 32) (imm : Word) (long : Option Pair) : Work :=
  match op, long with
  | .muli, none => wordResult rd (.zn (f.c.rw rd * imm))
  | .muli, some v => pairResult rd (.zn (f.c.rp (pairOf rd) * v))
  | .maci, none => .writing [.acc (accPlus f.c.acc ((f.c.rw rd).toInt * imm.toInt))]
  | .maci, some v => .writing [.acc (accPlus f.c.acc ((f.c.rw rd).toInt * v.toInt))]

/-! L unit -/

/-- Where a data address lies (Table Jieles-6). -/
inductive Region where
  | scratch
  | tile
  | flash
  | fault (sub : Nat)
  deriving DecidableEq, Repr

def State.region (s : State) (i : Fin 4) (a : Nat) : Region :=
  if a < 0x004000 then .scratch
  else if a < 0x100000 then .fault 0
  else if a < 0x110000 then .fault 1
  else if a < 0x200000 then .tile
  else if a < 0x800000 then .fault 0
  else if s.inWindow (coreOwner i) a then .flash else .fault 2

/-- Why a load or store of n words is not served (R591, R593, R808, R826). -/
def State.dataCause (s : State) (i : Fin 4) (a n : Nat) (load : Bool) : Option (Nat × Nat) :=
  match s.region i a with
  | .fault k => some (4, k)
  | r =>
    if n = 2 && a % 2 = 1 then some (4, 3)
    else if r = .tile && s.tileFailed a then some (8, 1)
    else if r = .flash && load && s.flashBusy a then some (5, 0)
    else none

/-- One word or pair to load, with the cause found at issue. -/
def State.loadPart (s : State) (i : Fin 4) (a : Pair) (n : Nat) : LoadPart :=
  { addr := a.toNat, n := n, got := none, bad := s.dataCause i a.toNat n true }

def Issuing.load (f : Issuing) (parts : List (Pair × Nat)) (k : LoadKind) (writes : List RegWrite) : Work :=
  { Work.writing writes with loads := parts.map (fun p => f.s.loadPart f.i p.1 p.2), loadKind := k, canTrap := true }

def Issuing.store (f : Issuing) (a : Pair) (ws : List Word) (writes : List RegWrite) : Work :=
  match f.s.dataCause f.i a.toNat ws.length false with
  | some (v, k) => .trapping (v, k, some a)
  | none => { Work.writing writes with effect := some (.store a.toNat ws) }

/-- A line that this core's cache holds came with an error mark (R704, R806). -/
def State.lineMarked (s : State) (i : Fin 4) (a : Nat) : Bool :=
  match s.mem.lineIn (.core i) (a / 16) with | none => false | some l => l.err

/-- Cache and ordering operations (Table Ops-10, R676, R704). -/
def Issuing.evalCmo (f : Issuing) (fn : Nat) (a : Pair) : Work :=
  if (fn = 3 || fn = 4) && f.s.lineMarked f.i a.toNat then .trapping (6, 0, some a)
  else { Work.holding (.cmo fn a.toNat) with serial := fn = 1 || fn = 2 }

/-- Format LM (Table Ops-9, R673 to R675). -/
def Issuing.evalL (f : Issuing) (op : LOp) (rd : Fin 32) (pb : Fin 16) (disp : BitVec 7) (long : Option Pair) : Work :=
  let base := f.c.rp pb
  let inc := match long with | none => disp.signExtend 24 | some v => v
  let a := base + inc
  match op with
  | .ldw => f.load [(a, 1)] (.word rd) []
  | .ldp => f.load [(a, 2)] (.pair (pairOf rd)) []
  | .stw => f.store a [f.c.rw rd] []
  | .stp => f.store a [f.c.rw (loReg (pairOf rd)), f.c.rw (hiReg (pairOf rd))] []
  | .ldwi => f.load [(base, 1)] (.word rd) (pairWrites pb (base + inc))
  | .stwi => f.store base [f.c.rw rd] (pairWrites pb (base + inc))
  | .macp =>
    let q := pairOf rd
    f.load [(base, 1), (f.c.rp q, 1)] (.macp f.c.acc) (pairWrites pb (base + inc) ++ pairWrites q (f.c.rp q + inc))
  | .cmo => f.evalCmo rd.val a

/-- Format LI (Table Ops-11). DEDUCED (log 29). -/
def Issuing.evalIo (f : Issuing) (op : IoOp) (rd : Fin 32) (addr : Word) (long : Option Pair) (e : AccessEnv) : Work :=
  let a : Pair := match long with | none => addr.setWidth 24 | some v => v
  match f.s.ioCause f.i a.toNat with
  | some (v, k) => .trapping (v, k, some a)
  | none =>
    (match op with
     | .inp => .holding (.inp rd a.toNat e)
     | .out => .holding (.out a.toNat (f.c.rw rd) e))

/-! C slot -/

/-- The first word of a crypto operation's extents that lies in a failed tile (R808). -/
def State.failedWord (s : State) (e : Option (Nat × Nat) × Option (Nat × Nat)) : Option Nat :=
  let ws (x : Option (Nat × Nat)) : List Nat :=
    match x with | none => [] | some (a, n) => (List.range (octetWords n)).map (fun k => a + k)
  if (List.range 42).all (fun u => !(4 ≤ u && u ≤ 18) || !unitFailed (s.boot.units.toList.getD u .untested)) then none
  else (ws e.1 ++ ws e.2).find? (fun a => s.tileFailed a)

/-- The causes of a dispatch, lowest vector first (R614, R689, R693, R599, R730). -/
def Issuing.copCause (f : Issuing) (cp cop : Nat) (d a b : Pair) (divZero : Bool) : Option Trapped :=
  let ext := if cp = 2 then cryptoFault cop d.toNat a.toNat b.toNat else none
  match ext with
  | some (k, x) => some (4, k, some (BitVec.ofNat 24 x))
  | none =>
    if cp = 2 && !f.c.grants.crypto then some (7, 2, none)
    else if f.s.workingUnits (copOf cp) = [] then some (8, 1, none)
    else if let some x := (if cp = 2 then f.s.failedWord (cryptoExtents cop d.toNat a.toNat b.toNat) else none) then
      some (8, 1, some (BitVec.ofNat 24 x))
    else if divZero && f.c.ctl.getLsbD 2 then some (9, 0, none)
    else none

/-- A pure operation's writes (Tables Decimal-3, Ops-17 and Ops-18). -/
def Issuing.copPure (f : Issuing) (cp cop : Nat) (info : CInfo) (pd pa pb : Fin 16) : Work :=
  let words (x : CForm) (p : Fin 16) : List Word := match x with | .run n => f.c.run' p n | .zero | .num _ => []
  if cp = 0 then
    let r := decCompute f.c.dec cop (f.c.rp pa) (words info.pa pa) (words info.pb pb) pb
    let ws := match info.pd with | .run n => if info.dest then runWrites pd n r.words else [] | .zero | .num _ => []
    .writing (ws ++ (if r.mask = 0 && r.sticky = 0 then []
      else [.flags (BitVec.ofNat 12 r.mask) (BitVec.ofNat 12 r.value) (BitVec.ofNat 12 r.sticky)]))
  else if cp = 1 then .writing (pairWrites pd (vecCompute cop (f.c.rp pa) (f.c.rp pb)))
  else if cop = 0 then .writing (pairWrites pd f.c.crypto.status ++ [.cryptoErr])
  else
    match f.s.markedWord (some ((f.c.rp pa).toNat, 160)) with
    | some x => .trapping (6, 0, some (BitVec.ofNat 24 x))
    | none => .writing (pairWrites pd (ecVerify (f.s.tileOctets (f.c.rp pa).toNat 160)))

/-- A C syllable (R685 to R689). -/
def Issuing.evalC (f : Issuing) (cp : Fin 8) (cop : Fin 32) (pd pa pb : Fin 16) (e : AccessEnv) : Work :=
  match cInfo cp.val cop.val pb with
  | none => .trapping (1, 1, none)
  | some info =>
    let words (x : CForm) (p : Fin 16) : List Word := match x with | .run n => f.c.run' p n | .zero | .num _ => []
    let zero := cp.val = 0 && decTraps cop.val (words info.pa pa) (words info.pb pb)
    match f.copCause cp.val cop.val (f.c.rp pd) (f.c.rp pa) (f.c.rp pb) zero with
    | some t => .trapping t
    | none =>
      (match info.cls with
       | .pure => { f.copPure cp.val cop.val info pd pa pb with canTrap := true }
       | .stateful | .effectful =>
         { Work.holding (.dispatch { cp := cp.val, cop := cop.val, pd := pd, pa := pa, pb := pb, vd := f.c.rp pd, va := f.c.rp pa,
                                     vb := f.c.rp pb } e) with canTrap := true })

/-! B unit -/

/-- A branch to a target, known at issue. DEDUCED (log 28). -/
def Issuing.jump (f : Issuing) (target : Pair) : Branch :=
  { cond := none, taken := true, predicted := true, target := target, next := f.pc + BitVec.ofNat 24 (2 * f.len),
    dbnz := false, resolved := true, wrong := false }

/-- A branch whose target comes from a register or from an X value (R680): odd, it traps. -/
def Work.towards (w : Work) (target : Pair) (given : Bool) : Work :=
  if given && target.getLsbD 0 then .trapping (3, 1, some target) else { w with canTrap := given }

/-- B syllables (Table Ops-14, R612, R678 to R684); `late`: the branch does not resolve at once. DEDUCED (log 28). DEDUCED (log 34). DEDUCED (log 38). -/
def Issuing.evalB (f : Issuing) (op : BOp) (sel : Fin 16) (disp : Word) (long : Option Pair) (late : Bool) : Work :=
  let next := f.pc + BitVec.ofNat 24 (2 * f.len)
  let rel := match long with | none => f.pc + (disp.signExtend 24 <<< 1) | some v => v
  let x := long.isSome
  let q := fin16 disp.toNat
  let back := !x && disp.msb
  let cond (predicted : Bool) (target : Pair) : Branch :=
    { cond := if f.flPending then some sel else none, taken := condHolds f.c.fl sel, predicted := predicted, target := target,
      next := next, dbnz := false, resolved := !f.flPending && !late, wrong := false }
  let go (w : Work) (b : Branch) : Work := { w with branch := some b }
  match op with
  | .br => (go (.writing []) (f.jump rel)).towards rel x
  | .bc => (go (.writing []) (cond back rel)).towards rel x
  | .dbnz =>
    let k := f.c.k.get (kOf sel) - 1
    (go (.writing [.k (kOf sel) k])
      { cond := none, taken := decide (k ≠ 0), predicted := true, target := rel, next := next, dbnz := true, resolved := false,
        wrong := false }).towards rel x
  | .call => (go (.writing (pairWrites sel next)) (f.jump rel)).towards rel x
  | .jr => (go (.writing []) (f.jump (f.c.rp sel))).towards (f.c.rp sel) true
  | .bcr => (go (.writing []) (cond false (f.c.rp q))).towards (f.c.rp q) true
  | .callr => (go (.writing (pairWrites sel next)) (f.jump (f.c.rp q))).towards (f.c.rp q) true
  | .ret => { Work.writing [.ret] with serial := true }
  | .kset => .writing [.k (kOf sel) (match long with | none => f.c.rp q | some v => v)]
  | .kget => .writing (pairWrites q (f.c.k.get (kOf sel)))
  | .wait => { Work.holding .wait with serial := true }
  | .brk => .trapping (11, 0, none)
  | .trap => .trapping (12, 0, none)

/-! Any syllable -/

/-- What a syllable comes to, with its long value; causes of its encoding come first (R588, R658, R687). -/
def Issuing.eval (f : Issuing) (sl : Slot) (long : Option Pair) : Work :=
  if !sl.syl.fieldsOk long.isSome long then .trapping (1, 1, none)
  else
    match sl.syl with
    | .a op rd ra rb =>
      (match (Syl.a op rd ra rb).specialNo with
       | some n => if 15 ≤ n.val then .trapping (1, 3, none) else f.evalA op rd ra rb
       | none => f.evalA op rd ra rb)
    | .ai op rd imm => f.evalAI op rd imm long
    | .m op rd ra rb => f.evalM op rd ra rb
    | .mi op rd imm => f.evalMI op rd imm long
    | .l op rd pb disp => f.evalL op rd pb disp long
    | .io op rd addr => f.evalIo op rd addr long sl.env
    | .c cp cop pd pa pb => f.evalC cp cop pd pa pb sl.env
    | .x _ _ => .writing []
    | .b op sel disp => f.evalB op sel disp long sl.late
    | .unassigned _ => .trapping (1, 1, none)

end Sys2Proof.Machine
end

