-- ==== Sys2Proof/Machine/Issue.lean ====
section
/-! DEFINITION. Bundles, the completion window, traps and interrupts of a core (R604 to R620): how a bundle is gathered and issues, how
results complete and held operations are released, and how a core enters a handler. -/
namespace Sys2Proof.Machine

/-! Bundles -/

def Slot.ofX (x : Fin 8 × BitVec 17) : Slot := { syl := .x x.1 x.2, late := false, env := AccessEnv.quiet }

/-- A syllable joins the bundle being gathered, with an X syllable that is placed by its unit code (Table Jieles-5). -/
def CoreState.push (c : CoreState) (sl : Slot) (x : Option (Fin 8 × BitVec 17)) : CoreState :=
  let xs := c.gatherX ++ x.toList
  if 5 ≤ sl.syl.unit then { c with gather := c.gather ++ xs.map Slot.ofX ++ [sl], gatherX := [] }
  else { c with gather := c.gather ++ [sl], gatherX := xs }

/-- The gathered syllables, all in their places. -/
def CoreState.bundle (c : CoreState) : List Slot := c.gather ++ c.gatherX.map Slot.ofX

/-- The X value given to a unit's syllable of a bundle. DEDUCED (log 25). -/
def xGiven (l : List Slot) (u : Nat) : Option (BitVec 17) :=
  l.findSome? (fun sl => match sl.syl with | .x t v => if t.val = u then some v else none | _ => none)

/-- A syllable's own immediate field. -/
def Syl.imm : Syl → Nat
  | .ai _ _ v | .mi _ _ v => v.toNat
  | .l _ _ _ v => v.toNat
  | .io _ _ v => v.toNat
  | .b _ _ v => v.toNat
  | .a _ _ _ _ | .m _ _ _ _ | .c _ _ _ _ _ | .x _ _ | .unassigned _ => 0

/-- The long value that a bundle's X syllable gives to a syllable (R602). -/
def longOf (l : List Slot) (y : Syl) : Option Pair :=
  match y.immWidth, xGiven l y.unit with
  | some k, some v => some (longValue k v y.imm)
  | _, _ => none

/-- An X syllable breaks R603 or R679. DEDUCED (log 25). -/
def xBroken (l : List Slot) (t : Fin 8) (v : BitVec 17) : Bool :=
  if t.val = 3 || t.val = 4 || t.val = 6 || t.val = 7 then true
  else
    match l.find? (fun sl => sl.syl.unit = t.val) with
    | none => false
    | some sl =>
      match sl.syl.immWidth with
      | none => true
      | some k => !xFits k v || (match sl.syl with | .b op _ _ => !op.takesX | _ => false)

/-- An X syllable names a unit that is absent (R603). -/
def xAlone (l : List Slot) : Bool :=
  l.any (fun sl => match sl.syl with
    | .x t _ => (t.val ≤ 3 || t.val = 5) && !l.any (fun y => y.syl.unit = t.val)
    | _ => false)

/-- Unit codes rise along the bundle (R604). -/
def unitsRise : List Nat → Bool
  | a :: b :: r => decide (a < b) && unitsRise (b :: r)
  | _ => true

/-- Two entries of a list are equal. -/
def repeats {α : Type} [DecidableEq α] : List α → Bool
  | [] => false
  | a :: r => r.contains a || repeats r

/-- The w registers, k counters and acc that a bundle's syllables write, each once for a syllable (R605). -/
def bundleDests (l : List Slot) : List Reg :=
  (l.map (fun sl => (sl.syl.dests (longOf l sl.syl).isSome).eraseDups)).flatten.filter (fun r =>
    match r with | .w _ | .k _ | .acc => true | .fl | .special _ => false)

def fetchable (a : Nat) : Bool := decide (0x110000 ≤ a) && decide (a < 0x200000)

/-- The 24 bits of a bundle's first syllable. -/
def firstBits (l : List Slot) (stopped : Bool) : Pair :=
  match l with | [] => 0 | sl :: r => encodeSyl sl.syl (stopped && r.isEmpty)

/-- The first cause of a bundle that is known before any syllable of it runs (R591, R592, R603, R604, R605, R614, R615). DEDUCED (log 24). -/
def bundleCause (pc : Pair) (l : List Slot) (stopped : Bool) : Option Cause :=
  let n := l.length
  let place (k : Nat) : Option Cause :=
    some { vector := 2, sub := k, addr := some pc, unit := some (match l with | [] => 0 | sl :: _ => sl.syl.unit),
           syl := firstBits l stopped, wide := true }
  let fetch (k a : Nat) : Option Cause :=
    some { vector := 3, sub := k, addr := some (BitVec.ofNat 24 a), unit := none, syl := 0, wide := true }
  if pc.getLsbD 0 then fetch 1 pc.toNat
  else
    match (List.range (2 * n)).find? (fun k => !fetchable (pc.toNat + k)) with
    | some k => fetch 0 ((pc.toNat + k) % 0x1000000)
    | none =>
      if !unitsRise (l.map (fun sl => sl.syl.unit)) then place 0
      else if repeats (bundleDests l) then place 1
      else if xAlone l then place 2
      else if !stopped then place 3
      else
        match l.findIdx? (fun sl => 6 ≤ sl.syl.unit) with
        | some k => some { vector := 1, sub := 0, addr := some (pc + BitVec.ofNat 24 (2 * k)),
                           unit := some (match l[k]? with | none => 0 | some sl => sl.syl.unit), syl := firstBits l stopped,
                           wide := true }
        | none => none

/-! Issue (R607) -/

/-- Registers that an unfinished operation will write. -/
def CoreState.pendingRegs (c : CoreState) : List Reg := (c.window.map (·.dests)).flatten

/-- Branches that are not resolved. -/
def Entry.openBranch (e : Entry) : Bool := match e.branch with | none => false | some b => !b.resolved

/-- The words that an unreleased store will write (R611). DEDUCED (log 21). -/
def Entry.storing (e : Entry) : Option (Nat × Nat) :=
  match e.effect with | some (.store a ws) => some (a, ws.length) | _ => none

/-- A held operation of a coprocessor, released or not. -/
def Entry.heldBy (e : Entry) (p : Coproc) : Bool :=
  match e.effect with
  | some (.dispatch _ _) | some (.inFlight _ _) => e.cop = some p
  | _ => false
/-- A held operation that has not been released. -/
def Entry.unreleased (e : Entry) : Bool := match e.effect with | none | some (.inFlight _ _) => false | _ => true
def Entry.queuedDispatch (e : Entry) : Bool := match e.effect with | some (.dispatch _ _) => true | _ => false
def Entry.isFence (e : Entry) : Bool := match e.effect with | some (.cmo 0 _) => true | _ => false

/-- The C slot accepts a syllable (R738, R750, R702). -/
def State.copAccepts (s : State) (i : Fin 4) (c : CoreState) (y : Syl) : Bool :=
  match y with
  | .c cp cop _ _ pb =>
    let p := copOf cp.val
    (match cInfo cp.val cop.val pb with
     | none => true
     | some info =>
       match info.cls with
       | .pure => s.cop.tagFree p i && (p = .vector || !c.window.any (fun e => e.heldBy p))
       | .stateful | .effectful => decide ((c.window.filter (·.queuedDispatch)).length < 4))
  | _ => true

/-- The words that an L syllable loads, by its registers. -/
def loadedWords (c : CoreState) (y : Syl) (long : Option Pair) : List Nat :=
  match y with
  | .l op rd pb disp =>
    let base := c.rp pb
    let a := base + (match long with | none => disp.signExtend 24 | some v => v)
    (match op with
     | .ldw => [a.toNat]
     | .ldp => [a.toNat, a.toNat + 1]
     | .ldwi => [base.toNat]
     | .macp => [base.toNat, (c.rp (pairOf rd)).toNat]
     | .stw | .stp | .stwi | .cmo => [])
  | _ => []

/-- No earlier store that waits for its release writes a word to be loaded (R611). -/
def CoreState.loadsClear (c : CoreState) (ws : List Nat) : Bool :=
  !c.window.any (fun e => match e.storing with
    | none => false
    | some (a, n) => ws.any (fun x => decide (a ≤ x) && decide (x < a + n)))

/-- A syllable that a FENCE before it holds back (R787). DEDUCED (log 31). -/
def Syl.fenced : Syl → Bool
  | .l _ _ _ _ | .io _ _ _ => true
  | .c cp cop _ _ _ => cp.val = 2 && cop.val ≠ 0 && cop.val ≠ 1
  | .a _ _ _ _ | .ai _ _ _ | .m _ _ _ _ | .mi _ _ _ | .x _ _ | .b _ _ _ | .unassigned _ => false

def Syl.isWait : Syl → Bool
  | .b .wait _ _ => true
  | _ => false

/-- The closed bundle issues (R589, R607, R612, R682, R750, R787). DESIGN CHOICE (log 22). -/
def State.canIssue (s : State) (i : Fin 4) : Bool :=
  let c := s.core.get i
  let l := c.bundle
  let pend := c.pendingRegs
  let ops := l.filter (fun sl => sl.syl.unit ≠ 4)
  let open_ := c.window.any (·.openBranch)
  c.run = .running && c.closed && c.preTrap.isNone && !c.window.any (·.serial) &&
    decide (c.window.length + c.staleTags.length + ops.length ≤ 64) &&
    !(open_ && (!c.ctl.getLsbD 0 || ops.any (fun sl => sl.syl.isWait))) &&
    (c.window.isEmpty || !ops.any (fun sl => sl.syl.serial)) &&
    !(c.window.any (·.isFence) && ops.any (fun sl => sl.syl.fenced)) &&
    ops.all (fun sl =>
      let long := longOf l sl.syl
      !(sl.syl.reads long.isSome).any (fun r => pend.contains r) && !(sl.syl.allDests long.isSome).any (fun r => pend.contains r) &&
        c.loadsClear (loadedWords c sl.syl long) && s.copAccepts i c sl.syl)

/-! Entries -/

/-- FL bits that a syllable's entry writes. -/
def flagBits (ws : List RegWrite) : Word :=
  ws.foldl (fun m w => match w with | .flags mask _ sticky => m ||| mask ||| sticky | _ => m) 0

/-- The bits that later slots write are left to them (R587). -/
def leaveFlags (later : Word) (ws : List RegWrite) : List RegWrite :=
  ws.map (fun w => match w with | .flags mask v sticky => .flags (mask &&& ~~~later) v sticky | w => w)

/-- Flags of a bundle's entries by slot (R587, R740). -/
def sortFlags : List Entry → List Entry × Word
  | [] => ([], 0)
  | e :: r =>
    let (r1, later) := sortFlags r
    ({ e with writes := leaveFlags later e.writes } :: r1, later ||| flagBits e.writes)

/-- The address of the k-th syllable. -/
def sylAddr (pc : Pair) (k : Nat) : Pair := pc + BitVec.ofNat 24 (2 * k)

/-- A trapped syllable's cause (R614, R615, Table Jieles-8). DESIGN CHOICE (log 26). -/
def sylCause (pc : Pair) (l : List Slot) (k : Nat) (sl : Slot) (t : Trapped) : Cause :=
  if t.1 = 3 then { vector := 3, sub := t.2.1, addr := t.2.2, unit := l.head?.map (fun y => y.syl.unit), syl := firstBits l true, wide := true }
  else { vector := t.1, sub := t.2.1, addr := if t.1 = 1 then some (sylAddr pc k) else t.2.2, unit := some sl.syl.unit,
         syl := encodeSyl sl.syl (k + 1 = l.length), wide := false }

/-- The coprocessor of a C syllable that dispatches (R685). -/
def Syl.coproc : Syl → Option Coproc
  | .c cp _ _ _ _ => some (copOf cp.val)
  | _ => none

/-- The window entry of the k-th syllable of a bundle; an X syllable has one only when it traps. -/
def Issuing.entry (f : Issuing) (l : List Slot) (tag bundle k : Nat) (sl : Slot) : Option Entry :=
  let make (w : Work) : Entry :=
    { tag := tag, bundle := bundle, pc := f.pc, len := f.len, unit := sl.syl.unit, syl := encodeSyl sl.syl (k + 1 = l.length),
      dests := if w.cause.isSome then [] else sl.syl.allDests (longOf l sl.syl).isSome, writes := w.writes, returned := false,
      late := sl.late, canTrap := w.canTrap, serial := w.serial, cause := w.cause.map (sylCause f.pc l k sl), effect := w.effect,
      branch := w.branch, loads := w.loads, loadKind := w.loadKind, cop := if w.cause.isSome then none else sl.syl.coproc }
  match sl.syl with
  | .x t v => if xBroken l t v then some (make (.trapping (1, 2, none))) else none
  | _ => some (make (f.eval sl (longOf l sl.syl)))

/-- The entries of a bundle, tags from `tag` on. -/
def Issuing.entries (f : Issuing) (l : List Slot) (tag bundle : Nat) : List Entry :=
  (sortFlags (l.zipIdx.filterMap (fun p => f.entry l (tag + p.2) bundle p.2 p.1))).1

/-- The address of the next bundle to issue: a branch's target or the path it predicts (R612). -/
def nextPc (f : Issuing) (l : List Entry) : Pair :=
  let next := f.pc + BitVec.ofNat 24 (2 * f.len)
  match l.findSome? (·.branch) with
  | none => next
  | some b => if (if b.resolved then b.taken else b.predicted) then b.target else next

/-! Loads and results -/

/-- An entry of a core's window changed, by its tag. -/
def State.mapEntry (s : State) (i : Fin 4) (tag : Nat) (f : Entry → Entry) : State :=
  let c := s.core.get i
  s.setCore i { c with window := c.window.map (fun e => if e.tag = tag then f e else e) }

def LoadPart.done (p : LoadPart) : Bool := p.got.isSome || p.bad.isSome

/-- Words come for a load. -/
def Entry.supply (e : Entry) (addr : Nat) (r : Option (List Word)) (bad : Nat × Nat) : Entry :=
  { e with loads := e.loads.map (fun p =>
      if p.addr = addr && !p.done then (match r with | some ws => { p with got := some ws } | none => { p with bad := some bad }) else p) }

/-- A load leaves for its memory (R590, R769, R771, R817). DEDUCED (log 21). -/
def State.launchLoad (s : State) (i : Fin 4) (tag : Nat) (ec : BitVec 2) (p : LoadPart) : State :=
  if p.done then s
  else
    match s.region i p.addr with
    | .scratch => s.mapEntry i tag (fun e => e.supply p.addr (some (memGetList 0 (s.core.get i).scratch p.addr p.n)) (4, 0))
    | .flash =>
      (match s.flashDirect (coreOwner i) p.addr p.n ec with
       | (.words ws, s1) => s1.mapEntry i tag (fun e => e.supply p.addr (some ws) (6, 1))
       | (.busy, s1) => s1.mapEntry i tag (fun e => e.supply p.addr none (5, 0))
       | (.uncorrectable, s1) => s1.mapEntry i tag (fun e => e.supply p.addr none (6, 1)))
    | .tile =>
      let (pick, s1) := s.draw
      { s1 with mem := s1.mem.access (.core i) pick (.load tag p.addr p.n) }
    | .fault _ => s

/-- Loads that grants have served reach their entries; the tag of a squashed one is free (R65). -/
def State.collect (s : State) (i : Fin 4) : State :=
  let mine := s.mem.loaded.filter (fun x => x.cache = .core i)
  if mine.isEmpty then s
  else
    let s1 := { s with mem := { s.mem with loaded := s.mem.loaded.filter (fun x => x.cache ≠ .core i) } }
    let s2 := mine.foldl (fun (s : State) (x : Loaded) =>
      s.mapEntry i x.tag (fun e => e.supply x.addr (if x.err then none else some x.words) (6, 0))) s1
    let c := s2.core.get i
    s2.setCore i { c with staleTags := c.staleTags.filter (fun t => !mine.any (fun x => x.tag = t)) }

/-- What the words loaded write (Table Ops-9, R674). -/
def Entry.loadWrites (e : Entry) : List RegWrite :=
  let ws := (e.loads.map (fun p => p.got.getD [])).flatten
  let w (n : Nat) : Word := ws.getD n 0
  match e.loadKind with
  | .none => []
  | .word rd => [.w rd (w 0)]
  | .pair p => pairWrites p (w 1 ++ w 0)
  | .macp acc => [.acc (accPlus acc ((w 0).toInt * (w 1).toInt))]

/-- A result returns once its unit has finished, its words have come, its effect has been released, and a condition is known. -/
def Entry.poll (e : Entry) : Entry :=
  if e.returned || e.late || e.effect.isSome || !e.loads.all (·.done) then e
  else if (match e.branch with | some b => b.cond.isSome | none => false) then e
  else
    match e.loads.findSome? (fun p => p.bad.map (fun b => (p.addr, b))) with
    | some (a, v, k) =>
      { e with returned := true, cause := some { vector := v, sub := k, addr := some (BitVec.ofNat 24 a), unit := some e.unit,
                                                 syl := e.syl, wide := false } }
    | none => { e with returned := true, writes := e.writes ++ e.loadWrites }

def State.pollAll (s : State) (i : Fin 4) : State :=
  let s1 := s.collect i
  let c := s1.core.get i
  s1.setCore i { c with window := c.window.map Entry.poll }

/-! Completion and release -/

/-- R609 as one other entry bears on it. DEDUCED (log 30). -/
def Entry.blocks (x e : Entry) : Bool :=
  if x.tag = e.tag || e.bundle < x.bundle then false
  else
    (x.canTrap && (!x.returned || x.cause.isSome)) || (decide (x.bundle < e.bundle) && x.openBranch)

/-- R609 holds for an entry's bundle. -/
def CoreState.clear (c : CoreState) (e : Entry) : Bool := !c.window.any (fun x => x.blocks e)

/-- A later bundle has been fetched or has issued. -/
def CoreState.laterThan (c : CoreState) (e : Entry) : Bool :=
  !c.gather.isEmpty || !c.gatherX.isEmpty || c.closed || c.preTrap.isSome || c.window.any (fun x => decide (e.bundle < x.bundle))

def Branch.goes (b : Branch) : Pair := if b.taken then b.target else b.next

/-- A branch resolves (R612): as predicted; or mispredicted, at once where nothing later has been fetched, else by BRANCH_MISPREDICT. -/
def State.resolve (s : State) (i : Fin 4) (e : Entry) (b : Branch) : State :=
  let c := s.core.get i
  let guess := if b.predicted then b.target else b.next
  let set (b1 : Branch) (s : State) : State := s.mapEntry i e.tag (fun x => { x with branch := some b1 })
  if guess = b.goes then set { b with resolved := true } s
  else if c.laterThan e then set { b with wrong := true } s
  else set { b with resolved := true } (s.setCore i { c with pc := b.goes })

/-- The branch that resolves next: its condition is known, its unit has finished, and for DBNZ its result completes. -/
def CoreState.resolvable (c : CoreState) : Option (Entry × Branch) :=
  c.window.findSome? (fun e => match e.branch with
    | none => none
    | some b => if b.resolved || b.wrong || b.cond.isSome || e.late || (b.dbnz && !(e.returned && c.clear e)) then none else some (e, b))

/-- FL as it will stand after the earlier bundles' writes, once all of them have returned (R612, R681). -/
def CoreState.flBefore (c : CoreState) (bundle : Nat) : Option Word :=
  let ws := c.window.filter (fun e => decide (e.bundle < bundle) && e.dests.contains .fl)
  if ws.all (fun e => e.returned && e.cause.isNone) then
    some ((ws.map (·.writes)).flatten.foldl (fun fl w => match w with | .flags m v k => flAfter fl m v k | _ => fl) c.fl)
  else none

/-- Conditions whose FL has become final are known. -/
def CoreState.testConditions (c : CoreState) : CoreState :=
  { c with window := c.window.map (fun e => match e.branch with
      | none => e
      | some b =>
        match b.cond with
        | none => e
        | some sel =>
          match c.flBefore e.bundle with
          | none => e
          | some fl => { e with branch := some { b with cond := none, taken := condHolds fl sel } }) }

/-- The oldest entry whose result completes (R609). -/
def CoreState.completable (c : CoreState) : Option Entry :=
  c.window.find? (fun e => e.returned && e.cause.isNone && !e.openBranch && c.clear e)

/-- A result completes: its registers are written and its tag is free (R608, R609). -/
def State.complete (s : State) (i : Fin 4) (e : Entry) : State :=
  let c := s.core.get i
  let c1 := e.writes.foldl CoreState.write { c with window := c.window.filter (fun x => x.tag ≠ e.tag), firm := max c.firm (e.bundle + 1) }
  let s1 := s.setCore i c1
  if e.writes.contains .ret then s1.trace i 4 (leOctets 3 c1.pc.toNat)
  else
    match e.branch with
    | some b => if b.taken then s1.trace i 2 (leOctets 3 b.target.toNat) else s1
    | none => s1

/-- Nothing of this core's waits in its data cache for a line to store to. -/
def Memory.storesVisible (m : Memory) (i : Fin 4) : Bool :=
  (m.cache (.core i)).all (fun p => p.2.waits.all (fun w => match w with | .store _ _ => false | .load _ _ _ => true))

/-- The line of an address is in no transaction of this core's cache. -/
def Memory.lineStill (m : Memory) (i : Fin 4) (a : Nat) : Bool :=
  match m.lineIn (.core i) (a / 16) with | none => true | some l => l.state.stable

/-- A held operation may be released (R610, R677, R785, R787, R750): R609 holds for its bundle, no earlier bundle's operation is still
held, and its unit takes it. -/
def State.releasable (s : State) (i : Fin 4) (e : Entry) : Bool :=
  let c := s.core.get i
  c.clear e && e.cause.isNone && !c.window.any (fun x => decide (x.bundle < e.bundle) && x.effect.isSome &&
      (match x.effect with | some (.inFlight _ _) => false | _ => true)) &&
    (match e.effect with
     | none | some (.inFlight _ _) => false
     | some (.cmo 0 _) => !c.window.any (fun x => decide (x.bundle < e.bundle)) && s.mem.storesVisible i
     | some (.cmo 3 a) | some (.cmo 4 a) => s.mem.lineStill i a
     | some (.dispatch d _) =>
       let p := copOf d.cp
       !c.window.any (fun x => (match x.effect with | some (.inFlight _ _) => x.cop = some p | _ => false)) &&
         (!e.late || s.cop.tagFree p i)
     | some (.store _ _) | some (.inp _ _ _) | some (.out _ _ _) | some (.cmo _ _) | some .wait => true)

/-- DCWB and DCWBI of a line (Table Ops-10, R676): written back and kept clean, or given up. -/
def Memory.writeBack (m : Memory) (i : Fin 4) (a : Nat) (drop : Bool) : Memory :=
  let line := a / 16
  match m.lineIn (.core i) line with
  | none => m
  | some l =>
    if drop then m.evict (.core i) line
    else if l.state = .m then (m.writeLine line l.data).putLine (.core i) line { l with state := .e } else m

/-- Invalidation of the I-cache, a line or all of it; what has been fetched beyond it is fetched again (R794, Table Ops-10). -/
def State.icacheInv (s : State) (i : Fin 4) (line : Option Nat) : State :=
  let m := s.mem
  let kept := match line with | none => [] | some n => dropKey n (m.icache.get i)
  let c := s.core.get i
  ({ s with mem := { m with icache := m.icache.set i kept } }).setCore i { c with gather := [], gatherX := [], closed := false, preTrap := none }

/-- A cache or ordering operation takes effect (Table Ops-10). DEDUCED (log 31). -/
def State.cmo (s : State) (i : Fin 4) (fn a : Nat) : State :=
  match fn with
  | 1 => s.icacheInv i (some (a / 32))
  | 2 => s.icacheInv i none
  | 3 => { s with mem := s.mem.writeBack i a false }
  | 4 => { s with mem := s.mem.writeBack i a true }
  | _ => s

/-- A released store reaches its memory (R590, R769, R770, R835). -/
def State.storeWords (s : State) (i : Fin 4) (a : Nat) (ws : List Word) : State :=
  match s.region i a with
  | .scratch => let c := s.core.get i; s.setCore i { c with scratch := memSetList 0 a ws c.scratch }
  | .tile => let (pick, s1) := s.draw; { s1 with mem := s1.mem.access (.core i) pick (.store a ws) }
  | .flash => ws.zipIdx.foldl (fun (s : State) p => s.flashStore (coreOwner i) (a + p.2) p.1 false) s
  | .fault _ => s

/-- A held operation has run: what it wrote, or why it traps. -/
def Entry.performed (e : Entry) (ws : List RegWrite) (t : Option Trapped) : Entry :=
  { e with effect := none, writes := e.writes ++ ws,
           cause := t.map (fun t => { vector := t.1, sub := t.2.1, addr := t.2.2, unit := some e.unit, syl := e.syl, wide := false }) }

/-- A coprocessor runs a released operation; a failed TRNG health test counts the engine as failed (R706). -/
def State.runDispatch (s : State) (i : Fin 4) (tag : Nat) (d : Dispatch) (e : AccessEnv) : State :=
  if d.cp = 2 && d.cop = 1 && e.trngBad then
    (s.failUnits [UnitId.crypto]).mapEntry i tag (fun x => x.performed [] (some (8, 1, none)))
  else
    let (s1, ws, t) := s.copPerform i d
    s1.mapEntry i tag (fun x => x.performed ws t)

/-- A held operation is released (R610); an IN or OUT whose block has stopped serving since it issued traps (R82, R124, R127).
DEDUCED (log 30). -/
def State.release (s0 : State) (i : Fin 4) (e : Entry) : State :=
  let c0 := s0.core.get i
  let s := s0.setCore i { c0 with firm := max c0.firm (e.bundle + 1) }
  let done (s : State) (ws : List RegWrite) : State := s.mapEntry i e.tag (fun x => x.performed ws none)
  match e.effect with
  | none | some (.inFlight _ _) => s
  | some (.store a ws) => done (s.storeWords i a ws) []
  | some (.inp rd a env) =>
    (match s.ioCause i a with
     | some (v, k) => s.mapEntry i e.tag (fun x => x.performed [] (some (v, k, some (BitVec.ofNat 24 a))))
     | none => let (w, s1) := s.ioRead i a env; done s1 [.w rd w])
  | some (.out a v env) =>
    (match s.ioCause i a with
     | some (x, k) => s.mapEntry i e.tag (fun y => y.performed [] (some (x, k, some (BitVec.ofNat 24 a))))
     | none => (done s []).ioWrite i a v env)
  | some (.cmo fn a) => done (s.cmo i fn a) []
  | some (.dispatch d env) =>
    if e.late then
      (s.copDispatch (copOf d.cp) i e.tag (if d.cp = 0 then c0.ctl.getLsbD 1 else d.cp = 2)).mapEntry i e.tag
        (fun x => { x with effect := some (.inFlight d env) })
    else s.runDispatch i e.tag d env
  | some .wait =>
    let s1 := done s []
    if s1.interrupts i = 0 then s1.setCore i { s1.core.get i with run := .waiting } else s1

/-- A late pure operation of a bundle that issues takes its coprocessor's tag (R750). -/
def State.dispatchPure (s : State) (i : Fin 4) (e : Entry) : State :=
  match e.cop, e.effect with
  | some p, none =>
    if e.late && e.cause.isNone then s.copDispatch p i e.tag (match p with | .decimal => (s.core.get i).ctl.getLsbD 1 | .vector => false | .crypto => true)
    else s
  | _, _ => s

/-- The closed bundle issues (R606, R607, R608). -/
def State.issue (s : State) (i : Fin 4) : State :=
  let c := s.core.get i
  let l := c.bundle
  let f : Issuing := { s := s, i := i, c := c, pc := c.pc, len := l.length, flPending := c.pendingRegs.contains .fl }
  let es := f.entries l c.nextTag c.nextBundle
  let s1 := s.setCore i { c with window := c.window ++ es, nextTag := c.nextTag + l.length, nextBundle := c.nextBundle + 1,
                                 pc := nextPc f es, gather := [], gatherX := [], closed := false }
  let s2 := es.foldl (fun (s : State) (e : Entry) => s.dispatchPure i e) s1
  let ec (u : Nat) : BitVec 2 := match l.find? (fun sl => sl.syl.unit = u) with | none => 0 | some sl => sl.env.ec
  es.foldl (fun (s : State) (e : Entry) => e.loads.foldl (fun (s : State) p => s.launchLoad i e.tag (ec e.unit) p) s) s2

/-! The core runs on -/

/-- One thing that the core can do now: complete a result, resolve a branch, release a held operation, or issue. -/
def State.advance (s0 : State) (i : Fin 4) : Option State :=
  let s1 := s0.pollAll i
  let s := (s1.setCore i (s1.core.get i).testConditions).pollAll i
  let c := s.core.get i
  match c.completable with
  | some e => some (s.complete i e)
  | none =>
    match c.resolvable with
    | some (e, b) => some (s.resolve i e b)
    | none =>
      match c.window.find? (fun e => s.releasable i e) with
      | some e => some (s.release i e)
      | none => if s.canIssue i then some (s.issue i) else none

/-- The core does what it can, in order. -/
def State.settleFor : Nat → Fin 4 → State → State
  | 0, _, s => s
  | n + 1, i, s =>
    match s.advance i with
    | none => (let s1 := s.pollAll i; (s1.setCore i (s1.core.get i).testConditions).pollAll i)
    | some s1 => State.settleFor n i s1

def State.settle (s : State) (i : Fin 4) : State := State.settleFor 256 i s

/-! Squashing -/

/-- A squashed entry's result is still to return from a unit, a coprocessor or the memory (R65, R761). -/
def Entry.outstanding (e : Entry) : Bool :=
  (e.late && (match e.effect with | none | some (.inFlight _ _) => true | _ => false)) || !e.loads.all (·.done)

/-- Every bundle from a serial number on is squashed (R613, R755): nothing of it completes, and cancel tokens go out. DESIGN CHOICE (log 39). -/
def State.squash (s : State) (i : Fin 4) (bundle : Nat) : State :=
  let c := s.core.get i
  let gone := c.window.filter (fun e => decide (bundle ≤ e.bundle))
  let tags := (gone.filter (·.outstanding)).map (·.tag)
  let s1 := s.setCore i { c with window := c.window.filter (fun e => decide (e.bundle < bundle)), staleTags := c.staleTags ++ tags,
                                 gather := [], gatherX := [], closed := false, preTrap := none }
  { s1 with cop := { s1.cop with
      tokens := s1.cop.tokens ++ cancelTokens i gone,
      ops := s1.cop.ops.map (fun (o : CopOp) => if o.owner.val = i.val && tags.contains o.tag then { o with stale := true } else o) } }

/-! Traps and interrupts -/

/-- Entry at a vector (R615, R617, R619): EPC, ECAUSE, ESYL, EADDR and EBLEN are set, CTL is saved, TH rises and IE falls, and issue
goes on from TVB + 4 × vector. A register or field for which there is no syllable or no address takes a free value. DESIGN CHOICE (log 26). -/
def State.enterVector (s : State) (i : Fin 4) (epc : Pair) (len : Nat) (x : Cause) (syl : Option Pair) : State :=
  let (f, s1) := s.draw
  let (g, s2) := s1.draw
  let s3 := s2.squash i 0
  let c := s3.core.get i
  let unit := x.unit.getD (f % 8)
  let c1 := { c with
    epc := epc, esyl := syl.getD (BitVec.ofNat 24 (f / 8)), eaddr := x.addr.getD (BitVec.ofNat 24 g), eblen := BitVec.ofNat 3 len,
    ecause := BitVec.ofNat 12 (x.vector + 32 * (unit % 8) + 256 * x.addr.isSome.toNat + 512 * x.wide.toNat + 1024 * (x.sub % 4)),
    estat := c.ctl, ctl := (c.ctl ||| 0x10) &&& 0x17, pc := c.tvb + BitVec.ofNat 24 (4 * x.vector), run := .running }
  (s3.setCore i c1).trace i 3 (BitVec.ofNat 8 x.vector :: leOctets 3 epc.toNat)

/-- A trap (R615); in a handler it is a double trap: event 0x1006 and a core reset (R617). -/
def State.enterTrap (s : State) (i : Fin 4) (pc : Pair) (len : Nat) (x : Cause) : State :=
  let c := s.core.get i
  if c.ctl.getLsbD 4 then
    let addr := x.addr.getD 0
    let s1 := s.setCore i { c with doubleVector := x.vector, doubleEpc := pc, doubleEaddr := addr }
    (s1.raise 0x1006 ([BitVec.ofNat 8 i.val, BitVec.ofNat 8 x.vector] ++ leOctets 3 pc.toNat ++ leOctets 3 addr.toNat)).coreReset i 2
  else s.enterVector i pc (min len 6) x (some x.syl)

/-- The cause that stands in the oldest bundle with work outstanding, once nothing of that bundle can still trap unseen (R614): an odd
target first, then by slot. -/
def CoreState.headTrap (c : CoreState) : Option (Entry × Cause) :=
  match c.window with
  | [] => none
  | h :: _ =>
    let b := c.window.filter (fun e => e.bundle = h.bundle)
    if b.any (fun e => e.canTrap && !e.returned && !e.unreleased) then none
    else
      match b.findSome? (fun e => e.cause.bind (fun x => if x.vector = 3 then some (e, x) else none)) with
      | some r => some r
      | none => b.findSome? (fun e => e.cause.map (fun x => (e, x)))

/-- A standing trap at the head is taken (R614). -/
def State.takeTrap (s : State) (i : Fin 4) : State :=
  let c := s.core.get i
  if c.run ≠ .running then s
  else
    match c.headTrap with
    | some (e, x) => s.enterTrap i e.pc e.len x
    | none =>
      match c.window, c.preTrap with
      | [], some (x, n) => s.enterTrap i c.pc n x
      | _, _ => s

/-- A trap stands at the head of the core (R643). -/
def CoreState.trapStands (c : CoreState) : Bool := c.headTrap.isSome || (c.window.isEmpty && c.preTrap.isSome)

/-- Every bundle that an interrupt or a halt must let complete has done so (R619, R982). DEDUCED (log 33). -/
def CoreState.drained (c : CoreState) : Bool := !c.window.any (fun e => decide (e.bundle < c.firm))

/-- The address of the first bundle that squashing every bundle leaves to issue (R619). -/
def CoreState.resumePc (c : CoreState) : Pair := match c.window with | [] => c.pc | e :: _ => e.pc

/-- The lowest-numbered enabled source is taken (R619). -/
def State.enterInterrupt (s : State) (i : Fin 4) : State :=
  match lowestSource (s.interrupts i) with
  | none => s
  | some n =>
    s.enterVector i (s.core.get i).resumePc 0 { vector := 16 + n, sub := 0, addr := none, unit := none, syl := 0, wide := false } none

/-- CTL lets an interrupt in (R619). -/
def CoreState.mayInterrupt (c : CoreState) : Bool := c.ctl.getLsbD 3 && !c.ctl.getLsbD 4

/-! A syllable comes to the core -/

/-- The gathered bundle is complete: a cause known before issue stands, or the bundle waits to issue (R607, R614). -/
def CoreState.closeBundle (c : CoreState) (stopped : Bool) : CoreState :=
  match bundleCause c.pc c.bundle stopped with
  | none => { c with closed := true }
  | some x => { c with preTrap := some (x, c.bundle.length), gather := [], gatherX := [] }

/-- The core's next syllable in program order, as fetch delivers it: with `stop` its bundle ends, and so it does at six syllables. The
core then does what it can (R606 to R617). -/
def State.operate (s : State) (i : Fin 4) (stop : Bool) (sl : Slot) (x : Option (Fin 8 × BitVec 17)) : State :=
  let c := s.core.get i
  if c.run ≠ .running || c.closed || c.preTrap.isSome then s
  else
    let c1 := c.push sl x
    if stop || 6 ≤ c1.bundle.length then ((s.setCore i (c1.closeBundle stop)).settle i).takeTrap i else s.setCore i c1

/-- A syllable as fetch delivers it, with what its access may need of the world. DEDUCED (log 23). -/
def State.deliver (s : State) (d : Delivery) (y : Syl) (e : AccessEnv) : State :=
  s.operate d.core d.stop { syl := y, late := d.late, env := e } d.x

end Sys2Proof.Machine
end

