-- ==== Sys2Proof/Machine/CoreAlu.lean ====
section
/-! DEFINITION. A-unit and M-unit operations (Tables Ops-2, Ops-3, Ops-5 and Ops-6), each as fetch delivers it to a core. -/
namespace Sys2Proof.Machine

/-- rd ← ra + rb; C, V, Z, N (Table Ops-2, R659). -/
def execOpAdd (d : Delivery) (rd ra rb : Fin 32) (s : State) : Host.Outcome State Fault Refusal :=
  .next (s.deliver d (.a .add rd ra rb) AccessEnv.quiet)

/-- rd ← ra + rb + C; C, V, Z, N (Table Ops-2). -/
def execOpAdc (d : Delivery) (rd ra rb : Fin 32) (s : State) : Host.Outcome State Fault Refusal :=
  .next (s.deliver d (.a .adc rd ra rb) AccessEnv.quiet)

/-- rd ← ra − rb; C, V, Z, N (Table Ops-2). -/
def execOpSub (d : Delivery) (rd ra rb : Fin 32) (s : State) : Host.Outcome State Fault Refusal :=
  .next (s.deliver d (.a .sub rd ra rb) AccessEnv.quiet)

/-- rd ← ra − rb − (1 − C); C, V, Z, N (Table Ops-2). -/
def execOpSbc (d : Delivery) (rd ra rb : Fin 32) (s : State) : Host.Outcome State Fault Refusal :=
  .next (s.deliver d (.a .sbc rd ra rb) AccessEnv.quiet)

/-- rd ← ra AND rb; Z, N (Table Ops-2). -/
def execOpAnd (d : Delivery) (rd ra rb : Fin 32) (s : State) : Host.Outcome State Fault Refusal :=
  .next (s.deliver d (.a .and rd ra rb) AccessEnv.quiet)

/-- rd ← ra OR rb; Z, N (Table Ops-2). -/
def execOpOr (d : Delivery) (rd ra rb : Fin 32) (s : State) : Host.Outcome State Fault Refusal :=
  .next (s.deliver d (.a .or rd ra rb) AccessEnv.quiet)

/-- rd ← ra XOR rb; Z, N (Table Ops-2). -/
def execOpXor (d : Delivery) (rd ra rb : Fin 32) (s : State) : Host.Outcome State Fault Refusal :=
  .next (s.deliver d (.a .xor rd ra rb) AccessEnv.quiet)

/-- rd ← ra AND NOT rb; Z, N (Table Ops-2). -/
def execOpAndn (d : Delivery) (rd ra rb : Fin 32) (s : State) : Host.Outcome State Fault Refusal :=
  .next (s.deliver d (.a .andn rd ra rb) AccessEnv.quiet)

/-- rd ← ra shifted left by rb[4:0]; C, Z, N (Table Ops-2, R664). -/
def execOpShl (d : Delivery) (rd ra rb : Fin 32) (s : State) : Host.Outcome State Fault Refusal :=
  .next (s.deliver d (.a .shl rd ra rb) AccessEnv.quiet)

/-- rd ← ra shifted right by rb[4:0]; C, Z, N (Table Ops-2, R664). -/
def execOpShr (d : Delivery) (rd ra rb : Fin 32) (s : State) : Host.Outcome State Fault Refusal :=
  .next (s.deliver d (.a .shr rd ra rb) AccessEnv.quiet)

/-- rd ← ra shifted right by rb[4:0], sign fill; C, Z, N (Table Ops-2, R664). -/
def execOpSar (d : Delivery) (rd ra rb : Fin 32) (s : State) : Host.Outcome State Fault Refusal :=
  .next (s.deliver d (.a .sar rd ra rb) AccessEnv.quiet)

/-- The flags of ra − rb; rd must be 0 (Table Ops-2). -/
def execOpCmp (d : Delivery) (rd ra rb : Fin 32) (s : State) : Host.Outcome State Fault Refusal :=
  .next (s.deliver d (.a .cmp rd ra rb) AccessEnv.quiet)

/-- Pair addition; C, V, Z, N on 24 bits (Table Ops-2). -/
def execOpAddp (d : Delivery) (rd ra rb : Fin 32) (s : State) : Host.Outcome State Fault Refusal :=
  .next (s.deliver d (.a .addp rd ra rb) AccessEnv.quiet)

/-- Pair subtraction; C, V, Z, N on 24 bits (Table Ops-2). -/
def execOpSubp (d : Delivery) (rd ra rb : Fin 32) (s : State) : Host.Outcome State Fault Refusal :=
  .next (s.deliver d (.a .subp rd ra rb) AccessEnv.quiet)

/-- rd ← the special register numbered ra (Table Ops-2, R588, R665). -/
def execOpMfs (d : Delivery) (rd ra rb : Fin 32) (s : State) : Host.Outcome State Fault Refusal :=
  .next (s.deliver d (.a .mfs rd ra rb) AccessEnv.quiet)

/-- The special register numbered rd ← ra (Table Ops-2, R588, R589, R665). -/
def execOpMts (d : Delivery) (rd ra rb : Fin 32) (s : State) : Host.Outcome State Fault Refusal :=
  .next (s.deliver d (.a .mts rd ra rb) AccessEnv.quiet)

/-- rd, or with X the pair, ← the immediate (Table Ops-3). -/
def execOpLdi (d : Delivery) (rd : Fin 32) (imm : Word) (s : State) : Host.Outcome State Fault Refusal :=
  .next (s.deliver d (.ai .ldi rd imm) AccessEnv.quiet)

/-- rd, or with X the pair, plus the immediate; C, V, Z, N (Table Ops-3). -/
def execOpAddi (d : Delivery) (rd : Fin 32) (imm : Word) (s : State) : Host.Outcome State Fault Refusal :=
  .next (s.deliver d (.ai .addi rd imm) AccessEnv.quiet)

/-- rd, or with X the pair, AND the immediate; Z, N (Table Ops-3). -/
def execOpAndi (d : Delivery) (rd : Fin 32) (imm : Word) (s : State) : Host.Outcome State Fault Refusal :=
  .next (s.deliver d (.ai .andi rd imm) AccessEnv.quiet)

/-- The flags of rd, or with X the pair, minus the immediate (Table Ops-3). -/
def execOpCmpi (d : Delivery) (rd : Fin 32) (imm : Word) (s : State) : Host.Outcome State Fault Refusal :=
  .next (s.deliver d (.ai .cmpi rd imm) AccessEnv.quiet)

/-- Signed product to a pair; Z, N (Table Ops-5). -/
def execOpMuls (d : Delivery) (rd ra rb : Fin 32) (s : State) : Host.Outcome State Fault Refusal :=
  .next (s.deliver d (.m .muls rd ra rb) AccessEnv.quiet)

/-- Unsigned product to a pair; Z, N (Table Ops-5). -/
def execOpMulu (d : Delivery) (rd ra rb : Fin 32) (s : State) : Host.Outcome State Fault Refusal :=
  .next (s.deliver d (.m .mulu rd ra rb) AccessEnv.quiet)

/-- Low word of the product; Z, N, V (Table Ops-5). -/
def execOpMull (d : Delivery) (rd ra rb : Fin 32) (s : State) : Host.Outcome State Fault Refusal :=
  .next (s.deliver d (.m .mull rd ra rb) AccessEnv.quiet)

/-- acc plus the signed product (Table Ops-5, R667). -/
def execOpMacs (d : Delivery) (rd ra rb : Fin 32) (s : State) : Host.Outcome State Fault Refusal :=
  .next (s.deliver d (.m .macs rd ra rb) AccessEnv.quiet)

/-- acc plus the unsigned product (Table Ops-5, R667). -/
def execOpMacu (d : Delivery) (rd ra rb : Fin 32) (s : State) : Host.Outcome State Fault Refusal :=
  .next (s.deliver d (.m .macu rd ra rb) AccessEnv.quiet)

/-- acc minus the signed product (Table Ops-5, R667). -/
def execOpMsus (d : Delivery) (rd ra rb : Fin 32) (s : State) : Host.Outcome State Fault Refusal :=
  .next (s.deliver d (.m .msus rd ra rb) AccessEnv.quiet)

/-- Signed quotient (Table Ops-5, R668, R669). -/
def execOpDivs (d : Delivery) (rd ra rb : Fin 32) (s : State) : Host.Outcome State Fault Refusal :=
  .next (s.deliver d (.m .divs rd ra rb) AccessEnv.quiet)

/-- Unsigned quotient (Table Ops-5, R669). -/
def execOpDivu (d : Delivery) (rd ra rb : Fin 32) (s : State) : Host.Outcome State Fault Refusal :=
  .next (s.deliver d (.m .divu rd ra rb) AccessEnv.quiet)

/-- Signed remainder (Table Ops-5, R668, R669). -/
def execOpRems (d : Delivery) (rd ra rb : Fin 32) (s : State) : Host.Outcome State Fault Refusal :=
  .next (s.deliver d (.m .rems rd ra rb) AccessEnv.quiet)

/-- Unsigned remainder (Table Ops-5, R669). -/
def execOpRemu (d : Delivery) (rd ra rb : Fin 32) (s : State) : Host.Outcome State Fault Refusal :=
  .next (s.deliver d (.m .remu rd ra rb) AccessEnv.quiet)

/-- Signed quotient of a pair by a word (Table Ops-5, R668, R669). -/
def execOpDivps (d : Delivery) (rd ra rb : Fin 32) (s : State) : Host.Outcome State Fault Refusal :=
  .next (s.deliver d (.m .divps rd ra rb) AccessEnv.quiet)

/-- Unsigned quotient of a pair by a word (Table Ops-5, R669). -/
def execOpDivpu (d : Delivery) (rd ra rb : Fin 32) (s : State) : Host.Outcome State Fault Refusal :=
  .next (s.deliver d (.m .divpu rd ra rb) AccessEnv.quiet)

/-- acc shifted right by the rb field, saturated to a pair (Table Ops-5, R667). -/
def execOpAccrd (d : Delivery) (rd ra rb : Fin 32) (s : State) : Host.Outcome State Fault Refusal :=
  .next (s.deliver d (.m .accrd rd ra rb) AccessEnv.quiet)

/-- acc ← a pair, sign-extended (Table Ops-5). -/
def execOpAccw (d : Delivery) (rd ra rb : Fin 32) (s : State) : Host.Outcome State Fault Refusal :=
  .next (s.deliver d (.m .accw rd ra rb) AccessEnv.quiet)

/-- rd ← acc[35:24] (Table Ops-5). -/
def execOpAcch (d : Delivery) (rd ra rb : Fin 32) (s : State) : Host.Outcome State Fault Refusal :=
  .next (s.deliver d (.m .acch rd ra rb) AccessEnv.quiet)

/-- acc ← 0 (Table Ops-5). -/
def execOpAccz (d : Delivery) (rd ra rb : Fin 32) (s : State) : Host.Outcome State Fault Refusal :=
  .next (s.deliver d (.m .accz rd ra rb) AccessEnv.quiet)

/-- rd, or with X the pair, times the immediate; Z, N (Table Ops-6). -/
def execOpMuli (d : Delivery) (rd : Fin 32) (imm : Word) (s : State) : Host.Outcome State Fault Refusal :=
  .next (s.deliver d (.mi .muli rd imm) AccessEnv.quiet)

/-- acc plus rd times the immediate (Table Ops-6, R667). -/
def execOpMaci (d : Delivery) (rd : Fin 32) (imm : Word) (s : State) : Host.Outcome State Fault Refusal :=
  .next (s.deliver d (.mi .maci rd imm) AccessEnv.quiet)

end Sys2Proof.Machine
end

