-- ==== Sys2Proof/Machine/CoreBranch.lean ====
section
/-! DEFINITION. B-unit operations (Table Ops-14), each as fetch delivers it to a core. -/
namespace Sys2Proof.Machine

/-- Branch (Table Ops-14, R678, R680). -/
def execOpBr (d : Delivery) (sel : Fin 16) (disp : Word) (s : State) : Host.Outcome State Fault Refusal :=
  .next (s.deliver d (.b .br sel disp) AccessEnv.quiet)

/-- Branch on a condition of FL (Tables Ops-14 and Ops-15, R612, R681, R698). -/
def execOpBc (d : Delivery) (sel : Fin 16) (disp : Word) (s : State) : Host.Outcome State Fault Refusal :=
  .next (s.deliver d (.b .bc sel disp) AccessEnv.quiet)

/-- k ← k − 1, and branch while it is not 0 (Table Ops-14, R612, R683). -/
def execOpDbnz (d : Delivery) (sel : Fin 16) (disp : Word) (s : State) : Host.Outcome State Fault Refusal :=
  .next (s.deliver d (.b .dbnz sel disp) AccessEnv.quiet)

/-- A pair ← the link, and branch (Table Ops-14, R678). -/
def execOpCall (d : Delivery) (sel : Fin 16) (disp : Word) (s : State) : Host.Outcome State Fault Refusal :=
  .next (s.deliver d (.b .call sel disp) AccessEnv.quiet)

/-- Branch to a pair (Table Ops-14, R680). -/
def execOpJr (d : Delivery) (sel : Fin 16) (disp : Word) (s : State) : Host.Outcome State Fault Refusal :=
  .next (s.deliver d (.b .jr sel disp) AccessEnv.quiet)

/-- Branch to a pair on a condition of FL (Tables Ops-14 and Ops-15, R680, R681). -/
def execOpBcr (d : Delivery) (sel : Fin 16) (disp : Word) (s : State) : Host.Outcome State Fault Refusal :=
  .next (s.deliver d (.b .bcr sel disp) AccessEnv.quiet)

/-- A pair ← the link, and branch to a pair (Table Ops-14, R680). -/
def execOpCallr (d : Delivery) (sel : Fin 16) (disp : Word) (s : State) : Host.Outcome State Fault Refusal :=
  .next (s.deliver d (.b .callr sel disp) AccessEnv.quiet)

/-- CTL ← ESTAT, and issue resumes at EPC (Table Ops-14, R616, R684). -/
def execOpRet (d : Delivery) (sel : Fin 16) (disp : Word) (s : State) : Host.Outcome State Fault Refusal :=
  .next (s.deliver d (.b .ret sel disp) AccessEnv.quiet)

/-- A loop counter ← a pair, or the X value (Table Ops-14). -/
def execOpKset (d : Delivery) (sel : Fin 16) (disp : Word) (s : State) : Host.Outcome State Fault Refusal :=
  .next (s.deliver d (.b .kset sel disp) AccessEnv.quiet)

/-- A pair ← a loop counter (Table Ops-14). -/
def execOpKget (d : Delivery) (sel : Fin 16) (disp : Word) (s : State) : Host.Outcome State Fault Refusal :=
  .next (s.deliver d (.b .kget sel disp) AccessEnv.quiet)

/-- Issue nothing later until an enabled source requests (R682). -/
def execOpWait (d : Delivery) (sel : Fin 16) (disp : Word) (s : State) : Host.Outcome State Fault Refusal :=
  .next (s.deliver d (.b .wait sel disp) AccessEnv.quiet)

/-- Trap with vector 11 (Table Ops-14). -/
def execOpBrk (d : Delivery) (sel : Fin 16) (disp : Word) (s : State) : Host.Outcome State Fault Refusal :=
  .next (s.deliver d (.b .brk sel disp) AccessEnv.quiet)

/-- Trap with vector 12 (Table Ops-14). -/
def execOpTrap (d : Delivery) (sel : Fin 16) (disp : Word) (s : State) : Host.Outcome State Fault Refusal :=
  .next (s.deliver d (.b .trap sel disp) AccessEnv.quiet)

end Sys2Proof.Machine
end

