-- ==== Sys2Proof/Machine/CoreCop.lean ====
section
/-! DEFINITION. C-slot operations of the decimal units, the vector units and the crypto engine (Tables Decimal-3, Ops-17 and Ops-18), each as fetch
delivers it to a core. -/
namespace Sys2Proof.Machine

/-- A pair ← the decimal context (Table Decimal-2, R717); Table Decimal-3. -/
def execOpDstat (d : Delivery) (pd pa pb : Fin 16) (s : State) : Host.Outcome State Fault Refusal :=
  .next (s.deliver d (.c 0 0 pd pa pb) AccessEnv.quiet)

/-- The decimal context is set, or ERR (R716); Table Decimal-3. -/
def execOpDset (d : Delivery) (pd pa pb : Fin 16) (s : State) : Host.Outcome State Fault Refusal :=
  .next (s.deliver d (.c 0 1 pd pa pb) AccessEnv.quiet)

/-- Sum (R718, R719), in the DS format; Table Decimal-3. -/
def execOpDadds (d : Delivery) (pd pa pb : Fin 16) (s : State) : Host.Outcome State Fault Refusal :=
  .next (s.deliver d (.c 0 2 pd pa pb) AccessEnv.quiet)

/-- Difference (R718, R719), in the DS format; Table Decimal-3. -/
def execOpDsubs (d : Delivery) (pd pa pb : Fin 16) (s : State) : Host.Outcome State Fault Refusal :=
  .next (s.deliver d (.c 0 3 pd pa pb) AccessEnv.quiet)

/-- Product (R718, R719), in the DS format; Table Decimal-3. -/
def execOpDmuls (d : Delivery) (pd pa pb : Fin 16) (s : State) : Host.Outcome State Fault Refusal :=
  .next (s.deliver d (.c 0 4 pd pa pb) AccessEnv.quiet)

/-- Quotient (R718, R730), in the DS format; Table Decimal-3. -/
def execOpDdivs (d : Delivery) (pd pa pb : Fin 16) (s : State) : Host.Outcome State Fault Refusal :=
  .next (s.deliver d (.c 0 5 pd pa pb) AccessEnv.quiet)

/-- Comparison (R721), in the DS format; Table Decimal-3. -/
def execOpDcmps (d : Delivery) (pd pa pb : Fin 16) (s : State) : Host.Outcome State Fault Refusal :=
  .next (s.deliver d (.c 0 6 pd pa pb) AccessEnv.quiet)

/-- Rounding to SD (R718, R725), in the DS format; Table Decimal-3. -/
def execOpDrnds (d : Delivery) (pd pa pb : Fin 16) (s : State) : Host.Outcome State Fault Refusal :=
  .next (s.deliver d (.c 0 7 pd pa pb) AccessEnv.quiet)

/-- Negation (R720), in the DS format; Table Decimal-3. -/
def execOpDnegs (d : Delivery) (pd pa pb : Fin 16) (s : State) : Host.Outcome State Fault Refusal :=
  .next (s.deliver d (.c 0 8 pd pa pb) AccessEnv.quiet)

/-- Magnitude (R720), in the DS format; Table Decimal-3. -/
def execOpDabss (d : Delivery) (pd pa pb : Fin 16) (s : State) : Host.Outcome State Fault Refusal :=
  .next (s.deliver d (.c 0 9 pd pa pb) AccessEnv.quiet)

/-- Sum (R718, R719), in the DL format; Table Decimal-3. -/
def execOpDaddl (d : Delivery) (pd pa pb : Fin 16) (s : State) : Host.Outcome State Fault Refusal :=
  .next (s.deliver d (.c 0 10 pd pa pb) AccessEnv.quiet)

/-- Difference (R718, R719), in the DL format; Table Decimal-3. -/
def execOpDsubl (d : Delivery) (pd pa pb : Fin 16) (s : State) : Host.Outcome State Fault Refusal :=
  .next (s.deliver d (.c 0 11 pd pa pb) AccessEnv.quiet)

/-- Product (R718, R719), in the DL format; Table Decimal-3. -/
def execOpDmull (d : Delivery) (pd pa pb : Fin 16) (s : State) : Host.Outcome State Fault Refusal :=
  .next (s.deliver d (.c 0 12 pd pa pb) AccessEnv.quiet)

/-- Quotient (R718, R730), in the DL format; Table Decimal-3. -/
def execOpDdivl (d : Delivery) (pd pa pb : Fin 16) (s : State) : Host.Outcome State Fault Refusal :=
  .next (s.deliver d (.c 0 13 pd pa pb) AccessEnv.quiet)

/-- Comparison (R721), in the DL format; Table Decimal-3. -/
def execOpDcmpl (d : Delivery) (pd pa pb : Fin 16) (s : State) : Host.Outcome State Fault Refusal :=
  .next (s.deliver d (.c 0 14 pd pa pb) AccessEnv.quiet)

/-- Rounding to SD (R718, R725), in the DL format; Table Decimal-3. -/
def execOpDrndl (d : Delivery) (pd pa pb : Fin 16) (s : State) : Host.Outcome State Fault Refusal :=
  .next (s.deliver d (.c 0 15 pd pa pb) AccessEnv.quiet)

/-- Negation (R720), in the DL format; Table Decimal-3. -/
def execOpDnegl (d : Delivery) (pd pa pb : Fin 16) (s : State) : Host.Outcome State Fault Refusal :=
  .next (s.deliver d (.c 0 16 pd pa pb) AccessEnv.quiet)

/-- Magnitude (R720), in the DL format; Table Decimal-3. -/
def execOpDabsl (d : Delivery) (pd pa pb : Fin 16) (s : State) : Host.Outcome State Fault Refusal :=
  .next (s.deliver d (.c 0 17 pd pa pb) AccessEnv.quiet)

/-- DS to DL (R722); Table Decimal-3. -/
def execOpDwiden (d : Delivery) (pd pa pb : Fin 16) (s : State) : Host.Outcome State Fault Refusal :=
  .next (s.deliver d (.c 0 18 pd pa pb) AccessEnv.quiet)

/-- DL to DS (R722); Table Decimal-3. -/
def execOpDnarrow (d : Delivery) (pd pa pb : Fin 16) (s : State) : Host.Outcome State Fault Refusal :=
  .next (s.deliver d (.c 0 19 pd pa pb) AccessEnv.quiet)

/-- Binary to decimal (R723); Table Decimal-3. -/
def execOpDfromb (d : Delivery) (pd pa pb : Fin 16) (s : State) : Host.Outcome State Fault Refusal :=
  .next (s.deliver d (.c 0 20 pd pa pb) AccessEnv.quiet)

/-- Decimal to binary (R723); Table Decimal-3. -/
def execOpDtob (d : Delivery) (pd pa pb : Fin 16) (s : State) : Host.Outcome State Fault Refusal :=
  .next (s.deliver d (.c 0 21 pd pa pb) AccessEnv.quiet)

/-- A class-0xA NaN (R724); Table Decimal-3. -/
def execOpDnan (d : Delivery) (pd pa pb : Fin 16) (s : State) : Host.Outcome State Fault Refusal :=
  .next (s.deliver d (.c 0 22 pd pa pb) AccessEnv.quiet)

/-- Classification (R724); Table Decimal-3. -/
def execOpDcls (d : Delivery) (pd pa pb : Fin 16) (s : State) : Host.Outcome State Fault Refusal :=
  .next (s.deliver d (.c 0 23 pd pa pb) AccessEnv.quiet)

/-- Clarke transform (R690, R691); Table Ops-17. -/
def execOpClarke (d : Delivery) (pd pa pb : Fin 16) (s : State) : Host.Outcome State Fault Refusal :=
  .next (s.deliver d (.c 1 0 pd pa pb) AccessEnv.quiet)

/-- Sine and cosine (R690); Table Ops-17. -/
def execOpSincos (d : Delivery) (pd pa pb : Fin 16) (s : State) : Host.Outcome State Fault Refusal :=
  .next (s.deliver d (.c 1 1 pd pa pb) AccessEnv.quiet)

/-- Park transform (R691); Table Ops-17. -/
def execOpPark (d : Delivery) (pd pa pb : Fin 16) (s : State) : Host.Outcome State Fault Refusal :=
  .next (s.deliver d (.c 1 2 pd pa pb) AccessEnv.quiet)

/-- Inverse Park transform (R691); Table Ops-17. -/
def execOpIpark (d : Delivery) (pd pa pb : Fin 16) (s : State) : Host.Outcome State Fault Refusal :=
  .next (s.deliver d (.c 1 3 pd pa pb) AccessEnv.quiet)

/-- Gains and limits of a PI channel (R692); Table Ops-17. -/
def execOpPiset (d : Delivery) (pd pa pb : Fin 16) (s : State) : Host.Outcome State Fault Refusal :=
  .next (s.deliver d (.c 1 4 pd pa pb) AccessEnv.quiet)

/-- A PI channel's integrator ← 0 (R692); Table Ops-17. -/
def execOpPirst (d : Delivery) (pd pa pb : Fin 16) (s : State) : Host.Outcome State Fault Refusal :=
  .next (s.deliver d (.c 1 5 pd pa pb) AccessEnv.quiet)

/-- One step of a PI channel (R692); Table Ops-17. -/
def execOpPistep (d : Delivery) (pd pa pb : Fin 16) (s : State) : Host.Outcome State Fault Refusal :=
  .next (s.deliver d (.c 1 6 pd pa pb) AccessEnv.quiet)

/-- The engine's status; ERR is cleared (R693, R694, Table Ops-18). -/
def execOpCstat (d : Delivery) (pd pa pb : Fin 16) (s : State) : Host.Outcome State Fault Refusal :=
  .next (s.deliver d (.c 2 0 pd pa pb) AccessEnv.quiet)

/-- 24 random bits (R706); `e.trngBad`: the TRNG fails its health test (R693, R694, Table Ops-18). -/
def execOpRng (d : Delivery) (pd pa pb : Fin 16) (e : AccessEnv) (s : State) : Host.Outcome State Fault Refusal :=
  .next (s.deliver d (.c 2 1 pd pa pb) e)

/-- The AES key is loaded (R693, R694, Table Ops-18). -/
def execOpKeyld (d : Delivery) (pd pa pb : Fin 16) (s : State) : Host.Outcome State Fault Refusal :=
  .next (s.deliver d (.c 2 2 pd pa pb) AccessEnv.quiet)

/-- The IV block is loaded (R693, R694, Table Ops-18). -/
def execOpIvld (d : Delivery) (pd pa pb : Fin 16) (s : State) : Host.Outcome State Fault Refusal :=
  .next (s.deliver d (.c 2 3 pd pa pb) AccessEnv.quiet)

/-- ECB encryption (R693, R694, Table Ops-18). -/
def execOpAese (d : Delivery) (pd pa pb : Fin 16) (s : State) : Host.Outcome State Fault Refusal :=
  .next (s.deliver d (.c 2 4 pd pa pb) AccessEnv.quiet)

/-- ECB decryption (R693, R694, Table Ops-18). -/
def execOpAesd (d : Delivery) (pd pa pb : Fin 16) (s : State) : Host.Outcome State Fault Refusal :=
  .next (s.deliver d (.c 2 5 pd pa pb) AccessEnv.quiet)

/-- CBC encryption (R693, R694, Table Ops-18). -/
def execOpCbce (d : Delivery) (pd pa pb : Fin 16) (s : State) : Host.Outcome State Fault Refusal :=
  .next (s.deliver d (.c 2 6 pd pa pb) AccessEnv.quiet)

/-- CBC decryption (R693, R694, Table Ops-18). -/
def execOpCbcd (d : Delivery) (pd pa pb : Fin 16) (s : State) : Host.Outcome State Fault Refusal :=
  .next (s.deliver d (.c 2 7 pd pa pb) AccessEnv.quiet)

/-- CTR mode (R693, R694, Table Ops-18). -/
def execOpCtr (d : Delivery) (pd pa pb : Fin 16) (s : State) : Host.Outcome State Fault Refusal :=
  .next (s.deliver d (.c 2 8 pd pa pb) AccessEnv.quiet)

/-- GCM starts, with its additional data (R693, R694, Table Ops-18). -/
def execOpGcma (d : Delivery) (pd pa pb : Fin 16) (s : State) : Host.Outcome State Fault Refusal :=
  .next (s.deliver d (.c 2 9 pd pa pb) AccessEnv.quiet)

/-- GCM encryption (R693, R694, Table Ops-18). -/
def execOpGcme (d : Delivery) (pd pa pb : Fin 16) (s : State) : Host.Outcome State Fault Refusal :=
  .next (s.deliver d (.c 2 10 pd pa pb) AccessEnv.quiet)

/-- GCM decryption (R693, R694, Table Ops-18). -/
def execOpGcmd (d : Delivery) (pd pa pb : Fin 16) (s : State) : Host.Outcome State Fault Refusal :=
  .next (s.deliver d (.c 2 11 pd pa pb) AccessEnv.quiet)

/-- GCM's tag, and its end (R693, R694, Table Ops-18). -/
def execOpGcmt (d : Delivery) (pd pa pb : Fin 16) (s : State) : Host.Outcome State Fault Refusal :=
  .next (s.deliver d (.c 2 12 pd pa pb) AccessEnv.quiet)

/-- AES-CMAC (R693, R694, Table Ops-18). -/
def execOpCmac (d : Delivery) (pd pa pb : Fin 16) (s : State) : Host.Outcome State Fault Refusal :=
  .next (s.deliver d (.c 2 13 pd pa pb) AccessEnv.quiet)

/-- SHA-256 or HMAC starts (R693, R694, Table Ops-18). -/
def execOpShai (d : Delivery) (pd pa pb : Fin 16) (s : State) : Host.Outcome State Fault Refusal :=
  .next (s.deliver d (.c 2 14 pd pa pb) AccessEnv.quiet)

/-- Octets are fed to it (R693, R694, Table Ops-18). -/
def execOpShau (d : Delivery) (pd pa pb : Fin 16) (s : State) : Host.Outcome State Fault Refusal :=
  .next (s.deliver d (.c 2 15 pd pa pb) AccessEnv.quiet)

/-- Its digest, and its end (R693, R694, Table Ops-18). -/
def execOpShaf (d : Delivery) (pd pa pb : Fin 16) (s : State) : Host.Outcome State Fault Refusal :=
  .next (s.deliver d (.c 2 16 pd pa pb) AccessEnv.quiet)

/-- ECDSA P-256 verification (R693, R694, Table Ops-18). -/
def execOpEcver (d : Delivery) (pd pa pb : Fin 16) (s : State) : Host.Outcome State Fault Refusal :=
  .next (s.deliver d (.c 2 17 pd pa pb) AccessEnv.quiet)

/-- A new ephemeral key pair (R693, R694, Table Ops-18). -/
def execOpEcgen (d : Delivery) (pd pa pb : Fin 16) (s : State) : Host.Outcome State Fault Refusal :=
  .next (s.deliver d (.c 2 18 pd pa pb) AccessEnv.quiet)

/-- The shared secret; the secret key is erased (R693, R694, Table Ops-18). -/
def execOpEcdh (d : Delivery) (pd pa pb : Fin 16) (s : State) : Host.Outcome State Fault Refusal :=
  .next (s.deliver d (.c 2 19 pd pa pb) AccessEnv.quiet)

end Sys2Proof.Machine
end

