-- ==== Sys2Proof/Machine/Fetch.lean ====
section
/-! DEFINITION. Fetch through the instruction cache (R591, R592, R768, R792, R806), for the steps in which the core fetches by itself: a
single step, and a bundle whose encoding or fetch is the cause of a trap. -/
namespace Sys2Proof.Machine

/-- A line of 32 words from the I-cache, filled from the home tiles where it is absent; none where the fill meets an error mark. With all
four ways of its set taken, which line gives way is a free value: the spec gives pseudo-LRU without its state. -/
def State.fetchLine (s : State) (i : Fin 4) (n : Nat) : Option (List Word) × State :=
  let cache := s.mem.icache.get i
  match cache.find? (fun p => p.1 = n) with
  | some p => (some p.2, s)
  | none =>
    if (s.mem.homeOf (2 * n)).err || (s.mem.homeOf (2 * n + 1)).err then (none, s)
    else
      let ws := memGetList 0 s.mem.sram (32 * n) 32
      let (pick, s1) := s.draw
      let inSet := cache.filter (fun p => p.1 % 128 = n % 128)
      let kept := if inSet.length < 4 then cache else
        match inSet[pick % inSet.length]? with | none => cache | some p => dropKey p.1 cache
      (some ws, { s1 with mem := { s1.mem with icache := s1.mem.icache.set i (setKey n ws kept) } })

/-- The syllable at an address, or why it cannot be fetched (R591, R592, R653, R808). -/
def State.fetchSyl (s : State) (i : Fin 4) (a : Pair) : (Pair ⊕ Trapped) × State :=
  let x := a.toNat
  if x % 2 = 1 then (.inr (3, 1, some a), s)
  else if !fetchable x then (.inr (3, 0, some a), s)
  else if s.tileFailed x then (.inr (8, 1, some a), s)
  else
    match s.fetchLine i (x / 32) with
    | (none, s1) => (.inr (3, 2, some a), s1)
    | (some ws, s1) => (.inl (ws.getD (x % 32 + 1) 0 ++ ws.getD (x % 32) 0), s1)

/-- A fetched bundle: its syllables, whether the last has its stop bit, and the cause that ended the fetch. -/
structure Fetched where
  syls : List Syl
  stopped : Bool
  bad : Option Trapped
  deriving DecidableEq, Repr

/-- Up to n more syllables of the bundle at an address. -/
def State.fetchFrom (i : Fin 4) : Nat → Pair → Fetched → State → Fetched × State
  | 0, _, f, s => (f, s)
  | n + 1, a, f, s =>
    match s.fetchSyl i a with
    | (.inr t, s1) => ({ f with bad := some t }, s1)
    | (.inl v, s1) =>
      let f1 := { f with syls := f.syls ++ [decodeSyl v], stopped := stopBit v }
      if stopBit v then (f1, s1) else State.fetchFrom i n (a + 2) f1 s1

/-- The bundle at PC is fetched and stands ready to issue, or with its cause (R604, R614); `e` is what its accesses may need of the
world. DEDUCED (log 23). -/
def State.fetchBundle (s : State) (i : Fin 4) (e : AccessEnv) : State :=
  let (f, s1) := State.fetchFrom i 6 (s.core.get i).pc { syls := [], stopped := false, bad := none } s
  let c := s1.core.get i
  match f.bad with
  | some (v, k, a) =>
    s1.setCore i { c with preTrap := some ({ vector := v, sub := k, addr := a, unit := none, syl := 0, wide := v = 3 }, f.syls.length + 1) }
  | none =>
    s1.setCore i (({ c with gather := f.syls.map (fun y => { syl := y, late := false, env := e }), gatherX := [] }).closeBundle f.stopped)

/-- A syllable's encoding is itself a cause (R588, R603, R658). -/
def Slot.encodingBad (l : List Slot) (sl : Slot) : Bool :=
  match sl.syl with
  | .x t v => xBroken l t v
  | y =>
    let long := longOf l y
    !y.fieldsOk long.isSome long || (match y.specialNo with | some n => decide (15 ≤ n.val) | none => false)

/-- The core stands between bundles: nothing gathered, nothing waiting to issue. -/
def CoreState.between (c : CoreState) : Bool := c.gather.isEmpty && c.gatherX.isEmpty && !c.closed && c.preTrap.isNone

/-- The next bundle comes to the core by fetch when its fetch or an encoding in it is a cause; any other bundle comes by its operations'
own commands. DEDUCED (log 24). DEDUCED (log 27). -/
def State.fetchCause (s : State) (i : Fin 4) : State :=
  let c := s.core.get i
  if c.run ≠ .running || !c.between then s
  else
    let s1 := s.fetchBundle i AccessEnv.quiet
    let c1 := s1.core.get i
    if c1.preTrap.isSome || c1.bundle.any (fun sl => sl.encodingBad c1.bundle) then s1.settle i else s

end Sys2Proof.Machine
end

