-- ==== Sys2Proof/Machine/CoreEvents.lean ====
section
/-! DEFINITION. What happens to a core between its operations (spec/11_jieles_model.md, spec/14_inflight.md): results that return,
branches that resolve as mispredicted, traps, interrupts, the end of a WAIT, and what the coprocessors send and receive. -/
namespace Sys2Proof.Machine

/-- The enabled source requests during WAIT (R682): issue resumes, and the interrupt is taken when IE is 1 and TH is 0. -/
def execWaitResume (core : Fin 4) (s : State) : Host.Outcome State Fault Refusal :=
  .next (let c := s.core.get core
    if c.run ≠ .waiting || s.interrupts core = 0 then s
    else
      let s1 := s.setCore core { c with run := .running }
      if c.mayInterrupt && c.drained && !c.trapStands then s1.enterInterrupt core else s1)

/-- The tag of a squashed operation is free (R65). DESIGN CHOICE (log 22). DESIGN CHOICE (log 39). -/
def State.freeTag (s : State) (i : Fin 4) (tag : Nat) : State :=
  let c := s.core.get i
  s.setCore i { c with staleTags := c.staleTags.filter (fun t => t ≠ tag) }

/-- A unit returns the result of the operation with a tag; it and what waited for it complete as R609 allows, and their trace packets
follow (R608, R609, R986). -/
def execResultComplete (core : Fin 4) (tag : Nat) (s : State) : Host.Outcome State Fault Refusal :=
  .next (((s.freeTag core tag).mapEntry core tag (fun e =>
    if e.effect.isNone && e.cop.isNone then { e with late := false } else e)).settle core)

/-- The branch that resolved as mispredicted is acted on (R613, R755): later operations are squashed, cancel tokens go out, and issue goes
on along the path taken. -/
def execBranchMispredict (core : Fin 4) (s : State) : Host.Outcome State Fault Refusal :=
  .next (match (s.core.get core).window.findSome? (fun e => match e.branch with
      | some b => if b.wrong then some (e, b) else none
      | none => none) with
    | none => s
    | some (e, b) =>
      let s1 := (s.squash core (e.bundle + 1)).mapEntry core e.tag (fun x => { x with branch := some { b with wrong := false, resolved := true } })
      (s1.setCore core { s1.core.get core with pc := b.goes }).settle core)

/-- The bundle that holds a trap's cause is the oldest with work outstanding, and the core enters the vector, or takes a double trap (R614,
R615, R617). With `fetch`, the core first fetches its next bundle, whose fetch or encoding is the cause (R588, R591, R603, R658). -/
def execTrapEntry (core : Fin 4) (fetch : Bool) (s : State) : Host.Outcome State Fault Refusal :=
  .next ((if fetch then s.fetchCause core else s).takeTrap core)

/-- An enabled pending source is taken once every bundle that R619 lets complete has completed; a trap that stands goes first (R619, R643). -/
def execInterruptEntry (core : Fin 4) (s : State) : Host.Outcome State Fault Refusal :=
  .next (let c := s.core.get core
    if c.run = .running && c.mayInterrupt && c.drained && !c.trapStands then s.enterInterrupt core else s)

/-- Every running core goes on as far as it can: a freed tag ends the wait of whichever core stood at the full pool (R63). -/
def State.settleAll (s : State) : State :=
  ([0, 1, 2, 3] : List (Fin 4)).foldl (fun (s : State) i => if (s.core.get i).run = .running then s.settle i else s) s

/-- An operation leaves its coprocessor: its tag and its tokens go, its dispatcher's stale tag is free, and a unit takes the next. -/
def State.copLeaves (s : State) (o : CopOp) : State :=
  let gone (t : Coproc × Fin 5 × Nat) : Bool := t.1 = o.cop && t.2.1 = o.owner && t.2.2 = o.tag
  let s1 := ({ s with cop := { s.cop with ops := s.cop.ops.filter (fun x => x ≠ o), tokens := s.cop.tokens.filter (fun t => !gone t) } }).admitOps o.cop
  (if h : o.owner.val < 4 then (if o.stale then s1.freeTag ⟨o.owner.val, h⟩ o.tag else s1) else s1).settleAll

/-- A cancel token reaches its coprocessor (Table Flight-3). `abort`: at the step boundary that the token contests, the token wins (R757). -/
def execCancelToken (cop : Coproc) (core : Fin 4) (tag : Nat) (abort : Bool) (s : State) : Host.Outcome State Fault Refusal :=
  .next (let me : Coproc × Fin 5 × Nat := (cop, coreOwner core, tag)
    if !s.cop.tokens.contains me then s
    else
      let spent : State := { s with cop := { s.cop with tokens := s.cop.tokens.filter (fun t => t ≠ me) } }
      match s.cop.ops.find? (fun o => o.cop = cop && o.owner = coreOwner core && o.tag = tag) with
      | none => spent
      | some o =>
        match o.phase with
        | .queued => s.copLeaves o
        | .running => if o.ct then spent else if abort then s.copLeaves o else s)

/-- A coprocessor operation ends and returns its result and its tag (R749, R705); `failed`: the coprocessor failed, and a stateful or
effectful operation has then taken effect where `took`. A stale result is discarded. -/
def execCoproResultReturn (cop : Coproc) (core : Fin 4) (tag : Nat) (failed took : Bool) (s : State) : Host.Outcome State Fault Refusal :=
  .next (match s.cop.ops.find? (fun o => o.cop = cop && o.owner = coreOwner core && o.tag = tag && o.phase = .running) with
    | none => s
    | some o =>
      let s1 := s.copLeaves o
      if o.stale then s1
      else
        match (s.core.get core).window.find? (fun e => e.tag = tag) with
        | none => s1
        | some e =>
          let s2 := match e.effect with
            | some (.inFlight d env) => if failed && !took then s1 else s1.runDispatch core tag d env
            | _ => s1
          let fail (e : Entry) : Entry :=
            { e with cause := some { vector := 8, sub := 1, addr := none, unit := some e.unit, syl := e.syl, wide := false }, effect := none }
          (s2.mapEntry core tag (fun e => if failed then fail { e with late := false } else { e with late := false })).settle core)

/-! Coherence -/

/-- A message of the coherence protocol has come; a core whose cache it served goes on. -/
def State.coherent (s : State) (c : CacheId) (line : Nat) (k : MsgClass) : State :=
  let s1 := s.deliverMsg c line k
  match c with
  | .core i => s1.settle i
  | .steward => s1

/-- A line's tile read meets an uncorrectable error: the home keeps the mark (R806). -/
def State.markLine (s : State) (line : Nat) : State :=
  { s with mem := s.mem.setHome line { s.mem.homeOf line with err := true } }

/-- The tile of a line fails at run time (R808). -/
def State.tileFails (s : State) (line : Nat) : State := s.failUnits [⟨3 + line / 4096 % 16, by omega⟩]

/-- What a home meets as a request reaches it; a line in a transaction has its entry in use (R806 to R808). -/
def State.homeMeets (s : State) (line : Nat) : HomeFault → State
  | .none => s
  | .tileErr => s.markLine line
  | .dirErr => if (s.mem.homeOf line).busy.isSome then s else s.rebuildLine line
  | .tileFails => s.tileFails line

/-- A failed tile answers no request: the line's loads trap with vector 8, sub-cause 1 (R808). -/
def State.refuseLine (s : State) (c : CacheId) (line : Nat) : State :=
  match s.mem.pop c line .request with
  | none => s
  | some (_, m) =>
    let waits := match m.lineIn c line with | none => [] | some l => l.waits
    let s1 := { s with mem := m.dropLine c line }
    match c with
    | .steward => s1
    | .core i =>
      (waits.foldl (fun (s : State) (w : WaitAccess) => match w with
        | .load tag addr _ => s.mapEntry i tag (fun e => e.supply addr none (8, 1))
        | .store _ _ => s) s1).settle i

/-- A core's cache fails at run time: the homes rebuild every entry that names it, and then its core counts as failed (R220, R810). -/
def State.cacheFails (s : State) (i : Fin 4) : State :=
  let (pick, s1) := s.draw
  (s1.rebuildCache (.core i) pick).failUnits [UnitId.core i]

/-- A GetS, GetM or Upg reaches the home (R771, R773, R806 to R808). -/
def execCoherenceRequest (c : CacheId) (line : Nat) (f : HomeFault) (s : State) : Host.Outcome State Fault Refusal :=
  .next (match f with
    | .tileFails => (s.tileFails line).refuseLine c line
    | .none | .tileErr | .dirErr => (s.homeMeets line f).coherent c line .request)

/-- A PutM or PutE reaches the home (R773, R777 to R780, R807, R808). -/
def execEvictionNotice (c : CacheId) (line : Nat) (f : HomeFault) (s : State) : Host.Outcome State Fault Refusal :=
  .next ((s.homeMeets line f).coherent c line .notice)

/-- A snoop reaches a cache (R772); with `fails` the cache of a core fails instead (R810). -/
def execSnoopAtCache (c : CacheId) (line : Nat) (fails : Bool) (s : State) : Host.Outcome State Fault Refusal :=
  .next (match c, fails with
    | .core i, true => s.cacheFails i
    | _, _ => s.coherent c line .snoop)

/-- A snoop's answer reaches the home (R777). -/
def execSnoopResponse (c : CacheId) (line : Nat) (s : State) : Host.Outcome State Fault Refusal := .next (s.coherent c line .response)

/-- A grant reaches the requesting cache (R772). -/
def execLineGrant (c : CacheId) (line : Nat) (s : State) : Host.Outcome State Fault Refusal := .next (s.coherent c line .grant)

/-- Done reaches the home (R771). -/
def execCoherenceDone (c : CacheId) (line : Nat) (s : State) : Host.Outcome State Fault Refusal := .next (s.coherent c line .done)

/-- A PutAck reaches the cache (R772). -/
def execPutAck (c : CacheId) (line : Nat) (s : State) : Host.Outcome State Fault Refusal := .next (s.coherent c line .putAck)

/-- A read of `len` words at an offset of a line by an agent without a cache, or with `put` a write of those words, reaches the home
(R781, R782, R806 to R808, Table Flight-10). -/
def execAgentLineAccess (a : Agent) (line : Nat) (offset : Fin 16) (len : Nat) (put : Option (List Word)) (f : HomeFault) (s : State) :
    Host.Outcome State Fault Refusal :=
  .next (let room := 16 - offset.val
    let q := match put with
      | none => HomeReq.agentRead a offset.val (min len room)
      | some ws => HomeReq.agentWrite a offset.val (ws.take room)
    let s0 := s.homeMeets line f
    if f = .tileFails then { s0 with mem := { s0.mem with agentErr := true } }
    else
      let (m, bad) := s0.mem.request line q
      State.strayPuts line bad { s0 with mem := m })

end Sys2Proof.Machine
end

