-- ==== Sys2Proof/Machine/CoreMem.lean ====
section
/-! DEFINITION. L-unit operations (Tables Ops-9 to Ops-11), each as fetch delivers it to a core. -/
namespace Sys2Proof.Machine

/-- rd ← the word at a (Table Ops-9, R673); `e.ec`: the error count of a flash line read (R817). -/
def execOpLdw (d : Delivery) (rd : Fin 32) (pb : Fin 16) (disp : BitVec 7) (e : AccessEnv) (s : State) : Host.Outcome State Fault Refusal :=
  .next (s.deliver d (.l .ldw rd pb disp) e)

/-- A pair ← the words at a and a + 1 (Table Ops-9, R593); `e.ec`: the error count of a flash line read (R817). -/
def execOpLdp (d : Delivery) (rd : Fin 32) (pb : Fin 16) (disp : BitVec 7) (e : AccessEnv) (s : State) : Host.Outcome State Fault Refusal :=
  .next (s.deliver d (.l .ldp rd pb disp) e)

/-- The word at a ← rd (Table Ops-9, R610). -/
def execOpStw (d : Delivery) (rd : Fin 32) (pb : Fin 16) (disp : BitVec 7) (s : State) : Host.Outcome State Fault Refusal :=
  .next (s.deliver d (.l .stw rd pb disp) AccessEnv.quiet)

/-- The words at a and a + 1 ← a pair (Table Ops-9, R593, R610). -/
def execOpStp (d : Delivery) (rd : Fin 32) (pb : Fin 16) (disp : BitVec 7) (s : State) : Host.Outcome State Fault Refusal :=
  .next (s.deliver d (.l .stp rd pb disp) AccessEnv.quiet)

/-- rd ← the word at pb, then pb advances (Table Ops-9); `e.ec`: the error count of a flash line read (R817). -/
def execOpLdwi (d : Delivery) (rd : Fin 32) (pb : Fin 16) (disp : BitVec 7) (e : AccessEnv) (s : State) : Host.Outcome State Fault Refusal :=
  .next (s.deliver d (.l .ldwi rd pb disp) e)

/-- The word at pb ← rd, and pb advances (Table Ops-9). -/
def execOpStwi (d : Delivery) (rd : Fin 32) (pb : Fin 16) (disp : BitVec 7) (s : State) : Host.Outcome State Fault Refusal :=
  .next (s.deliver d (.l .stwi rd pb disp) AccessEnv.quiet)

/-- Dual-fetch multiply-accumulate (R674, R675); `e.ec`: the error count of a flash line read (R817). -/
def execOpMacp (d : Delivery) (rd : Fin 32) (pb : Fin 16) (disp : BitVec 7) (e : AccessEnv) (s : State) : Host.Outcome State Fault Refusal :=
  .next (s.deliver d (.l .macp rd pb disp) e)

/-- Orders earlier accesses before later ones (Table Ops-10, R787). -/
def execOpFence (d : Delivery) (pb : Fin 16) (disp : BitVec 7) (s : State) : Host.Outcome State Fault Refusal :=
  .next (s.deliver d (.l .cmo 0 pb disp) AccessEnv.quiet)

/-- Invalidates the I-cache line that holds a (Table Ops-10, R676, R794). -/
def execOpIcinv (d : Delivery) (pb : Fin 16) (disp : BitVec 7) (s : State) : Host.Outcome State Fault Refusal :=
  .next (s.deliver d (.l .cmo 1 pb disp) AccessEnv.quiet)

/-- Invalidates the whole I-cache (Table Ops-10, R794). -/
def execOpIcinva (d : Delivery) (pb : Fin 16) (disp : BitVec 7) (s : State) : Host.Outcome State Fault Refusal :=
  .next (s.deliver d (.l .cmo 2 pb disp) AccessEnv.quiet)

/-- Writes a dirty data-cache line back and keeps it (Table Ops-10, R676). -/
def execOpDcwb (d : Delivery) (pb : Fin 16) (disp : BitVec 7) (s : State) : Host.Outcome State Fault Refusal :=
  .next (s.deliver d (.l .cmo 3 pb disp) AccessEnv.quiet)

/-- Writes a dirty data-cache line back and invalidates it (Table Ops-10, R676). -/
def execOpDcwbi (d : Delivery) (pb : Fin 16) (disp : BitVec 7) (s : State) : Host.Outcome State Fault Refusal :=
  .next (s.deliver d (.l .cmo 4 pb disp) AccessEnv.quiet)

/-- rd ← an I/O word (Table Ops-11, R595, R596, R677); `e` holds what the access may need of the world. -/
def execOpIn (d : Delivery) (rd : Fin 32) (addr : Word) (e : AccessEnv) (s : State) : Host.Outcome State Fault Refusal :=
  .next (s.deliver d (.io .inp rd addr) e)

/-- An I/O word ← rd (Table Ops-11, R595, R596, R677); `e` holds what the access may need of the world. -/
def execOpOut (d : Delivery) (rd : Fin 32) (addr : Word) (e : AccessEnv) (s : State) : Host.Outcome State Fault Refusal :=
  .next (s.deliver d (.io .out rd addr) e)

end Sys2Proof.Machine
end

