-- ==== Sys2Proof/Machine/NandPage.lean ====
section
/-! DEFINITION. What a programmed NAND page holds (spec/16_journal.md): its payload (R891, R892), its units and sectors (R882, R885), the
BCH code of a sector (R883), the pages of the bad-block table (R887), and what a read of a page reports (R884). -/
namespace Sys2Proof.Machine

/-! GF(2¹³) and the generator polynomial (R883) -/

/-- An element times α, in the field generated by x¹³ + x⁴ + x³ + x + 1. -/
def gfDouble (a : BitVec 13) : BitVec 13 := (a <<< 1) ^^^ (if a.msb then 0x1B else 0)

/-- The product of two elements. -/
def gfMul (a b : BitVec 13) : BitVec 13 :=
  (List.range 13).foldr (fun i x => gfDouble x ^^^ (if b.getLsbD i then a else 0)) 0

/-- α to a power. -/
def gfAlpha (n : Nat) : BitVec 13 := n.repeat gfDouble 1

/-- An element's successive squares: the roots of its minimal polynomial, of which there are at most 13. -/
def conjugates : Nat → BitVec 13 → List (BitVec 13)
  | 0, _ => []
  | n + 1, a => a :: conjugates n (gfMul a a)

/-- A polynomial, lowest coefficient first, times (x + r). -/
def timesRoot (p : List (BitVec 13)) (r : BitVec 13) : List (BitVec 13) :=
  List.zipWith (· ^^^ ·) (0 :: p) (p.map (gfMul r) ++ [0])

/-- The polynomial whose roots are the elements given. -/
def polyOf (roots : List (BitVec 13)) : List (BitVec 13) := roots.foldl timesRoot [1]

/-- The roots of the minimal polynomials of α¹ to α²⁴, each once. -/
def bchRoots : List (BitVec 13) :=
  (((List.range 24).map (fun i => conjugates 13 (gfAlpha (i + 1)))).foldl (· ++ ·) []).eraseDups

/-- The generator polynomial without its leading term: the coefficient of xⁱ at bit i. -/
def bchGenerator : BitVec 156 :=
  BitVec.ofNat 156 (((polyOf bchRoots).take 156).foldr (fun c n => c.toNat + 2 * n) 0)

/-! A sector's parity -/

/-- One data bit enters the encoder. -/
def bchBit (g reg : BitVec 156) (b : Bool) : BitVec 156 := (reg <<< 1) ^^^ (if reg.msb != b then g else 0)

/-- The bits of an octet, most significant first. -/
def octetBits (o : Octet) : List Bool := (List.range 8).map (fun i => o.getLsbD (7 - i))

/-- The parity bits of a sector's data, most significant first in 20 octets, the last 4 bits 1 (R883). -/
def bchParity (data : List Octet) : List Octet :=
  let reg := (data.foldl (fun l o => l ++ octetBits o) []).foldl (bchBit bchGenerator) 0
  let bits := reg.setWidth 160 <<< 4 ||| 0xF
  (List.range 20).map (fun i => (bits >>> (152 - 8 * i)).setWidth 8)

/-! A page's octets -/

/-- The four sectors of a unit's payload: 512, 512, 512 and 494 octets (Table Journal-3). -/
def sectorsOf (payload : List Octet) : List (List Octet) :=
  (List.range 4).map (fun i => (payload.drop (512 * i)).take (if i = 3 then 494 else 512))

/-- A unit: its 2 048 main octets and its 64 spare octets (Table Journal-3); spare octets 0 and 1 are never programmed. -/
def unitOctets2112 (payload : List Octet) : List Octet × List Octet :=
  let parity := (sectorsOf payload).foldl (fun l s => l ++ bchParity s) []
  (payload ++ parity.take 18, [0xFF, 0xFF] ++ parity.drop 18)

/-- The main octets and the spare octets that a page of n units is programmed with (R882, R885). -/
def pageOctets (n : Nat) (payload : List Octet) : List Octet × List Octet :=
  let us := (List.range n).map (fun j => unitOctets2112 ((payload.drop (2030 * j)).take 2030))
  (us.foldl (fun l u => l ++ u.1) [], us.foldl (fun l u => l ++ u.2) [])

/-- The page header (Table Journal-4). -/
def pageHeader (kind erases seq : Nat) : List Octet :=
  [0x4A, 0x4E, 0x01, BitVec.ofNat 8 kind] ++ leOctets 5 Config.identity.toNat ++ leOctets 3 erases ++ leOctets 4 seq

/-- Units of a page (R882). -/
def Journal.units (j : Journal) : Nat := j.info.pageOctets / 2048

/-- A payload filled up with 0xFF (R885, R892). -/
def Journal.payload (j : Journal) (os : List Octet) : List Octet := (os ++ List.replicate (2030 * j.units) 0xFF).take (2030 * j.units)

/-- The payload of a page of records in a block: its header, its records, and 0xFF from the end on (R891, R892). -/
def Journal.recordPayload (j : Journal) (b : Nat) (p : JPage) : List Octet :=
  j.payload (pageHeader 1 (j.block b).erases p.seq ++ p.recs.foldl (fun l r => l ++ r.stored) [])

/-- The octets that a page of records is programmed with. -/
def Journal.recordPage (j : Journal) (b : Nat) (p : JPage) : List Octet × List Octet := pageOctets j.units (j.recordPayload b p)

/-- The cause of a retirement, 0 of a block that is not retired (R887). -/
def BlockKind.cause : BlockKind → Nat
  | .retired c => c
  | .free | .active | .full | .bbt | .erasing => 0

/-- The bad-block table (R887): identity, version, number of retired blocks, each with its cause, and a CRC-32C. -/
def Journal.tableBody (j : Journal) : List Octet :=
  let l := j.blocks.filter (fun p => decide (0 < p.2.kind.cause))
  let x := leOctets 5 Config.identity.toNat ++ leOctets 4 j.bbtVersion ++ leOctets 3 l.length ++
    l.foldl (fun os p => os ++ leOctets 3 p.1 ++ leOctets 1 p.2.kind.cause) []
  x ++ leOctets 4 (crc32c x).toNat

/-- The octets that a page of the bad-block table is programmed with, the block's erases and the page's number given (R887, R888). -/
def Journal.tablePage (j : Journal) (erases seq : Nat) : List Octet × List Octet :=
  pageOctets j.units (j.payload (pageHeader 2 erases seq ++ j.tableBody))

/-! Reading a page -/

/-- What a read reports of a sector in which so many bits are wrong: up to 12 corrected, or uncorrectable (R883, R884). -/
def sectorCount (wrong : Nat) : Option Nat := if wrong ≤ 12 then some wrong else none

/-- The sector in which a payload octet lies. -/
def sectorAt (octet : Nat) : Nat := octet / 2030 * 4 + octet % 2030 / 512

/-- Places of records that lie in an uncorrectable sector, the first of them starting at a payload octet (R917). -/
def lostPlaces (sectors : List Nat) : List Rec → Nat → Nat → List Nat
  | [], _, _ => []
  | r :: rs, at0, n =>
    let hit := (List.range (sectorAt (at0 + r.octets - 1) + 1 - sectorAt at0)).any (fun i =>
      (sectorCount (sectors.getD (sectorAt at0 + i) 0)).isNone)
    (if hit then [n] else []) ++ lostPlaces sectors rs (at0 + r.octets) (n + 1)

/-- The most bits corrected in a sector. -/
def worstCount (sectors : List Nat) : Nat := (sectors.filterMap sectorCount).foldl max 0

end Sys2Proof.Machine
end

