-- ==== Sys2Proof/Machine/JournalCmd.lean ====
section
/-! DEFINITION. The journal's own events and the commands of the journal group (spec/16_journal.md; Table Cmd-12). -/
namespace Sys2Proof.Machine

def State.setJou (s : State) (j : Journal) : State := { s with jou := j }

/-! Waiting commands -/

/-- The entry for a run of missing sequence numbers (R907); the spec states no time for it. -/
def missingEntry (stamp : List Octet) (frm til : Nat) : Nat × List Octet :=
  (frm, storedOctets 0xFE frm false stamp (leOctets 4 (til + 1 - frm)))

/-- The newest copy of each record with a number in a range, in the order of the numbers (R907). -/
def Journal.inOrder (j : Journal) (first last : Nat) : List Rec :=
  let l := sortBy (fun a b => decide (a.2.seq < b.2.seq) || (decide (a.2.seq = b.2.seq) && decide (b.1 ≤ a.1)))
    (j.held.filter (fun q => decide (first ≤ q.2.seq) && decide (q.2.seq ≤ last)))
  (l.foldl (fun (acc : List Rec) (q : Nat × Rec) =>
    match acc with
    | r :: _ => if r.seq = q.2.seq then acc else q.2 :: acc
    | [] => [q.2]) []).reverse

/-- The entries of a read: records of the types asked for, and runs of missing numbers from `next` to `last`; each with the first
number it stands for. DEDUCED (log 120). -/
def readEntries (stamp : List Octet) (mask last : Nat) : List Rec → Nat → List (Nat × List Octet)
  | [], next => if next ≤ last then [missingEntry stamp next last] else []
  | r :: rs, next =>
    let gap := if next < r.seq then [missingEntry stamp next (r.seq - 1)] else []
    let own := if 1 ≤ r.type && decide (mask / 2 ^ (r.type - 1) % 2 = 1) then [(r.seq, r.stored)] else []
    gap ++ own ++ readEntries stamp mask last rs (r.seq + 1)

/-- Whole entries as long as they fit a number of octets; the first number that does not. DEDUCED (log 120). -/
def takeEntries (room : Nat) : List (Nat × List Octet) → List Octet × Option Nat
  | [] => ([], none)
  | e :: es =>
    if e.2.length ≤ room then let (os, n) := takeEntries (room - e.2.length) es; (e.2 ++ os, n) else ([], some e.1)

/-- A stream cut into frames of at most 1 020 octets (R279). -/
def frames (os : List Octet) : List (Nat × List Octet) :=
  (List.range ((os.length + 1019) / 1020)).map (fun i => (0, (os.drop (1020 * i)).take 1020))

/-- The response of JOURNAL_READ (R907, R936). DEDUCED (log 119). DEDUCED (log 127). -/
def State.journalRead (s : State) (p : List Octet) : State × Reply :=
  let first := fieldNat p 0 4
  let last := fieldNat p 4 4
  let j := s.jou
  if !j.readable then (s, refuse 0x31)
  else if last < first then (s, refuse 0x13)
  else
    let pendingSeqs := ((j.entries ++ j.overflow ++ j.flying.filter (fun r => !r.copy)).map (·.seq)).filter (fun q => decide (first ≤ q))
    let known := pendingSeqs.foldl min j.nextSeq
    let top := min (last + 1) known
    let stamp := leOctets 8 (Config.freeValue s.free)
    let es := if first < top then readEntries stamp (fieldNat p 8 2) (top - 1) (j.inOrder first (top - 1)) first else []
    let (os, cut) := takeEntries 65276 es
    let trailer := match cut with
      | some n => n
      | none => if top ≤ last then max first top else 0
    ((s.draw).2, .stream (frames (os ++ leOctets 4 trailer)))

/-- The response of JOURNAL_STATUS (Table Cmd-12). DEDUCED (log 119). -/
def State.journalStatus (s : State) : Reply :=
  let j := s.jou
  if !j.readable then refuse 0x31
  else
    let total := (j.blocks.foldl (fun n b => n + b.2.pages.length) 0)
    let oldest := match j.held.map (fun q => q.2.seq) with | [] => 0 | x :: xs => xs.foldl min x
    ok (leOctets 1 j.state.code ++ leOctets 1 j.info.targets ++ leOctets 2 j.info.pageOctets ++ leOctets 3 j.journalBlocks ++
      leOctets 3 j.freeBlocks.length ++ leOctets 2 (j.info.blocks - j.goodBlocks) ++ leOctets 4 oldest ++ leOctets 4 j.confirmed ++
      leOctets 4 j.nextSeq ++ leOctets 2 (j.entries.length + (j.flying.filter (fun r => !r.copy)).length) ++
      leOctets 2 j.overflow.length ++ leOctets 4 j.lostTotal ++ leOctets 1 (if total = 0 then 0 else 100 * j.patrolled / total) ++
      leOctets 4 j.info.endurance)

/-- The request of a command that waits. -/
def State.waitingPayload (s : State) (cmd : Nat) : List Octet :=
  match s.waiter cmd with
  | none => []
  | some (t, c) => match ((s.port t).chans.get c).last with | none => [] | some r => r.payload

/-- The commands of one transport that waited for the mount end (R904). -/
def State.mountAnswers (s : State) : State :=
  let s1 := if (s.waiter 0x0701).isSome then s.finish 0x0701 s.journalStatus else s
  let s2 := if (s1.waiter 0x0702).isSome then
      (let (s2, rep) := s1.journalRead (s1.waitingPayload 0x0702); s2.finish 0x0702 rep) else s1
  if (s2.waiter 0x0704).isSome then s2.finish 0x0704 (if s2.jou.readable then ok [] else refuse 0x31) else s2

/-- Commands that wait for the journal end when its state answers them (R904, R908). -/
def State.journalAnswers (s : State) : State :=
  let met := match s.jou.flushing with
    | none => true
    | some n => (s.jou.entries ++ s.jou.flying).all (fun r => r.copy || decide (n < r.seq))
  let s0 :=
    if (s.waiter 0x0705).isNone || s.jou.state = .mounting || s.jou.state = .paused then s
    else if !s.jou.writing then (s.setJou { s.jou with flushing := none }).finish 0x0705 (refuse 0x31)
    else if met then (s.setJou { s.jou with flushing := none }).finish 0x0705 (ok (leOctets 4 s.jou.confirmed))
    else s
  match s0.jou.state with
  | .mounting | .paused => s0
  | .ready | .full | .worn | .absent | .probing | .foreign | .failed =>
    ([0, 1] : List (Fin 2)).foldl (fun (s : State) _ => s.mountAnswers) s0

/-! NAND operations -/

/-- The event of a block retired at run time. -/
def State.blockRetired (s : State) (b cause : Nat) : State := s.raise 0x8003 (leOctets 3 b ++ leOctets 1 cause)

/-- The operation of a target has ended (R880, R881, R896, R916). DEDUCED (log 121). -/
def State.nandEnds (s : State) (t : Fin 2) (fail : Bool) : State :=
  let j := s.jou
  match j.busy.get t with
  | none => s
  | some o =>
    let s1 := s.setJou { j with busy := j.busy.set t none }
    let s2 := match o with
      | .program b p =>
        if fail then (s1.setJou (s1.jou.programFailed b p)).blockRetired b 2 else s1.journalConfirmed b p
      | .erase b =>
        if fail then (s1.setJou (s1.jou.retire b 3)).blockRetired b 3
        else s1.setJou (s1.jou.setBlock b { kind := .free, erases := (s1.jou.block b).erases + 1, pages := [] })
    ((s2.setJou s2.jou.guardWp).judgeJournal.pumpJournal false).holdConfirmed

/-- NRB_N rises and the status is read; `fail`: its bit 0 (R880, R881). -/
def execNandReady (target : Fin 2) (fail : Bool) (s : State) : Host.Outcome State Fault Refusal :=
  .next (if (s.jou.busy.get target).isNone then s
    else
      let s1 := s.setJou { s.jou with timeouts := s.jou.timeouts.set target 0 }
      (s1.nandEnds target fail).journalAnswers)

/-- NRB_N has not risen in time (R880): the operation counts as failed; a target with no program and no erase was reading. -/
def execNandTimeout (target : Fin 2) (s : State) : Host.Outcome State Fault Refusal :=
  .next (match s.jou.state with
    | .absent | .paused | .foreign | .failed => s
    | .probing | .mounting | .ready | .full | .worn =>
      let j := s.jou
      let code := match j.busy.get target with | none => 0 | some o => o.code
      let n := j.timeouts.get target + 1
      let s1 := (s.setJou { j with timeouts := j.timeouts.set target n }).raise 0x8002 [BitVec.ofNat 8 target.val, BitVec.ofNat 8 code]
      if 3 ≤ n then (((s1.setJou { s1.jou with busy := Vector.replicate 2 none }).setJournal .failed).journalAnswers).holdConfirmed
      else (s1.nandEnds target true).journalAnswers)

/-- 60 s since the first record of the page being assembled (R895). -/
def execJournalPageTimer (s : State) : Host.Outcome State Fault Refusal :=
  .next (s.pumpJournal true)

/-- 600 s since the last snapshot (R894). -/
def execSnapshotTimer (s : State) : Host.Outcome State Fault Refusal :=
  .next (if s.eventsLive && decide (1 ≤ s.boot.tier.toNat) then s.snapshot else s)

/-! Patrol -/

/-- Records of a page by whether their place is in a list. -/
def splitPlaces (l : List Rec) (places : List Nat) : List Rec × List Rec :=
  let q := l.zipIdx
  ((q.filter (fun x => !places.contains x.2)).map (·.1), (q.filter (fun x => places.contains x.2)).map (·.1))

/-- A block is relocated: an active one is closed first (R901, R902). -/
def Journal.relocate (j : Journal) (b : Nat) : Journal :=
  let j1 := if j.active = some b then { j.setBlock b { j.block b with kind := .full } with active := none } else j
  j1.moveBlock b (fun _ _ => true)

/-- A page of a block replaced. -/
def NandBlock.setPage (x : NandBlock) (n : Nat) (p : JPage) : NandBlock :=
  { x with pages := x.pages.zipIdx.map (fun q => if q.2 = n then p else q.1) }

/-- Lost mirrors of the ledger are queued again where the ring holds them (R51, R917). -/
def Ledger.unmirror (l : Ledger) (r : Rec) : Ledger :=
  match r.link with
  | .period e i =>
    { l with periods := l.periods.map (fun p => if p.epoch = e && p.index = i then { p with mirrored := false } else p) }
  | .none | .ride _ _ _ => l

/-- A patrol read of a page (R884, R901, R902, R907, R917): the wrong bits of each sector, the places of records that fail their CRC,
and the place from which an unknown type ends its reading (R892). -/
def execPatrolRead (block page : Nat) (sectors lost : List Nat) (unknown : Option Nat) (s : State) : Host.Outcome State Fault Refusal :=
  .next (
    let j := s.jou
    let x := j.block block
    match x.pages[page]?, j.writing && (x.kind = .full || x.kind = .active) with
    | some p, true =>
      let seen := match unknown with | none => p.recs | some n => p.recs.take n
      let (kept, gone) := splitPlaces seen (lost ++ lostPlaces sectors seen 16 0)
      let total := j.blocks.foldl (fun n b => n + b.2.pages.length) 0
      let j1 := j.setBlock block (x.setPage page { p with recs := kept })
      let j2 := gone.foldl Journal.lose { j1 with patrolled := (j.patrolled + 1) % total }
      let s1 := { s with jou := j2, led := gone.foldl Ledger.unmirror s.led }
      let s2 := if gone.isEmpty then s1 else s1.raise 0x8004 (leOctets 4 p.seq ++ leOctets 2 gone.length)
      let s3 := if unknown.isSome then s2.raise 0x8006 (leOctets 4 p.seq) else s2
      let first := x.pages.findSome? (fun q => q.recs.head?)
      let old := match first with
        | none => false
        | some r => decide (r.seq < j.epochSeq) || decide (r.seconds + 94608000 < s.clock.seconds)
      let s4 := if 8 ≤ worstCount sectors || old then s3.setJou (s3.jou.relocate block) else s3
      s4.requeueLedger.pumpJournal false
    | _, _ => s)

/-! Mounting -/

/-- A page that was cut short, as the mount finds it (R918, Table Journal-9). DESIGN CHOICE (log 118). -/
def Journal.settleCut (j : Journal) (b : Nat) (p : JPage) (c : CutPage) : Journal :=
  let add (q : JPage) : Journal :=
    let x := j.block b
    j.setBlock b { x with pages := x.pages ++ [q] }
  match c with
  | .erased => j
  | .torn => add { p with recs := [] }
  | .whole =>
    let dup (r : Rec) : Bool := p.recs.any (fun y => y.seq = r.seq)
    let k := add p
    { k with entries := k.entries.filter (fun r => !dup r), overflow := k.overflow.filter (fun r => !dup r) }

/-- The table of blocks after a mount: every page cut short is settled, and page and record numbers go on from what is held. -/
def Journal.mounted (j : Journal) (f : MountFound) (rebuilt : Bool) : Journal :=
  let j1 := (j.cutPages.zip (f.cut ++ List.replicate j.cutPages.length CutPage.torn)).foldl
    (fun (j : Journal) (q : (Nat × JPage) × CutPage) => j.settleCut q.1.1 q.1.2 q.2) { j with info := f.info, cutPages := [] }
  let j2 := if rebuilt then
      { j1 with blocks := j1.blocks.map (fun (p : Nat × NandBlock) =>
          match p.2.kind with
          | .retired c => if c = 1 then p else (p.1, { p.2 with kind := if p.2.pages.isEmpty then .erasing else .full })
          | .free | .active | .full | .bbt | .erasing => p) }
    else j1
  { j2 with nextPage := j2.blocks.foldl (fun n b => b.2.pages.foldl (fun m p => max m (p.seq + 1)) n) j2.nextPage,
            nextSeq := (j2.held.map (fun q => q.2.seq + 1)).foldl max j2.nextSeq }

/-- A NAND is adopted (R886, R887, R893): the factory marks are read, the two copies of the table written, and numbering starts
again at 1. DESIGN CHOICE (log 117). -/
def Journal.adopted (j : Journal) (info : NandInfo) (factory : List Nat) : Journal :=
  let good := (List.range (min 16 info.blocks)).filter (fun b => !factory.contains b)
  let blocks := sortBy (fun (a b : Nat × NandBlock) => decide (a.1 ≤ b.1))
    (((factory.eraseDups.filter (fun b => decide (b < info.blocks))).map (fun b => (b, { NandBlock.fresh with kind := .retired 1 }))) ++
      ((good.take 2).map (fun b => (b, { NandBlock.fresh with kind := .bbt }))))
  let es := (j.entries.zipIdx).map (fun q => { q.1 with seq := q.2 + 1 })
  { j with info := info, identity := some Config.identity.toNat, bbtVersion := 1, blocks := blocks, active := none, nextPage := 2,
           nextSeq := es.length + 1, entries := es, overflow := [], copies := [], moves := [], cutPages := [], confirmed := 0,
           lost := 0, lostFirst := 0, lostMask := 0, lostTotal := 0, patrolled := 0, epochSeq := 0 }

/-- The journal enters Ready, its tail is written, and what waited for it is answered (Table Journal-8). DESIGN CHOICE (log 117). -/
def State.journalReady (s : State) : State :=
  ((s.setJournal .ready).judgeJournal.requeueLedger.pumpJournal true).journalAnswers

/-- Mount completes (R889, R904, Table Journal-8). A table of this device's identity names the blocks that this device wrote. -/
def execJournalMountComplete (f : MountFound) (s : State) : Host.Outcome State Fault Refusal :=
  .next (if s.jou.state ≠ .mounting then s
    else
      let s1 := if f.secondUnusable then s.raise 0x8001 [] else s
      match f.kind with
      | .own rebuilt =>
        if s1.jou.identity.isNone then s1
        else
          let s2 := s1.setJou (s1.jou.mounted f rebuilt)
          (if rebuilt then (s2.setJou s2.jou.newTable).raise 0x8005 [] else s2).journalReady
      | .blank factory => (s1.setJou (s1.jou.adopted f.info factory)).journalReady
      | .foreign => (s1.setJournal .foreign).journalAnswers.holdConfirmed)

/-! The journal group -/

/-- JOURNAL_STATUS (Table Cmd-12); while Mounting, the answer waits (R904). -/
def execJournalStatus (q : CmdReq) (s : State) : Host.Outcome State Fault Refusal :=
  .next (s.command 0x0701 q (fun s => (s, if s.jou.state = .mounting then .wait else s.journalStatus)))

/-- JOURNAL_READ (R904, R907, R908, R936). -/
def execJournalRead (q : CmdReq) (s : State) : Host.Outcome State Fault Refusal :=
  .next (s.command 0x0702 q (fun s => if s.jou.state = .mounting then (s, .wait) else s.journalRead q.payload))

/-- NOTE (R894, Table Cmd-12). -/
def execNote (q : CmdReq) (s : State) : Host.Outcome State Fault Refusal :=
  .next (s.command 0x0703 q (fun s =>
    if !s.jou.writing then (s, refuse 0x31)
    else
      let s1 := s.journal s.clock 5 .none q.payload
      (s1, ok (leOctets 4 (s1.jou.nextSeq - 1)))))

/-- ADOPT (R903, Table Journal-8): it ends with the mount that follows. -/
def execAdopt (q : CmdReq) (s : State) : Host.Outcome State Fault Refusal :=
  .next (s.command 0x0704 q (fun s =>
    if octetAt q.payload 0 ≠ 0x4A then (s, refuse 0x13)
    else if s.jou.state ≠ .foreign then (s, refuse 0x34)
    else ((s.setJou { s.jou with identity := none, blocks := [], cutPages := [] }).setJournal .mounting, .wait)))

/-- FLUSH (R895, Table Cmd-12): it ends when the status of its page has been read. -/
def execFlush (q : CmdReq) (s : State) : Host.Outcome State Fault Refusal :=
  .next (s.command 0x0705 q (fun s =>
    if s.jou.flushing.isSome then (s, .later)
    else if !s.jou.writing then (s, refuse 0x31)
    else
      match s.jou.entries.getLast? with
      | none => (s, ok (leOctets 4 s.jou.confirmed))
      | some r => ((s.setJou { s.jou with flushing := some r.seq }).pumpJournal true, .wait)))

end Sys2Proof.Machine
end

