-- ==== Sys2Proof/Machine/SystemCmd.lean ====
section
/-! DEFINITION. The system, motor, Celandine, cores and diagnostics groups (Tables Cmd-3, Cmd-4, Cmd-10, Cmd-14 to Cmd-16). -/
namespace Sys2Proof.Machine

/-- A Boolean as an octet. -/
def bitOctet (b : Bool) : List Octet := leOctets 1 b.toNat
/-- A word in 1 or 2 octets. -/
def wordOctets (n : Nat) (w : Word) : List Octet := leOctets n w.toNat

/-! What the status responses report -/

/-- Version of the Zheyr image that runs. DEDUCED (log 93). -/
def State.runningVersion (s : State) : Nat := (s.img.zheyr.get (if s.boot.runningB then 1 else 0)).version

/-- The anti-rollback floor as reported: the running image's version while the record is unreadable (R245). DEDUCED (log 93). -/
def State.floor (s : State) : Nat := if s.boot.lifecycleReadable then s.boot.floor else s.runningVersion

/-- Octets of a version: major, minor, patch. -/
def versionOctets (v : Nat) : List Octet := [BitVec.ofNat 8 (v / 65536), BitVec.ofNat 8 (v / 256), BitVec.ofNat 8 v]

/-- Fleet identity of the device certificate, 0 without one (Table Concord-5). -/
def State.fleetIdentity (s : State) : Nat := match s.cus.keys.cert with | none => 0 | some c => fieldNat c 9 4

/-- Members admitted, as this device knows them (Table Cmd-4). -/
def State.admitted (s : State) : Nat := if s.boot.role = .vehicle then s.con.members.length else s.con.roster.length

def State.statusPayload (s : State) (t : Transport) : List Octet :=
  let p := s.cus.presence
  let number := match s.led.cur.ride with | none => 0 | some r => r.number
  leOctets 1 s.boot.tier.toNat ++
    leOctets 1 (boolsNat [s.boot.bootFallback, s.pow.aoLow, s.led.cur.ride.isSome, s.cus.probation.isSome, s.cel.lfxFailed, !s.lfoGood,
      s.boot.debugUnlocked, s.tsl.latch]) ++
    leOctets 1 s.boot.role.code ++ leOctets 1 s.lifecycle.code ++ leOctets 1 s.jou.state.code ++
    leOctets 1 (p.windowOpen.toNat + 2 * p.sources.bits) ++ leOctets 2 p.windowLeft ++ leOctets 1 s.clock.cls ++ leOctets 5 s.clock.wall ++
    leOctets 1 s.clock.era ++ leOctets 5 s.clock.seconds ++ leOctets 1 s.requestMask.toNat ++ leOctets 1 s.hold.ready ++
    leOctets 3 (s.port t).lostTotal ++ leOctets 3 number ++ leOctets 1 s.admitted ++ leOctets 2 s.con.epoch ++
    leOctets 1 s.clk.target.toNat ++ wordOctets 2 s.clk.temp ++ leOctets 1 s.failedUnits.length ++ [0]

/-! The system group -/

/-- IDENTITY (R2, Table Cmd-3). -/
def execIdentity (q : CmdReq) (s : State) : Host.Outcome State Fault Refusal :=
  .next (s.command 0x0101 q (fun s => (s, ok (identityOctets ++ [0xB1] ++ versionOctets s.runningVersion ++ [4, 3, 2] ++
    leOctets 1 s.boot.role.code ++ leOctets 1 s.lifecycle.code ++ leOctets 4 s.fleetIdentity ++ leOctets 2 s.floor))))

/-- STATUS (R59, Table Cmd-4). -/
def execStatus (q : CmdReq) (s : State) : Host.Outcome State Fault Refusal :=
  .next (s.command 0x0102 q (fun s => (s, ok (s.statusPayload q.transport))))

/-- OPPOINT (R88, R89). -/
def execOppoint (q : CmdReq) (s : State) : Host.Outcome State Fault Refusal :=
  .next (s.command 0x0103 q (fun s =>
    let v := octetAt q.payload 0
    if 100 < v.toNat then (s, refuse 0x13)
    else
      let s1 := (s.setClk { s.clk with stewardReq := v.setWidth 7 }).retarget
      (s1, ok (leOctets 1 s1.clk.target.toNat))))

/-- RATE (R259): answered at the old rate. -/
def execRate (q : CmdReq) (s : State) : Host.Outcome State Fault Refusal :=
  .next (s.command 0x0104 q (fun s =>
    let v := (octetAt q.payload 0).toNat
    if 5 < v || q.transport = .usb || !s.boot.hsel then (s, refuse 0x13)
    else ({ s with host := { s.host with ratePending := some v } }, ok [])))

/-- EVMASK (R293, R945). -/
def execEvmask (q : CmdReq) (s : State) : Host.Outcome State Fault Refusal :=
  .next (s.command 0x0105 q (fun s =>
    let m := BitVec.ofNat 16 (fieldNat q.payload 0 2)
    if m &&& 0xE203 ≠ 0 then (s, refuse 0x13)
    else (s.setPort q.transport (fun p => { p with mask := m }), ok (leOctets 2 m.toNat))))

/-- Flash and NAND programs in progress complete; `nandFail`: the status of each target's operation (R928). -/
def State.finishWrites (s : State) (nandFail : Vector Bool 2) : State :=
  let s1 := ([0, 1] : List (Fin 2)).foldl (fun (s : State) (b : Fin 2) => s.programDone b) s
  ([0, 1] : List (Fin 2)).foldl (fun (s : State) (t : Fin 2) =>
    match s.jou.busy.get t with
    | some (.program _ _) => s.nandEnds t (nandFail.get t)
    | some (.erase _) => s
    | none => s) s1

/-- RESET (R195, R928): the warm reset follows the response within this step. DEDUCED (log 77). -/
def execReset (q : CmdReq) (nandFail : Vector Bool 2) (e : StartEnv) (s : State) : Host.Outcome State Fault Refusal :=
  .next (s.command 0x0106 q (fun s =>
    if octetAt q.payload 0 ≠ 0xA5 then (s, refuse 0x13)
    else if s.led.cur.ride.isSome then (s, refuse 0x17)
    else ((s.finishWrites nandFail).warmReset e, ok [])))

/-- The orderly power-down (R150, R895): the page being assembled and the ledger tail are written, and VCORE goes. DEDUCED (log 62). -/
def State.powerDown (s : State) (nandFail : Vector Bool 2) : State :=
  let s1 := (((s.finishWrites nandFail).pumpJournal true).finishWrites nandFail).writeTail
  let s2 := s1.toAo noCut
  s2.setPow { s2.pow with orderly := true }

/-- RELEASE (R150, R928): the power-down follows the response within this step. DEDUCED (log 77). -/
def execRelease (q : CmdReq) (nandFail : Vector Bool 2) (s : State) : Host.Outcome State Fault Refusal :=
  .next (s.command 0x0107 q (fun s =>
    if s.led.cur.ride.isSome then (s, refuse 0x17) else (s.powerDown nandFail, ok [])))

/-! The motor group -/

/-- MOTOR_STATUS (R934, Table Cmd-10). -/
def execMotorStatus (q : CmdReq) (s : State) : Host.Outcome State Fault Refusal :=
  .next (s.command 0x0501 q (fun s =>
    (s, ok (wordOctets 2 ((s.tslRead 0x000).getD 0) ++ wordOctets 2 ((s.tslRead 0x001).getD 0) ++ wordOctets 2 ((s.tslRead 0x004).getD 0) ++
      wordOctets 1 s.pwm.sup ++ wordOctets 2 s.pwm.limi ++ leOctets 3 s.pwm.limw.toNat ++ wordOctets 2 s.mot.tcap.hstat ++
      leOctets 3 s.mot.tcap.wcnt.toNat ++ leOctets 1 (s.con.merged.get 7).toNat))))

/-- TEASEL_CLEAR (R516): its result goes to the requester, and TSL_CLRST keeps the program's (R934). -/
def execTeaselClear (q : CmdReq) (s : State) : Host.Outcome State Fault Refusal :=
  .next (s.command 0x0502 q (fun s =>
    let r := s.clearResult
    if r ≠ 1 then (s, .final 0x33 (leOctets 1 r))
    else
      let s1 := s.clearLatch 4
      (s1.setTsl { s1.tsl with res := s.tsl.res }, ok [1])))

/-- TEASEL_TRIP (R520). -/
def execTeaselTrip (q : CmdReq) (s : State) : Host.Outcome State Fault Refusal :=
  .next (s.command 0x0503 q (fun s => (s.setLatch 0x020, ok [])))

/-! The Celandine group -/

/-- A seal loop in the status: bin, state, EXP with EN in bit 4. -/
def SealLoop.octets (l : SealLoop) : List Octet :=
  leOctets 1 l.bin.toNat ++ leOctets 1 l.state.code ++ leOctets 1 (l.exp.toNat + 16 * l.en.toNat)

/-- CEL_STATUS (R937): the Steward's copies of its RC fields, with what it has not read yet. -/
def execCelStatus (q : CmdReq) (s : State) : Host.Outcome State Fault Refusal :=
  .next (s.command 0x0801 q (fun s =>
    let c := s.cel
    let old := decide (c.sopen = 0)
    let flags := if old then c.sopenCopy else c.sopen
    (s, ok (wordOctets 1 c.clk ++ (c.seals.get 0).octets ++ (c.seals.get 1).octets ++
      leOctets 1 (flags.toNat + 16 * s.cus.presence.servicePeriod.toNat) ++
      leOctets 1 (if old then c.openEraCopy else c.openEra) ++ leOctets 5 (if old then c.openSecondsCopy else c.openSeconds) ++
      leOctets 2 (satAdd 65535 c.shocksCopy c.shocks) ++ wordOctets 2 s.celPres ++ leOctets 2 s.cus.presence.windowLeft ++
      leOctets 1 (boolsNat [c.wet, c.stuck]) ++ leOctets 2 c.wakeCopy.toNat))))

/-- DISPLAY_READ (R560). -/
def execDisplayRead (q : CmdReq) (s : State) : Host.Outcome State Fault Refusal :=
  .next (s.command 0x0802 q (fun s => (s, ok (bitOctet (s.showsWorking 7) ++ packWords s.cel.shown.toList))))

/-- SHOCK_HOLD (R569). -/
def execShockHold (q : CmdReq) (s : State) : Host.Outcome State Fault Refusal :=
  .next (s.command 0x0803 q (fun s =>
    let n := fieldNat q.payload 0 2
    if 600 < n then (s, refuse 0x13) else (s.setCel { s.cel with shkHold := n }, ok [])))

/-- KEY_WAKE (R555). -/
def execKeyWake (q : CmdReq) (s : State) : Host.Outcome State Fault Refusal :=
  .next (s.command 0x0804 q (fun s => (s.setCel { s.cel with kwake := BitVec.ofNat 16 (fieldNat q.payload 0 2) }, ok [])))

/-! The cores group -/

/-- State of a core in CORE_STATUS. -/
def State.coreCode (s : State) (i : Fin 4) : Nat :=
  match (s.core.get i).run with
  | .running | .waiting | .halted => 1
  | .inReset => 3
  | .stopped => if unitFailed (s.boot.units.get (UnitId.core i)) then 2 else 0

/-- The image selector as an octet. -/
def selectorOctet (o : Option (Fin 2)) : List Octet := leOctets 1 (match o with | none => 0xFF | some k => k.val)

/-- CORE_STATUS (R617, Table Cmd-15). -/
def execCoreStatus (q : CmdReq) (s : State) : Host.Outcome State Fault Refusal :=
  .next (s.command 0x0901 q (fun s =>
    let one (i : Fin 4) : List Octet :=
      let c := s.core.get i
      leOctets 1 (s.coreCode i) ++ leOctets 1 (s.boot.wdt.get i).cause.toNat ++
        leOctets 1 ((s.boot.wdtExpiries.get i).filter (fun t => decide (s.ticks < t + 1966080))).length ++
        leOctets 1 c.doubleVector ++ leOctets 3 c.doubleEpc.toNat ++ leOctets 3 c.doubleEaddr.toNat
    (s, ok (selectorOctet s.cus.imageActive ++ one 0 ++ one 1 ++ one 2 ++ one 3))))

/-- CORE_RESET (R199, R627, Table Cmd-15). -/
def execCoreReset (q : CmdReq) (s : State) : Host.Outcome State Fault Refusal :=
  .next (s.command 0x0902 q (fun s =>
    let n := (octetAt q.payload 0).toNat
    if h : n < 4 then
      if s.coreCode ⟨n, h⟩ = 1 then (s.coreReset ⟨n, h⟩ 2, ok []) else (s, refuse 0x34)
    else (s, refuse 0x13)))

/-! The diagnostics group -/

/-- Two bits of a unit in SELFTEST_READ; the spec states none for a unit whose test has not ended (`open_`). -/
def unitBits (open_ : Nat) : UnitResult → Nat
  | .passed => 0
  | .failedAtStart => 1
  | .failedAtRun => 2
  | .notPresent => 3
  | .untested => open_ % 4

/-- SELFTEST_READ (R213). -/
def execSelftestRead (q : CmdReq) (s : State) : Host.Outcome State Fault Refusal :=
  .next (s.command 0x0A01 q (fun s =>
    let n := s.free
    let bits := allUnits.foldl (fun m u => m + unitBits (Config.freeValue n / 4 ^ u.val) (s.boot.units.get u) * 4 ^ u.val) 0
    ((s.draw).2, ok (leOctets 11 bits ++ leOctets 5 s.boot.selfTestSeconds))))

/-- A clock domain that its port declared stopped runs again when every unit behind it passes; one of the PLL's only while the
PLL is locked (R102). -/
def State.restoreDomains (s : State) (passed : List UnitId) : State :=
  (pllDomains ++ [ClockDomain.fclk]).foldl (fun (s : State) (d : ClockDomain) =>
    let us := s.domainUnits d
    if !us.isEmpty && us.all (fun u => !unitFailed (s.boot.units.get u) || passed.contains u) &&
        s.clk.domains.get d.row = DomainClock.failed && (!d.isPll || s.clk.pllLocked) then
      let s1 := s.setClk { s.clk with domains := s.clk.domains.set d.row .running }
      if d = .mclk then { s1 with mot := { s1.mot with mclk := true } } else s1
    else s) s

/-- The self-test command (R222, R130, Table Start-8): the failed units are tested again, `failing` still fail. DEDUCED (log 75). -/
def State.retest (s : State) (failing : List UnitId) (e : StoreEnv) : State × Reply :=
  let old := s.boot.tier
  if old = .t3 then (s, ok [3, 3])
  else
    let todo := s.failedUnits
    let passed := todo.filter (fun u => !failing.contains u)
    let s1 := if todo.isEmpty then s else (s.stopAll).setLatch 0x200
    let r1 := s1.restoreDomains passed
    let passed := passed.filter (fun u => !r1.clockless.contains u && !(u = UnitId.powerManager && r1.cel.lfo ≠ .good))
    let s2 := passed.foldl (fun (s : State) (u : UnitId) => s.setUnit u .passed) r1
    let flash := [UnitId.flash0, UnitId.flash1].all (fun u => !unitFailed (s2.boot.units.get u))
    let s3 := s2.setBoot { s2.boot with fclkLost := s2.boot.fclkLost && !flash, selfTestSeconds := s.clock.seconds }
    let best := tierFor s3.boot.role s3.boot.units
    let t := if s3.boot.fclkLost then best.min .t1 else best
    let up := decide (old.toNat < t.toNat)
    let new := if up then t else old
    let s4 := if up then
        (s3.setBoot { s3.boot with tier := new }).raise 0x1001
          ([BitVec.ofNat 8 old.toNat, BitVec.ofNat 8 new.toNat] ++ unitOctets [] ++ unitOctets passed)
      else s3
    let s5 := s4.raise 0xC000 ([BitVec.ofNat 8 new.toNat] ++ unitOctets s4.failedUnits)
    let s6 := if up then ((s5.snapshot).startPrograms e.imageBad).writeLimits.setForce else s5
    (s6, ok [BitVec.ofNat 8 old.toNat, BitVec.ofNat 8 new.toNat])

/-- SELFTEST_RUN (R222). -/
def execSelftestRun (q : CmdReq) (failing : List UnitId) (e : StoreEnv) (s : State) : Host.Outcome State Fault Refusal :=
  .next (s.command 0x0A02 q (fun s =>
    if s.led.cur.ride.isSome then (s, refuse 0x17) else s.retest failing e))

/-- BEACON_RECORD (R215). -/
def execBeaconRecord (q : CmdReq) (s : State) : Host.Outcome State Fault Refusal :=
  .next (s.command 0x0A03 q (fun s =>
    let l := s.boot.beacons
    (s, ok (leOctets 1 (min 255 l.length) ++
      (match l with
       | [] => List.replicate 12 0
       | b :: _ => leOctets 1 b.era ++ leOctets 5 b.seconds ++ unitOctets b.failed) ++ List.replicate 5 0))))

end Sys2Proof.Machine
end

