-- ==== Sys2Proof/Machine/CustodyCmd.lean ====
section
/-! DEFINITION. The custody group (spec/06_custody.md; Tables Cmd-5 and Cmd-6). -/
namespace Sys2Proof.Machine

/-! Editions -/

/-- A mask names a domain that the role does not hold. -/
def State.maskBeyond (s : State) (m : BitVec 5) : Bool := (maskDomains m).any (fun d => !domHeld d s.boot.role)

/-- The domain that a selector octet names, where the role holds it. -/
def State.heldDomain (s : State) (code : Nat) : Option EdDomain :=
  match domOfCode code with
  | none => none
  | some d => if domHeld d s.boot.role then some d else none

/-- STAGE_EDITION (R321, R925, R926). -/
def execStageEdition (q : CmdReq) (w : StoreWrite) (s : State) : Host.Outcome State Fault Refusal :=
  .next (State.cutShort (s.command 0x0201 q (fun s =>
    match s.heldDomain (octetAt q.payload 0).toNat, partAt q.payload 0 with
    | none, _ => (s, refuse 0x1A)
    | some _, none => (s, refuse 0x13)
    | some d, some p =>
      match s.assemble 0x0201 p.selector p with
      | (s1, .broken) => (s1, refuse 0x13)
      | (s1, .more) => (s1, ok [])
      | (s1, .whole ws) =>
        let (s2, st) := s1.stage d ws w
        (s2, if st = 0 then ok (leOctets 2 (wNum ws 3 2)) else refuse st))))

/-- DISCARD_STAGED (Table Cmd-5). -/
def execDiscardStaged (q : CmdReq) (w : StoreWrite) (s : State) : Host.Outcome State Fault Refusal :=
  .next (State.cutShort (s.command 0x0202 q (fun s =>
    match s.heldDomain (octetAt q.payload 0).toNat with
    | none => (s, refuse 0x1A)
    | some d =>
      if (s.slot d).staged.isNone then (s, refuse 0x16)
      else
        let (s1, done) := s.writeMap w (·.setSlot d (fun x => { x with staged := none }))
        (s1, if done then ok [] else refuse 0x35))))

/-- SLOTS (R325, Table Cmd-5). -/
def State.slotsPayload (s : State) : List Octet :=
  let one (d : EdDomain) : List Octet :=
    let x := s.slot d
    leOctets 2 (slotNumber x.staged) ++ leOctets 2 (currentNumber x) ++ leOctets 2 (slotNumber x.previous) ++ leOctets 2 x.highest
  let policy := domainMask (fun d => match (s.slot d).staged with | none => false | some r => r.onDock)
  let prob := match s.cus.probation with
    | none => List.replicate 7 0
    | some p => leOctets 1 (p.mask.toNat + 32 * p.program.toNat + 64 * p.failed.toNat) ++ leOctets 1 p.era ++ leOctets 5 p.seconds
  (allDomains.map one).foldl (· ++ ·) [] ++ leOctets 1 policy.toNat ++ leOctets 1 s.requestMask.toNat ++ prob ++
    selectorOctet s.cus.imageActive

def execSlots (q : CmdReq) (s : State) : Host.Outcome State Fault Refusal :=
  .next (s.command 0x0203 q (fun s => (s, ok s.slotsPayload)))

/-- COMMIT (R131, R330, R331, R855, R929). -/
def execCommit (q : CmdReq) (e : StoreEnv) (s : State) : Host.Outcome State Fault Refusal :=
  .next (State.cutShort (s.command 0x0204 q (fun s =>
    let m := BitVec.ofNat 5 (octetAt q.payload 0).toNat
    let f := octetAt q.payload 1
    let program := f.getLsbD 0
    let zheyr := f.getLsbD 1
    if !s.c1 || !s.lfoGood then (s, refuse 0x10)
    else if (m = 0 && f = 0) || s.maskBeyond m then (s, refuse 0x13)
    else if (maskDomains m).any (fun d => (s.slot d).staged.isNone) || (program && !s.programStaged) || (zheyr && !s.zheyrStaged) then
      (s, refuse 0x16)
    else
      match s.commitBlocked with
      | some st => (s, refuse st)
      | none =>
        if zheyr && s.swapExhausted then (s, refuse 0x1B)
        else
          let (s1, done) := s.commit m program zheyr e
          (s1, if done then ok (q.payload.take 2) else refuse 0x35))))

/-- ROLLBACK (R336, R337). -/
def execRollback (q : CmdReq) (e : StoreEnv) (s : State) : Host.Outcome State Fault Refusal :=
  .next (State.cutShort (s.command 0x0205 q (fun s =>
    let m := BitVec.ofNat 5 (octetAt q.payload 0).toNat
    let f := octetAt q.payload 1
    if !s.c1 then (s, refuse 0x10)
    else if (m = 0 && f = 0) || s.maskBeyond m then (s, refuse 0x13)
    else if s.led.cur.ride.isSome then (s, refuse 0x17)
    else
      let (s1, done) := s.rollBack m (f.getLsbD 0) 0 e
      (s1, if done then ok (q.payload.take 2) else refuse 0x35))))

/-- ACCEPT (R334, R337). -/
def execAccept (q : CmdReq) (w : StoreWrite) (s : State) : Host.Outcome State Fault Refusal :=
  .next (State.cutShort (s.command 0x0206 q (fun s =>
    if !s.c1 then (s, refuse 0x10)
    else
      match s.cus.probation with
      | none => (s, refuse 0x1C)
      | some p =>
        if p.failed then (s, refuse 0x34)
        else
          let (s1, done) := s.passProbation w
          (s1, if done then ok [] else refuse 0x35))))

/-- What is effective in a domain becomes its Current, and the request for custody ends (R343). DEDUCED (log 55). DEDUCED (log 96). -/
def DomainSlots.confirmed (x : DomainSlots) : DomainSlots :=
  { x with current := x.effective, previous := if x.currentBad then none else x.previous, currentBad := false, requested := false }

/-- CONFIRM_PREVIOUS (R343). -/
def execConfirmPrevious (q : CmdReq) (w : StoreWrite) (s : State) : Host.Outcome State Fault Refusal :=
  .next (State.cutShort (s.command 0x0207 q (fun s =>
    let m := BitVec.ofNat 5 (octetAt q.payload 0).toNat
    if !s.c1 then (s, refuse 0x10)
    else if m &&& ~~~s.requestMask ≠ 0 then (s, refuse 0x34)
    else
      let (s1, done) := s.writeMap w (fun c => (maskDomains m).foldl (fun (c : Custody) (d : EdDomain) => c.setSlot d DomainSlots.confirmed) c)
      if done then (s1.applyDomains (maskDomains m), ok []) else (s1, refuse 0x35))))

/-- WINDOW_CLOSE (R313). -/
def execWindowClose (q : CmdReq) (s : State) : Host.Outcome State Fault Refusal :=
  .next (s.command 0x0208 q (fun s => (s.closeWindow 1, ok [])))

/-! Keys -/

/-- n octets at an offset. -/
def octetsAt (p : List Octet) (i n : Nat) : List Octet := (p.drop i).take n

/-- A certificate verifies under a fleet root key, for this device and its effective fleet edition (R425, R426, Table Cmd-6). -/
def State.ownCertOk (s : State) (root cert : List Octet) : Bool :=
  s.certVerifies root cert && decide (certKey cert = identityKey)

/-- Operation 0 of KEYS (R348): every operator key at once, and a new sealing key from the TRNG. -/
def State.provision (s : State) (p : List Octet) : State × Reply :=
  let config := octetsAt p 1 64
  let image := octetsAt p 65 64
  let root := octetsAt p 129 64
  let cert := octetsAt p 193 153
  if s.lifecycle ≠ .blank && s.lifecycle ≠ .returned then (s, refuse 0x11)
  else if !(ecPoint config && ecPoint image && ecPoint root) then (s, refuse 0x13)
  else if !s.ownCertOk root cert then (s, refuse 0x12)
  else
    let (k, s1) := s.draw
    (s1.setCus { s1.cus with keys := { s1.cus.keys with config := some config, image := some image, fleetRoot := some root,
                                                        cert := some cert, sealing := some k } }, ok [])

/-- Operations 1 and 2 of KEYS (R348): one key replaced, signed by the old one. -/
def State.replaceKey (s : State) (old : Option (List Octet)) (p : List Octet) (put : Keys → List Octet → Keys) : State × Reply :=
  let key := octetsAt p 1 64
  if s.lifecycle ≠ .provisioned && s.lifecycle ≠ .fielded then (s, refuse 0x11)
  else if !ecPoint key then (s, refuse 0x13)
  else
    match old with
    | none => (s, refuse 0x12)
    | some k =>
      if ecdsaVerify k (sha256 (p.take 65)) (octetsAt p 65 64) then
        (s.setCus { s.cus with keys := put s.cus.keys key }, ok [])
      else (s, refuse 0x12)

/-- KEYS with the operation of a row, or with one that does not exist (Table Cmd-6); a request for another operation belongs to
another row. DESIGN CHOICE (log 94). -/
def State.keysCommand (s : State) (q : CmdReq) (op : Nat) (run : State → State × Reply) : State :=
  let n := (octetAt q.payload 0).toNat
  if n ≠ op && n ≤ 2 then s
  else
    s.command 0x0209 q (fun s =>
      if !s.c2 then (s, refuse 0x10) else if 2 < n then (s, refuse 0x13) else run s)

def execKeysProvision (q : CmdReq) (s : State) : Host.Outcome State Fault Refusal :=
  .next (s.keysCommand q 0 (fun s => s.provision q.payload))

def execKeysReplaceConfig (q : CmdReq) (s : State) : Host.Outcome State Fault Refusal :=
  .next (s.keysCommand q 1 (fun s => s.replaceKey s.cus.keys.config q.payload (fun k x => { k with config := some x })))

def execKeysReplaceImage (q : CmdReq) (s : State) : Host.Outcome State Fault Refusal :=
  .next (s.keysCommand q 2 (fun s => s.replaceKey s.cus.keys.image q.payload (fun k x => { k with image := some x })))

/-! Lifecycle -/

/-- Every key of Table Custody-8 is present (R349). -/
def Keys.complete (k : Keys) : Bool := k.config.isSome && k.image.isSome && k.fleetRoot.isSome && k.cert.isSome && k.sealing.isSome

/-- The operator's keys are gone, the count of exports stays (Table Custody-8). -/
def Keys.zeroised (k : Keys) : Keys := { Keys.reset with exports := k.exports }

/-- The lifecycle record is written, with its event. DEDUCED (log 95). -/
def State.setLifecycle (s : State) (l : Lifecycle) : State :=
  let old := s.lifecycle
  let s1 := s.setBoot { s.boot with lifecycle := l, lifecycleReadable := true }
  if old = l then s1 else s1.raise 0x100A [BitVec.ofNat 8 old.code, BitVec.ofNat 8 l.code]

/-- Concord sessions end (Table Start-11). -/
def State.endSessions (s : State) : State :=
  if s.boot.role = .vehicle then s.endMembers 0 true (fun _ => true)
  else if s.con.phase = .member then ((if s.canLive then s.sendSecured 0x06 0 [] else s).memberEnded 0).dropSession .idle
  else s

/-- A domain emptied: Staged and Previous, and Current at the built-in default (R349). -/
def DomainSlots.emptied (x : DomainSlots) : DomainSlots := { DomainSlots.reset with highest := x.highest }

/-- Fielded to Returned (R234, R349, R384, Table Ledger-7): the ride is closed and the period sealed before the keys go. The anti-rollback
floor stays as it is, also where the record was unreadable. DEDUCED (log 95). DESIGN CHOICE (log 137). -/
def State.toReturned (s : State) (w : RingWrite) (e : StoreEnv) : State × Reply :=
  let s1 := s.closureCheck
  let riding := s1.led.cur.ride.isSome
  let s2 := if riding then s1.rideEnded 2 w e else s1
  let (s2, sealed) := if s2.isCut || s2.led.cur.ride.isSome then (s2, false) else s2.sealFinal (if riding then .done else w)
  if !sealed then (s2, refuse 0x23)
  else
  let s3 := s2.endSessions
  let s4 := (s3.writeMap .done (fun (c : Custody) =>
    { c with slots := Vector.ofFn (fun i : Fin 5 => (c.slots.get i).emptied), probation := none, keys := c.keys.zeroised })).1
  let s5 : State := { s4 with img := { s4.img with slots := s4.img.slots.map (fun o => o.map (fun x => { x with key := none })) } }
  (((s5.setLifecycle .returned).applyDomains allDomains).writeTail, ok [])

/-- To Provisioned, from Blank or from Returned (R233, R234, R349); epoch number 4095 refuses it, as R397 has it for the epoch command.
DESIGN CHOICE (log 137). -/
def State.toProvisioned (s : State) : State × Reply :=
  if !s.cus.keys.complete || 4095 ≤ s.led.epoch then (s, refuse 0x11)
  else
    let s1 := if s.lifecycle = .returned then
        (s.writeMap .done (fun (c : Custody) => { c with slots := c.slots.map (fun x => { x with highest := 0 }) })).1 else s
    (((s1.setEpoch .done).1).setLifecycle .provisioned, ok [])

/-- LIFECYCLE (R233, R234, R245). -/
def execLifecycle (q : CmdReq) (w : RingWrite) (e : StoreEnv) (s : State) : Host.Outcome State Fault Refusal :=
  .next (State.cutShort (s.command 0x020A q (fun s =>
    let t := (octetAt q.payload 0).toNat
    if !s.c2 then (s, refuse 0x10)
    else if t = 0 || 3 < t then (s, refuse 0x13)
    else if !s.boot.lifecycleReadable then
      (if t = 2 then ((s.setBoot { s.boot with floor := s.runningVersion }).setLifecycle .fielded, ok [])
       else if t = 3 then s.toReturned w e
       else (s, refuse 0x11))
    else
      match s.boot.lifecycle, t with
      | .blank, 1 => s.toProvisioned
      | .returned, 1 => s.toProvisioned
      | .provisioned, 2 => (s.setLifecycle .fielded, ok [])
      | .fielded, 3 => s.toReturned w e
      | _, _ => (s, refuse 0x11))))

/-- DEBUG_UNLOCK (R350, Table Start-11). -/
def execDebugUnlock (q : CmdReq) (s : State) : Host.Outcome State Fault Refusal :=
  .next (s.command 0x020B q (fun s =>
    if !s.c2 then (s, refuse 0x10)
    else if s.lifecycle = .fielded then (s.setBoot { s.boot with debugUnlocked := true }, ok [])
    else (s, ok [])))

/-- READ_KEYS (R347). -/
def execReadKeys (q : CmdReq) (s : State) : Host.Outcome State Fault Refusal :=
  .next (s.command 0x020C q (fun s =>
    let k := s.cus.keys
    (s, ok ((identityKey ++ List.replicate 64 0).take 64 ++ (k.cert.getD (List.replicate 153 0)) ++
      leOctets 1 (boolsNat [k.config.isSome, k.image.isSome, k.fleetRoot.isSome, k.cert.isSome, k.sealing.isSome]) ++
      leOctets 2 k.exports))))

end Sys2Proof.Machine
end

