-- ==== Sys2Proof/Machine/Flash.lean ====
section
/-! DEFINITION. The commands of the flash controller (spec/15_eflash.md). -/
namespace Sys2Proof.Machine

/-- The next queued command of a bank starts (R832); none does in hold-up (R151) or with FCLK stopped (R130). -/
def execFlashCommandStart (bank : Fin 2) (s : State) : Host.Outcome State Fault Refusal :=
  .next (if s.pow.pm = .holdUp || !s.domainRuns .fclk then s else s.flashBegin bank)

/-- A page program ends (R829). Of a hold-up image's page, it leads to the next one (R161); with no program running in either
bank, a PWR_FAIL sequence goes from step 5 to step 6. DEDUCED (log 48). -/
def execProgramPulsesDone (bank : Fin 2) (readBack : Bool) (s : State) : Host.Outcome State Fault Refusal :=
  .next (match (s.bank bank).run, s.hold.seq with
    | .programming _ _ _, none => s.programDone bank
    | .programming _ _ _, some q =>
      if q.stage = .settling then s.programDone bank else (s.programDone bank).holdPage q readBack
    | _, none => s
    | _, some q => if q.stage = .settling && s.banksSettled then s.holdAssemble q else s)

/-- An erase pulse and verify ends (R830); the end of the Steward's erase bears on its structure (R167, R358). -/
def execEraseStepDone (bank : Fin 2) (verified blankOk : Bool) (s : State) : Host.Outcome State Fault Refusal :=
  .next (match s.eraseStep bank verified with
    | (s1, none) => s1
    | (s1, some (e, v)) => s1.stewardErased e v blankOk)

/-- A deferred suspend takes effect (R844). -/
def execSuspendDeferralExpiry (bank : Fin 2) (s : State) : Host.Outcome State Fault Refusal :=
  .next (match (s.bank bank).run with
    | .deferring e a =>
      (s.setBank bank { s.bank bank with run := .idle, suspended := some { e with resumeBy := none } }).flashEnd a 3 1
    | _ => s)

end Sys2Proof.Machine
end

