-- ==== Sys2Proof/Machine/LedgerCmd.lean ====
section
/-! DEFINITION. The ledger group (spec/07_ledger.md; Table Cmd-7) and the Concord group (spec/08_concord.md; Tables Cmd-8 and
Cmd-9). -/
namespace Sys2Proof.Machine

/-- A command of the ledger group: the closure check comes first (R388, R399). -/
def State.ledgerCommand (s : State) (cmd : Nat) (q : CmdReq) (run : State → State × Reply) : State :=
  s.command cmd q (fun s => run s.closureCheck)

/-! Time -/

/-- TSCLK periods since the last PPS edge, where one came within the last second (Table Ledger-2, row 1). -/
def State.sincePps (s : State) : Option Nat :=
  match s.per.gnss.pps with
  | none => none
  | some t => let n := (s.clk.now - t).toNat; if n ≤ 96000000 then some n else none

/-- A set-time is accepted: a class-4 one restarts the age (R368), and the peers are offered the new time (Table Concord-4). -/
def State.timeAccepted (s : State) (cls : Nat) : State :=
  (s.setTail { s.led.cur with class4Age := if cls = 4 then 0 else s.led.cur.class4Age }).quiet.offerTime

/-- The response of SET_TIME. -/
def State.timeReply (s : State) (row : Nat) : Reply :=
  ok (leOctets 1 row ++ leOctets 5 s.clock.wall ++ leOctets 2 s.clock.wallFraction ++ leOctets 1 s.clock.cls)

/-- A set-time is decided (R370, R371, Table Ledger-2). DEDUCED (log 85). -/
def State.setTime (s : State) (w : RingWrite) (seconds fraction cls : Nat) : State × Reply :=
  if 4 < cls then (s, refuse 0x13)
  else
    match s.sincePps, decide (cls = 4) with
    | none, true => (s, refuse 0x26)
    | since, isPps =>
      let c := s.clock
      let new := seconds * 32768 + fraction + (if isPps then (since.getD 0) * 32768 / 96000000 else 0)
      let old := c.wall * 32768 + c.wallFraction
      if cls < c.cls && !s.c1 then (s, refuse 0x27)
      else if new ≤ old + 32768 && old ≤ new + 32768 then
        let s1 := (s.setTail { s.led.cur with clock := { c with cls := cls } }).timeAccepted cls
        (s1, s1.timeReply 3)
      else if old < new then
        let s1 := ((s.stepWall 4 (new / 32768) (new % 32768) cls).closureCheckWith w).timeAccepted cls
        (s1, s1.timeReply 4)
      else if new + 900 * 32768 < old && cls < 3 && !s.c1 then (s, refuse 0x10)
      else
        match s.setBack w (new / 32768) (new % 32768) cls with
        | (s1, false) => (s1, refuse 0x23)
        | (s1, true) => let s2 := (s1.closureCheck).timeAccepted cls; (s2, s2.timeReply 6)

/-- SET_TIME (R370 to R372); `dt`: TSCLK periods since the count was last observed. -/
def execSetTime (q : CmdReq) (dt : Nat) (w : RingWrite) (s : State) : Host.Outcome State Fault Refusal :=
  .next (State.cutShort (s.ledgerCommand 0x0301 q (fun s =>
    (s.tickTs dt).setTime w (fieldNat q.payload 0 5) (fieldNat q.payload 5 2) (octetAt q.payload 7).toNat)))

/-! Rides -/

/-- A pack member is authenticated. -/
def State.packs (s : State) : List Member := s.con.members.filter (fun m => m.role = .pack)

/-- The period index is exhausted (R387). -/
def State.periodExhausted (s : State) : Bool := match s.led.cur.period with | none => false | some o => decide (0xFFFFFF ≤ o.index)

/-- The first refusal of an opening (R378, R245), for a device in role and tier. DEDUCED (log 88). -/
def State.rideRefusal (s : State) : Option Nat :=
  if !s.boot.lifecycleReadable || s.lifecycle = .blank || s.lifecycle = .returned then some 0x11
  else if s.led.eraExhausted || decide (0xFFFFFF < s.led.nextRide) || s.periodExhausted then some 0x24
  else if [EdDomain.tariff, .grants, .teasel].any (fun d => (s.slot d).effective.isNone) then some 0x19
  else if s.activeImage.isNone || s.img.rejected then some 0x25
  else if s.led.cur.ride.isSome then some 0x17
  else if s.packs.isEmpty then some 0x21
  else if s.hold.ready = 0 then some 0x22
  else if s.led.freePages < 97 + 2 * ((s.storedTail.record.length + 255) / 256) then some 0x23
  else none

/-- A ride opens (R379, R235, R373, R454, R459), once the tail stands; answers whether it does. -/
def State.openRide (s : State) (w : RingWrite) : State × Bool :=
  let n := s.led.nextRide
  let slow := s.boot.tier = .t2 || s.packs.any (·.limited)
  let r0 : OpenRide :=
    { number := n, tariffEdition := s.editionNumber .tariff, tariff := s.edition .tariff, opened := s.timeBlock 0,
      wheel := s.mot.tcap.wcnt.toNat, segments := [], offset := s.led.cur.offset, closing := none,
      flags := { RideFlags.none with test := decide (s.lifecycle = .provisioned), speedwell := slow, lfxLost := s.led.lfxLost,
                                     timeOffset := decide (s.led.cur.offset ≠ 0) } }
  let r := s.packs.foldl (fun (r : OpenRide) (m : Member) => r.openSegment (bayOf m.node) m.identity s.clock.seconds) r0
  let s1 := (s.setLed { s.led with nextRide := n + 1 }).setTail { s.led.cur with ride := some r }
  match s1.tailWritten w with
  | (s2, false) => ((s2.setLed { s2.led with nextRide := n }).setTail { s2.led.cur with ride := none }, false)
  | (s2, true) => (((s2.quiet.requestReports).raise 0x4000 (leOctets 3 n)).writeLimits.setForce, true)

/-- RIDE_OPEN (R378, R379, R396). -/
def execRideOpen (q : CmdReq) (w : RingWrite) (s : State) : Host.Outcome State Fault Refusal :=
  .next (State.cutShort (s.ledgerCommand 0x0302 q (fun s =>
    match s.rideRefusal with
    | some st => (if st = 0x23 then s.raise 0x4005 [] else s, refuse st)
    | none =>
      match s.openRide w with
      | (s1, false) => (s1, refuse 0x23)
      | (s1, true) => (s1, ok (leOctets 3 s.led.nextRide ++ packWords (s.timeBlock 0).words)))))

/-- RIDE_CLOSE (R384, R386, R389). -/
def execRideClose (q : CmdReq) (w : RingWrite) (e : StoreEnv) (s : State) : Host.Outcome State Fault Refusal :=
  .next (State.cutShort (s.ledgerCommand 0x0303 q (fun s =>
    if s.led.cur.ride.isNone then (s, refuse 0x20)
    else
      match s.quiet.endRide 0 w with
      | (s1, []) => (s1, refuse 0x23)
      | (s1, ws) => (s1.rideCounted e, ok (packWords ws)))))

/-- RIDE_STATUS (Table Cmd-7). -/
def execRideStatus (q : CmdReq) (s : State) : Host.Outcome State Fault Refusal :=
  .next (s.ledgerCommand 0x0304 q (fun s =>
    match s.led.cur.ride with
    | none => (s, refuse 0x20)
    | some r =>
      (s, ok (leOctets 3 r.number ++ leOctets 2 r.flags.word ++ leOctets 3 (s.rideSeconds r) ++ leOctets 3 (s.metres (s.ridePulses r)) ++
        packWords (decNat dsDigits r.energySum) ++ leOctets 1 (min 10 r.segments.length)))))

/-- RIDE_READ (R385, R409): the record as its page reads. -/
def execRideRead (q : CmdReq) (f : FlashFacts) (s : State) : Host.Outcome State Fault Refusal :=
  .next (s.ledgerCommand 0x0305 q (fun s =>
    let e := fieldNat q.payload 0 2
    let n := fieldNat q.payload 2 3
    match s.led.rides.find? (fun r => r.epoch = e && r.number = n) with
    | none => (s, refuse 0x2A)
    | some r =>
      let s1 := s.streamRead (ringAddr r.page) 256
      match (s.ringReads f r.page 256).filter (s.recordGood r.key 231) with
      | some ws => (s1, ok (packWords ws))
      | none => (s1.raise 0x4009 (leOctets 3 n), .final 0x29 (packWords (s.ringWords r.page)))))

/-! Periods -/

/-- A period index is not sealed yet: the open period's, one that waits, or a later one (Table Cmd-2). -/
def Ledger.unsealed (l : Ledger) (epoch index : Nat) : Bool :=
  l.due.any (fun d => d.1 = epoch && d.2.2.2.index = index) ||
    (epoch = l.epoch && (match l.cur.period with | none => false | some o => decide (o.index ≤ index)))

/-- PERIOD_READ (R390, R409). -/
def execPeriodRead (q : CmdReq) (f : FlashFacts) (s : State) : Host.Outcome State Fault Refusal :=
  .next (s.ledgerCommand 0x0306 q (fun s =>
    let e := fieldNat q.payload 0 2
    let n := fieldNat q.payload 2 3
    if s.led.unsealed e n then (s, refuse 0x2B)
    else
      match s.led.periods.find? (fun p => p.epoch = e && p.index = n) with
      | none => (s, refuse 0x2A)
      | some p =>
        match (s.streamRead (ringAddr p.page) 256).readPeriod f s.jou.readable p with
        | (s1, none) => (s1, refuse 0x28)
        | (s1, some ws) => (s1, ok (packWords ws))))

/-- ACK (R395, R899, R913): what it frees lets periods that wait be sealed (R396) and may end the Full state. -/
def execAck (q : CmdReq) (s : State) : Host.Outcome State Fault Refusal :=
  .next (s.ledgerCommand 0x0307 q (fun s =>
    let e := fieldNat q.payload 0 2
    let n := fieldNat q.payload 2 3
    if s.led.unsealed e n then (s, refuse 0x2B)
    else if !s.led.periods.any (fun p => p.epoch = e && p.index = n) then (s, refuse 0x2A)
    else
      let top := max n ((ackedOf s.led.acks e).getD 0)
      let s1 := s.setLed { s.led with
        acks := setKey e top s.led.acks,
        periods := s.led.periods.map (fun p => if p.epoch = e && decide (p.index ≤ n) then { p with acked := true } else p) }
      ((State.sealDue 64 s1.reclaimRing).judgeJournal, ok (leOctets 3 top))))

/-- EPOCH (R397). -/
def execEpoch (q : CmdReq) (w : RingWrite) (s : State) : Host.Outcome State Fault Refusal :=
  .next (State.cutShort (s.ledgerCommand 0x0308 q (fun s =>
    if !s.c2 then (s, refuse 0x10)
    else if s.led.cur.ride.isSome then (s, refuse 0x17)
    else if s.lifecycle = .blank || s.lifecycle = .returned || 4095 ≤ s.led.epoch then (s, refuse 0x11)
    else
      match s.setEpoch w with
      | (s1, false) => (s1, refuse 0x23)
      | (s1, true) => (s1, ok (leOctets 2 s1.led.epoch)))))

/-- KEY_EXPORT (R398, R921, R932). -/
def execKeyExport (q : CmdReq) (s : State) : Host.Outcome State Fault Refusal :=
  .next (s.ledgerCommand 0x0309 q (fun s =>
    let eph := q.payload.take 64
    if s.lifecycle ≠ .provisioned then (s, refuse 0x11)
    else if !s.c2 then (s, refuse 0x10)
    else
      match s.cus.keys.config, s.cus.keys.sealing with
      | some k, some sealing =>
        if !ecPoint eph || !ecdsaVerify k (sha256 eph) (octetsAt q.payload 64 64) then (s, refuse 0x12)
        else
          let (n, s1) := s.draw
          let nonce := leOctets 12 n
          let count := satAdd 65535 s.cus.keys.exports 1
          let body := identityOctets ++ nonce ++ (wrapKey sealing eph nonce identityOctets ++ List.replicate 48 0).take 48 ++
            leOctets 2 count
          let s2 := (s1.setCus { s1.cus with keys := { s1.cus.keys with exports := count } }).raise 0x3009 (leOctets 2 count)
          (s2, ok (body ++ (Config.identitySign (sha256 body) ++ List.replicate 64 0).take 64))
      | _, _ => (s, refuse 0x12)))

/-- LEDGER_STATUS (Table Cmd-7, R932). -/
def State.ledgerPayload (s : State) : List Octet :=
  let c := s.clock
  let o := match s.led.cur.period with
    | none => OpenPeriod.fresh 0 0 0 false
    | some o => if s.boot.role = Role.vehicle || s.boot.role = Role.bringUp then o else OpenPeriod.fresh 0 0 0 false
  leOctets 1 c.era ++ leOctets 5 c.seconds ++ leOctets 2 c.fraction ++ leOctets 5 c.wall ++ leOctets 2 c.wallFraction ++ leOctets 1 c.cls ++
    leOctets 3 (min 0xFFFFFF s.led.cur.class4Age) ++ leOctets 5 s.led.cur.hwm ++ leOctets 2 s.led.epoch ++ leOctets 3 o.index ++
    leOctets 5 o.start ++ leOctets 5 o.stop ++ leOctets 2 o.retroCount ++ leOctets 4 o.retroLargest ++ leOctets 4 o.retroTotal ++
    leOctets 2 s.led.freePages ++ leOctets 5 (BitVec.ofInt 36 s.led.cur.offset).toNat

def execLedgerStatus (q : CmdReq) (s : State) : Host.Outcome State Fault Refusal :=
  .next (s.ledgerCommand 0x030A q (fun s => (s, ok s.ledgerPayload)))

/-! The Concord group -/

/-- One entry of the Concord status. DESIGN CHOICE (log 97). -/
def memberOctets (node identity : Nat) (role : Role) (level : Nat) (flags : List Bool) (tier edition : Nat) : List Octet :=
  leOctets 1 node ++ leOctets 5 identity ++ leOctets 1 role.code ++ leOctets 1 level ++ leOctets 1 (boolsNat flags) ++ leOctets 1 tier ++
    leOctets 2 edition

/-- The entries that a device lists: the vehicle its members; a member the vehicle and the last ROSTER. What a member is not told of
another device reads 0. DESIGN CHOICE (log 97). -/
def State.concordEntries (s : State) : List (List Octet) :=
  if s.boot.role = .vehicle then
    s.con.members.map (fun m => memberOctets m.node m.identity m.role m.level [m.limited, m.holdUpReady, m.presence] m.tier
      (m.fleetEdition.getD 0))
  else if s.con.phase ≠ .member then []
  else
    (match s.con.vehicle with | none => [] | some (i, _) => [memberOctets 0 i .vehicle s.con.vehicleLevel [] s.con.vehicleTier 0]) ++
      s.con.roster.map (fun r => memberOctets r.node r.identity r.role r.level [r.limited] 0 0)

/-- The phase of a member as a code (Table Cmd-9). -/
def MemberPhase.code : MemberPhase → Nat
  | .idle => 0
  | .joining => 1
  | .member => 2
  | .backoff => 3

/-- Age of the latest CHARGE_REPORT in 0.1 s, saturating; 0 outside the dock role (R463). -/
def State.chargeAge (s : State) : Nat :=
  if s.boot.role ≠ .dock then 0
  else match s.con.chargeReportAt with
    | none => 65535
    | some t => min 65535 ((s.ticks - t) * 10 / 32768)

/-- CONCORD_STATUS (R452, Table Cmd-9). -/
def State.concordPayload (s : State) : List Octet :=
  let c := s.con
  let es := s.concordEntries.take 3
  leOctets 1 (if s.boot.role = .vehicle then 0 else if c.phase = .member then c.node else 6) ++
    leOctets 1 (if s.boot.role = .vehicle then 0xFF else c.phase.code) ++ leOctets 2 c.epoch ++ leOctets 1 es.length ++
    leOctets 2 c.ignored ++ leOctets 2 c.discarded ++ leOctets 2 c.macFailures ++ leOctets 2 c.busOffs ++ leOctets 1 c.txErrors ++
    leOctets 1 c.rxErrors ++ leOctets 1 c.fallback.toNat ++ paramOctets c.merged ++ leOctets 2 s.chargeAge ++
    leOctets 2 (s.editionNumber .fleet) ++ es.foldl (· ++ ·) []

def execConcordStatus (q : CmdReq) (s : State) : Host.Outcome State Fault Refusal :=
  .next (s.command 0x0401 q (fun s => (s, ok s.concordPayload)))

/-- The vehicle to which this dock is admitted. -/
def State.admittedTo (s : State) (identity : Nat) : Bool :=
  s.con.phase = .member && (match s.con.vehicle with | none => false | some (i, _) => i = identity)

/-- PRESENCE (R461). DEDUCED (log 105). -/
def execPresence (q : CmdReq) (s : State) : Host.Outcome State Fault Refusal :=
  .next (s.command 0x0402 q (fun s =>
    let id := fieldNat q.payload 0 5
    let on := (octetAt q.payload 5).toNat
    if 1 < on then (s, refuse 0x13)
    else if on = 1 then
      (if s.admittedTo id then (s.setCon { s.con with presenceFor := some id }, ok []) else (s, refuse 0x30))
    else (s.setCon { s.con with presenceFor := if s.con.presenceFor = some id then none else s.con.presenceFor }, ok [])))

/-- RELAY (R453, R925, R933): it ends with RELAY_RESULT, after 2.0 s, or with the session; one that comes meanwhile by the other
transport waits (R295). -/
def execRelay (q : CmdReq) (s : State) : Host.Outcome State Fault Refusal :=
  .next (s.command 0x0403 q (fun s =>
    let node := (octetAt q.payload 0).toNat
    match domOfCode (octetAt q.payload 1).toNat, partAt q.payload 1 with
    | some _, some p =>
      (match s.assemble 0x0403 p.selector p with
       | (s1, .broken) => (s1, refuse 0x13)
       | (s1, .more) => (s1, ok [])
       | (s1, .whole ws) =>
         if s.con.relay.isSome then (s, .later)
         else if (s1.member node).isNone then (s1, refuse 0x30)
         else
           let s2 := s1.quiet.sendSecured 0x11 node (packWords ws)
           (s2.setCon { s2.con with relay := some { transport := q.transport, node := node } }, .wait))
    | _, _ => (s, refuse 0x13)))

end Sys2Proof.Machine
end

