-- ==== Sys2Proof/Machine/ImageCmd.lean ====
section
/-! DEFINITION. The image-and-flash group (Table Cmd-11): program images by R621 to R623, Zheyr images by R854 and R857. -/
namespace Sys2Proof.Machine

/-! The forms of the two images -/

/-- Words of a program slot (R622) and of a Zheyr transfer: its boot block's words 0 to 51 and the blocks of its image. -/
def imageLimit (kind : Nat) : Nat := if kind = 0 then 884736 else 52 + 16 * 0x8000

/-- The range [a, a + n) lies in [lo, hi). -/
def spanIn (a n lo hi : Nat) : Bool := decide (lo ≤ a) && decide (a + n ≤ hi)

/-- Entry j of a section table keeps Table Jieles-14 and the placement rules of R623; `l` is the image's length L, `top` the end of
its section table. -/
def sectionOk (ws : List Word) (l top j : Nat) : Bool :=
  let b := 40 + 8 * j
  let w0 := wN ws b
  let kind := w0 % 8
  let load := wNum ws (b + 1) 2
  let n := wNum ws (b + 3) 2
  let off := wNum ws (b + 5) 2
  inRange kind 1 5 && decide (w0 / 8 % 2 = 0) && decide (w0 < 512) && decide (wN ws (b + 7) = 0) &&
    (decide (4 ≤ kind) || decide (w0 / 16 = 0)) &&
    (if kind = 3 || kind = 5 then decide (off = 0) else spanIn off n top l) &&
    (if kind ≤ 3 then spanIn load n 0x110000 0x200000 else spanIn load n 0 0x4000)

/-- Two sections share a target: the shared SRAM, or the scratch of one core. -/
def Section.meets (a b : Section) : Bool :=
  (decide (a.kind ≤ 3) && decide (b.kind ≤ 3)) ||
    (decide (4 ≤ a.kind) && decide (4 ≤ b.kind) && decide (a.targets &&& b.targets ≠ 0))

/-- Two sections with a common target overlap. -/
def Section.overlaps (a b : Section) : Bool :=
  a.meets b && decide (0 < a.len) && decide (0 < b.len) && decide (a.load < b.load + b.len) && decide (b.load < a.load + a.len)

def noOverlap : List Section → Bool
  | [] => true
  | a :: l => l.all (fun b => !a.overlaps b) && noOverlap l

/-- An address lies inside a text section. -/
def inText (l : List Section) (a : Nat) : Bool := l.any (fun x => x.kind = 1 && spanIn a 1 x.load (x.load + x.len))

/-- Entries that word 4 puts to use, 0 to 4. -/
def entriesUsed (ws : List Word) : List Nat := (List.range 5).filter (fun e => (wAt ws 4).getLsbD e)

/-- A program image keeps every rule of R621 and R623 but its signature; L counts words to the end of the section contents. -/
def programImageOk (ws : List Word) : Bool :=
  let n := wN ws 27
  let l := wNum ws 28 2
  let top := 40 + 8 * n
  let secs := imageSections ws
  decide (wNum ws 0 2 = 0x1B70A5) && decide (wN ws 2 = 1) && inRange (wN ws 3) 1 2 && decide (wN ws 4 < 32) &&
    decide (wNum ws 15 2 % 128 = 0) && (List.range 5).all (fun e => decide (wN ws (17 + e) < 32) && decide (wN ws (22 + e) < 8)) &&
    inRange n 1 48 && decide (wN ws 30 = 0) && (List.range 9).all (fun k => wN ws (31 + k) = 0) &&
    decide (top ≤ l) && decide (ws.length = l + 43) && decide (ws.length ≤ imageLimit 0) &&
    (List.range n).all (sectionOk ws l top) && noOverlap secs && inText secs (wNum ws 15 2) &&
    (entriesUsed ws).all (fun e => let a := wNum ws (5 + 2 * e) 2; decide (a % 2 = 0) && inText secs a)

/-! The target of an image -/

/-- The blocks of an image's target, by their base addresses (R622, R857). -/
def State.targetBlocks (s : State) (kind : Nat) : List Nat :=
  let blocks (bank first n : Nat) : List Nat := (List.range n).map (fun i => blockBase bank (first + i))
  if kind = 0 then (if s.cus.stageSlot = 0 then blocks 0 5 27 else blocks 1 37 27)
  else
    let k := s.zheyrIdle
    blocks k.val (zheyrFirst k) 16 ++ [blockBase k.val 0]

/-- Address of a word of an image in its target: a program slot from its first block on; of a Zheyr record, whose first 52 words are
its boot block's, from the image's first block on (R622, R854, R857). -/
def State.imageAddr (s : State) (kind : Nat) (i : Nat) : Nat :=
  if kind = 0 then blockBase s.cus.stageSlot.val (if s.cus.stageSlot = 0 then 5 else 37) + i
  else
    let k := s.zheyrIdle
    blockBase k.val (zheyrFirst k) + (i - 52)

/-- Words of an image from a place on are programmed into its target's cells; a Zheyr set's boot block stays erased (R857). -/
def State.putImage (s : State) (kind offset : Nat) (ws : List Word) : State :=
  let f := { s.fl with
    cells := (ws.zipIdx.filter (fun (p : Word × Nat) => kind = 0 || decide (52 ≤ offset + p.2))).foldl
      (fun (m : WordMem) (p : Word × Nat) => memSet 0xFFF (s.imageAddr kind (offset + p.2)) p.1 m) s.fl.cells }
  ({ s with fl := f }).unbuffer (bankOf (s.imageAddr kind offset))

/-- The target holds no staged image from now on (R935). -/
def State.discardImage (s : State) (kind : Nat) : State :=
  if kind = 0 then { s with img := { s.img with slots := s.img.slots.set s.cus.stageSlot none } }
  else
    let k := s.zheyrIdle
    { s with img := { s.img with zheyr := s.img.zheyr.set k { version := 0xFFFFFF, present := false, staged := false, boot := [] } },
             fl := { s.fl with bootValid := s.fl.bootValid.set k false } }

def Images.receiving (x : Images) (kind : Fin 2) (r : Option ImageWrite) : Images := { x with writing := x.writing.set kind r }
def State.receive (s : State) (kind : Fin 2) (r : Option ImageWrite) : State := { s with img := s.img.receiving kind r }

/-- An assembly is discarded (R948). DEDUCED (log 126). -/
def State.dropAssembly (s : State) (cmd selector : Nat) : State :=
  { s with host := { s.host with assemblies := s.host.assemblies.filter (fun a => !(a.cmd = cmd && a.selector = selector)) } }

/-- The kind an octet names in this role, or the status that refuses it: kind 0 exists in V and D. -/
def State.imageKind (s : State) (n : Nat) : Except Nat (Fin 2) :=
  if n = 0 then (if s.boot.role = .vehicle || s.boot.role = .dock then .ok 0 else .error 0x1A)
  else if n = 1 then .ok 1
  else .error 0x13

/-- The image of a kind verifies and is staged: its response, or the status that refuses it (R623, R857). -/
def State.stageImage (s : State) (kind : Fin 2) (ws : List Word) : State × Reply :=
  let staged (s : State) (n : Nat) : State := (s.receive kind none).raise 0x7000 ([BitVec.ofNat 8 kind.val] ++ leOctets 3 n)
  if kind = 0 then
    if !programImageOk ws then (s, refuse 0x13)
    else
      match s.cus.keys.image with
      | none => (s, refuse 0x12)
      | some k =>
        if !imageSigned k ws then (s, refuse 0x12)
        else
          let s1 := { s with img := { s.img with slots := s.img.slots.set s.cus.stageSlot (some { words := ws, staged := true, key := some k }) } }
          (staged s1 (imageLength ws),
            ok (leOctets 1 (wN ws 3) ++ leOctets 1 (wN ws 4 % 16) ++ leOctets 3 (imageLength ws)))
  else
    let k := s.zheyrIdle
    if !zheyrRecordOk k ws then (s, refuse 0x13)
    else if !zheyrSigned ws then (s, refuse 0x12)
    else if zheyrVersion ws < s.floor then (s, refuse 0x13)
    else
      let s1 := { s with img := { s.img with zheyr := s.img.zheyr.set k { version := zheyrVersion ws, present := true, staged := true, boot := ws.take 52 } } }
      (staged s1 (wNum ws 5 2), ok (leOctets 3 (zheyrVersion ws)))

/-- What IMAGE_END answers for an image already staged. DEDUCED (log 126). -/
def State.stagedReply (s : State) (kind : Fin 2) : Reply :=
  if kind = 0 then
    match s.img.slots.get s.cus.stageSlot with
    | none => refuse 0x13
    | some x => if x.staged then ok (leOctets 1 (wN x.words 3) ++ leOctets 1 (wN x.words 4 % 16) ++ leOctets 3 (imageLength x.words))
      else refuse 0x13
  else if s.zheyrStaged then ok (leOctets 3 (s.img.zheyr.get s.zheyrIdle).version)
  else refuse 0x13

/-! The commands -/

/-- IMAGE_BEGIN (R622, R857, R935, R1018): `w` is the slot map written first where it still names the slot; `eraseOk`: every block's
erase succeeds. -/
def execImageBegin (q : CmdReq) (w : StoreWrite) (eraseOk : Bool) (s : State) : Host.Outcome State Fault Refusal :=
  .next (State.cutShort (s.command 0x0601 q (fun s =>
    let total := fieldNat q.payload 1 3
    match s.imageKind (octetAt q.payload 0).toNat with
    | .error st => (s, refuse st)
    | .ok kind =>
      let onTrial := match s.cus.probation with | none => false | some p => p.program
      if imageLimit kind.val < total then (s, refuse 0x13)
      else if kind = 0 && onTrial then (s, refuse 0x18)
      else
        let (s1, done) :=
          if kind = 0 && s.cus.imagePrevious = some s.cus.stageSlot then s.writeMap w (fun c => { c with imagePrevious := none })
          else (s, true)
        if !done then (s1, refuse 0x35)
        else
          let s2 := (s1.discardImage kind.val).receive kind none
          if !eraseOk then (s2, refuse 0x35)
          else
            (((s2.targetBlocks kind.val).foldl (fun (s : State) (b : Nat) => s.eraseTarget b) s2).receive kind
              (some { kind := kind.val, total := total, words := [], complete := false }), ok []))))

/-- IMAGE_DATA (R925, R926, R948): `progOk`: each page that the part fills is programmed and verified. -/
def execImageData (q : CmdReq) (progOk : Bool) (s : State) : Host.Outcome State Fault Refusal :=
  .next (s.command 0x0602 q (fun s =>
    match s.imageKind (octetAt q.payload 0).toNat, partAt q.payload 0 with
    | .error st, _ => (s, refuse st)
    | .ok _, none => (s, refuse 0x13)
    | .ok kind, some p =>
      match s.img.writing.get kind with
      | none => (s, refuse 0x13)
      | some x =>
        if p.total ≠ x.total then (s, refuse 0x13)
        else
          match s.assemble 0x0602 p.selector p with
          | (s1, .broken) => (s1, refuse 0x13)
          | (s1, .more) =>
            if progOk then ((s1.putImage kind.val p.offset p.chunk).receive kind (some { x with words := [], complete := false }), ok [])
            else (s1.dropAssembly 0x0602 p.selector, refuse 0x35)
          | (s1, .whole ws) =>
            if progOk then
              ((s1.putImage kind.val p.offset p.chunk).receive kind (some { x with words := ws, complete := true })).stageImage kind ws
            else (s1, refuse 0x35)))

/-- IMAGE_END (R623, R857). -/
def execImageEnd (q : CmdReq) (s : State) : Host.Outcome State Fault Refusal :=
  .next (s.command 0x0603 q (fun s =>
    match s.imageKind (octetAt q.payload 0).toNat with
    | .error st => (s, refuse st)
    | .ok kind =>
      match s.img.writing.get kind with
      | none => (s, s.stagedReply kind)
      | some x => if x.complete then s.stageImage kind x.words else (s, refuse 0x13)))

/-- IMAGE_STATUS (Table Cmd-11). -/
def State.imageStatusPayload (s : State) : List Octet :=
  let staged := match s.img.slots.get s.cus.stageSlot with
    | none => none
    | some x => if x.staged then some x.words else none
  let (len, level) := match staged with | none => (0, 0) | some ws => (imageLength ws, wN ws 3)
  selectorOctet s.cus.imageActive ++ bitOctet staged.isSome ++ leOctets 3 len ++ leOctets 1 level ++ bitOctet s.boot.runningB ++
    leOctets 1 s.preferredSet.val ++ leOctets 2 s.boot.swapCells ++ bitOctet s.boot.bootFallback ++
    leOctets 3 (s.img.zheyr.get 0).version ++ leOctets 3 (s.img.zheyr.get 1).version ++ bitOctet s.zheyrStaged ++ leOctets 2 s.floor

def execImageStatus (q : CmdReq) (s : State) : Host.Outcome State Fault Refusal :=
  .next (s.command 0x0604 q (fun s => (s, ok s.imageStatusPayload)))

/-- A block is retired: one of the hold-up ring, of the edition store or of the ledger ring (Table Flash-1). -/
def State.infoRetired (s : State) (bank block : Nat) : Bool :=
  (match holdAt (blockBase bank block) with | none => false | some k => (s.hold.blocks.get k).retired) ||
    (inRange block 1 4 && s.cus.retired.toList.getD (block - 1) false) ||
    (decide (bank = 1) && inRange block 5 36 && s.led.retiredBlocks.contains block)

/-- FLASH_INFO (R850, Table Cmd-11). -/
def execFlashInfo (q : CmdReq) (s : State) : Host.Outcome State Fault Refusal :=
  .next (s.command 0x0605 q (fun s =>
    let bank := (octetAt q.payload 0).toNat
    let first := (octetAt q.payload 1).toNat
    let n := (octetAt q.payload 2).toNat
    if 1 < bank || !inRange n 1 128 || 128 < first + n then (s, refuse 0x13)
    else
      (s, ok ((List.range n).foldl (fun acc i =>
        let m := s.blockMeta (blockBase bank (first + i))
        acc ++ leOctets 3 m.count ++ leOctets 1 (m.flag.toNat + 2 * (s.infoRetired bank (first + i)).toNat)) []))))

end Sys2Proof.Machine
end

