-- ==== Sys2Proof/Machine/Ports.lean ====
section
/-! DEFINITION. Register accesses as a crossing port takes them, when they come as commands of their own (R33, R46, R82, R104, R127,
R595, R596): an access that its block does not serve ends with a fault at its requester and never reaches the block. -/
namespace Sys2Proof.Machine

/-- The port of an I/O address ends no access with the missing-unit fault (R33, R104, R127, R596). -/
def State.portServes (s : State) (addr : Nat) : Bool :=
  decide (addr / 256 < 15) && blockOn s.boot.role (addr / 256) (addr % 256) && !s.blockFailed (addr / 256) (addr % 256) &&
    (match blockDomain (addr / 256) with | none => true | some d => s.domainRuns d)

/-- The trap of an IN or OUT of a core that is running (R595, R596, R615), at the bundle that is next to complete. The command does
not give the syllable's other fields: ESYL takes a free value. DEDUCED (log 37). -/
def State.portTrap (s : State) (i : Fin 4) (vector sub addr : Nat) : State :=
  let c := s.core.get i
  if c.run ≠ .running then s
  else
    let (f, s1) := s.draw
    s1.enterTrap i c.resumePc (match c.window with | [] => 1 | e :: _ => e.len)
      { vector := vector, sub := sub, addr := some (BitVec.ofNat 24 addr), unit := some 2, syl := BitVec.ofNat 24 f, wide := false }

/-- An access of a register: a core's acts or traps, and one of the Steward or of DMA ends without effect where the port does not
serve it. -/
def State.portAccess (s : State) (r : Requester) (addr : Nat) (act : State → State) : State :=
  match r with
  | .core i =>
    match s.ioCause i addr with
    | none => act s
    | some (v, k) => s.portTrap i v k addr
  | .steward | .dma => if s.portServes addr then act s else s

/-- A register command that names no requester acts where the port serves its address (R33, R127). -/
def State.portCommand (s : State) (addr : Nat) (act : State → State) : State := if s.portServes addr then act s else s

/-- The requester behind a place of the flash controller (R834). -/
def ownerOf (r : Fin 5) : Requester := if h : r.val < 4 then .core ⟨r.val, h⟩ else .steward

/-- The requester of a DMA channel, and its registers' first address (R629). -/
def channelOwner (ch : Fin 32) : Requester := if h : ch.val / 4 < 4 then .core ⟨ch.val / 4, h⟩ else .steward
def channelBase (ch : Fin 32) : Nat := 0xE00 + 16 * (if ch.val < 16 then ch.val % 4 else ch.val - 16)

/-- A store to the flash array: a core's store outside its window traps with vector 4 (R590, R834). -/
def State.windowStore (s : State) (r : Requester) (a : Pair) (act : State → State) : State :=
  match r with
  | .core i =>
    match s.region i a.toNat with
    | .flash => act s
    | .fault k => s.portTrap i 4 k a.toNat
    | .scratch | .tile => s
  | .steward | .dma => s.portCommand 0x200 act

end Sys2Proof.Machine
end

