-- ==== Sys2Proof/Machine/Power.lean ====
section
/-! DEFINITION. The commands of power, clocks, start-up and tiers (spec/02_fabric_and_domains.md, spec/03_power_and_swap.md,
spec/04_startup_and_tiers.md). -/
namespace Sys2Proof.Machine

/-- The always-on rail rises (R146, R173, R175, R196, R1019): the Celandine cold start, which returns the power manager's
temperature registers to their reset values too (Table Fabric-3). -/
def execAlwaysOnRise (s : State) : Host.Outcome State Fault Refusal :=
  .next (if s.pow.pm ≠ .off then s
    else
      let p := s.cus.presence
      let s1 := s.setPresence { p with servicePeriod := false, serviceCounts := false, dockGates := 0, dockEventAt := none,
                                       jumperPending := false }
      let s2 := (s1.setCel { Celandine.reset with dockLevel := s.cel.dockLevel }).setClock Clock.reset
      let s3 := { s2 with clk := { s2.clk with temp := 0, alarm := false, clamp := false, band := 1 } }
      (s3.setPow { s3.pow with pm := .ao, coldStart := true, retry := .stopped, faultCount := 0, faultTimes := [],
                               wakePending := false }).closeWindow 3)

/-- The always-on rail falls (R146, R194): V33 has fallen as well, so that every monitor of it has tripped. -/
def execAlwaysOnFall (cut : Vector PageCut 2) (s : State) : Host.Outcome State Fault Refusal :=
  .next (let s1 := if s.pow.vcoreOn then (s.toAo cut).setPow { (s.toAo cut).pow with orderly := false } else s
    let s2 := { s1 with host := { s1.host with preEvents := [] },
                        clk := { s1.clk with temp := 0, alarm := false, clamp := false, band := 1 } }
    s2.setPow
      { s1.pow with pm := .off, v33Good := false, goodPeriod := false, wakePending := false, retry := .stopped,
                    vddioAUp := false, vddaUp := false, vddioBUp := false, pfiHigh := false, ioUp := false })

/-- VIN_AO crosses the AO-LOW threshold (R143, R172). -/
def execAoLowTrip (low : Bool) (s : State) : Host.Outcome State Fault Refusal :=
  .next (let s1 := s.setPow { s.pow with aoLow := low }
    if low && !s.pow.aoLow then s1.raise 0x2000 [] else s1)

/-- VDDIO_A, or VDDA with `analog`, falls below the PWR_FAIL threshold (R143, R145, R151, R1015). -/
def execPwrFailTrip (analog : Bool) (s : State) : Host.Outcome State Fault Refusal :=
  .next (if (if analog then s.pow.vddaUp else s.pow.vddioAUp) then
      (s.setPow { s.pow with vddioAUp := s.pow.vddioAUp && analog, vddaUp := s.pow.vddaUp && !analog, v33Good := false,
                             goodPeriod := false }).pwrFail (if analog then .vdda else .vddioA)
    else s)

/-- PFI_N goes low (R143, R144). -/
def execPfiNFall (s : State) : Host.Outcome State Fault Refusal :=
  .next (if s.pow.pfiHigh then
      (s.setPow { s.pow with pfiHigh := false, v33Good := false, goodPeriod := false }).pwrFail .pfiN
    else s)

/-- VDDIO_B falls below B-LOW (R143, R191). -/
def execBLowTrip (s : State) : Host.Outcome State Fault Refusal :=
  .next (if s.pow.vddioBUp then
      (s.setPow { s.pow with vddioBUp := false, v33Good := false, goodPeriod := false }).pwrFail .bLow
    else s)

/-- VDDIO_A falls below IO-BOR (R75, R146, R188). -/
def execIoBorTrip (cut : Vector PageCut 2) (s : State) : Host.Outcome State Fault Refusal :=
  .next (({ s with pow := { s.pow with vddioAUp := false, v33Good := false, goodPeriod := false } }).ioBor cut)

/-- VDDIO_C falls below C-LOW (R76, R143, R192, R903, R915). -/
def execCLowTrip (s : State) : Host.Outcome State Fault Refusal :=
  .next (if !s.pow.vcoreOn || s.pow.cLow then s
    else
      let j := s.jou
      let back := j.flying
      let j1 := { j with busy := Vector.replicate 2 none, cutPages := j.cutPages ++ j.cutNow,
                         entries := back.filter (fun r => !r.copy) ++ j.entries, writeEnabled := false,
                         copies := back.filter (fun r => r.copy) ++ j.copies }
      let s1 := { s with jou := j1, pow := { s.pow with cLow := true } }
      let s2 := match j.state with
        | .ready | .full | .mounting => s1.setJournal .paused
        | .absent | .probing | .worn | .paused | .foreign | .failed => s1
      s2.raise 0x2007 [1])

/-- VDDIO_C recovers (R903). -/
def execCLowClear (s : State) : Host.Outcome State Fault Refusal :=
  .next (if !s.pow.cLow then s
    else
      let s1 := (s.setPow { s.pow with cLow := false }).raise 0x2007 [0]
      if s1.jou.state = .paused then
        ({ s1 with jou := { s1.jou with timeouts := Vector.replicate 2 0 } }).setJournal .mounting
      else s1)

/-- A VCORE monitor trips (R143, R146, R147, R190). -/
def execVcoreFault (f : VcoreFault) (cut : Vector PageCut 2) (s : State) : Host.Outcome State Fault Refusal :=
  .next (s.vcoreFault f cut)

/-- V33 has been good for 1 ms (R145, R146). -/
def execV33Good (e : StartEnv) (s : State) : Host.Outcome State Fault Refusal := .next (s.v33Rises e)

/-- The retry timer ends (R146, R147). -/
def execRetryTimerExpiry (e : StartEnv) (s : State) : Host.Outcome State Fault Refusal :=
  .next (if s.pow.retry = .stopped then s
    else
      let s1 := (s.setPow { s.pow with retry := .stopped }).wakeBit 8
      if s1.pow.pm = .ao && s1.pow.v33Good && s1.canStart then s1.start e else s1)

/-- 60 s without a VCORE fault (R147). -/
def execFaultCountClear (s : State) : Host.Outcome State Fault Refusal := .next (s.setPow { s.pow with faultCount := 0, faultTimes := [] })

/-- The PWR_FAIL sequence ends (R153, R155). -/
def execHoldupSequenceComplete (s : State) : Host.Outcome State Fault Refusal := .next s.holdComplete

/-- The tier is decided (R214): `failed` are the units whose test failed. -/
def execTierDecision (failed : List UnitId) (e : StoreEnv) (s : State) : Host.Outcome State Fault Refusal :=
  .next (s.decideTier failed e)

/-- 300 ms without a decision (R246): `unended` are the units whose test failed or has not ended. -/
def execSelftestTimeout (unended : List UnitId) (e : StoreEnv) (s : State) : Host.Outcome State Fault Refusal :=
  .next (s.decideTier unended e)

/-- The known-answer tests run again (R220): decimal units, vector units, crypto engine. -/
def execKnownAnswerRetest (failed : List UnitId) (s : State) : Host.Outcome State Fault Refusal :=
  .next (if s.led.cur.ride.isSome || !s.eventsLive then s
    else s.failUnits (failed.filter (fun u => inRange u.val 26 30)))

/-- The PLL locks (R102, R117). -/
def execPllLock (s : State) : Host.Outcome State Fault Refusal := .next s.pllLocks

/-- The PLL loses its lock (R128). -/
def execPllLockLoss (s : State) : Host.Outcome State Fault Refusal := .next s.pllLost

/-- A relock wait ends (R128). -/
def execPllRelockTimeout (s : State) : Host.Outcome State Fault Refusal := .next s.relockEnds

/-- HFX gives no stable clock (R129). -/
def execHfxStartTimeout (s : State) : Host.Outcome State Fault Refusal := .next s.hfxFails

/-- A clock-present detector trips (R127); `also`: units that other checks of Table Start-7 find failed in the same instant (R239). -/
def execDomainClockStopped (d : ClockDomain) (also : List UnitId) (s : State) : Host.Outcome State Fault Refusal :=
  .next (s.domainStops d also)

/-- FCLK stops (R130, R189, R870). -/
def execFclkStopped (cut : Vector PageCut 2) (s : State) : Host.Outcome State Fault Refusal := .next (s.fclkStops cut)

/-- An oscillator stops: LFX, or LFO (R545). -/
def execOscActivityTimeout (lfx : Bool) (s : State) : Host.Outcome State Fault Refusal := .next (if s.dark then s else s.oscStops lfx)

/-- A check window ends with a count of LFX edges (R544). -/
def execLfxCheckWindow (edges : Nat) (s : State) : Host.Outcome State Fault Refusal := .next (if s.dark then s else s.lfxWindow edges)

/-- The Steward's count of LFO is off by so many tenths of a percent (R545). -/
def execLfoCountCheck (off : Nat) (s : State) : Host.Outcome State Fault Refusal := .next (s.lfoCount off)

/-- The Steward watchdog expires (R225, R226). -/
def execStewardWatchdogExpiry (e : StartEnv) (s : State) : Host.Outcome State Fault Refusal := .next (s.stewardExpires e)

/-- A core watchdog expires (R230). -/
def execCoreWatchdogExpiry (i : Fin 4) (e : StoreEnv) (s : State) : Host.Outcome State Fault Refusal :=
  .next (State.cutShort (s.coreExpires i 1 e))

/-- VCORE has settled (R91). -/
def execVcoreSettled (s : State) : Host.Outcome State Fault Refusal :=
  .next (if s.pow.vcoreOn then s.setClk { s.clk with settled := true } else s)

/-- The junction temperature (R93, R94). DESIGN CHOICE (log 129). -/
def execTjSample (t : Word) (s : State) : Host.Outcome State Fault Refusal :=
  .next (if s.pow.vcoreOn then s.sampleTj t else s)

/-- The ledger tail is written while a ride is open (R157). -/
def execLedgerTailTimer (w : RingWrite) (s : State) : Host.Outcome State Fault Refusal :=
  .next (State.cutShort (if s.led.cur.ride.isSome && s.eventsLive then (s.tailWritten w).1 else s))

/-- VDDA falls below 2.80 V (R139, R536). -/
def execTeaselRailLoss (s : State) : Host.Outcome State Fault Refusal :=
  .next ((s.setPow { s.pow with teaselRail := false }).padsOff)

/-- The Teasel rail returns, and the latch is found set with cause bit 6 (R536). -/
def execTeaselRailReturn (s : State) : Host.Outcome State Fault Refusal :=
  .next (if s.pow.teaselRail then s else (s.setPow { s.pow with teaselRail := true }).setLatch 0x040)

/-- A supply passes its rising threshold: VDDIO_A, VDDA, PFI_N or VDDIO_B (R144, R145). DESIGN CHOICE (log 129). -/
def execSupplyMonitorRise (x : SupplyCause) (s : State) : Host.Outcome State Fault Refusal :=
  .next (let p := s.pow
    let up := match x with | .vddioA => p.vddioAUp | .vdda => p.vddaUp | .pfiN => p.pfiHigh | .bLow => p.vddioBUp
    if up then s
    else
      let q := match x with
        | .vddioA => { p with vddioAUp := true, ioUp := true }
        | .vdda => { p with vddaUp := true }
        | .pfiN => { p with pfiHigh := true }
        | .bLow => { p with vddioBUp := true }
      s.setPow q.restartPeriod)

/-- The always-on rail changes its source (R137). -/
def execAlwaysOnSourceSwitch (vddioA : Bool) (s : State) : Host.Outcome State Fault Refusal :=
  .next (s.setPow { s.pow with aoSrc := vddioA })

end Sys2Proof.Machine
end

