-- ==== Sys2Proof/Machine/PortCmd.lean ====
section
/-! DEFINITION. The commands that write or read one register of a block: what each does where its port serves it (R595, R596). -/
namespace Sys2Proof.Machine

/-! PMU_ -/

/-- PMU_OPREQ (R88, R92). -/
def execPmuOpreqWrite (i : Fin 4) (v : Word) (s : State) : Host.Outcome State Fault Refusal :=
  .next (s.portAccess (.core i) 0x100 fun (s : State) => s.opreqWrite i v)

/-- PMU_WDT (R227, R228). -/
def execPmuWdtWrite (i : Fin 4) (v : Word) (s : State) : Host.Outcome State Fault Refusal :=
  .next (s.portAccess (.core i) 0x105 fun (s : State) => s.wdtWrite i v)

/-- PMU_WDKICK (R227, R229). -/
def execPmuWdkickWrite (i : Fin 4) (v : Word) (e : StoreEnv) (s : State) : Host.Outcome State Fault Refusal :=
  .next (State.cutShort (s.portAccess (.core i) 0x106 fun (s : State) => s.wdKick i v e))

/-! FCTL_ and the flash windows -/

/-- KEYA (R837, Table Flash-11 offset 0x000). -/
def execFctlKeyaWrite (r : Fin 5) (v : Word) (s : State) : Host.Outcome State Fault Refusal :=
  .next (s.portAccess (ownerOf r) 0x200 fun (s : State) => s.fctlWrite r (.reg 0x000 v))

/-- KEYB (R837, offset 0x001). -/
def execFctlKeybWrite (r : Fin 5) (v : Word) (s : State) : Host.Outcome State Fault Refusal :=
  .next (s.portAccess (ownerOf r) 0x201 fun (s : State) => s.fctlWrite r (.reg 0x001 v))

/-- CMD (R834, R837, R859, offset 0x002). -/
def execFctlCmdWrite (r : Fin 5) (v : Word) (s : State) : Host.Outcome State Fault Refusal :=
  .next (s.portAccess (ownerOf r) 0x202 fun (s : State) => s.fctlWrite r (.reg 0x002 v))

/-- ADDR0 or ADDR1 (R837, offsets 0x003 and 0x004). -/
def execFctlAddrWrite (r : Fin 5) (high : Bool) (v : Word) (s : State) : Host.Outcome State Fault Refusal :=
  .next (s.portAccess (ownerOf r) (if high then 0x204 else 0x203) fun (s : State) => s.fctlWrite r (.reg (if high then 0x004 else 0x003) v))

/-- DATA (R837, offset 0x005). -/
def execFctlDataWrite (r : Fin 5) (v : Word) (s : State) : Host.Outcome State Fault Refusal :=
  .next (s.portAccess (ownerOf r) 0x205 fun (s : State) => s.fctlWrite r (.reg 0x005 v))

/-- A read of DATA takes the next word of the INFO queue (R839). -/
def execFctlDataRead (r : Fin 5) (s : State) : Host.Outcome State Fault Refusal :=
  .next (s.portAccess (ownerOf r) 0x205 fun (s : State) => (s.fctlRead r 0x005).2)

/-- A read of ECNT clears it (R824). -/
def execFctlEcntRead (r : Fin 5) (s : State) : Host.Outcome State Fault Refusal :=
  .next (s.portAccess (ownerOf r) 0x20E fun (s : State) => (s.fctlRead r 0x00E).2)

/-- A read of EADDR0 latches EADDR1 (R824). -/
def execFctlEaddr0Read (r : Fin 5) (s : State) : Host.Outcome State Fault Refusal :=
  .next (s.portAccess (ownerOf r) 0x20F fun (s : State) => (s.fctlRead r 0x00F).2)

/-- ECTH (R859, offset 0x00D). -/
def execFctlEcthWrite (r : Fin 5) (v : Word) (s : State) : Host.Outcome State Fault Refusal :=
  .next (s.portAccess (ownerOf r) 0x20D fun (s : State) => s.fctlWrite r (.reg 0x00D v))

/-- A store in the requester's flash window (R835, R836, Table Flash-7). -/
def execSequenceModeStore (r : Fin 5) (a : Pair) (v : Word) (s : State) : Host.Outcome State Fault Refusal :=
  .next (s.windowStore (ownerOf r) a fun (s : State) => s.fctlWrite r (.store a.toNat v))

/-- A page program is launched with its 256 words (R828, R834, R838). -/
def execFctlProgram (r : Fin 5) (a : Pair) (data : List Word) (s : State) : Host.Outcome State Fault Refusal :=
  .next (s.portCommand 0x202 fun (s : State) => s.flashProgram r a.toNat ((data ++ List.replicate 256 0xFFF).take 256))

/-- A block erase is launched (R830, R834, R838). -/
def execFctlErase (r : Fin 5) (a : Pair) (s : State) : Host.Outcome State Fault Refusal :=
  .next (s.portCommand 0x202 fun (s : State) => s.flashErase r a.toNat)

/-- A suspend is launched; `early`: within 250 µs of the erase's last resume (R841, R844). -/
def execFctlSuspend (r : Fin 5) (a : Pair) (early : Bool) (s : State) : Host.Outcome State Fault Refusal :=
  .next (s.portCommand 0x202 fun (s : State) => s.flashControl r a.toNat false early)

/-- A resume is launched (R843). -/
def execFctlResume (r : Fin 5) (a : Pair) (s : State) : Host.Outcome State Fault Refusal :=
  .next (s.portCommand 0x202 fun (s : State) => s.flashControl r a.toNat true false)

/-- INFO (R839). -/
def execFctlInfo (r : Fin 5) (a : Pair) (s : State) : Host.Outcome State Fault Refusal :=
  .next (s.portCommand 0x202 fun (s : State) => s.flashInfo r a.toNat)

/-- The assembly is cleared and SEQERR stays: CMD code 0, or 0xE47 in sequence mode (R835, Table Flash-11). -/
def execFctlAbandon (r : Fin 5) (s : State) : Host.Outcome State Fault Refusal :=
  .next (s.portCommand 0x202 fun (s : State) => s.setFown r { s.fown r with asm := .none })

/-! PWM_, ADC_, TCAP_ and TSL_ -/

/-- PWM_CTL (R490). -/
def execPwmCtlWrite (v : Word) (s : State) : Host.Outcome State Fault Refusal :=
  .next (s.portCommand 0x300 fun (s : State) => s.pwmCtl v)

/-- Word 0 of a 14-bit value (R488). -/
def execPwmWord0Write (i : Fin 5) (v : Word) (s : State) : Host.Outcome State Fault Refusal :=
  .next (s.portCommand 0x300 fun (s : State) => s.setPwm (s.pwm.stage i v))

/-- Word 1 of a 14-bit value (R488, R492). -/
def execPwmWord1Write (i : Fin 5) (v : Word) (s : State) : Host.Outcome State Fault Refusal :=
  .next (s.portCommand 0x300 fun (s : State) => s.setPwm (s.pwm.word1 i v))

/-- PWM_CNT0 read; `cnt` is the counter's value at the read (R487, Table Motor-1). -/
def execPwmCnt0Read (r : Requester) (cnt : BitVec 14) (s : State) : Host.Outcome State Fault Refusal :=
  .next (s.portAccess r 0x30F fun (s : State) => let s1 := s.setPwm (s.pwm.counted cnt)
    afterRead s1 (s1.pwmRead r.slot 0x00F))

/-- PWM_CHOPS read (R494, RC). -/
def execPwmChopsRead (r : Requester) (s : State) : Host.Outcome State Fault Refusal :=
  .next (s.portAccess r 0x315 fun (s : State) => afterRead s (s.pwmRead r.slot 0x015))

/-- ADC_SWTRG (R500). -/
def execAdcSwtrgWrite (v : Word) (s : State) : Host.Outcome State Fault Refusal :=
  .next (s.portCommand 0x400 fun (s : State) => if v.getLsbD 0 && s.mot.adc.trg = 2 then s.setAdc s.mot.adc.start else s)

/-- ADC_CTL (R500, Table Motor-4). -/
def execAdcCtlWrite (v : Word) (s : State) : Host.Outcome State Fault Refusal :=
  .next (s.portCommand 0x400 fun (s : State) => s.setAdc (s.mot.adc.ctl v))

/-- ADC_FIFOT read (R503). -/
def execAdcFifotRead (r : Requester) (s : State) : Host.Outcome State Fault Refusal :=
  .next (s.portAccess r 0x403 fun (s : State) => s.setAdc (s.mot.adc.pop r.slot).2)

/-- TCAP_NOW0 read, dt TSCLK periods after the count was last observed (R117, R118). -/
def execTcapNow0Read (r : Requester) (dt : Nat) (s : State) : Host.Outcome State Fault Refusal :=
  .next (s.portAccess r 0x500 fun (s : State) => afterRead (s.tickTs dt) ((s.tickTs dt).tcapRead r.slot 0x000))

/-- TCAP_EV0 read (R508). -/
def execTcapEv0Read (r : Requester) (s : State) : Host.Outcome State Fault Refusal :=
  .next (s.portAccess r 0x50E fun (s : State) => afterRead s (s.tcapRead r.slot 0x00E))

/-- TCAP_WCNT0 read (R505). -/
def execTcapWcnt0Read (r : Requester) (s : State) : Host.Outcome State Fault Refusal :=
  .next (s.portAccess r 0x507 fun (s : State) => afterRead s (s.tcapRead r.slot 0x007))

/-- TCAP_WPER0 read (R506). -/
def execTcapWper0Read (r : Requester) (dt : Nat) (s : State) : Host.Outcome State Fault Refusal :=
  .next (s.portAccess r 0x509 fun (s : State) => afterRead (s.tickTs dt) ((s.tickTs dt).tcapRead r.slot 0x009))

/-- TCAP_HPER0 read (R506). -/
def execTcapHper0Read (r : Requester) (dt : Nat) (s : State) : Host.Outcome State Fault Refusal :=
  .next (s.portAccess r 0x50B fun (s : State) => afterRead (s.tickTs dt) ((s.tickTs dt).tcapRead r.slot 0x00B))

/-- TCAP_HERR read (R507, RC). -/
def execTcapHerrRead (r : Requester) (s : State) : Host.Outcome State Fault Refusal :=
  .next (s.portAccess r 0x506 fun (s : State) => afterRead s (s.tcapRead r.slot 0x006))

/-- Key 0xC1A (R516). -/
def execTslClrClear (core : Fin 4) (s : State) : Host.Outcome State Fault Refusal :=
  .next (s.portAccess (.core core) 0x602 fun (s : State) => s.clearLatch core.val)

/-- Key 0x5F0 (R520). -/
def execTslSoftwareTrip (s : State) : Host.Outcome State Fault Refusal :=
  .next (s.portCommand 0x602 fun (s : State) => s.softTrip)

/-- Any other key (R520). -/
def execTslBadKey (s : State) : Host.Outcome State Fault Refusal :=
  .next (s.portCommand 0x602 fun (s : State) => s.setTsl { s.tsl with res := 7 })

/-! CEL_, key page -/

/-- CEL_KEY read (R554). -/
def execCelKeyRead (r : Requester) (s : State) : Host.Outcome State Fault Refusal :=
  .next (s.portAccess r 0x702 fun (s : State) => (s.celKeyRead r.slot 0x002).2)

/-- CEL_KDOWN0 read (R554, Table Cel-4). -/
def execCelKdown0Read (r : Requester) (s : State) : Host.Outcome State Fault Refusal :=
  .next (s.portAccess r 0x703 fun (s : State) => (s.celKeyRead r.slot 0x003).2)

/-! CANB_, I2C_, SSPI_, GNSS_ and GPIO_ -/

/-- CANB_CTL (R635, R637). -/
def execCanbCtlWrite (v : Word) (s : State) : Host.Outcome State Fault Refusal :=
  .next (s.portCommand 0x900 fun (s : State) => s.setCanb (s.per.canb.ctl v))

/-- CANB_TXDATA (R634). -/
def execCanbTxdataWrite (v : Word) (s : State) : Host.Outcome State Fault Refusal :=
  .next (s.portCommand 0x900 fun (s : State) => s.setCanb (s.per.canb.txData v))

/-- CANB_TXQ, BUF 0 to 2 (R636). -/
def execCanbTxqCommit (buf : Fin 3) (s : State) : Host.Outcome State Fault Refusal :=
  .next (s.portCommand 0x900 fun (s : State) => s.setCanb (s.per.canb.commit buf))

/-- CANB_TXQ, BUF 3. -/
def execCanbTxqDiscard (s : State) : Host.Outcome State Fault Refusal :=
  .next (s.portCommand 0x900 fun (s : State) => s.setCanb { s.per.canb with stage := emptyFrame })

/-- CANB_TXABT; `onBus` is the buffer whose frame is on the bus (R636). -/
def execCanbTxabtWrite (m : BitVec 3) (onBus : Option (Fin 3)) (s : State) : Host.Outcome State Fault Refusal :=
  .next (s.portCommand 0x900 fun (s : State) => s.setCanb (s.per.canb.abort m onBus))

/-- CANB_RXPOP (R634). -/
def execCanbRxpopWrite (s : State) : Host.Outcome State Fault Refusal :=
  .next (s.portCommand 0x900 fun (s : State) => s.setCanb s.per.canb.pop)

/-- Command 1 (R638). -/
def execI2cTransferStop (s : State) : Host.Outcome State Fault Refusal :=
  .next (s.portCommand 0xA00 fun (s : State) => s.setI2c (s.per.i2c.start false))

/-- Command 2 (R638). -/
def execI2cTransferHold (s : State) : Host.Outcome State Fault Refusal :=
  .next (s.portCommand 0xA00 fun (s : State) => s.setI2c (s.per.i2c.start true))

/-- I2C_TXD (R638). -/
def execI2cTxdWrite (v : Word) (s : State) : Host.Outcome State Fault Refusal :=
  .next (s.portCommand 0xA00 fun (s : State) => s.setI2c (s.per.i2c.write 0x004 v))

/-- I2C_RXD (R638). -/
def execI2cRxdRead (s : State) : Host.Outcome State Fault Refusal :=
  .next (s.portCommand 0xA00 fun (s : State) => s.setI2c (s.per.i2c.read 0x005).2)

/-- SSPI_GO (R639). -/
def execSspiGo (s : State) : Host.Outcome State Fault Refusal :=
  .next (s.portCommand 0xB00 fun (s : State) => s.setSspi s.per.sspi.go)

/-- SSPI_TXD (R639). -/
def execSspiTxdWrite (v : Word) (s : State) : Host.Outcome State Fault Refusal :=
  .next (s.portCommand 0xB00 fun (s : State) => s.setSspi (s.per.sspi.write 0x003 v))

/-- SSPI_RXD (R639). -/
def execSspiRxdRead (s : State) : Host.Outcome State Fault Refusal :=
  .next (s.portCommand 0xB00 fun (s : State) => s.setSspi (s.per.sspi.read 0x004).2)

/-- GNSS_TXD; `left` octets have left the FIFO for the line since the last write (R640). -/
def execGnssTxdWrite (left : Nat) (v : Word) (s : State) : Host.Outcome State Fault Refusal :=
  .next (s.portCommand 0xC00 fun (s : State) => let g := s.per.gnss
    let g1 := if g.en then { g with tx := g.tx.drop left } else g
    s.setGnss (g1.txd v))

/-- GNSS_RXD (R640). -/
def execGnssRxdRead (r : Requester) (s : State) : Host.Outcome State Fault Refusal :=
  .next (s.portAccess r 0xC02 fun (s : State) => s.setGnss (s.per.gnss.read r.slot 0x002).2)

/-- GNSS_PPS0 (R640). -/
def execGnssPps0Read (r : Requester) (s : State) : Host.Outcome State Fault Refusal :=
  .next (s.portAccess r 0xC06 fun (s : State) => s.setGnss (s.per.gnss.read r.slot 0x006).2)

/-- Word 1 of the period (8) or of generator n's high time (R641). -/
def execGpioPwmWord1Write (n : Fin 9) (v : Word) (s : State) : Host.Outcome State Fault Refusal :=
  .next (s.portCommand 0xD00 fun (s : State) => s.setGpio (s.per.gpio.word1 n v))

/-! DMA_ -/

/-- A write of DMA_CTL with GO = 1 (R631). -/
def execDmaGo (ch : Fin 32) (v : Word) (s : State) : Host.Outcome State Fault Refusal :=
  .next (s.portAccess (channelOwner ch) (channelBase ch + 6) fun (s : State) => s.dmaCtl ch (v ||| 0x010))

/-- DMA_REM0 read (R630). -/
def execDmaRem0Read (ch : Fin 32) (s : State) : Host.Outcome State Fault Refusal :=
  .next (s.portAccess (channelOwner ch) (channelBase ch + 8) fun (s : State) => (s.dmaRead ch 8).2)

/-! GRT_, and any register -/

/-- GRT_DBELL is written (Table Jieles-9, R647). -/
def execGrtDbellWrite (core : Fin 4) (v : Word) (s : State) : Host.Outcome State Fault Refusal :=
  .next (s.portAccess (.core core) 0x005 fun (s : State) => s.ringDoorbells core v)

/-- GRT_DBSRC is read (Table Jieles-9). -/
def execGrtDbsrcRead (core : Fin 4) (s : State) : Host.Outcome State Fault Refusal :=
  .next (s.portAccess (.core core) 0x006 fun (s : State) => (s.grtRead core 0x006).2)

/-- GRT_MBXDONE is written (R285). -/
def execGrtMbxdoneWrite (core : Fin 4) (v : Word) (s : State) : Host.Outcome State Fault Refusal :=
  .next (s.portAccess (.core core) 0x011 fun (s : State) => s.mbxDone core v)

/-- GRT_MBXEVT is written (Table Host-10). -/
def execGrtMbxevtWrite (core : Fin 4) (v : Word) (s : State) : Host.Outcome State Fault Refusal :=
  .next (s.portAccess (.core core) 0x012 fun (s : State) => s.mbxEvent core v)

/-- A write of an I/O register by a core, or by the Steward, as its port takes it (R18, R595). The DMA engine writes no register. -/
def execRegisterWrite (r : Requester) (addr : Word) (v : Word) (e : AccessEnv) (s : State) : Host.Outcome State Fault Refusal :=
  .next (s.portAccess r addr.toNat fun (s : State) => match r with
    | .core i => s.ioWrite i addr.toNat v e
    | .steward => s.stewardWrite addr.toNat v e
    | .dma => s)
end Sys2Proof.Machine
end

