-- ==== Sys2Proof/Machine/TapCmd.lean ====
section
/-! DEFINITION. The test access port and the trace port (R979 to R986, Tables Elec-22 and Elec-23). -/
namespace Sys2Proof.Machine

def State.setDbg (s : State) (d : Debug) : State := { s with dbg := d }

/-- The TAP acts: JTAGEN was sampled 1, and its domain is powered (R980, R1005). -/
def State.tapOn (s : State) : Bool := s.boot.jtagen && s.pow.vcoreOn

/-- Debug is available (R980, Table Start-11). -/
def State.debugOn (s : State) : Bool := s.lifecycle ≠ .fielded || s.boot.debugUnlocked

/-- An instruction takes effect: outputs are driven from the boundary-scan register by EXTEST and CLAMP, and float under HIGHZ (Table
Elec-22). DESIGN CHOICE (log 42). DEDUCED (log 43). -/
def Debug.select (d : Debug) (x : TapInstr) : Debug :=
  { d with instr := x, driving := x = .extest || x = .clamp, highz := x = .highz }

/-- An instruction that is always available. DESIGN CHOICE (log 42). -/
def State.tap (s : State) (x : TapInstr) (f : Debug → Debug) : State :=
  if s.tapOn then s.setDbg (f (s.dbg.select x)) else s

/-- A debug instruction: without debug it acts as BYPASS (R980). -/
def State.debug (s : State) (x : TapInstr) (f : State → State) : State :=
  if !s.tapOn then s
  else if s.debugOn then f (s.setDbg (s.dbg.select x))
  else s.setDbg { s.dbg.select .bypass with capture := 0 }

/-- EXTEST: the balls' levels are captured, and with Update-DR the cells are driven (R979). -/
def execTapExtest (levels : List Bool) (update : Option (List Bool)) (s : State) : Host.Outcome State Fault Refusal :=
  .next (s.tap .extest (fun d => { d with sampled := levels, cells := update.getD d.cells }))

/-- IDCODE (R979). -/
def execTapIdcode (s : State) : Host.Outcome State Fault Refusal :=
  .next (s.tap .idcode (fun d => { d with capture := 0x21224B67 }))

/-- SAMPLE/PRELOAD: the balls' levels are captured, and with Update-DR the cells are loaded (R979). -/
def execTapSamplePreload (levels : List Bool) (update : Option (List Bool)) (s : State) : Host.Outcome State Fault Refusal :=
  .next (s.tap .samplePreload (fun d => { d with sampled := levels, cells := update.getD d.cells }))

/-- CLAMP (Table Elec-22); a bypass register captures 0. -/
def execTapClamp (s : State) : Host.Outcome State Fault Refusal := .next (s.tap .clamp (fun d => { d with capture := 0 }))

/-- HIGHZ (Table Elec-22). -/
def execTapHighz (s : State) : Host.Outcome State Fault Refusal := .next (s.tap .highz (fun d => { d with capture := 0 }))

/-- BYPASS, and every code that Table Elec-22 does not name (R979). -/
def execTapBypass (s : State) : Host.Outcome State Fault Refusal := .next (s.tap .bypass (fun d => { d with capture := 0 }))

/-- Bits of the cores that stand in one of some states. -/
def State.coreBits (s : State) (f : RunState → Bool) : Nat := boolsNat (allCores.map (fun i => f (s.core.get i).run))
def State.haltedBits (s : State) : Nat := s.coreBits (fun r => r = .halted)
def State.runningBits (s : State) : Nat := s.coreBits (fun r => r = .running || r = .waiting)

/-- DBGSTAT (R981). -/
def execDbgstat (s : State) : Host.Outcome State Fault Refusal :=
  .next (s.tap .dbgstat (fun d =>
    { d with capture := BitVec.ofNat 35 (s.lifecycle.code + 4 * s.debugOn.toNat + 16 * s.haltedBits + 256 * s.runningBits) }))

/-- What a Capture-DR of CORECTL returns (R982). DEDUCED (log 43). -/
def State.captureCorectl (s : State) : State :=
  s.setDbg { s.dbg with capture := BitVec.ofNat 35 (s.haltedBits + 16 * s.runningBits) }

/-- A core is halted (R982): as an interrupt stops it, with PC at the next bundle; one in WAIT at once. -/
def State.haltCore (s : State) (i : Fin 4) : State :=
  let c := s.core.get i
  let pwm (s : State) : State := if c.granted 3 then s.setLatch 0x080 else s
  let note (waiting : Bool) (s : State) : State :=
    (s.setDbg { s.dbg with wasWaiting := s.dbg.wasWaiting.set i waiting }).trace i 6 [0]
  match c.run with
  | .running =>
    if !c.drained then s
    else
      let s1 := s.squash i 0
      pwm (note false (s1.setCore i { s1.core.get i with run := .halted, pc := c.resumePc }))
  | .waiting => pwm (note true (s.setCore i { c with run := .halted }))
  | .stopped | .halted | .inReset => s

/-- A halted core goes on, or back to its WAIT (R982). DEDUCED (log 41). -/
def State.resumeCore (s : State) (i : Fin 4) : State :=
  let c := s.core.get i
  if c.run ≠ .halted then s
  else
    let w := s.dbg.wasWaiting.get i
    ((s.setCore i { c with run := if w then .waiting else .running }).setDbg
      { s.dbg with wasWaiting := s.dbg.wasWaiting.set i false }).trace i 6 [1]

/-- A halted core issues one bundle, fetched at PC, and halts again (R982). A core halted in WAIT issues none. DEDUCED (log 41). -/
def State.stepCore (s : State) (i : Fin 4) (e : AccessEnv) : State :=
  let c := s.core.get i
  if c.run ≠ .halted || s.dbg.wasWaiting.get i then s
  else
    let s1 := s.setCore i { c with run := .running }
    let s2 := ((if c.between then s1.fetchBundle i e else s1).settle i).takeTrap i
    let c2 := s2.core.get i
    match c2.run with
    | .running => (s2.setCore i { c2 with run := .halted }).trace i 6 [0]
    | .waiting =>
      ((s2.setCore i { c2 with run := .halted }).setDbg { s2.dbg with wasWaiting := s2.dbg.wasWaiting.set i true }).trace i 6 [0]
    | .stopped | .halted | .inReset => s2

/-- The cores of a mask, in order. -/
def maskCores (m : BitVec 4) : List (Fin 4) := allCores.filter (fun i => m.getLsbD i.val)

/-- CORECTL halt requests (R982). -/
def execCoreHalt (cores : BitVec 4) (s : State) : Host.Outcome State Fault Refusal :=
  .next (s.debug .corectl (fun s => (maskCores cores).foldl State.haltCore s.captureCorectl))

/-- CORECTL resume requests (R982). -/
def execCoreResume (cores : BitVec 4) (s : State) : Host.Outcome State Fault Refusal :=
  .next (s.debug .corectl (fun s => (maskCores cores).foldl State.resumeCore s.captureCorectl))

/-- CORECTL single-step requests (R982); `e` is what the bundle's accesses may need of the world. -/
def execCoreSingleStep (cores : BitVec 4) (e : AccessEnv) (s : State) : Host.Outcome State Fault Refusal :=
  .next (s.debug .corectl (fun s => (maskCores cores).foldl (fun s i => s.stepCore i e) s.captureCorectl))

/-- A register of a halted core by its select code (R983); none for a code that names none, or a reserved special register (R588). DEDUCED (log 37). -/
def CoreState.debugRead (c : CoreState) (i : Fin 4) (sel : Nat) : Option Pair :=
  if sel < 32 then some ((c.rw (fin32 sel)).setWidth 24)
  else if sel < 36 then some (c.k.get ⟨(sel - 32) % 4, Nat.mod_lt _ (by decide)⟩)
  else if sel = 36 then some (c.acc.setWidth 24)
  else if sel = 37 then some ((c.acc >>> 24).setWidth 24)
  else if sel = 38 then some c.pc
  else if sel < 39 + 15 then some ((c.special i (fin32 (sel - 39))).setWidth 24)
  else none

/-- A register of a halted core written (R983). -/
def CoreState.debugWrite (c : CoreState) (sel : Nat) (v : Pair) : CoreState :=
  if sel < 32 then c.setW (fin32 sel) (loWord v)
  else if sel < 36 then c.setK ⟨(sel - 32) % 4, Nat.mod_lt _ (by decide)⟩ v
  else if sel = 36 then { c with acc := ((c.acc >>> 24).setWidth 12 : Word) ++ v }
  else if sel = 37 then { c with acc := loWord v ++ (c.acc.setWidth 24 : Pair) }
  else if sel = 38 then { c with pc := v }
  else c.setSpecial (fin32 (sel - 39)) (loWord v)

/-- COREREG: the capture shows the last access, and the update makes the next (R983). -/
def execCoreregAccess (core : Fin 4) (sel : BitVec 7) (write : Bool) (v : Pair) (s : State) : Host.Outcome State Fault Refusal :=
  .next (s.debug .corereg (fun s =>
    let d := { s.dbg with capture := (s.dbg.regOk.toNat : Nat) |> fun k => BitVec.ofNat 35 (s.dbg.regValue.toNat + 2 ^ 34 * k) }
    let c := s.core.get core
    match c.debugRead core sel.toNat with
    | none => s.setDbg { d with regOk := false }
    | some r =>
      if c.run ≠ .halted then s.setDbg { d with regOk := false }
      else if write then (s.setDbg { d with regOk := true }).setCore core (c.debugWrite sel.toNat v)
      else s.setDbg { d with regOk := true, regValue := r }))

/-- MEMADDR (R984). -/
def execMemaddrUpdate (addr : Pair) (core : Fin 4) (inc : Bool) (s : State) : Host.Outcome State Fault Refusal :=
  .next (s.debug .memaddr (fun s => s.setDbg { s.dbg with memAddr := addr, memCore := core, autoInc := inc }))

/-- Where the debug port reaches (R984): 0 a tile, 1 the scratch of a halted core, 2 flash. -/
def State.debugRegion (s : State) : Option Nat :=
  let a := s.dbg.memAddr.toNat
  if a % 2 = 1 then none
  else if inTiles a 2 then (if s.tileFailed a then none else some 0)
  else if a < 0x004000 then (if (s.core.get s.dbg.memCore).run = .halted then some 1 else none)
  else if inArray a then some 2
  else none

/-- The pair at the debug address (R984); `ec`: the error count of the flash line. DEDUCED (log 40). -/
def State.debugPair (s : State) (ec : BitVec 2) : Option Pair :=
  let a := s.dbg.memAddr.toNat
  let pair (ws : List Word) : Pair := ws.getD 1 0 ++ ws.getD 0 0
  match s.debugRegion with
  | some 0 => if (s.mem.homeOf (a / 16)).err then none else some (pair (s.cohRead a 2))
  | some 1 => some (pair (memGetList 0 (s.core.get s.dbg.memCore).scratch a 2))
  | some 2 => if s.flashBusy a || ec = 3 then none else some (pair (memGetList 0xFFF s.fl.cells a 2))
  | _ => none

/-- Capture-DR of MEMDATA reads the pair, or bit 25 reports an error (R984). -/
def execMemdataCapture (ec : BitVec 2) (s : State) : Host.Outcome State Fault Refusal :=
  .next (s.debug .memdata (fun s =>
    let d := s.dbg
    match s.debugPair ec with
    | some v => s.setDbg { d with capture := BitVec.ofNat 35 (v.toNat + 2 ^ 25 * d.memErr.toNat), memErr := false }
    | none => s.setDbg { d with capture := BitVec.ofNat 35 (2 ^ 25), memErr := false }))

/-- Update-DR of MEMDATA, which with `write` (bit 24) writes the pair; the address then advances where MEMADDR says so (R984). -/
def execMemdataWrite (write : Bool) (v : Pair) (s : State) : Host.Outcome State Fault Refusal :=
  .next (s.debug .memdata (fun s =>
    let a := s.dbg.memAddr.toNat
    let s1 := if !write then s else
      match s.debugRegion with
      | some 0 => s.cohWrite a [loWord v, hiWord v]
      | some 1 =>
        let c := s.core.get s.dbg.memCore
        s.setCore s.dbg.memCore { c with scratch := memSetList 0 a [loWord v, hiWord v] c.scratch }
      | _ => s.setDbg { s.dbg with memErr := true }
    if s1.dbg.autoInc then s1.setDbg { s1.dbg with memAddr := s1.dbg.memAddr + 2 } else s1))

/-- JRESET: a warm reset, after which it acts as BYPASS (R985); `e` is what the new start meets. -/
def execJreset (e : StartEnv) (s : State) : Host.Outcome State Fault Refusal :=
  .next (s.debug .bypass (fun s => s.warmReset e))

/-- TRACECTL (R986): each core whose trace is enabled anew begins with a synchronisation packet. -/
def execTracectlUpdate (v : Word) (s : State) : Host.Outcome State Fault Refusal :=
  .next (s.debug .tracectl (fun s =>
    let old := if s.dbg.traceRate = 0 then 0 else s.dbg.traceEn
    let en : BitVec 4 := (v >>> 2).setWidth 4
    let s1 := s.setDbg { s.dbg with traceRate := v.setWidth 2, traceEn := en }
    (maskCores (en &&& ~~~old)).foldl (fun (s : State) (i : Fin 4) => s.trace i 1 (syncPayload (s.core.get i).pc)) s1))

end Sys2Proof.Machine
end

