-- ==== Sys2Proof/Machine/Wake.lean ====
section
/-! DEFINITION. The events of Celandine that can start the device (R57), presence (spec/06_custody.md, R308 to R313), the
comparators' trips with their probation, and the timers of custody and the ledger. -/
namespace Sys2Proof.Machine

/-! Wake sources -/

/-- What an event of Celandine leads to, and the wake that follows when it asks for one (R57). -/
def wakeAfter (e : StartEnv) (x : State × Bool) : State := if x.2 then x.1.wakeRequest e else x.1

/-- A scan of the key matrix (R549 to R555). -/
def execKeyScan (r : Vector KeyReading 16) (e : StartEnv) (s : State) : Host.Outcome State Fault Refusal :=
  .next (if s.dark then s else match s.keyScan r with
    | (s1, true) => (s1.wakeBit 0).wakeRequest e
    | (s1, false) => s1)

/-- A measurement of one seal loop (R563 to R567). -/
def execSealMeasure (n : Fin 2) (bin : BitVec 4) (e : StartEnv) (s : State) : Host.Outcome State Fault Refusal :=
  .next (if s.dark then s else wakeAfter e (s.sealMeasure n bin))

/-- A shock (R569). -/
def execShockDetect (e : StartEnv) (s : State) : Host.Outcome State Fault Refusal := .next (if s.dark then s else wakeAfter e s.shock)

/-- A falling edge of HCS_N, or of HRXD with `hrxd`, in AO (R573). -/
def execHostWakeEdge (hrxd : Bool) (e : StartEnv) (s : State) : Host.Outcome State Fault Refusal :=
  .next (if s.pow.pm = .ao && hrxd = s.boot.hsel then (s.wakeBit 6).wakeRequest e else s)

/-! Presence -/

/-- The level of SERVICE_N changes; the table names the fall. A fall counts while the period of a recorded opening runs (R309,
R571). -/
def execServiceNFall (low : Bool) (s : State) : Host.Outcome State Fault Refusal :=
  .next (let p := s.cus.presence
    s.setPresence { p with serviceLow := low, serviceCounts := low && p.servicePeriod })

/-- A source is recognised, and the device wakes (R57, R313). DEDUCED (log 57). DESIGN CHOICE (log 58). -/
def State.presenceEvent (s : State) (x : Sources) (bit : Nat) (e : StartEnv) : State :=
  ((s.recognise x e.store).wakeBit bit).wakeRequest e

/-- A press that counts has stayed low for 2 s (Table Custody-1); `jumper`: the jumper is recognised in the same instant
(R353). -/
def execServicePressRecognised (jumper : Bool) (e : StartEnv) (s : State) : Host.Outcome State Fault Refusal :=
  .next (let p := s.cus.presence
    if p.serviceLow && p.serviceCounts && !s.dark then
      let both := jumper && p.jumperFitted && p.jumperPending
      let s1 := s.setPresence { p with serviceCounts := false, jumperPending := p.jumperPending && !both }
      let s2 := if both then s1.wakeBit 5 else s1
      s2.presenceEvent { service := true, dock := false, jumper := both } 3 e
    else s)

/-- The level of JMP_PRES changes; the table names the fall (R311). -/
def execJmpPresFall (low : Bool) (s : State) : Host.Outcome State Fault Refusal :=
  .next (s.setPresence { s.cus.presence with jumperFitted := low, jumperPending := low })

/-- The jumper has stayed fitted for 1 s (Table Custody-1, R311). -/
def execJumperRecognised (e : StartEnv) (s : State) : Host.Outcome State Fault Refusal :=
  .next (let p := s.cus.presence
    if p.jumperFitted && p.jumperPending && !s.dark then
      (s.setPresence { p with jumperPending := false }).presenceEvent { service := false, dock := false, jumper := true } 5 e
    else s)

/-- A gate of DOCK_PRES ends with a count of edges (Table Custody-1, R310, R360, R570). -/
def execDockGateEnd (edges : Nat) (e : StartEnv) (s : State) : Host.Outcome State Fault Refusal :=
  .next (State.cutShort (let p := s.cus.presence
    if s.boot.role = .dock || s.dark then s
    else if s.cel.lfxFailed || !inRange edges 251 261 then s.setPresence { p with dockGates := 0 }
    else
      let n := min 4 (p.dockGates + 1)
      let dock : Sources := { service := false, dock := true, jumper := false }
      let s1 := s.setPresence { p with dockGates := n }
      if n < 4 then (if p.windowOpen && p.dockBlocked then s1.dockCommit e.store else s1)
      else if p.dockGates < 4 then s1.presenceEvent dock 4 e
      else if p.windowOpen then
        (s1.setPresence { s1.cus.presence with windowLeft := p.windowLen, windowPhase := 0 }).dockCommit e.store
      else s1))

/-- The presence window runs out (Table Custody-2). -/
def execPresenceWindowExpiry (s : State) : Host.Outcome State Fault Refusal := .next (s.closeWindow 0)

/-- The SERVICE_N period ends (R309, R565). -/
def execServicePeriodExpiry (s : State) : Host.Outcome State Fault Refusal :=
  .next (s.setPresence { s.cus.presence with servicePeriod := false })

/-- A press exceeds 30 s (R362). -/
def execStuckButtonTimeout (s : State) : Host.Outcome State Fault Refusal :=
  .next (if s.cus.presence.serviceLow then s.raise 0x3007 [] else s)

/-- Gates are rejected for more than 10 s while edges arrive (R361). -/
def execDockRejectTimeout (s : State) : Host.Outcome State Fault Refusal :=
  .next (let p := s.cus.presence
    let due := match p.dockEventAt with | none => true | some t => decide (t + 600 * 32768 ≤ s.ticks)
    if due then (s.setPresence { p with dockEventAt := some s.ticks }).raise 0x3008 [] else s)

/-! Trips that a probation counts -/

/-- A source of the Teasel block trips; a latch that it sets fails a running probation (R335, R354). -/
def State.trip (s : State) (n : Fin 5) (e : StoreEnv) : State :=
  let s1 := s.sourceOn n
  if s1.tsl.latch && !s.tsl.latch then s1.failProbation 1 e else s1

/-- A comparator becomes active (R510, R513). -/
def execComparatorActive (n : Fin 4) (e : StoreEnv) (s : State) : Host.Outcome State Fault Refusal :=
  .next (State.cutShort (s.trip ⟨n.val, by omega⟩ e))

/-- FAULT_N goes low (R511, R513). -/
def execFaultNActive (e : StoreEnv) (s : State) : Host.Outcome State Fault Refusal := .next (State.cutShort (s.trip 4 e))

/-! Timers of custody and the ledger -/

/-- 86 400 s since a probation's start (R334). -/
def execProbationExpiry (w : StoreWrite) (s : State) : Host.Outcome State Fault Refusal :=
  .next (State.cutShort (if s.probationDue && s.eventsLive then (s.passProbation w).1 else s))

/-- The scrub of the edition store (R339). -/
def execScrubTimer (e : StoreEnv) (s : State) : Host.Outcome State Fault Refusal :=
  .next (if s.led.cur.ride.isNone && s.eventsLive then s.compareTwins e false else s)

/-- The closure check of a wall-clock second (R388, Table Ledger-9). -/
def execClosureCheck (w : RingWrite) (s : State) : Host.Outcome State Fault Refusal :=
  .next (State.cutShort (if s.eventsLive then s.closureCheckWith w else s))

/-- Class 4 ages to class 3 (R368). DEDUCED (log 114). -/
def execClass4Decay (s : State) : Host.Outcome State Fault Refusal :=
  .next (if s.clock.cls = 4 && decide (86400 ≤ s.led.cur.class4Age) then s.setClock { s.clock with cls := 3 } else s)

/-- The open ride reaches its tariff's longest duration (R384). -/
def execMaxRideDuration (w : RingWrite) (e : StoreEnv) (s : State) : Host.Outcome State Fault Refusal :=
  .next (State.cutShort (match s.led.cur.ride with
    | none => s
    | some r =>
      if s.eventsLive && decide (tariffMaxRide r.tariff ≤ s.rideSeconds r) then s.rideEnded 1 w e else s))

/-- STAGE_RELAY is received: the member stages the record and answers with the status (R453). -/
def execStageRelay (fs : List CanFrame) (w : StoreWrite) (s : State) : Host.Outcome State Fault Refusal :=
  .next (State.cutShort (s.onSecured 0x11 fs (fun n => packedLengthOk n) (fun s _ b =>
    let data := octetsToWords b
    let (s1, status) := match domOfCode (wN data 2) with
      | none => (s, 0x1A)
      | some d => s.stage d data w
    s1.sendSecured 0x12 0 [BitVec.ofNat 8 status])))

end Sys2Proof.Machine
end

