-- ==== Sys2Proof/Machine/All.lean ====
section
/-! DEFINITION. The families of meanings, joined for the dispatch. -/
end

