-- ==== Sys2Proof/Machine/Dispatch.lean ====
section
/-! DEFINITION. The dispatch: one arm for each command. -/
namespace Sys2Proof.Machine

/-- The effect of a command on everything but the queue. -/
def exec (i : Instr) (s : State) : Host.Outcome State Fault Refusal :=
  match i with
  | .alwaysOnRise => Sys2Proof.Machine.execAlwaysOnRise s
  | .alwaysOnFall cut => Sys2Proof.Machine.execAlwaysOnFall cut s
  | .aoLowTrip low => Sys2Proof.Machine.execAoLowTrip low s
  | .pwrFailTrip analog => Sys2Proof.Machine.execPwrFailTrip analog s
  | .pfiNFall => Sys2Proof.Machine.execPfiNFall s
  | .bLowTrip => Sys2Proof.Machine.execBLowTrip s
  | .ioBorTrip cut => Sys2Proof.Machine.execIoBorTrip cut s
  | .cLowTrip => Sys2Proof.Machine.execCLowTrip s
  | .cLowClear => Sys2Proof.Machine.execCLowClear s
  | .vcoreFault f cut => Sys2Proof.Machine.execVcoreFault f cut s
  | .v33Good e => Sys2Proof.Machine.execV33Good e s
  | .retryTimerExpiry e => Sys2Proof.Machine.execRetryTimerExpiry e s
  | .faultCountClear => Sys2Proof.Machine.execFaultCountClear s
  | .holdupSequenceComplete => Sys2Proof.Machine.execHoldupSequenceComplete s
  | .tierDecision failed e => Sys2Proof.Machine.execTierDecision failed e s
  | .selftestTimeout unended e => Sys2Proof.Machine.execSelftestTimeout unended e s
  | .knownAnswerRetest failed => Sys2Proof.Machine.execKnownAnswerRetest failed s
  | .pllLock => Sys2Proof.Machine.execPllLock s
  | .pllLockLoss => Sys2Proof.Machine.execPllLockLoss s
  | .pllRelockTimeout => Sys2Proof.Machine.execPllRelockTimeout s
  | .hfxStartTimeout => Sys2Proof.Machine.execHfxStartTimeout s
  | .domainClockStopped d also => Sys2Proof.Machine.execDomainClockStopped d also s
  | .fclkStopped cut => Sys2Proof.Machine.execFclkStopped cut s
  | .oscActivityTimeout lfx => Sys2Proof.Machine.execOscActivityTimeout lfx s
  | .lfxCheckWindow edges => Sys2Proof.Machine.execLfxCheckWindow edges s
  | .lfoCountCheck off => Sys2Proof.Machine.execLfoCountCheck off s
  | .stewardWatchdogExpiry e => Sys2Proof.Machine.execStewardWatchdogExpiry e s
  | .coreWatchdogExpiry c e => Sys2Proof.Machine.execCoreWatchdogExpiry c e s
  | .pmuOpreqWrite c v => Sys2Proof.Machine.execPmuOpreqWrite c v s
  | .pmuWdtWrite c v => Sys2Proof.Machine.execPmuWdtWrite c v s
  | .pmuWdkickWrite c v e => Sys2Proof.Machine.execPmuWdkickWrite c v e s
  | .vcoreSettled => Sys2Proof.Machine.execVcoreSettled s
  | .tjSample t => Sys2Proof.Machine.execTjSample t s
  | .ledgerTailTimer w => Sys2Proof.Machine.execLedgerTailTimer w s
  | .spiWrite used os => Sys2Proof.Machine.execSpiWrite used os s
  | .spiRead used n => Sys2Proof.Machine.execSpiRead used n s
  | .spiReread used n => Sys2Proof.Machine.execSpiReread used n s
  | .spiStatus used => Sys2Proof.Machine.execSpiStatus used s
  | .spiBadOpcode used op => Sys2Proof.Machine.execSpiBadOpcode used op s
  | .hcsTimeout write => Sys2Proof.Machine.execHcsTimeout write s
  | .uartFrame used os => Sys2Proof.Machine.execUartFrame used os s
  | .uartGapTimeout => Sys2Proof.Machine.execUartGapTimeout s
  | .hctsChange high sent => Sys2Proof.Machine.execHctsChange high sent s
  | .uartRateApply => Sys2Proof.Machine.execUartRateApply s
  | .uartRateRevert => Sys2Proof.Machine.execUartRateRevert s
  | .usbFrame used os => Sys2Proof.Machine.execUsbFrame used os s
  | .usbVbusChange present => Sys2Proof.Machine.execUsbVbusChange present s
  | .duplicateRequest c cmd flags q => Sys2Proof.Machine.execDuplicateRequest c cmd flags q s
  | .interimDue t c ms => Sys2Proof.Machine.execInterimDue t c ms s
  | .appRequest c cmd flags q => Sys2Proof.Machine.execAppRequest c cmd flags q s
  | .grtMbxdoneWrite core v => Sys2Proof.Machine.execGrtMbxdoneWrite core v s
  | .appResponseTimeout c => Sys2Proof.Machine.execAppResponseTimeout c s
  | .grtMbxevtWrite core v => Sys2Proof.Machine.execGrtMbxevtWrite core v s
  | .serviceNFall low => Sys2Proof.Machine.execServiceNFall low s
  | .servicePressRecognised jumper e => Sys2Proof.Machine.execServicePressRecognised jumper e s
  | .jmpPresFall low => Sys2Proof.Machine.execJmpPresFall low s
  | .jumperRecognised e => Sys2Proof.Machine.execJumperRecognised e s
  | .dockGateEnd edges e => Sys2Proof.Machine.execDockGateEnd edges e s
  | .presenceWindowExpiry => Sys2Proof.Machine.execPresenceWindowExpiry s
  | .servicePeriodExpiry => Sys2Proof.Machine.execServicePeriodExpiry s
  | .stuckButtonTimeout => Sys2Proof.Machine.execStuckButtonTimeout s
  | .dockRejectTimeout => Sys2Proof.Machine.execDockRejectTimeout s
  | .probationExpiry w => Sys2Proof.Machine.execProbationExpiry w s
  | .scrubTimer e => Sys2Proof.Machine.execScrubTimer e s
  | .closureCheck w => Sys2Proof.Machine.execClosureCheck w s
  | .class4Decay => Sys2Proof.Machine.execClass4Decay s
  | .maxRideDuration w e => Sys2Proof.Machine.execMaxRideDuration w e s
  | .announce fs => Sys2Proof.Machine.execAnnounce fs s
  | .announceTimer => Sys2Proof.Machine.execAnnounceTimer s
  | .joinReq fs => Sys2Proof.Machine.execJoinReq fs s
  | .joinChal fs => Sys2Proof.Machine.execJoinChal fs s
  | .joinProof fs => Sys2Proof.Machine.execJoinProof fs s
  | .joinResult fs => Sys2Proof.Machine.execJoinResult fs s
  | .joinTimeout => Sys2Proof.Machine.execJoinTimeout s
  | .proofTimeout => Sys2Proof.Machine.execProofTimeout s
  | .backoffExpiry => Sys2Proof.Machine.execBackoffExpiry s
  | .leave fs => Sys2Proof.Machine.execLeave fs s
  | .rekey fs => Sys2Proof.Machine.execRekey fs s
  | .keyAgeRekey node => Sys2Proof.Machine.execKeyAgeRekey node s
  | .rekeyTimeout node => Sys2Proof.Machine.execRekeyTimeout node s
  | .rekeyRetry node => Sys2Proof.Machine.execRekeyRetry node s
  | .prevGenerationExpiry node => Sys2Proof.Machine.execPrevGenerationExpiry node s
  | .heartbeat fs => Sys2Proof.Machine.execHeartbeat fs s
  | .heartbeatTimer => Sys2Proof.Machine.execHeartbeatTimer s
  | .roster fs => Sys2Proof.Machine.execRoster fs s
  | .energyReport fs => Sys2Proof.Machine.execEnergyReport fs s
  | .energyReportTimer => Sys2Proof.Machine.execEnergyReportTimer s
  | .reportReq fs => Sys2Proof.Machine.execReportReq fs s
  | .timeOffer fs dt => Sys2Proof.Machine.execTimeOffer fs dt s
  | .timeOfferTimer => Sys2Proof.Machine.execTimeOfferTimer s
  | .offerWithdraw => Sys2Proof.Machine.execOfferWithdraw s
  | .configOffer fs => Sys2Proof.Machine.execConfigOffer fs s
  | .configMerged fs => Sys2Proof.Machine.execConfigMerged fs s
  | .dockState fs => Sys2Proof.Machine.execDockState fs s
  | .dockStateTimer chargerOn chargerFault => Sys2Proof.Machine.execDockStateTimer chargerOn chargerFault s
  | .chargeReport fs => Sys2Proof.Machine.execChargeReport fs s
  | .stageRelay fs w => Sys2Proof.Machine.execStageRelay fs w s
  | .relayResult fs => Sys2Proof.Machine.execRelayResult fs s
  | .relayTimeout => Sys2Proof.Machine.execRelayTimeout s
  | .memberSilenceTimeout node => Sys2Proof.Machine.execMemberSilenceTimeout node s
  | .vehicleSilenceTimeout => Sys2Proof.Machine.execVehicleSilenceTimeout s
  | .fragmentTimeout sender => Sys2Proof.Machine.execFragmentTimeout sender s
  | .canAFrameIgnored f => Sys2Proof.Machine.execCanAFrameIgnored f s
  | .concordUnknownType f => Sys2Proof.Machine.execConcordUnknownType f s
  | .canABusError txErrors rxErrors => Sys2Proof.Machine.execCanABusError txErrors rxErrors s
  | .busOffRecovery => Sys2Proof.Machine.execBusOffRecovery s
  | .rateFallbackEnd => Sys2Proof.Machine.execRateFallbackEnd s
  | .restrictedModeTimeout => Sys2Proof.Machine.execRestrictedModeTimeout s
  | .twoVehiclesHeard fs => Sys2Proof.Machine.execTwoVehiclesHeard fs s
  | .afeSample rsp dt => Sys2Proof.Machine.execAfeSample rsp dt s
  | .packCounterPersist => Sys2Proof.Machine.execPackCounterPersist s
  | .pwmUpdateEvent peak dt => Sys2Proof.Machine.execPwmUpdateEvent peak dt s
  | .pwmAdcTrigger => Sys2Proof.Machine.execPwmAdcTrigger s
  | .adcEntryComplete codeA codeB => Sys2Proof.Machine.execAdcEntryComplete codeA codeB s
  | .pwmCtlWrite v => Sys2Proof.Machine.execPwmCtlWrite v s
  | .pwmWord0Write k v => Sys2Proof.Machine.execPwmWord0Write k v s
  | .pwmWord1Write k v => Sys2Proof.Machine.execPwmWord1Write k v s
  | .adcSwtrgWrite v => Sys2Proof.Machine.execAdcSwtrgWrite v s
  | .adcCtlWrite v => Sys2Proof.Machine.execAdcCtlWrite v s
  | .adcFifotRead r => Sys2Proof.Machine.execAdcFifotRead r s
  | .filteredEdge dt e => Sys2Proof.Machine.execFilteredEdge dt e s
  | .tcapEv0Read r => Sys2Proof.Machine.execTcapEv0Read r s
  | .tcapNow0Read r dt => Sys2Proof.Machine.execTcapNow0Read r dt s
  | .tcapWcnt0Read r => Sys2Proof.Machine.execTcapWcnt0Read r s
  | .tcapWper0Read r dt => Sys2Proof.Machine.execTcapWper0Read r dt s
  | .tcapHper0Read r dt => Sys2Proof.Machine.execTcapHper0Read r dt s
  | .tcapHerrRead r => Sys2Proof.Machine.execTcapHerrRead r s
  | .pwmCnt0Read r cnt => Sys2Proof.Machine.execPwmCnt0Read r cnt s
  | .pwmChopsRead r => Sys2Proof.Machine.execPwmChopsRead r s
  | .comparatorActive n e => Sys2Proof.Machine.execComparatorActive n e s
  | .comparatorInactive n => Sys2Proof.Machine.execComparatorInactive n s
  | .faultNActive e => Sys2Proof.Machine.execFaultNActive e s
  | .faultNRelease => Sys2Proof.Machine.execFaultNRelease s
  | .tslClrClear core => Sys2Proof.Machine.execTslClrClear core s
  | .tslSoftwareTrip => Sys2Proof.Machine.execTslSoftwareTrip s
  | .tslBadKey => Sys2Proof.Machine.execTslBadKey s
  | .rearmExpiry => Sys2Proof.Machine.execRearmExpiry s
  | .lockExpiry => Sys2Proof.Machine.execLockExpiry s
  | .lowSideDeadTime => Sys2Proof.Machine.execLowSideDeadTime s
  | .dwellExpiry => Sys2Proof.Machine.execDwellExpiry s
  | .mclkLoss => Sys2Proof.Machine.execMclkLoss s
  | .keyColumnFall => Sys2Proof.Machine.execKeyColumnFall s
  | .keyScan r e => Sys2Proof.Machine.execKeyScan r e s
  | .keyHoldLimit n => Sys2Proof.Machine.execKeyHoldLimit n s
  | .celKeyRead r => Sys2Proof.Machine.execCelKeyRead r s
  | .celKdown0Read r => Sys2Proof.Machine.execCelKdown0Read r s
  | .lcdFrameStart => Sys2Proof.Machine.execLcdFrameStart s
  | .lcdCommit => Sys2Proof.Machine.execLcdCommit s
  | .sealMeasure n bin e => Sys2Proof.Machine.execSealMeasure n bin e s
  | .celSealWrite n v => Sys2Proof.Machine.execCelSealWrite n v s
  | .shockDetect e => Sys2Proof.Machine.execShockDetect e s
  | .hostWakeEdge hrxd e => Sys2Proof.Machine.execHostWakeEdge hrxd e s
  | .celWakeRead => Sys2Proof.Machine.execCelWakeRead s
  | .celSopenRead => Sys2Proof.Machine.execCelSopenRead s
  | .celShkRead => Sys2Proof.Machine.execCelShkRead s
  | .celTimeWrite wall k v => Sys2Proof.Machine.execCelTimeWrite wall k v s
  | .celTimeRead wall => Sys2Proof.Machine.execCelTimeRead wall s
  | .registerWrite r addr v e => Sys2Proof.Machine.execRegisterWrite r addr v e s
  | .opAdd d rd ra rb => Sys2Proof.Machine.execOpAdd d rd ra rb s
  | .opAdc d rd ra rb => Sys2Proof.Machine.execOpAdc d rd ra rb s
  | .opSub d rd ra rb => Sys2Proof.Machine.execOpSub d rd ra rb s
  | .opSbc d rd ra rb => Sys2Proof.Machine.execOpSbc d rd ra rb s
  | .opAnd d rd ra rb => Sys2Proof.Machine.execOpAnd d rd ra rb s
  | .opOr d rd ra rb => Sys2Proof.Machine.execOpOr d rd ra rb s
  | .opXor d rd ra rb => Sys2Proof.Machine.execOpXor d rd ra rb s
  | .opAndn d rd ra rb => Sys2Proof.Machine.execOpAndn d rd ra rb s
  | .opShl d rd ra rb => Sys2Proof.Machine.execOpShl d rd ra rb s
  | .opShr d rd ra rb => Sys2Proof.Machine.execOpShr d rd ra rb s
  | .opSar d rd ra rb => Sys2Proof.Machine.execOpSar d rd ra rb s
  | .opCmp d rd ra rb => Sys2Proof.Machine.execOpCmp d rd ra rb s
  | .opAddp d rd ra rb => Sys2Proof.Machine.execOpAddp d rd ra rb s
  | .opSubp d rd ra rb => Sys2Proof.Machine.execOpSubp d rd ra rb s
  | .opMfs d rd ra rb => Sys2Proof.Machine.execOpMfs d rd ra rb s
  | .opMts d rd ra rb => Sys2Proof.Machine.execOpMts d rd ra rb s
  | .opLdi d rd imm => Sys2Proof.Machine.execOpLdi d rd imm s
  | .opAddi d rd imm => Sys2Proof.Machine.execOpAddi d rd imm s
  | .opAndi d rd imm => Sys2Proof.Machine.execOpAndi d rd imm s
  | .opCmpi d rd imm => Sys2Proof.Machine.execOpCmpi d rd imm s
  | .opMuls d rd ra rb => Sys2Proof.Machine.execOpMuls d rd ra rb s
  | .opMulu d rd ra rb => Sys2Proof.Machine.execOpMulu d rd ra rb s
  | .opMull d rd ra rb => Sys2Proof.Machine.execOpMull d rd ra rb s
  | .opMacs d rd ra rb => Sys2Proof.Machine.execOpMacs d rd ra rb s
  | .opMacu d rd ra rb => Sys2Proof.Machine.execOpMacu d rd ra rb s
  | .opMsus d rd ra rb => Sys2Proof.Machine.execOpMsus d rd ra rb s
  | .opDivs d rd ra rb => Sys2Proof.Machine.execOpDivs d rd ra rb s
  | .opDivu d rd ra rb => Sys2Proof.Machine.execOpDivu d rd ra rb s
  | .opRems d rd ra rb => Sys2Proof.Machine.execOpRems d rd ra rb s
  | .opRemu d rd ra rb => Sys2Proof.Machine.execOpRemu d rd ra rb s
  | .opDivps d rd ra rb => Sys2Proof.Machine.execOpDivps d rd ra rb s
  | .opDivpu d rd ra rb => Sys2Proof.Machine.execOpDivpu d rd ra rb s
  | .opAccrd d rd ra rb => Sys2Proof.Machine.execOpAccrd d rd ra rb s
  | .opAccw d rd ra rb => Sys2Proof.Machine.execOpAccw d rd ra rb s
  | .opAcch d rd ra rb => Sys2Proof.Machine.execOpAcch d rd ra rb s
  | .opAccz d rd ra rb => Sys2Proof.Machine.execOpAccz d rd ra rb s
  | .opMuli d rd imm => Sys2Proof.Machine.execOpMuli d rd imm s
  | .opMaci d rd imm => Sys2Proof.Machine.execOpMaci d rd imm s
  | .opLdw d rd pb disp e => Sys2Proof.Machine.execOpLdw d rd pb disp e s
  | .opLdp d rd pb disp e => Sys2Proof.Machine.execOpLdp d rd pb disp e s
  | .opStw d rd pb disp => Sys2Proof.Machine.execOpStw d rd pb disp s
  | .opStp d rd pb disp => Sys2Proof.Machine.execOpStp d rd pb disp s
  | .opLdwi d rd pb disp e => Sys2Proof.Machine.execOpLdwi d rd pb disp e s
  | .opStwi d rd pb disp => Sys2Proof.Machine.execOpStwi d rd pb disp s
  | .opMacp d rd pb disp e => Sys2Proof.Machine.execOpMacp d rd pb disp e s
  | .opFence d pb disp => Sys2Proof.Machine.execOpFence d pb disp s
  | .opIcinv d pb disp => Sys2Proof.Machine.execOpIcinv d pb disp s
  | .opIcinva d pb disp => Sys2Proof.Machine.execOpIcinva d pb disp s
  | .opDcwb d pb disp => Sys2Proof.Machine.execOpDcwb d pb disp s
  | .opDcwbi d pb disp => Sys2Proof.Machine.execOpDcwbi d pb disp s
  | .opIn d rd addr e => Sys2Proof.Machine.execOpIn d rd addr e s
  | .opOut d rd addr e => Sys2Proof.Machine.execOpOut d rd addr e s
  | .opBr d sel disp => Sys2Proof.Machine.execOpBr d sel disp s
  | .opBc d sel disp => Sys2Proof.Machine.execOpBc d sel disp s
  | .opDbnz d sel disp => Sys2Proof.Machine.execOpDbnz d sel disp s
  | .opCall d sel disp => Sys2Proof.Machine.execOpCall d sel disp s
  | .opJr d sel disp => Sys2Proof.Machine.execOpJr d sel disp s
  | .opBcr d sel disp => Sys2Proof.Machine.execOpBcr d sel disp s
  | .opCallr d sel disp => Sys2Proof.Machine.execOpCallr d sel disp s
  | .opRet d sel disp => Sys2Proof.Machine.execOpRet d sel disp s
  | .opKset d sel disp => Sys2Proof.Machine.execOpKset d sel disp s
  | .opKget d sel disp => Sys2Proof.Machine.execOpKget d sel disp s
  | .opWait d sel disp => Sys2Proof.Machine.execOpWait d sel disp s
  | .waitResume core => Sys2Proof.Machine.execWaitResume core s
  | .opBrk d sel disp => Sys2Proof.Machine.execOpBrk d sel disp s
  | .opTrap d sel disp => Sys2Proof.Machine.execOpTrap d sel disp s
  | .resultComplete core tag => Sys2Proof.Machine.execResultComplete core tag s
  | .branchMispredict core => Sys2Proof.Machine.execBranchMispredict core s
  | .trapEntry core fetch => Sys2Proof.Machine.execTrapEntry core fetch s
  | .interruptEntry core => Sys2Proof.Machine.execInterruptEntry core s
  | .cancelToken cop core tag abort => Sys2Proof.Machine.execCancelToken cop core tag abort s
  | .coproResultReturn cop core tag failed took => Sys2Proof.Machine.execCoproResultReturn cop core tag failed took s
  | .grtDbellWrite core v => Sys2Proof.Machine.execGrtDbellWrite core v s
  | .grtDbsrcRead core => Sys2Proof.Machine.execGrtDbsrcRead core s
  | .opDstat d pd pa pb => Sys2Proof.Machine.execOpDstat d pd pa pb s
  | .opDset d pd pa pb => Sys2Proof.Machine.execOpDset d pd pa pb s
  | .opDadds d pd pa pb => Sys2Proof.Machine.execOpDadds d pd pa pb s
  | .opDsubs d pd pa pb => Sys2Proof.Machine.execOpDsubs d pd pa pb s
  | .opDmuls d pd pa pb => Sys2Proof.Machine.execOpDmuls d pd pa pb s
  | .opDdivs d pd pa pb => Sys2Proof.Machine.execOpDdivs d pd pa pb s
  | .opDcmps d pd pa pb => Sys2Proof.Machine.execOpDcmps d pd pa pb s
  | .opDrnds d pd pa pb => Sys2Proof.Machine.execOpDrnds d pd pa pb s
  | .opDnegs d pd pa pb => Sys2Proof.Machine.execOpDnegs d pd pa pb s
  | .opDabss d pd pa pb => Sys2Proof.Machine.execOpDabss d pd pa pb s
  | .opDaddl d pd pa pb => Sys2Proof.Machine.execOpDaddl d pd pa pb s
  | .opDsubl d pd pa pb => Sys2Proof.Machine.execOpDsubl d pd pa pb s
  | .opDmull d pd pa pb => Sys2Proof.Machine.execOpDmull d pd pa pb s
  | .opDdivl d pd pa pb => Sys2Proof.Machine.execOpDdivl d pd pa pb s
  | .opDcmpl d pd pa pb => Sys2Proof.Machine.execOpDcmpl d pd pa pb s
  | .opDrndl d pd pa pb => Sys2Proof.Machine.execOpDrndl d pd pa pb s
  | .opDnegl d pd pa pb => Sys2Proof.Machine.execOpDnegl d pd pa pb s
  | .opDabsl d pd pa pb => Sys2Proof.Machine.execOpDabsl d pd pa pb s
  | .opDwiden d pd pa pb => Sys2Proof.Machine.execOpDwiden d pd pa pb s
  | .opDnarrow d pd pa pb => Sys2Proof.Machine.execOpDnarrow d pd pa pb s
  | .opDfromb d pd pa pb => Sys2Proof.Machine.execOpDfromb d pd pa pb s
  | .opDtob d pd pa pb => Sys2Proof.Machine.execOpDtob d pd pa pb s
  | .opDnan d pd pa pb => Sys2Proof.Machine.execOpDnan d pd pa pb s
  | .opDcls d pd pa pb => Sys2Proof.Machine.execOpDcls d pd pa pb s
  | .opClarke d pd pa pb => Sys2Proof.Machine.execOpClarke d pd pa pb s
  | .opSincos d pd pa pb => Sys2Proof.Machine.execOpSincos d pd pa pb s
  | .opPark d pd pa pb => Sys2Proof.Machine.execOpPark d pd pa pb s
  | .opIpark d pd pa pb => Sys2Proof.Machine.execOpIpark d pd pa pb s
  | .opPiset d pd pa pb => Sys2Proof.Machine.execOpPiset d pd pa pb s
  | .opPirst d pd pa pb => Sys2Proof.Machine.execOpPirst d pd pa pb s
  | .opPistep d pd pa pb => Sys2Proof.Machine.execOpPistep d pd pa pb s
  | .opCstat d pd pa pb => Sys2Proof.Machine.execOpCstat d pd pa pb s
  | .opRng d pd pa pb e => Sys2Proof.Machine.execOpRng d pd pa pb e s
  | .opKeyld d pd pa pb => Sys2Proof.Machine.execOpKeyld d pd pa pb s
  | .opIvld d pd pa pb => Sys2Proof.Machine.execOpIvld d pd pa pb s
  | .opAese d pd pa pb => Sys2Proof.Machine.execOpAese d pd pa pb s
  | .opAesd d pd pa pb => Sys2Proof.Machine.execOpAesd d pd pa pb s
  | .opCbce d pd pa pb => Sys2Proof.Machine.execOpCbce d pd pa pb s
  | .opCbcd d pd pa pb => Sys2Proof.Machine.execOpCbcd d pd pa pb s
  | .opCtr d pd pa pb => Sys2Proof.Machine.execOpCtr d pd pa pb s
  | .opGcma d pd pa pb => Sys2Proof.Machine.execOpGcma d pd pa pb s
  | .opGcme d pd pa pb => Sys2Proof.Machine.execOpGcme d pd pa pb s
  | .opGcmd d pd pa pb => Sys2Proof.Machine.execOpGcmd d pd pa pb s
  | .opGcmt d pd pa pb => Sys2Proof.Machine.execOpGcmt d pd pa pb s
  | .opCmac d pd pa pb => Sys2Proof.Machine.execOpCmac d pd pa pb s
  | .opShai d pd pa pb => Sys2Proof.Machine.execOpShai d pd pa pb s
  | .opShau d pd pa pb => Sys2Proof.Machine.execOpShau d pd pa pb s
  | .opShaf d pd pa pb => Sys2Proof.Machine.execOpShaf d pd pa pb s
  | .opEcver d pd pa pb => Sys2Proof.Machine.execOpEcver d pd pa pb s
  | .opEcgen d pd pa pb => Sys2Proof.Machine.execOpEcgen d pd pa pb s
  | .opEcdh d pd pa pb => Sys2Proof.Machine.execOpEcdh d pd pa pb s
  | .dmaGo ch v => Sys2Proof.Machine.execDmaGo ch v s
  | .dmaLineDone ch ec tileErr => Sys2Proof.Machine.execDmaLineDone ch ec tileErr s
  | .dmaRem0Read ch => Sys2Proof.Machine.execDmaRem0Read ch s
  | .canbCtlWrite v => Sys2Proof.Machine.execCanbCtlWrite v s
  | .canbTxdataWrite v => Sys2Proof.Machine.execCanbTxdataWrite v s
  | .canbTxqCommit buf => Sys2Proof.Machine.execCanbTxqCommit buf s
  | .canbTxqDiscard => Sys2Proof.Machine.execCanbTxqDiscard s
  | .canbTxabtWrite m onBus => Sys2Proof.Machine.execCanbTxabtWrite m onBus s
  | .canbRxpopWrite => Sys2Proof.Machine.execCanbRxpopWrite s
  | .canbFrameReceived f => Sys2Proof.Machine.execCanbFrameReceived f s
  | .canbFrameSent buf sent lec => Sys2Proof.Machine.execCanbFrameSent buf sent lec s
  | .canbBusOff => Sys2Proof.Machine.execCanbBusOff s
  | .i2cTransferStop => Sys2Proof.Machine.execI2cTransferStop s
  | .i2cTransferHold => Sys2Proof.Machine.execI2cTransferHold s
  | .i2cTransferDone res n got => Sys2Proof.Machine.execI2cTransferDone res n got s
  | .i2cHoldTimeout => Sys2Proof.Machine.execI2cHoldTimeout s
  | .i2cStretchTimeout => Sys2Proof.Machine.execI2cStretchTimeout s
  | .i2cTxdWrite v => Sys2Proof.Machine.execI2cTxdWrite v s
  | .i2cRxdRead => Sys2Proof.Machine.execI2cRxdRead s
  | .sspiGo => Sys2Proof.Machine.execSspiGo s
  | .sspiDone got => Sys2Proof.Machine.execSspiDone got s
  | .sspiTxdWrite v => Sys2Proof.Machine.execSspiTxdWrite v s
  | .sspiRxdRead => Sys2Proof.Machine.execSspiRxdRead s
  | .gnssOctetReceived o ferr => Sys2Proof.Machine.execGnssOctetReceived o ferr s
  | .gnssPpsEdge dt => Sys2Proof.Machine.execGnssPpsEdge dt s
  | .gnssTxdWrite left v => Sys2Proof.Machine.execGnssTxdWrite left v s
  | .gnssRxdRead r => Sys2Proof.Machine.execGnssRxdRead r s
  | .gnssPps0Read r => Sys2Proof.Machine.execGnssPps0Read r s
  | .gpioInputEdge n level => Sys2Proof.Machine.execGpioInputEdge n level s
  | .gpioPwmPeriodEnd => Sys2Proof.Machine.execGpioPwmPeriodEnd s
  | .gpioPwmWord1Write n v => Sys2Proof.Machine.execGpioPwmWord1Write n v s
  | .fctlKeyaWrite r v => Sys2Proof.Machine.execFctlKeyaWrite r v s
  | .fctlKeybWrite r v => Sys2Proof.Machine.execFctlKeybWrite r v s
  | .fctlCmdWrite r v => Sys2Proof.Machine.execFctlCmdWrite r v s
  | .fctlAddrWrite r high v => Sys2Proof.Machine.execFctlAddrWrite r high v s
  | .fctlDataWrite r v => Sys2Proof.Machine.execFctlDataWrite r v s
  | .fctlDataRead r => Sys2Proof.Machine.execFctlDataRead r s
  | .fctlEcntRead r => Sys2Proof.Machine.execFctlEcntRead r s
  | .fctlEaddr0Read r => Sys2Proof.Machine.execFctlEaddr0Read r s
  | .fctlEcthWrite r v => Sys2Proof.Machine.execFctlEcthWrite r v s
  | .sequenceModeStore r a v => Sys2Proof.Machine.execSequenceModeStore r a v s
  | .fctlProgram r a data => Sys2Proof.Machine.execFctlProgram r a data s
  | .fctlErase r a => Sys2Proof.Machine.execFctlErase r a s
  | .fctlSuspend r a early => Sys2Proof.Machine.execFctlSuspend r a early s
  | .fctlResume r a => Sys2Proof.Machine.execFctlResume r a s
  | .fctlInfo r a => Sys2Proof.Machine.execFctlInfo r a s
  | .fctlAbandon r => Sys2Proof.Machine.execFctlAbandon r s
  | .flashCommandStart bank => Sys2Proof.Machine.execFlashCommandStart bank s
  | .programPulsesDone bank readBack => Sys2Proof.Machine.execProgramPulsesDone bank readBack s
  | .eraseStepDone bank verified blankOk => Sys2Proof.Machine.execEraseStepDone bank verified blankOk s
  | .suspendDeferralExpiry bank => Sys2Proof.Machine.execSuspendDeferralExpiry bank s
  | .nandReady target fail => Sys2Proof.Machine.execNandReady target fail s
  | .nandTimeout target => Sys2Proof.Machine.execNandTimeout target s
  | .journalPageTimer => Sys2Proof.Machine.execJournalPageTimer s
  | .snapshotTimer => Sys2Proof.Machine.execSnapshotTimer s
  | .patrolRead block page sectors lost unknown => Sys2Proof.Machine.execPatrolRead block page sectors lost unknown s
  | .journalMountComplete f => Sys2Proof.Machine.execJournalMountComplete f s
  | .identity q => Sys2Proof.Machine.execIdentity q s
  | .status q => Sys2Proof.Machine.execStatus q s
  | .oppoint q => Sys2Proof.Machine.execOppoint q s
  | .rate q => Sys2Proof.Machine.execRate q s
  | .evmask q => Sys2Proof.Machine.execEvmask q s
  | .reset q nandFail e => Sys2Proof.Machine.execReset q nandFail e s
  | .release q nandFail => Sys2Proof.Machine.execRelease q nandFail s
  | .stageEdition q w => Sys2Proof.Machine.execStageEdition q w s
  | .discardStaged q w => Sys2Proof.Machine.execDiscardStaged q w s
  | .slots q => Sys2Proof.Machine.execSlots q s
  | .commit q e => Sys2Proof.Machine.execCommit q e s
  | .rollback q e => Sys2Proof.Machine.execRollback q e s
  | .accept q w => Sys2Proof.Machine.execAccept q w s
  | .confirmPrevious q w => Sys2Proof.Machine.execConfirmPrevious q w s
  | .windowClose q => Sys2Proof.Machine.execWindowClose q s
  | .keysProvision q => Sys2Proof.Machine.execKeysProvision q s
  | .keysReplaceConfig q => Sys2Proof.Machine.execKeysReplaceConfig q s
  | .keysReplaceImage q => Sys2Proof.Machine.execKeysReplaceImage q s
  | .lifecycle q w e => Sys2Proof.Machine.execLifecycle q w e s
  | .debugUnlock q => Sys2Proof.Machine.execDebugUnlock q s
  | .readKeys q => Sys2Proof.Machine.execReadKeys q s
  | .setTime q dt w => Sys2Proof.Machine.execSetTime q dt w s
  | .rideOpen q w => Sys2Proof.Machine.execRideOpen q w s
  | .rideClose q w e => Sys2Proof.Machine.execRideClose q w e s
  | .rideStatus q => Sys2Proof.Machine.execRideStatus q s
  | .rideRead q f => Sys2Proof.Machine.execRideRead q f s
  | .periodRead q f => Sys2Proof.Machine.execPeriodRead q f s
  | .ack q => Sys2Proof.Machine.execAck q s
  | .epoch q w => Sys2Proof.Machine.execEpoch q w s
  | .keyExport q => Sys2Proof.Machine.execKeyExport q s
  | .ledgerStatus q => Sys2Proof.Machine.execLedgerStatus q s
  | .concordStatus q => Sys2Proof.Machine.execConcordStatus q s
  | .presence q => Sys2Proof.Machine.execPresence q s
  | .relay q => Sys2Proof.Machine.execRelay q s
  | .motorStatus q => Sys2Proof.Machine.execMotorStatus q s
  | .teaselClear q => Sys2Proof.Machine.execTeaselClear q s
  | .teaselTrip q => Sys2Proof.Machine.execTeaselTrip q s
  | .imageBegin q w eraseOk => Sys2Proof.Machine.execImageBegin q w eraseOk s
  | .imageData q progOk => Sys2Proof.Machine.execImageData q progOk s
  | .imageEnd q => Sys2Proof.Machine.execImageEnd q s
  | .imageStatus q => Sys2Proof.Machine.execImageStatus q s
  | .flashInfo q => Sys2Proof.Machine.execFlashInfo q s
  | .journalStatus q => Sys2Proof.Machine.execJournalStatus q s
  | .journalRead q => Sys2Proof.Machine.execJournalRead q s
  | .note q => Sys2Proof.Machine.execNote q s
  | .adopt q => Sys2Proof.Machine.execAdopt q s
  | .flush q => Sys2Proof.Machine.execFlush q s
  | .celStatus q => Sys2Proof.Machine.execCelStatus q s
  | .displayRead q => Sys2Proof.Machine.execDisplayRead q s
  | .shockHold q => Sys2Proof.Machine.execShockHold q s
  | .keyWake q => Sys2Proof.Machine.execKeyWake q s
  | .coreStatus q => Sys2Proof.Machine.execCoreStatus q s
  | .coreReset q => Sys2Proof.Machine.execCoreReset q s
  | .selftestRead q => Sys2Proof.Machine.execSelftestRead q s
  | .selftestRun q failing e => Sys2Proof.Machine.execSelftestRun q failing e s
  | .beaconRecord q => Sys2Proof.Machine.execBeaconRecord q s
  | .tapExtest levels update => Sys2Proof.Machine.execTapExtest levels update s
  | .tapIdcode => Sys2Proof.Machine.execTapIdcode s
  | .tapSamplePreload levels update => Sys2Proof.Machine.execTapSamplePreload levels update s
  | .tapClamp => Sys2Proof.Machine.execTapClamp s
  | .tapHighz => Sys2Proof.Machine.execTapHighz s
  | .tapBypass => Sys2Proof.Machine.execTapBypass s
  | .dbgstat => Sys2Proof.Machine.execDbgstat s
  | .coreHalt cores => Sys2Proof.Machine.execCoreHalt cores s
  | .coreResume cores => Sys2Proof.Machine.execCoreResume cores s
  | .coreSingleStep cores e => Sys2Proof.Machine.execCoreSingleStep cores e s
  | .coreregAccess core sel write v => Sys2Proof.Machine.execCoreregAccess core sel write v s
  | .memaddrUpdate addr core inc => Sys2Proof.Machine.execMemaddrUpdate addr core inc s
  | .memdataCapture ec => Sys2Proof.Machine.execMemdataCapture ec s
  | .memdataWrite write v => Sys2Proof.Machine.execMemdataWrite write v s
  | .jreset e => Sys2Proof.Machine.execJreset e s
  | .tracectlUpdate v => Sys2Proof.Machine.execTracectlUpdate v s
  | .teaselRailLoss => Sys2Proof.Machine.execTeaselRailLoss s
  | .teaselRailReturn => Sys2Proof.Machine.execTeaselRailReturn s
  | .supplyMonitorRise x => Sys2Proof.Machine.execSupplyMonitorRise x s
  | .alwaysOnSourceSwitch vddioA => Sys2Proof.Machine.execAlwaysOnSourceSwitch vddioA s
  | .timeBaseEdge => Sys2Proof.Machine.execTimeBaseEdge s
  | .uartFrameSent => Sys2Proof.Machine.execUartFrameSent s
  | .usbInTransfer => Sys2Proof.Machine.execUsbInTransfer s
  | .usbConfiguration on => Sys2Proof.Machine.execUsbConfiguration on s
  | .busOffRecoveryDone canB => Sys2Proof.Machine.execBusOffRecoveryDone canB s
  | .coherenceRequest c line f => Sys2Proof.Machine.execCoherenceRequest c line f s
  | .evictionNotice c line f => Sys2Proof.Machine.execEvictionNotice c line f s
  | .snoopAtCache c line fails => Sys2Proof.Machine.execSnoopAtCache c line fails s
  | .snoopResponse c line => Sys2Proof.Machine.execSnoopResponse c line s
  | .lineGrant c line => Sys2Proof.Machine.execLineGrant c line s
  | .coherenceDone c line => Sys2Proof.Machine.execCoherenceDone c line s
  | .putAck c line => Sys2Proof.Machine.execPutAck c line s
  | .agentLineAccess a line offset len put f => Sys2Proof.Machine.execAgentLineAccess a line offset len put f s

end Sys2Proof.Machine
end

