-- ==== Sys2Proof/Machine/Step.lean ====
section
/-! DEFINITION. One step of the block: the command at the front of the queue is executed on the state with the rest
of the queue; with an empty queue the block idles, and the trace port sends one waiting packet (R986; DESIGN CHOICE, log 3). -/
namespace Sys2Proof.Machine

/-- The command of a table word put at the front of the queue. The table gives no row bits, so no word spells a
command and the state stays as it is. DESIGN CHOICE (log 2). -/
def State.withFetchWord (s : State) (nbits w : Nat) : State :=
  match decodeTableWord nbits w with
  | none => s
  | some c => { s with pending := c :: s.pending }

/-- One step. DESIGN CHOICE (log 3). DESIGN CHOICE (log 10). DESIGN CHOICE (log 11). -/
def step (s : State) : Host.Outcome State Fault Refusal :=
  match s.pending with
  | [] => .next s.traceDrain
  | c :: rest => exec c { s with pending := rest }

end Sys2Proof.Machine
end

