-- ==== Sys2Proof/Safety.lean ====
section
/-! DEFINITION. The terms in which the statements speak: how a command ends, and when a core stands ready for its next bundle. -/
namespace Sys2Proof.Machine

/-- A command answers a next state of which P holds. -/
def Does (c : Instr) (s : State) (P : State → Prop) : Prop := ∃ t, exec c s = .next t ∧ P t

/-! Memory -/

/-- The list that holds the shared SRAM is in canonical form: its addresses rise strictly, and no entry equals what an unlisted address
reads as, which is 0 (log 7). -/
def SramForm (m : WordMem) : Prop := memWf 0 m = true

/-- The list that holds the flash cells is in canonical form, an unlisted cell reading as erased, 0xFFF (log 8). -/
def CellForm (m : WordMem) : Prop := memWf 0xFFF m = true

/-- The shared SRAM and the flash cells of a state are in canonical form. -/
def Canonical (s : State) : Prop := SramForm s.mem.sram ∧ CellForm s.fl.cells

/-! Cores -/

/-- A core that runs, with nothing gathered, nothing in its completion window, and its next bundle of one syllable fetchable (R591,
R592). -/
structure Ready (s : State) (i : Fin 4) : Prop where
  run : (s.core.get i).run = .running
  gather : (s.core.get i).gather = []
  gatherX : (s.core.get i).gatherX = []
  notClosed : (s.core.get i).closed = false
  noTrap : (s.core.get i).preTrap = none
  window : (s.core.get i).window = []
  tags : (s.core.get i).staleTags.length ≤ 58
  even : (s.core.get i).pc.getLsbD 0 = false
  low : 0x110000 ≤ (s.core.get i).pc.toNat
  high : (s.core.get i).pc.toNat + 2 ≤ 0x200000
  loads : s.mem.loaded.filter (fun x => x.cache = .core i) = []

/-- A syllable that stands alone in its bundle, and whose unit returns its result within the step. -/
def alone (i : Fin 4) : Delivery := { core := i, stop := true, late := false, x := none }

/-- A core one bundle of one syllable further on, its registers aside (R592, R608). -/
def CoreState.stepped (c : CoreState) : CoreState :=
  { c with pc := c.pc + 2, nextTag := c.nextTag + 1, nextBundle := c.nextBundle + 1, firm := max c.firm (c.nextBundle + 1) }

/-- The core after a lone syllable that wrote a w register and flags. -/
def CoreState.result (c : CoreState) (rd : Fin 32) (r : AluResult 12) : CoreState :=
  { c.stepped with w := c.w.set rd r.res, fl := flAfter c.fl r.mask r.value r.sticky }

/-- The w registers after a pair is written (R13). -/
def CoreState.withPair (c : CoreState) (p : Fin 16) (v : Pair) : Vector Word 32 := (c.w.set (loReg p) (loWord v)).set (hiReg p) (hiWord v)

/-- The core after a lone syllable that wrote a pair and flags. -/
def CoreState.resultPair (c : CoreState) (p : Fin 16) (r : AluResult 24) : CoreState :=
  { c.stepped with w := c.withPair p r.res, fl := flAfter c.fl r.mask r.value r.sticky }

/-- The core after a lone syllable that wrote flags alone. -/
def CoreState.flagged {n : Nat} (c : CoreState) (r : AluResult n) : CoreState :=
  { c.stepped with fl := flAfter c.fl r.mask r.value r.sticky }

/-- The core after a lone syllable that wrote its accumulator. -/
def CoreState.accumulated (c : CoreState) (v : BitVec 36) : CoreState := { c.stepped with acc := v }

/-- The core after a lone syllable that wrote registers. -/
def CoreState.wrote (c : CoreState) (l : List RegWrite) : CoreState := l.foldl CoreState.write c.stepped

/-- A data address of format LM (R673). -/
def CoreState.dataAddr (c : CoreState) (pb : Fin 16) (disp : BitVec 7) : Pair := c.rp pb + disp.signExtend 24

/-- A core has entered a vector for a cause of its next bundle, of one syllable, and nothing of that bundle has taken effect (R614, R615). -/
def Trapped1 (s t : State) (i : Fin 4) (vector sub : Nat) (addr : Option Pair) : Prop :=
  let c := s.core.get i
  let d := t.core.get i
  d.epc = c.pc ∧ d.ecause.toNat % 32 = vector ∧ d.ecause.toNat / 1024 = sub ∧ d.ecause.getLsbD 8 = addr.isSome ∧
    (∀ a, addr = some a → d.eaddr = a) ∧ d.eblen = 1 ∧ d.estat = c.ctl ∧ d.ctl = (c.ctl ||| 0x10) &&& 0x17 ∧
    d.pc = c.tvb + BitVec.ofNat 24 (4 * vector) ∧ d.run = .running ∧ d.window = [] ∧
    d.w = c.w ∧ d.k = c.k ∧ d.acc = c.acc ∧ d.fl = c.fl ∧ d.scratch = c.scratch ∧ d.tvb = c.tvb

/-- A decimal operation's register writes: the words of its result to the run at pd, and its flags. -/
def CoreState.decimalWrites (c : CoreState) (cop : Nat) (pd pa pb : Fin 16) (nd na nb : Nat) : List RegWrite :=
  let r := decCompute c.dec cop (c.rp pa) (c.run' pa na) (c.run' pb nb) pb
  runWrites pd nd r.words ++ (if r.mask = 0 && r.sticky = 0 then [] else
    [.flags (BitVec.ofNat 12 r.mask) (BitVec.ofNat 12 r.value) (BitVec.ofNat 12 r.sticky)])

/-- The cache of a core that has nothing in its window, or the Steward's: a message that serves it starts nothing else. -/
def State.cacheStill (s : State) (c : CacheId) : Prop :=
  ∀ i, c = .core i → (s.core.get i).window = [] ∧ (s.core.get i).closed = false ∧ s.mem.loaded.filter (fun x => x.cache = .core i) = []

/-- A coprocessor works, and has a tag free for the core (R689, R750). -/
def State.copFree (s : State) (i : Fin 4) (p : Coproc) : Prop := s.cop.tagFree p i = true ∧ s.workingUnits p ≠ []

/-! Register commands -/

/-- The port of an address takes a requester's access: a core's raises no trap, and any other is served (R33, R127, R595, R596). -/
def State.reaches (s : State) (r : Requester) (addr : Nat) : Prop :=
  match r with | .core i => s.ioCause i addr = none | .steward | .dma => s.portServes addr = true

/-- A running core that is not in a handler has entered a vector for an access of its own, and no block has changed. -/
def CoreTrapped (s t : State) (i : Fin 4) (vector sub addr : Nat) : Prop :=
  let c := s.core.get i
  let d := t.core.get i
  c.run = .running → c.ctl.getLsbD 4 = false →
    d.epc = c.resumePc ∧ d.ecause.toNat % 32 = vector ∧ d.ecause.toNat / 1024 = sub ∧ d.eaddr = BitVec.ofNat 24 addr ∧ d.estat = c.ctl ∧
      d.ctl = (c.ctl ||| 0x10) &&& 0x17 ∧ d.pc = c.tvb + BitVec.ofNat 24 (4 * vector) ∧ d.w = c.w ∧ d.fl = c.fl ∧ t.per = s.per ∧
      t.mot = s.mot ∧ t.clk = s.clk ∧ t.boot = s.boot ∧ t.fl = s.fl

/-- An access that its port ends: a core traps, and for any other requester nothing has changed. -/
def TurnedAway (s t : State) (r : Requester) (addr : Nat) : Prop :=
  match r with
  | .core i => ∀ x ∈ s.ioCause i addr, CoreTrapped s t i x.1 x.2 addr
  | .steward | .dma => t = s

/-- A store to the flash array reaches the controller: a core's lies in its window, the Steward's finds the port serving (R590, R834). -/
def State.storeReaches (s : State) (r : Requester) (a : Nat) : Prop :=
  match r with | .core i => s.region i a = .flash | .steward | .dma => s.portServes 0x200 = true

/-! Mailbox commands -/

/-- A Steward command that its channel takes up at once: the transport is open, the payload's length, the role and the tier fit, and the
channel is idle, or has answered a request of another SEQ (R271, R274, Table Host-8); and no tier event waits for its response alone
(R296). -/
def State.accepts (s : State) (cmd : Nat) (q : CmdReq) : Bool :=
  s.portUp q.transport &&
    (match cmdInfo cmd with
     | none => false
     | some i =>
       let ch := (s.port q.transport).chans.get (channelOf i.chan)
       s.host.tierHeld.all (fun x => x.2.any (fun y => y ≠ (q.transport, channelOf i.chan))) &&
       i.lenOk q.payload && i.roles.contains s.boot.role && decide (1 ≤ s.boot.tier.toNat) && decide (i.low.toNat ≤ s.boot.tier.toNat) &&
         (ch.last.isNone || decide (ch.phase = .idle) || (decide (ch.phase = .answered) && decide (ch.last.map (·.seq) ≠ some q.seq))))

/-- The channel of a command (Tables Cmd-3 to Cmd-16). -/
def cmdChannel (cmd : Nat) : Fin 7 := match cmdInfo cmd with | none => 0 | some i => channelOf i.chan

/-- The request was answered: its response is the one frame queued, its channel holds it (Table Host-8). -/
def Answered (s t : State) (cmd : Nat) (q : CmdReq) (stat : Nat) (payload : List Octet) : Prop :=
  let c := cmdChannel cmd
  let f := mkResponse c.val q.seq cmd stat payload
  (t.port q.transport).responses = (s.port q.transport).responses ++ [f] ∧
    (t.port q.transport).chans.get c = { phase := .answered, begun := false, last := some ⟨q.seq, cmd, q.payload⟩, flags := 0,
                                         cache := if c.val ≤ 5 then some f else none, interim := none }

/-- The request has begun and waits for its end. -/
def Waits (s t : State) (cmd : Nat) (q : CmdReq) : Prop :=
  (t.port q.transport).responses = (s.port q.transport).responses ∧
    (t.port q.transport).chans.get (cmdChannel cmd) = { phase := .executing, begun := true, last := some ⟨q.seq, cmd, q.payload⟩,
                                                        flags := 0, cache := none, interim := none }

/-- Only the host side changed. -/
def OnlyHost (s t : State) : Prop := { t with host := s.host } = s

/-- Only the journal changed. -/
def OnlyJournal (s t : State) : Prop := { t with jou := s.jou } = s

end Sys2Proof.Machine
end

