-- ==== Sys2Proof/Certificates/Slice0/Obligations.lean ====
section
/-! DEFINITION. The statements for the provers, family by family. -/
open Sys2Proof Sys2Proof.Machine

/-- C, Z, N and V of a sum and of a difference, and the sticky bits left alone (12_jieles_operations.md Table Ops-1, R586). For words and
for pairs, the adder's result is a + b + carry and the subtracter's a − b − borrow, modulo 2 to the width; C is the carry out of the top
bit, or no borrow; Z says the result is 0; N is its top bit; V says that the signed sum or difference does not fit; and in FL after the
operation exactly C, Z, N and V are replaced: every other bit keeps its value. -/
def Obligations.FlagBitsOfSums : Prop :=
  ∀ (n : Nat), n = 12 ∨ n = 24 → ∀ (a b : BitVec n) (k : Bool) (fl : Word),
    let r := addFlags a b k
    let d := subFlags a b k
    let f := flAfter fl r.mask r.value r.sticky
    let g := flAfter fl d.mask d.value d.sticky
    r.res = a + b + BitVec.ofNat n k.toNat ∧ d.res = a - b - BitVec.ofNat n k.toNat ∧
    (f.getLsbD 0 = true ↔ 2 ^ n ≤ a.toNat + b.toNat + k.toNat) ∧ (g.getLsbD 0 = true ↔ b.toNat + k.toNat ≤ a.toNat) ∧
    (f.getLsbD 1 = true ↔ r.res = 0) ∧ (g.getLsbD 1 = true ↔ d.res = 0) ∧
    f.getLsbD 2 = r.res.msb ∧ g.getLsbD 2 = d.res.msb ∧
    (f.getLsbD 3 = true ↔ (a.toInt + b.toInt + (k.toNat : Int) < -(2 ^ (n - 1) : Nat) ∨ (2 ^ (n - 1) : Nat) ≤ a.toInt + b.toInt + (k.toNat : Int))) ∧
    (g.getLsbD 3 = true ↔ (a.toInt - b.toInt - (k.toNat : Int) < -(2 ^ (n - 1) : Nat) ∨ (2 ^ (n - 1) : Nat) ≤ a.toInt - b.toInt - (k.toNat : Int))) ∧
    ∀ j, 4 ≤ j → f.getLsbD j = fl.getLsbD j ∧ g.getLsbD j = fl.getLsbD j

/-- ADD to SAR, CMP, MFS, LDI, ADDI, ANDI and CMPI complete with their results and flags, and change nothing else (12_jieles_operations.md
Table Ops-2, 12_jieles_operations.md Table Ops-3, R664, R586, R665). On a ready core, each of ADD, ADC, SUB, SBC, AND, OR, XOR, ANDN, SHL,
SHR, SAR, LDI, ADDI and ANDI as a lone syllable answers the next state in which rd and the flags take the operation's result, PC is 2
further on, and every other register of the core and every other part of the chip is as before; CMP and CMPI write flags alone; MFS writes
rd from the special register and no flag. -/
def Obligations.AluWordOperations : Prop :=
  ∀ (s : State) (i : Fin 4) (rd ra rb : Fin 32) (imm : Word), Ready s i →
    let c := s.core.get i
    let a := c.w.get ra
    let b := c.w.get rb
    let q := c.w.get rd
    let k := c.fl.getLsbD 0
    let n := b.toNat % 32
    let ends (x : Instr) (d : CoreState) : Prop := exec x s = .next (s.setCore i d)
    ends (.opAdd (alone i) rd ra rb) (c.result rd (addFlags a b false)) ∧
    ends (.opAdc (alone i) rd ra rb) (c.result rd (addFlags a b k)) ∧
    ends (.opSub (alone i) rd ra rb) (c.result rd (subFlags a b false)) ∧
    ends (.opSbc (alone i) rd ra rb) (c.result rd (subFlags a b !k)) ∧
    ends (.opAnd (alone i) rd ra rb) (c.result rd (.zn (a &&& b))) ∧
    ends (.opOr (alone i) rd ra rb) (c.result rd (.zn (a ||| b))) ∧
    ends (.opXor (alone i) rd ra rb) (c.result rd (.zn (a ^^^ b))) ∧
    ends (.opAndn (alone i) rd ra rb) (c.result rd (.zn (a &&& ~~~b))) ∧
    ends (.opShl (alone i) rd ra rb) (c.result rd (.czn (a <<< n) (decide (0 < n) && decide (n ≤ 12) && a.getLsbD (12 - n)))) ∧
    ends (.opShr (alone i) rd ra rb) (c.result rd (.czn (a >>> n) (decide (0 < n) && decide (n ≤ 12) && a.getLsbD (n - 1)))) ∧
    ends (.opSar (alone i) rd ra rb) (c.result rd (.czn (a.sshiftRight n)
      (decide (0 < n) && (if n ≤ 12 then a.getLsbD (n - 1) else a.getLsbD 11)))) ∧
    ends (.opCmp (alone i) 0 ra rb) (c.flagged (subFlags a b false)) ∧
    (ra.val < 15 → ends (.opMfs (alone i) rd ra 0) { c.stepped with w := c.w.set rd (c.special i ra) }) ∧
    ends (.opLdi (alone i) rd imm) { c.stepped with w := c.w.set rd imm } ∧
    ends (.opAddi (alone i) rd imm) (c.result rd (addFlags q imm false)) ∧
    ends (.opAndi (alone i) rd imm) (c.result rd (.zn (q &&& imm))) ∧
    ends (.opCmpi (alone i) rd imm) (c.flagged (subFlags q imm false))

/-- MTS writes each special register as Table Jieles-3 allows, and MFS reads JLEVEL 2 and the core's number (R588, R665,
11_jieles_model.md Table Jieles-3, 11_jieles_model.md Table Jieles-4). On a ready core, MTS to a number below 15 completes: FL takes bits
6:0; CTL takes bits 3:0 and keeps TH; EPC0 and EPC1 take the halves of EPC; ESTAT takes bits 4:0; TVB0 and TVB1 take the halves of TVB
with its bits 6:0 at 0; the read-only registers JLEVEL, CORE, ECAUSE, ESYL, EADDR and EBLEN keep their values. MFS reads 2 from JLEVEL and
the core's number from CORE. -/
def Obligations.SpecialRegisterWrites : Prop :=
  ∀ (s : State) (i : Fin 4) (ra rd : Fin 32), Ready s i →
    let c := s.core.get i
    let v := c.w.get ra
    let ends (n : Fin 32) (d : CoreState) : Prop := exec (.opMts (alone i) n ra 0) s = .next (s.setCore i d)
    ends 0 { c.stepped with fl := flAfter c.fl 0x07F v 0 } ∧
    ends 1 { c.stepped with ctl := (c.ctl &&& 0x10) ||| (v.setWidth 5 &&& 0x0F) } ∧
    ends 4 { c.stepped with epc := hiWord c.epc ++ v } ∧
    ends 5 { c.stepped with epc := v ++ loWord c.epc } ∧
    ends 11 { c.stepped with estat := v.setWidth 5 } ∧
    ends 13 { c.stepped with tvb := hiWord c.tvb ++ (v &&& 0xF80) } ∧
    ends 14 { c.stepped with tvb := v ++ loWord c.tvb } ∧
    (∀ n : Fin 32, n = 2 ∨ n = 3 ∨ n = 6 ∨ n = 7 ∨ n = 8 ∨ n = 9 ∨ n = 10 ∨ n = 12 → ends n c.stepped) ∧
    exec (.opMfs (alone i) rd 2 0) s = .next (s.setCore i { c.stepped with w := c.w.set rd 2 }) ∧
    exec (.opMfs (alone i) rd 3 0) s = .next (s.setCore i { c.stepped with w := c.w.set rd (BitVec.ofNat 12 i.val) })

/-- ADDP, SUBP, the products, the multiply-accumulates and the accumulator moves complete with their results (12_jieles_operations.md
Table Ops-2, 12_jieles_operations.md Table Ops-5, 12_jieles_operations.md Table Ops-6, R667). On a ready core, ADDP and SUBP write pair
sums and differences; MULS and MULU the signed and the unsigned product to a pair; MULL the low word, with V where the signed product does
not fit; MULI the low word of rd × imm; MACS, MACU, MSUS and MACI add or subtract the exact product in acc modulo 2^36; ACCRD writes acc
shifted right by the rb field and saturated to 24 bits, with V where it saturates; ACCW, ACCH and ACCZ load, read and clear acc. Each
leaves every other register and every other part of the chip as before. -/
def Obligations.PairAndProductOperations : Prop :=
  ∀ (s : State) (i : Fin 4) (rd ra rb : Fin 32) (p q r : Fin 16) (imm : Word), Ready s i →
    let c := s.core.get i
    let a := c.w.get ra
    let b := c.w.get rb
    let ends (x : Instr) (d : CoreState) : Prop := exec x s = .next (s.setCore i d)
    ends (.opAddp (alone i) (loReg p) (loReg q) (loReg r)) (c.resultPair p (addFlags (c.rp q) (c.rp r) false)) ∧
    ends (.opSubp (alone i) (loReg p) (loReg q) (loReg r)) (c.resultPair p (subFlags (c.rp q) (c.rp r) false)) ∧
    ends (.opMuls (alone i) (loReg p) ra rb) (c.resultPair p (.zn (BitVec.ofInt 24 (a.toInt * b.toInt)))) ∧
    ends (.opMulu (alone i) (loReg p) ra rb) (c.resultPair p (.zn (BitVec.ofNat 24 (a.toNat * b.toNat)))) ∧
    ends (.opMull (alone i) rd ra rb) (c.result rd (.znv (a * b) (decide (a.toInt * b.toInt < -2048 ∨ 2047 < a.toInt * b.toInt)))) ∧
    ends (.opMacs (alone i) 0 ra rb) (c.accumulated (c.acc + BitVec.ofInt 36 (a.toInt * b.toInt))) ∧
    ends (.opMacu (alone i) 0 ra rb) (c.accumulated (c.acc + BitVec.ofNat 36 (a.toNat * b.toNat))) ∧
    ends (.opMsus (alone i) 0 ra rb) (c.accumulated (c.acc - BitVec.ofInt 36 (a.toInt * b.toInt))) ∧
    (rb.val ≤ 12 → ends (.opAccrd (alone i) (loReg p) ra rb) (c.resultPair p
      (let x := (c.acc.sshiftRight rb.val).toInt
       .znv (BitVec.ofInt 24 (max (-8388608) (min 8388607 x))) (decide (x < -8388608 ∨ 8388607 < x))))) ∧
    ends (.opAccw (alone i) 0 (loReg p) 0) (c.accumulated ((c.rp p).signExtend 36)) ∧
    ends (.opAcch (alone i) rd 0 0) { c.stepped with w := c.w.set rd ((c.acc >>> 24).setWidth 12) } ∧
    ends (.opAccz (alone i) 0 0 0) (c.accumulated 0) ∧
    ends (.opMuli (alone i) rd imm) (c.result rd (.zn (c.w.get rd * imm))) ∧
    ends (.opMaci (alone i) rd imm) (c.accumulated (c.acc + BitVec.ofInt 36 ((c.w.get rd).toInt * imm.toInt)))

/-- DIVS, DIVU, REMS, REMU, DIVPS and DIVPU: quotients, remainders and the edges of Table Ops-7 (R668, R669). On a ready core, each
division and remainder completes as a lone syllable. With a divisor other than 0 the signed quotient is truncated toward zero, the
remainder takes the sign of the dividend, −2048 ÷ −1 and −2^23 ÷ −1 give the dividend with V = 1, and the remainder of −2048 by −1 is 0; V
is 0 otherwise and DZ is unchanged. With divisor 0 and CTL.DZT 0 the dividend is written, V is 0 and DZ is set. With divisor 0 and DZT 1
the core, not in a handler, enters vector 9 with nothing written. -/
def Obligations.Divisions : Prop :=
  ∀ (s : State) (i : Fin 4) (rd ra rb : Fin 32) (p q : Fin 16), Ready s i →
    let c := s.core.get i
    let a := c.w.get ra
    let b := c.w.get rb
    let v := c.rp q
    let ends (x : Instr) (d : CoreState) : Prop := exec x s = .next (s.setCore i d)
    let all : List Instr := [.opDivs (alone i) rd ra rb, .opDivu (alone i) rd ra rb, .opRems (alone i) rd ra rb, .opRemu (alone i) rd ra rb,
      .opDivps (alone i) (loReg p) (loReg q) rb, .opDivpu (alone i) (loReg p) (loReg q) rb]
    (b ≠ 0 →
      ends (.opDivs (alone i) rd ra rb) (c.result rd (.znv (BitVec.ofInt 12 (a.toInt.tdiv b.toInt)) (decide (a.toInt = -2048 ∧ b.toInt = -1)))) ∧
      ends (.opDivu (alone i) rd ra rb) (c.result rd (.znv (BitVec.ofNat 12 (a.toNat / b.toNat)) false)) ∧
      ends (.opRems (alone i) rd ra rb) (c.result rd (.znv (BitVec.ofInt 12 (a.toInt.tmod b.toInt)) false)) ∧
      ends (.opRemu (alone i) rd ra rb) (c.result rd (.znv (BitVec.ofNat 12 (a.toNat % b.toNat)) false)) ∧
      ends (.opDivps (alone i) (loReg p) (loReg q) rb) (c.resultPair p
        (.znv (BitVec.ofInt 24 (v.toInt.tdiv b.toInt)) (decide (v.toInt = -8388608 ∧ b.toInt = -1)))) ∧
      ends (.opDivpu (alone i) (loReg p) (loReg q) rb) (c.resultPair p (.znv (BitVec.ofNat 24 (v.toNat / b.toNat)) false))) ∧
    (b = 0 → c.ctl.getLsbD 2 = false →
      (∀ x ∈ all.take 4, ends x (c.result rd { AluResult.znv a false with sticky := bitDZ })) ∧
      (∀ x ∈ all.drop 4, ends x (c.resultPair p { AluResult.znv v false with sticky := bitDZ }))) ∧
    (b = 0 → c.ctl.getLsbD 2 = true → c.ctl.getLsbD 4 = false → ∀ x ∈ all, Does x s (fun t => Trapped1 s t i 9 0 none)) ∧
    (b ≠ 0 → a.toInt = a.toInt.tdiv b.toInt * b.toInt + a.toInt.tmod b.toInt)

/-- LDW, LDP, LDWI, MACP, STW, STP and STWI in the core's scratch RAM: results, addresses and frames (12_jieles_operations.md Table Ops-9,
R673, R674, R590, R593). On a ready core, with the data address (pair pb plus the sign-extended displacement, or pair pb itself for the
forms that advance it) below 0x004000 and even for the pair forms: LDW and LDP read the words of the core's own scratch; LDWI reads at pb
and advances it; MACP adds the signed product of the words at pb and pc to acc and advances both; STW, STP and STWI write exactly the
addressed words of the scratch. Registers not named, every other word of scratch, shared memory and every other part of the chip are as
before. -/
def Obligations.ScratchLoadsAndStores : Prop :=
  ∀ (s : State) (i : Fin 4) (rd : Fin 32) (p q : Fin 16) (disp : BitVec 7) (e : AccessEnv), Ready s i →
    let c := s.core.get i
    let a := (c.dataAddr p disp).toNat
    let base := (c.rp p).toNat
    let word (n : Nat) : Word := memGet 0 c.scratch n
    let ends (x : Instr) (d : CoreState) : Prop := exec x s = .next (s.setCore i d)
    (a < 0x4000 →
      ends (.opLdw (alone i) rd p disp e) { c.stepped with w := c.w.set rd (word a) } ∧
      ends (.opStw (alone i) rd p disp) { c.stepped with scratch := memSet 0 a (c.w.get rd) c.scratch } ∧
      (a % 2 = 0 →
        ends (.opLdp (alone i) (loReg q) p disp e) { c.stepped with w := (c.w.set (loReg q) (word a)).set (hiReg q) (word (a + 1)) } ∧
        ends (.opStp (alone i) (loReg q) p disp)
          { c.stepped with scratch := memSet 0 (a + 1) (c.w.get (hiReg q)) (memSet 0 a (c.w.get (loReg q)) c.scratch) })) ∧
    (base < 0x4000 →
      (pairOf rd ≠ p → ends (.opLdwi (alone i) rd p disp e) { c.stepped with w := (c.withPair p (c.dataAddr p disp)).set rd (word base) }) ∧
      ends (.opStwi (alone i) rd p disp)
        { c.stepped with w := c.withPair p (c.dataAddr p disp), scratch := memSet 0 base (c.w.get rd) c.scratch } ∧
      ((c.rp q).toNat < 0x4000 → q ≠ p → ends (.opMacp (alone i) (loReg q) p disp e)
        { c.stepped with
          w := (({ c with w := c.withPair p (c.dataAddr p disp) } : CoreState).withPair q (c.dataAddr q disp)),
          acc := c.acc + BitVec.ofInt 36 ((word base).toInt * (word (c.rp q).toNat).toInt) }))

/-- BR, BC, DBNZ, CALL, JR, BCR, CALLR, RET, KSET and KGET: the next bundle's address, the link and the counters (R683, R684). On a ready
core with tracing off: BR, CALL, JR and CALLR go on at their target, CALL and CALLR with the following bundle's address in the link pair;
BC and BCR go to their target where the condition holds of FL and on otherwise; DBNZ decrements its counter modulo 2^24 and goes to its
target unless the result is 0; RET copies ESTAT into CTL and resumes at EPC; KSET and KGET move a counter from and to a pair. Register
targets are taken even. Nothing else changes. -/
def Obligations.BranchesAndCounters : Prop :=
  ∀ (s : State) (i : Fin 4) (sel p : Fin 16) (n : Fin 4) (disp : Word), Ready s i → s.dbg.traceRate = 0 →
    let c := s.core.get i
    let next := c.pc + 2
    let rel := c.pc + (disp.signExtend 24 <<< 1)
    let ends (x : Instr) (d : CoreState) : Prop := exec x s = .next (s.setCore i d)
    let low : Fin 16 := ⟨n.val, by omega⟩
    let num : Word := BitVec.ofNat 12 p.val
    let even : Prop := (c.rp p).getLsbD 0 = false
    ends (.opBr (alone i) 0 disp) { c.stepped with pc := rel } ∧
    ends (.opBc (alone i) sel disp) { c.stepped with pc := if condHolds c.fl sel then rel else next } ∧
    ends (.opDbnz (alone i) low disp) { c.stepped with k := c.k.set n (c.k.get n - 1), pc := if c.k.get n - 1 = 0 then next else rel } ∧
    ends (.opCall (alone i) sel disp) { c.stepped with w := c.withPair sel next, pc := rel } ∧
    (even → ends (.opJr (alone i) p 0) { c.stepped with pc := c.rp p }) ∧
    (even → ends (.opBcr (alone i) sel num) { c.stepped with pc := if condHolds c.fl sel then c.rp p else next }) ∧
    (even → ends (.opCallr (alone i) sel num) { c.stepped with w := c.withPair sel next, pc := c.rp p }) ∧
    ends (.opRet (alone i) 0 0) { c.stepped with ctl := c.estat, pc := c.epc } ∧
    ends (.opKset (alone i) low num) { c.stepped with k := c.k.set n (c.rp p) } ∧
    ends (.opKget (alone i) low num) { c.stepped with w := c.withPair p (c.k.get n) }

/-- Traps of one bundle and of a fetch enter their vectors with nothing done; a trap in a handler resets the core (R614, R615,
11_jieles_model.md Table Jieles-8, R593, R658, R680, R591, R617, R199). On a ready core that is not in a handler: BRK enters vector 11 and
TRAP vector 12; BCR and CALLR to an odd pair enter vector 3 with sub-cause 1 as JR does; ACCRD by more than 12 and LDWI into its own
pointer enter vector 1 with sub-cause 1, MTS of special register 15 to 31 with sub-cause 3; a load or store of an address from 0x004000 to
0x0FFFFF enters vector 4 with sub-cause 0, of tile 0 with sub-cause 1, a pair at an odd scratch address with sub-cause 3; a JR to an odd
pair enters vector 3 with sub-cause 1 and the target in EADDR; a CMP with rd not 0 and an ADDP with an odd rd enter vector 1 with sub-
cause 1; MFS of special register 15 to 31 enters vector 1 with sub-cause 3. EPC, ECAUSE, EADDR, EBLEN, ESTAT, CTL and PC are set as R615
says, and no register, flag or word of scratch changes. For a running core that stands between bundles: with PC odd, TRAP_ENTRY of its
next fetch enters vector 3 with sub-cause 1, and with PC even and outside tiles 1 to 15 with sub-cause 0, EPC and EADDR holding PC;
nothing else of the core changes. The same with CTL.TH at 1 is a double trap: the core is reset, PMU_WDT.CAUSE reads 2, and the vector,
EPC and EADDR are kept for the event. -/
def Obligations.TrapsOfBundlesAndOfFetches : Prop :=
  (∀ (s : State) (i : Fin 4) (rd ra rb : Fin 32) (p q : Fin 16) (disp : BitVec 7) (d12 : Word) (e : AccessEnv), Ready s i →
      (s.core.get i).ctl.getLsbD 4 = false →
      let c := s.core.get i
      let a := c.dataAddr p disp
      let traps (x : Instr) (v k : Nat) (addr : Option Pair) : Prop := Does x s (fun t => Trapped1 s t i v k addr)
      traps (.opBrk (alone i) 0 d12) 11 0 none ∧ traps (.opTrap (alone i) 0 d12) 12 0 none ∧
      (0x4000 ≤ a.toNat → a.toNat < 0x100000 →
        traps (.opLdw (alone i) rd p disp e) 4 0 (some a) ∧ traps (.opStw (alone i) rd p disp) 4 0 (some a)) ∧
      (0x100000 ≤ a.toNat → a.toNat < 0x110000 →
        traps (.opLdw (alone i) rd p disp e) 4 1 (some a) ∧ traps (.opStw (alone i) rd p disp) 4 1 (some a)) ∧
      (a.toNat < 0x4000 → a.toNat % 2 = 1 →
        traps (.opLdp (alone i) (loReg q) p disp e) 4 3 (some a) ∧ traps (.opStp (alone i) (loReg q) p disp) 4 3 (some a)) ∧
      ((c.rp p).getLsbD 0 = true → traps (.opJr (alone i) p 0) 3 1 (some (c.rp p)) ∧
        traps (.opBcr (alone i) q (BitVec.ofNat 12 p.val)) 3 1 (some (c.rp p)) ∧
        traps (.opCallr (alone i) q (BitVec.ofNat 12 p.val)) 3 1 (some (c.rp p))) ∧
      (12 < rb.val → traps (.opAccrd (alone i) (loReg p) ra rb) 1 1 (some c.pc)) ∧
      traps (.opLdwi (alone i) (loReg p) p disp e) 1 1 (some c.pc) ∧
      (15 ≤ rd.val → traps (.opMts (alone i) rd ra 0) 1 3 (some c.pc)) ∧
      (rd ≠ 0 → traps (.opCmp (alone i) rd ra rb) 1 1 (some c.pc)) ∧
      (rd.val % 2 = 1 → traps (.opAddp (alone i) rd ra rb) 1 1 (some c.pc)) ∧
      (15 ≤ ra.val → traps (.opMfs (alone i) rd ra 0) 1 3 (some c.pc))) ∧
  (∀ (s : State) (i : Fin 4), let c := s.core.get i
      c.run = .running → c.gather = [] → c.gatherX = [] → c.closed = false → c.preTrap = none → c.window = [] → c.staleTags.length ≤ 58 →
      s.mem.loaded.filter (fun x => x.cache = .core i) = [] →
      let odd : Prop := c.pc.getLsbD 0 = true
      let out : Prop := c.pc.getLsbD 0 = false ∧ ¬ (0x110000 ≤ c.pc.toNat ∧ c.pc.toNat < 0x200000)
      (c.ctl.getLsbD 4 = false → (odd → Does (.trapEntry i true) s (fun t => Trapped1 s t i 3 1 (some c.pc))) ∧
        (out → Does (.trapEntry i true) s (fun t => Trapped1 s t i 3 0 (some c.pc)))) ∧
      (c.ctl.getLsbD 4 = true → odd ∨ out → Does (.trapEntry i true) s (fun t =>
        (t.boot.wdt.get i).cause = 2 ∧ (t.core.get i).doubleVector = 3 ∧ (t.core.get i).doubleEpc = c.pc ∧ (t.core.get i).doubleEaddr = c.pc ∧
          (t.core.get i).window = [] ∧ (t.core.get i).w = Vector.replicate 32 0)))

/-- Forms with an X syllable: 24-bit immediates, displacements, targets and counter values (R602, 12_jieles_operations.md Table Ops-3,
12_jieles_operations.md Table Ops-6, 12_jieles_operations.md Table Ops-9, 12_jieles_operations.md Table Ops-14, R680). On a ready core
with room for two syllables, an operation that comes with an X syllable naming its unit uses the long value (the X value above its own
immediate): LDI, ADDI and ANDI act on a pair, CMPI compares a pair, MULI multiplies a pair, MACI adds rd times the value; LDW and STW in
scratch use it as displacement; BR and CALL go to it when it is even and trap with vector 3, sub-cause 1 when it is odd; KSET loads it.
The bundle is two syllables long, and nothing else changes. -/
def Obligations.LongImmediates : Prop :=
  ∀ (s : State) (i : Fin 4) (rd : Fin 32) (p q : Fin 16) (n : Fin 4) (disp : BitVec 7) (imm : Word) (x : BitVec 17) (e : AccessEnv), Ready s i →
    (s.core.get i).pc.toNat + 4 ≤ 0x200000 → s.dbg.traceRate = 0 → x.toNat < 4096 →
    let c := s.core.get i
    let long : Pair := BitVec.ofNat 24 (4096 * x.toNat + imm.toNat)
    let far : Pair := BitVec.ofNat 24 (128 * x.toNat + disp.toNat)
    let a := (c.rp p + far).toNat
    let two (unit : Fin 8) : Delivery := { alone i with x := some (unit, x) }
    let c2 : CoreState := { c with pc := c.pc + 4, nextTag := c.nextTag + 2, nextBundle := c.nextBundle + 1, firm := max c.firm (c.nextBundle + 1) }
    let ends (z : Instr) (d : CoreState) : Prop := exec z s = .next (s.setCore i d)
    let pair (r : AluResult 24) : CoreState := { c2 with w := c.withPair p r.res, fl := flAfter c.fl r.mask r.value r.sticky }
    ends (.opLdi (two 0) (loReg p) imm) { c2 with w := c.withPair p long } ∧
    ends (.opAddi (two 0) (loReg p) imm) (pair (addFlags (c.rp p) long false)) ∧
    ends (.opAndi (two 0) (loReg p) imm) (pair (.zn (c.rp p &&& long))) ∧
    ends (.opCmpi (two 0) (loReg p) imm) (let r := subFlags (c.rp p) long false; { c2 with fl := flAfter c.fl r.mask r.value r.sticky }) ∧
    ends (.opMuli (two 1) (loReg p) imm) (pair (.zn (c.rp p * long))) ∧
    ends (.opMaci (two 1) rd imm) { c2 with acc := c.acc + BitVec.ofInt 36 ((c.w.get rd).toInt * long.toInt) } ∧
    (a < 0x4000 →
      ends (.opLdw (two 2) rd p disp e) { c2 with w := c.w.set rd (memGet 0 c.scratch a) } ∧
      ends (.opStw (two 2) rd p disp) { c2 with scratch := memSet 0 a (c.w.get rd) c.scratch }) ∧
    (long.getLsbD 0 = false →
      ends (.opBr (two 5) 0 imm) { c2 with pc := long } ∧
      ends (.opCall (two 5) q imm) { c2 with w := c.withPair q (c.pc + 4), pc := long }) ∧
    (long.getLsbD 0 = true → c.ctl.getLsbD 4 = false → Does (.opBr (two 5) 0 imm) s (fun t =>
      (t.core.get i).epc = c.pc ∧ (t.core.get i).ecause.toNat % 32 = 3 ∧ (t.core.get i).eaddr = long ∧ (t.core.get i).eblen = 2 ∧
      (t.core.get i).pc = c.tvb + 12 ∧ (t.core.get i).w = c.w)) ∧
    ends (.opKset (two 5) ⟨n.val, by omega⟩ imm) { c2 with k := c.k.set n long }

/-- FENCE and the cache operations; IN and OUT of GRT_IEN and of ungranted blocks; the doorbells (12_jieles_operations.md Table Ops-10,
R676, R787, R794, 14_inflight.md Table Flight-7, 11_jieles_model.md Table Jieles-9, R647, R618, R595, R677). On a ready core: FENCE
completes, with nothing changed, when none of the core's stores waits in its cache; ICINVA empties the core's instruction cache and ICINV
removes the line of its address; DCWB of a modified line writes it to its tile and keeps it clean, and DCWBI of a modified line starts its
write-back and of a shared line gives it up; on a line that is absent DCWB and DCWBI have no effect. No register changes but PC. On a
ready core, OUT to GRT_IEN (0x004) writes the enables, IN reads them; an IN or OUT of a block whose grant the core lacks, or of an address
from 0xF00, enters vector 7 with sub-cause 0. GRT_DBELL sets, in GRT_DBSRC of every core named by bits 3:0, the bit of the ringing core
and nothing else; a read of GRT_DBSRC clears it. A core's register write to GRT_IEN sets the enables; one to a port that it does not reach
traps the core, and the Steward's there, and any of the DMA engine, change nothing. Everything else is as before. -/
def Obligations.CacheOrderAndDoorbells : Prop :=
  (∀ (s : State) (i : Fin 4) (p : Fin 16) (disp : BitVec 7) (l : CacheLine), Ready s i →
      let c := s.core.get i
      let a := (c.dataAddr p disp).toNat
      let line := a / 16
      let ends (x : Instr) (m : Memory) : Prop := exec x s = .next ({ s with mem := m }.setCore i c.stepped)
      (s.mem.storesVisible i = true → ends (.opFence (alone i) 0 0) s.mem) ∧
      ends (.opIcinva (alone i) 0 0) { s.mem with icache := s.mem.icache.set i [] } ∧
      ends (.opIcinv (alone i) p disp) { s.mem with icache := s.mem.icache.set i (dropKey (a / 32) (s.mem.icache.get i)) } ∧
      (s.mem.lineIn (.core i) line = none → ends (.opDcwb (alone i) p disp) s.mem ∧ ends (.opDcwbi (alone i) p disp) s.mem) ∧
      (s.mem.lineIn (.core i) line = some l → l.err = false →
        (l.state = .m → ends (.opDcwb (alone i) p disp) ((s.mem.writeLine line l.data).putLine (.core i) line { l with state := .e }) ∧
          ends (.opDcwbi (alone i) p disp) ((s.mem.putLine (.core i) line { l with state := .miA }).send line (.core i) (.putM l.data))) ∧
        (l.state = .e → ends (.opDcwb (alone i) p disp) s.mem ∧
          ends (.opDcwbi (alone i) p disp) ((s.mem.putLine (.core i) line { l with state := .eiA }).send line (.core i) .putE)) ∧
        (l.state = .s → ends (.opDcwb (alone i) p disp) s.mem ∧ ends (.opDcwbi (alone i) p disp) (s.mem.dropLine (.core i) line)))) ∧
  (∀ (s : State) (i : Fin 4) (rd : Fin 32) (addr v : Word) (e : AccessEnv),
      let c := s.core.get i
      (Ready s i →
        exec (.opOut (alone i) rd 0x004 e) s = .next (s.setCore i { c.stepped with ien := c.w.get rd }) ∧
        exec (.opIn (alone i) rd 0x004 e) s = .next (s.setCore i { c.stepped with w := c.w.set rd c.ien }) ∧
        (c.ctl.getLsbD 4 = false → (512 ≤ addr.toNat ∧ c.grants.blocks.getLsbD (addr.toNat / 256) = false ∨ 0xF00 ≤ addr.toNat) →
          Does (.opOut (alone i) rd addr e) s (fun t => Trapped1 s t i 7 0 (some (addr.setWidth 24))) ∧
          Does (.opIn (alone i) rd addr e) s (fun t => Trapped1 s t i 7 0 (some (addr.setWidth 24))))) ∧
      Does (.grtDbellWrite i v) s (fun t => { t with core := s.core } = s ∧ ∀ j : Fin 4,
        t.core.get j = { s.core.get j with dbsrc := if v.getLsbD j.val then (s.core.get j).dbsrc ||| (1#4 <<< i.val) else (s.core.get j).dbsrc }) ∧
      exec (.grtDbsrcRead i) s = .next (s.setCore i { c with dbsrc := 0 }) ∧
      exec (.registerWrite (.core i) 0x004 v e) s = .next (s.setCore i { c with ien := v }) ∧
      (¬s.reaches (.core i) addr.toNat → Does (.registerWrite (.core i) addr v e) s (fun t => TurnedAway s t (.core i) addr.toNat)) ∧
      (¬s.reaches .steward addr.toNat → exec (.registerWrite .steward addr v e) s = .next s) ∧
      exec (.registerWrite .dma addr v e) s = .next s)

/-- WAIT, the end of a WAIT, and the entry of the lowest-numbered enabled interrupt (R619). On a ready core, WAIT ends at once when
GRT_IPEND and GRT_IEN share a bit, and otherwise the core waits. A waiting core for which they share a bit resumes; it takes the interrupt
when IE is 1 and TH is 0. A running core with IE at 1, TH at 0 and a shared bit, all of whose bundles that must complete have done so,
enters vector 16 + n for the lowest-numbered source n: EPC is the first squashed bundle or the next to issue, EBLEN is 0, CTL is saved in
ESTAT, TH rises, IE falls, and no other register changes. -/
def Obligations.WaitsAndInterrupts : Prop :=
  ∀ (s : State) (i : Fin 4) (n : Nat),
    let c := s.core.get i
    let enters (t : State) (at_ : Pair) : Prop :=
      let d := t.core.get i
      d.epc = at_ ∧ d.ecause.toNat % 32 = 16 + n ∧ d.eblen = 0 ∧ d.estat = c.ctl ∧ d.ctl = (c.ctl ||| 0x10) &&& 0x17 ∧
        d.pc = c.tvb + BitVec.ofNat 24 (4 * (16 + n)) ∧ d.run = .running ∧ d.window = [] ∧ d.w = c.w ∧ d.k = c.k ∧ d.acc = c.acc ∧
        d.fl = c.fl ∧ d.scratch = c.scratch ∧ d.ien = c.ien ∧ d.dbsrc = c.dbsrc
    let first : Prop := n < 12 ∧ (s.interrupts i).getLsbD n = true ∧ ∀ m : Fin 12, m.val < n → (s.interrupts i).getLsbD m.val = false
    (Ready s i →
      (s.interrupts i ≠ 0 → exec (.opWait (alone i) 0 0) s = .next (s.setCore i c.stepped)) ∧
      (s.interrupts i = 0 → exec (.opWait (alone i) 0 0) s = .next (s.setCore i { c.stepped with run := .waiting }))) ∧
    (c.run = .waiting → s.interrupts i ≠ 0 → c.window = [] → c.preTrap = none →
      (¬ (c.ctl.getLsbD 3 = true ∧ c.ctl.getLsbD 4 = false) → exec (.waitResume i) s = .next (s.setCore i { c with run := .running })) ∧
      (c.ctl.getLsbD 3 = true → c.ctl.getLsbD 4 = false → first → Does (.waitResume i) s (fun t => enters t c.pc))) ∧
    (c.run = .running → c.ctl.getLsbD 3 = true → c.ctl.getLsbD 4 = false → first → c.preTrap = none →
      (∀ e ∈ c.window, c.firm ≤ e.bundle) → c.headTrap = none →
      Does (.interruptEntry i) s (fun t => enters t (match c.window with | [] => c.pc | e :: _ => e.pc)))

/-- A result that returns later completes by RESULT_COMPLETE, a wrong prediction is undone by BRANCH_MISPREDICT, and stale tags are freed
(R607, R608, R609, R612, R613, R65). On a ready core with tracing off: an ADD whose unit has not finished issues, writes nothing yet, and
completes when its result returns under its tag, after which the state is that of an ADD done at once. A BC that does not resolve at once
goes on along its predicted path, taken exactly when its displacement is negative; once it resolves, a wrong prediction is undone by
BRANCH_MISPREDICT and the core goes on at the other address, and with a right one the core goes on as it was. A result under a stale tag
frees that tag and changes nothing else of a core whose window is empty. -/
def Obligations.LateResultsAndMispredictions : Prop :=
  ∀ (s : State) (i : Fin 4) (rd ra rb : Fin 32) (sel : Fin 16) (disp : Word) (tag : Nat), Ready s i → s.dbg.traceRate = 0 →
    let c := s.core.get i
    let late : Delivery := { alone i with late := true }
    let rel := c.pc + (disp.signExtend 24 <<< 1)
    let next := c.pc + 2
    let goes := if condHolds c.fl sel then rel else next
    Does (.opAdd late rd ra rb) s (fun t => (t.core.get i).w = c.w ∧ (t.core.get i).fl = c.fl ∧ (t.core.get i).pc = next ∧
      exec (.resultComplete i c.nextTag) t = .next (s.setCore i (c.result rd (addFlags (c.w.get ra) (c.w.get rb) false)))) ∧
    Does (.opBc late sel disp) s (fun t => (t.core.get i).pc = (if disp.msb then rel else next) ∧
      Does (.resultComplete i c.nextTag) t (fun u => exec (.branchMispredict i) u = .next (s.setCore i { c.stepped with pc := goes }))) ∧
    exec (.resultComplete i tag) s = .next (s.setCore i { c with staleTags := c.staleTags.filter (fun t => t ≠ tag) })

/-- A coprocessor operation takes a tag at issue, returns its result with COPRO_RESULT_RETURN, and obeys cancel tokens by its phase (R749,
R750, R755, R756, 14_inflight.md Table Flight-3, R65). On a ready core, with no other running core in the middle of its operations, and no
operation in the decimal units, a DNEGS whose unit has not finished takes one tag and runs; when it returns, its words, flags and
completion are those of the operation done at once, and its tag is free. A cancel token for an operation that is queued drops it and frees
its tag; for a running one in constant-time form it is recorded and the operation runs on; for another running one, the token that wins
its step boundary ends it; a token for an operation that has gone is spent. -/
def Obligations.CoprocessorOperationsInFlight : Prop :=
  ∀ (s : State) (i : Fin 4) (pd pa : Fin 16) (p : Coproc) (o : CopOp) (tag : Nat), Ready s i →
    (∀ j : Fin 4, j ≠ i → (s.core.get j).run ≠ .running ∨ s.cacheStill (.core j)) →
    let c := s.core.get i
    let me : Coproc × Fin 5 × Nat := (p, coreOwner i, tag)
    let spent : List (Coproc × Fin 5 × Nat) := s.cop.tokens.filter (fun t => t ≠ me)
    (s.copFree i .decimal → (∀ x ∈ s.cop.ops, x.cop ≠ .decimal) → (∀ x ∈ s.cop.tokens, x.1 ≠ .decimal) → pd.val + 3 ≤ 16 → pa.val + 3 ≤ 16 →
      Does (.opDnegs { alone i with late := true } pd pa 0) s (fun t =>
        t.cop.ops = s.cop.ops ++ [{ cop := .decimal, owner := coreOwner i, tag := c.nextTag, phase := .running, unit := (s.workingUnits .decimal).headD 0, ct := c.ctl.getLsbD 1,
                                    stale := false }] ∧
        (t.core.get i).w = c.w ∧
        Does (.coproResultReturn .decimal i c.nextTag false false) t (fun u =>
          u.cop.ops = s.cop.ops ∧ u.core.get i = c.wrote (c.decimalWrites 8 pd pa 0 3 3 0)))) ∧
    (me ∉ s.cop.tokens → exec (.cancelToken p i tag true) s = .next s) ∧
    (me ∈ s.cop.tokens → (∀ x ∈ s.cop.ops, ¬ (x.cop = p ∧ x.owner = coreOwner i ∧ x.tag = tag)) →
      exec (.cancelToken p i tag true) s = .next { s with cop := { s.cop with tokens := spent } }) ∧
    (me ∈ s.cop.tokens → s.cop.ops = [o] → o.cop = p → o.owner = coreOwner i → o.tag = tag → o.stale = true →
      (o.phase = .queued → Does (.cancelToken p i tag true) s (fun t => t.cop.ops = [] ∧ t.cop.tokens = spent ∧
        (t.core.get i).staleTags = c.staleTags.filter (fun t => t ≠ tag))) ∧
      (o.phase = .running → o.ct = true → exec (.cancelToken p i tag true) s = .next { s with cop := { s.cop with tokens := spent } }) ∧
      (o.phase = .running → o.ct = false → Does (.cancelToken p i tag true) s (fun t => t.cop.ops = [] ∧ t.cop.tokens = spent ∧
        (t.core.get i).staleTags = c.staleTags.filter (fun t => t ≠ tag)) ∧ exec (.cancelToken p i tag false) s = .next s))

/-- The decimal operations write the runs and flags of their results, DSET sets the context, and nothing else changes (13_decimal_ct.md
Table Decimal-3, R717, R718, R687, R716, R586). On a ready core with a decimal unit at work and a tag free, each operation of Table
Decimal-3 whose runs fit below pair 16 completes as a lone syllable: the words of its result are written to the run at pd (no run for
DCMPS and DCMPL), the flags it names change, and every other register and every other part of the chip is as before; DDIVS and DDIVL so
when they do not divide by zero with DZT at 1. DSTAT writes the context's word. DSET with scales below 14 and no bit above 13 replaces the
context and clears ERR; any other value sets ERR and changes nothing else. -/
def Obligations.DecimalOperationsComplete : Prop :=
  ∀ (s : State) (i : Fin 4) (pd pa pb : Fin 16), Ready s i → s.copFree i .decimal →
    let c := s.core.get i
    let ends (x : Instr) (d : CoreState) : Prop := exec x s = .next (s.setCore i d)
    let three : Prop := pd.val + 3 ≤ 16 ∧ pa.val + 3 ≤ 16 ∧ pb.val + 3 ≤ 16
    let five : Prop := pd.val + 5 ≤ 16 ∧ pa.val + 5 ≤ 16 ∧ pb.val + 5 ≤ 16
    let safe (n m : Nat) : Prop := decDivZero n (c.run' pa m) (c.run' pb m) = false ∨ c.ctl.getLsbD 2 = false
    let binary (cop m : Nat) : CoreState := c.wrote (c.decimalWrites cop pd pa pb m m m)
    let unary (cop m n : Nat) : CoreState := c.wrote (c.decimalWrites cop pd pa 0 m n 0)
    ends (.opDstat (alone i) pd 0 0) { c.stepped with w := c.withPair pd c.dec.word } ∧
    ((c.rp pa).toNat % 16 < 14 → (c.rp pa).toNat / 16 % 16 < 14 → (c.rp pa).toNat / 256 % 16 < 14 → (c.rp pa).toNat < 16384 →
      ends (.opDset (alone i) 0 pa 0) { c.stepped with dec :=
        ⟨(c.rp pa).setWidth 4, ((c.rp pa) >>> 4).setWidth 4, ((c.rp pa) >>> 8).setWidth 4, ((c.rp pa) >>> 12).setWidth 2, false⟩ }) ∧
    (¬ ((c.rp pa).toNat % 16 < 14 ∧ (c.rp pa).toNat / 16 % 16 < 14 ∧ (c.rp pa).toNat / 256 % 16 < 14 ∧ (c.rp pa).toNat < 16384) →
      ends (.opDset (alone i) 0 pa 0) { c.stepped with dec := { c.dec with err := true } }) ∧
    (three → ends (.opDadds (alone i) pd pa pb) (binary 2 3) ∧ ends (.opDsubs (alone i) pd pa pb) (binary 3 3) ∧
      ends (.opDmuls (alone i) pd pa pb) (binary 4 3) ∧ (safe 14 3 → ends (.opDdivs (alone i) pd pa pb) (binary 5 3)) ∧
      ends (.opDcmps (alone i) 0 pa pb) (c.wrote (c.decimalWrites 6 0 pa pb 0 3 3)) ∧ ends (.opDrnds (alone i) pd pa 0) (unary 7 3 3) ∧
      ends (.opDnegs (alone i) pd pa 0) (unary 8 3 3) ∧ ends (.opDabss (alone i) pd pa 0) (unary 9 3 3) ∧
      ends (.opDfromb (alone i) pd pa 0) (unary 20 3 1) ∧ ends (.opDtob (alone i) pd pa 0) (unary 21 1 3) ∧
      ends (.opDnan (alone i) pd pa 0) (unary 22 3 1) ∧ ends (.opDcls (alone i) pd pa 0) (unary 23 1 3)) ∧
    (five → ends (.opDaddl (alone i) pd pa pb) (binary 10 5) ∧ ends (.opDsubl (alone i) pd pa pb) (binary 11 5) ∧
      ends (.opDmull (alone i) pd pa pb) (binary 12 5) ∧ (safe 29 5 → ends (.opDdivl (alone i) pd pa pb) (binary 13 5)) ∧
      ends (.opDcmpl (alone i) 0 pa pb) (c.wrote (c.decimalWrites 14 0 pa pb 0 5 5)) ∧ ends (.opDrndl (alone i) pd pa 0) (unary 15 5 5) ∧
      ends (.opDnegl (alone i) pd pa 0) (unary 16 5 5) ∧ ends (.opDabsl (alone i) pd pa 0) (unary 17 5 5) ∧
      ends (.opDwiden (alone i) pd pa 0) (unary 18 5 3) ∧ ends (.opDnarrow (alone i) pd pa 0) (unary 19 3 5) ∧
      ends (.opDcls (alone i) pd pa 1) (c.wrote (c.decimalWrites 23 pd pa 1 1 5 0)))

/-- Decimal operands decode to the numbers they were encoded from; sums, products and quotients are exact values rounded once, or overflow
(R708, R711, R712, R718, R719, 13_decimal_ct.md Table Decimal-4, R725, R728, R721). In DS (14 digits) and DL (29): a number of at most
that many digits decodes to itself from its encoding. Rounding a quotient loses less than one unit, at most half a unit in the nearest
modes, goes toward zero in mode 2 and away from it in mode 3, and reports inexactness exactly when there is a remainder. DADD, DSUB, DMUL
and DDIV of two encoded numbers round the exact sum, difference, product or quotient of the scaled operands once, set Z and N by the
result and DI by inexactness, and give a class-0xE NaN with V and DN when the result needs more digits; DCMP compares the scaled values.
-/
def Obligations.DecimalValues : Prop :=
  (∀ (n op : Nat) (x : Int), n = 14 ∨ n = 29 → x.natAbs < 10 ^ n → DVal.decode n op ((DVal.num x).encode n) = .num x) ∧
  (∀ (mode : Nat) (x : Int) (den : Nat), 0 < den → mode < 4 →
    let q := (roundDiv mode x den).1
    ((roundDiv mode x den).2 = true ↔ ¬ (den : Int) ∣ x) ∧ (q * den - x).natAbs < den ∧ (mode < 2 → 2 * (q * den - x).natAbs ≤ den) ∧
      (mode = 2 → q.natAbs = x.natAbs / den) ∧ (mode = 3 → q.natAbs = (x.natAbs + den - 1) / den) ∧ (0 ≤ x → 0 ≤ q) ∧ (x ≤ 0 → q ≤ 0)) ∧
  (∀ (n : Nat) (z : DecScales) (a b : Int), n = 14 ∨ n = 29 → a.natAbs < 10 ^ n → b.natAbs < 10 ^ n →
    let u := (DVal.num a).encode n
    let v := (DVal.num b).encode n
    let is (r : DecResult) (num : Int) (den : Nat) : Prop :=
      let q := (roundDiv z.mode num den).1
      if q.natAbs < 10 ^ n then r.words = (DVal.num q).encode n ∧ r.mask = 14 ∧
          r.value = (if q = 0 then 2 else 0) + (if q < 0 then 4 else 0) ∧ r.sticky = (if (roundDiv z.mode num den).2 then 64 else 0)
      else r.words = (DVal.nan 14 0).encode n ∧ r.mask = 14 ∧ r.value = 8 ∧ r.sticky = 32
    is (decAdd n z false u v) ((a * 10 ^ z.sb + b * 10 ^ z.sa) * 10 ^ z.sd) (10 ^ (z.sa + z.sb)) ∧
    is (decAdd n z true u v) ((a * 10 ^ z.sb - b * 10 ^ z.sa) * 10 ^ z.sd) (10 ^ (z.sa + z.sb)) ∧
    is (decMul n z u v) (a * b * 10 ^ z.sd) (10 ^ (z.sa + z.sb)) ∧
    (b ≠ 0 → is (decDiv n z u v) (b.sign * a * 10 ^ (z.sb + z.sd)) (b.natAbs * 10 ^ z.sa)) ∧
    (decCmp n z u v).value = (if a * 10 ^ z.sb = b * 10 ^ z.sa then 3 else if a * 10 ^ z.sb < b * 10 ^ z.sa then 4 else 1))

/-- CLARKE, SINCOS, PARK, IPARK and the PI channels: Q11 results, limits and the integrators (12_jieles_operations.md Table Ops-17, R690,
R691, R692). On a ready core with a vector unit at work and a tag free: CLARKE, SINCOS, PARK and IPARK write their two Q11 results to pair
pd, each sum of products divided by 2048, rounded to nearest with ties away from zero, and limited to −2048 to 2047; PISET sets a
channel's gains and limits unless the upper limit is below the lower; PIRST clears its integrator; PISTEP adds Ki × e to the integrator
within the limits × 2048, and writes Kp × e plus the integrator, divided by 2048, rounded and limited. No flag and nothing else changes.
-/
def Obligations.VectorOperationsComplete : Prop :=
  ∀ (s : State) (i : Fin 4) (pd pa pb : Fin 16) (n : Fin 4), Ready s i → s.copFree i .vector →
    let c := s.core.get i
    let a := (loWord (c.rp pa)).toInt
    let b := (hiWord (c.rp pa)).toInt
    let t := (loWord (c.rp pb)).toNat
    let near (x : Int) : Word := BitVec.ofInt 12 (max (-2048) (min 2047 (roundDiv 1 x 2048).1))
    let ends (x : Instr) (d : CoreState) : Prop := exec x s = .next (s.setCore i d)
    let pair (lo hi : Word) : CoreState := { c.stepped with w := c.withPair pd (hi ++ lo) }
    let ch : Fin 16 := ⟨n.val, by omega⟩
    let z := c.pi.get n
    let setPi (x : PiChannel) : CoreState := { c.stepped with pi := c.pi.set n x }
    let acc := max (z.lo.toInt * 2048) (min (z.hi.toInt * 2048) (z.integ.toInt + z.ki.toInt * a))
    ends (.opClarke (alone i) pd pa pb) (pair (loWord (c.rp pa)) (near ((a + 2 * b) * 1182))) ∧
    ends (.opSincos (alone i) pd pa 0) (pair (BitVec.ofInt 12 (sineTable (loWord (c.rp pa)).toNat)) (BitVec.ofInt 12 (cosineTable (loWord (c.rp pa)).toNat))) ∧
    ends (.opPark (alone i) pd pa pb) (pair (near (a * cosineTable t + b * sineTable t)) (near (b * cosineTable t - a * sineTable t))) ∧
    ends (.opIpark (alone i) pd pa pb) (pair (near (a * cosineTable t - b * sineTable t)) (near (a * sineTable t + b * cosineTable t))) ∧
    ((loWord (c.rp pb)).toInt ≤ (hiWord (c.rp pb)).toInt → ends (.opPiset (alone i) ch pa pb)
      (setPi { z with kp := loWord (c.rp pa), ki := hiWord (c.rp pa), lo := loWord (c.rp pb), hi := hiWord (c.rp pb) })) ∧
    ((hiWord (c.rp pb)).toInt < (loWord (c.rp pb)).toInt → ends (.opPiset (alone i) ch pa pb) c.stepped) ∧
    ends (.opPirst (alone i) ch 0 0) (setPi { z with integ := 0 }) ∧
    (z.lo.toInt ≤ z.hi.toInt → ends (.opPistep (alone i) pd pa ch)
      { setPi { z with integ := BitVec.ofInt 24 acc } with
        w := c.withPair pd (0#12 ++ BitVec.ofInt 12 (max z.lo.toInt (min z.hi.toInt (roundDiv 1 (z.kp.toInt * a + acc) 2048).1))) })

/-- The crypto operations: contexts, outputs, ERR for refused operands, and the traps without grant or engine (12_jieles_operations.md
Table Ops-18, R693, R694, R706, R599, 11_jieles_model.md Table Jieles-8, R689). On a ready core that holds the crypto grant, with the
engine at work, a tag free, the extents within tiles 1 to 15, no failed tile and no marked line: CSTAT writes the status and clears ERR;
RNG writes a value that is free; ECVER writes 1 or 0 by the signature; and each other operation, when Table Ops-18 accepts its operands,
replaces the core's context, stores its output octets at the address in pd and nothing else, or, when it does not, sets ERR alone. KEYLD
takes keys of 16 or 32 octets; SHAF gives the SHA-256 of the octets fed. On a ready core that is not in a handler, for operands whose
extents can be reached: without the crypto grant a CSTAT, an RNG or a KEYLD enters vector 7 with sub-cause 2; with the grant but with no
working unit, vector 8 with sub-cause 1; a KEYLD whose source lies outside tiles 1 to 15 enters vector 4 whatever the grant. Nothing else
of the core changes. -/
def Obligations.CryptoOperations : Prop :=
  (∀ (s : State) (i : Fin 4) (pd pa pb : Fin 16) (e : AccessEnv), Ready s i → s.copFree i .crypto → (s.core.get i).grants.crypto = true → e.trngBad = false →
      let c := s.core.get i
      let d := (c.rp pd).toNat
      let a := (c.rp pa).toNat
      let n := (c.rp pb).toNat
      let ok (cop : Nat) : Prop := cryptoFault cop d a n = none ∧ s.failedWord (cryptoExtents cop d a n) = none ∧
        s.markedWord (cryptoExtents cop d a n).1 = none
      let inp (cop : Nat) : List Octet := match (cryptoExtents cop d a n).1 with | none => [] | some (x, k) => s.tileOctets x k
      let left (cop : Nat) : State :=
        if c.crypto.refuses cop n (c.crypto.pointOk (inp cop)) then s.setCore i { c.stepped with crypto := { c.crypto with err := true } }
        else
          let r := c.crypto.run cop n (inp cop) s.free
          let t := ({ s with free := s.free + (if cop = 18 then 1 else 0) } : State).setCore i { c.stepped with crypto := r.1 }
          match (cryptoExtents cop d a n).2 with | none => t | some (x, _) => t.putTileOctets x r.2
      let ends (x : Instr) (cop : Nat) : Prop := ok cop → exec x s = .next (left cop)
      exec (.opCstat (alone i) pd pa pb) s = .next (s.setCore i
        { c.stepped with w := c.withPair pd c.crypto.status, crypto := { c.crypto with err := false } }) ∧
      exec (.opRng (alone i) pd pa pb e) s = .next (({ s with free := s.free + 1 } : State).setCore i
        { c.stepped with w := c.withPair pd (BitVec.ofNat 24 (Config.freeValue s.free)) }) ∧
      (ok 17 → exec (.opEcver (alone i) pd pa pb) s = .next (s.setCore i { c.stepped with w := c.withPair pd (ecVerify (s.tileOctets a 160)) })) ∧
      ends (.opKeyld (alone i) pd pa pb) 2 ∧ ends (.opIvld (alone i) pd pa pb) 3 ∧ ends (.opAese (alone i) pd pa pb) 4 ∧
      ends (.opAesd (alone i) pd pa pb) 5 ∧ ends (.opCbce (alone i) pd pa pb) 6 ∧ ends (.opCbcd (alone i) pd pa pb) 7 ∧
      ends (.opCtr (alone i) pd pa pb) 8 ∧ ends (.opGcma (alone i) pd pa pb) 9 ∧ ends (.opGcme (alone i) pd pa pb) 10 ∧
      ends (.opGcmd (alone i) pd pa pb) 11 ∧ ends (.opGcmt (alone i) pd pa pb) 12 ∧ ends (.opCmac (alone i) pd pa pb) 13 ∧
      ends (.opShai (alone i) pd pa pb) 14 ∧ ends (.opShau (alone i) pd pa pb) 15 ∧ ends (.opShaf (alone i) pd pa pb) 16 ∧
      ends (.opEcgen (alone i) pd pa pb) 18 ∧ ends (.opEcdh (alone i) pd pa pb) 19 ∧
      (∀ x : CryptoCtx, x.refuses 2 n true = !(n = 16 || n = 32)) ∧
      (∀ (x : CryptoCtx) (l : List Octet), x.sha = some { hmac := none, fed := l } → (x.run 16 n [] 0).2 = (sha256 l).take 32)) ∧
  (∀ (s : State) (i : Fin 4) (pd pa pb : Fin 16) (e : AccessEnv), Ready s i → (s.core.get i).ctl.getLsbD 4 = false → s.cop.tagFree .crypto i = true →
      let c := s.core.get i
      let a := (c.rp pa).toNat
      let n := (c.rp pb).toNat
      let reach : Prop := 0x110000 ≤ a ∧ a + octetWords n ≤ 0x200000
      let traps (x : Instr) (v k : Nat) (addr : Option Pair) : Prop := Does x s (fun t => Trapped1 s t i v k addr)
      (c.grants.crypto = false → traps (.opCstat (alone i) pd pa pb) 7 2 none ∧ traps (.opRng (alone i) pd pa pb e) 7 2 none ∧
        (reach → traps (.opKeyld (alone i) pd pa pb) 7 2 none)) ∧
      (c.grants.crypto = true → s.workingUnits .crypto = [] → traps (.opCstat (alone i) pd pa pb) 8 1 none ∧
        (reach → traps (.opKeyld (alone i) pd pa pb) 8 1 none)) ∧
      (n ≠ 0 → a < 0x100000 → traps (.opKeyld (alone i) pd pa pb) 4 0 (some (c.rp pa))))

/-- Word memory: a read after a write gives the word written, every other address reads as before, and the canonical form is kept (R770,
R767, R590). In a memory of canonical form with a given fill: after a word is written at a, a reads as that word and every other address
as before; after a list of words is written from a, address a + k reads as the k-th word and every address outside as before; clearing a
range makes its addresses read as the fill and leaves the others; and each of the three keeps the canonical form. Two memories of
canonical form that read alike at every address are equal. -/
def Obligations.MemoryLaws : Prop :=
  ∀ (fill : Word) (m : WordMem), memWf fill m = true →
    (∀ (a : Nat) (v : Word), memWf fill (memSet fill a v m) = true ∧ ∀ b, memGet fill (memSet fill a v m) b = if b = a then v else memGet fill m b) ∧
    (∀ (a : Nat) (ws : List Word), memWf fill (memSetList fill a ws m) = true ∧
      ∀ b, memGet fill (memSetList fill a ws m) b = if a ≤ b ∧ b < a + ws.length then ws.getD (b - a) 0 else memGet fill m b) ∧
    (∀ (lo hi : Nat), memWf fill (memClear lo hi m) = true ∧
      ∀ b, memGet fill (memClear lo hi m) b = if lo ≤ b ∧ b < hi then fill else memGet fill m b) ∧
    (∀ n : WordMem, memWf fill n = true → (∀ b, memGet fill m b = memGet fill n b) → m = n)

/-- Requests, eviction notices, responses, Done and agent accesses at a line's home (R771, R773, 14_inflight.md Table Flight-8, R777,
14_inflight.md Table Flight-10, R806). For a message that comes first among those on their way, to a home whose queue is empty: GetS of an
uncached line grants DataE, of a shared line DataS, of an owned line snoops the owner with SnpS; GetM of an owned line snoops with SnpI; a
request for a busy line is queued. PutM from the owner writes the tile, frees the entry and is acknowledged. SnpData for a GetS writes the
tile and grants DataS with the owner kept as a sharer. Done enters the final state. An agent's read of an uncached line delivers the
tile's words, its write writes them. Nothing else of the part changes. -/
def Obligations.CoherenceAtTheHome : Prop :=
  ∀ (s : State) (c o : CacheId) (line : Nat) (d : LineData) (rest : List Flight) (set : Vector Bool 5) (x : CohMsg) (final : DirState) (a : Agent)
    (off : Fin 16) (ws : List Word),
    let h := s.mem.homeOf line
    let goes (z : Instr) (m : Memory) : Prop := exec z s = .next { s with mem := m, free := s.free + 1 }
    let put (g : HomeLine) : List (Nat × HomeLine) := setKey line g s.mem.home
    s.cacheStill c →
    (h.queue = [] → s.mem.msgs = ⟨line, c, x⟩ :: rest →
      (h.busy = none →
        (x = .getS → h.dir = .u → goes (.coherenceRequest c line .none)
          { s.mem with msgs := rest ++ [⟨line, c, .dataE (s.mem.tileLine line) h.err⟩], home := put { h with busy := some (.granted (.getS c) (.x c)) } }) ∧
        (x = .getS → h.dir = .s set → goes (.coherenceRequest c line .none)
          { s.mem with
            msgs := rest ++ [⟨line, c, .dataS (s.mem.tileLine line) h.err⟩],
            home := put { h with busy := some (.granted (.getS c) (.s (set.set c.slot true))) } }) ∧
        (x = .getS → h.dir = .x o → goes (.coherenceRequest c line .none)
          { s.mem with msgs := rest ++ [⟨line, o, .snoop .snpS⟩], home := put { h with busy := some (.snooping (.getS c) o .snpS) } }) ∧
        (x = .getM → h.dir = .x o → goes (.coherenceRequest c line .none)
          { s.mem with msgs := rest ++ [⟨line, o, .snoop .snpI⟩], home := put { h with busy := some (.snooping (.getM c) o .snpI) } }) ∧
        (x = .putM d → h.dir = .x c → goes (.evictionNotice c line .none)
          { s.mem with
            msgs := rest ++ [⟨line, c, .putAck⟩], sram := memSetList 0 (line * 16) d.toList s.mem.sram, home := dropKey line s.mem.home })) ∧
      (x = .getS → h.busy = some (.granted (.getM o) final) → goes (.coherenceRequest c line .none)
        { s.mem with msgs := rest, home := put { h with queue := [.getS c] } }) ∧
      (x = .snpData d → h.busy = some (.snooping (.getS o) c .snpS) → h.dir = .x c → goes (.snoopResponse c line)
        { s.mem with
          msgs := rest ++ [⟨line, o, .dataS d false⟩], sram := memSetList 0 (line * 16) d.toList s.mem.sram,
          home := put { h with err := false, busy := some (.granted (.getS o) (.s (((Vector.replicate 5 false).set c.slot true).set o.slot true))) } }) ∧
      (x = .done → h.busy = some (.granted (.getS c) (.x c)) → goes (.coherenceDone c line)
        { s.mem with msgs := rest, home := put { h with dir := .x c, busy := none } })) ∧
    (h.queue = [] → h.busy = none → h.dir = .u → h.err = false →
      Does (.agentLineAccess a line off 16 none .none) s (fun t => { t with mem := s.mem } = s ∧
        t.mem.agentData = memGetList 0 s.mem.sram (line * 16 + off.val) (16 - off.val) ∧ t.mem.agentErr = false ∧ t.mem.sram = s.mem.sram) ∧
      Does (.agentLineAccess a line off 16 (some ws) .none) s (fun t => { t with mem := s.mem } = s ∧
        t.mem.sram = memSetList 0 (line * 16 + off.val) (ws.take (16 - off.val)) s.mem.sram ∧ t.mem.agentAcks = s.mem.agentAcks + 1 ∧
        t.mem.msgs = s.mem.msgs ∧ t.mem.dcache = s.mem.dcache))

/-- Snoops, grants and PutAck at a data cache (R772, 14_inflight.md Table Flight-7, R778). For a message that comes first among those on
their way, to a cache whose core has nothing in flight: Inv drops a shared copy and is answered InvAck; SnpS, SnpRd and SnpI leave a
modified line S, E and absent and are answered SnpData with the line, an exclusive one SnpClean; a line whose PutM is on its way answers
InFlight, and a cache that holds nothing SnpNone. DataE to a line that waits for it makes it exclusive, UpgAck makes a shared copy
modified with the waiting store done, each with Done sent; PutAck ends an eviction. Nothing else of the part changes. -/
def Obligations.CoherenceAtTheCache : Prop :=
  ∀ (s : State) (c : CacheId) (line : Nat) (d : LineData) (rest : List Flight) (x : CohMsg) (l : CacheLine) (a : Nat) (ws : List Word) (err : Bool),
    let goes (z : Instr) (m : Memory) : Prop := exec z s = .next { s with mem := m, free := s.free + 1 }
    let set (g : CacheLine) : Vector (List (Nat × CacheLine)) 5 := s.mem.dcache.set c.slot (setKey line g (s.mem.cache c))
    let gone : Vector (List (Nat × CacheLine)) 5 := s.mem.dcache.set c.slot (dropKey line (s.mem.cache c))
    let answers (y : CohMsg) (v : Vector (List (Nat × CacheLine)) 5) : Prop :=
      goes (.snoopAtCache c line false) { s.mem with msgs := rest ++ [⟨line, c, y⟩], dcache := v }
    s.cacheStill c → s.mem.msgs = ⟨line, c, x⟩ :: rest →
    (s.mem.lineIn c line = none → (x = .snoop .inv → answers .invAck s.mem.dcache) ∧ (x = .snoop .snpI → answers .snpNone s.mem.dcache)) ∧
    (s.mem.lineIn c line = some l →
      (l.state = .s → x = .snoop .inv → answers .invAck gone) ∧
      (l.state = .m → (x = .snoop .snpS → answers (.snpData l.data) (set { l with state := .s })) ∧
        (x = .snoop .snpRd → answers (.snpData l.data) (set { l with state := .e })) ∧ (x = .snoop .snpI → answers (.snpData l.data) gone)) ∧
      (l.state = .e → (x = .snoop .snpS → answers .snpClean (set { l with state := .s })) ∧
        (x = .snoop .snpRd → answers .snpClean s.mem.dcache) ∧ (x = .snoop .snpI → answers .snpClean gone)) ∧
      (l.state = .miA → x = .snoop .snpS → answers .inFlight s.mem.dcache) ∧
      (l.state = .isD → l.waits = [] → x = .dataE d err → goes (.lineGrant c line)
        { s.mem with msgs := rest ++ [⟨line, c, .done⟩], dcache := set { state := .e, data := d, err := err, waits := [] } }) ∧
      (l.state = .smA → l.waits = [.store a ws] → a / 16 = line → x = .upgAck → goes (.lineGrant c line)
        { s.mem with
          msgs := rest ++ [⟨line, c, .done⟩],
          dcache := set { state := .m, data := writeInto l.data (a % 16) ws, err := l.err, waits := [] } }) ∧
      (l.state = .miA → l.waits = [] → x = .putAck → goes (.putAck c line) { s.mem with msgs := rest, dcache := gone }))

/-- A store or load of shared SRAM hits its cached line, or sends for it and completes when the grant comes (R590, 14_inflight.md Table
Flight-7, R610, R608, R773). On a ready core whose tile has not failed: STW to a line held E or M writes the word into the cached line,
which becomes M; LDW from a line held S, E or M reads its word; LDW from a line that the cache does not hold, with room in its set, sends
GetS and leaves rd to be written, and once DataE reaches the cache the load completes with the granted word and Done is sent. No other
register and no word of any tile changes. -/
def Obligations.StoresAndLoadsOfTiles : Prop :=
  ∀ (s : State) (i : Fin 4) (rd : Fin 32) (p : Fin 16) (disp : BitVec 7) (l : CacheLine) (d : LineData) (e : AccessEnv), Ready s i →
    let c := s.core.get i
    let a := (c.dataAddr p disp).toNat
    let line := a / 16
    let me : CacheId := .core i
    let set (g : CacheLine) : Vector (List (Nat × CacheLine)) 5 := s.mem.dcache.set me.slot (setKey line g (s.mem.cache me))
    0x110000 ≤ a → a < 0x200000 → s.tileFailed a = false →
    (s.mem.lineIn me line = some l → l.state = .e ∨ l.state = .m →
      exec (.opStw (alone i) rd p disp) s = .next (({ s with
        free := s.free + 1, mem := { s.mem with dcache := set { l with state := .m, data := writeInto l.data (a % 16) [c.w.get rd] } } } : State).setCore i c.stepped)) ∧
    (s.mem.lineIn me line = some l → l.err = false → l.state = .s ∨ l.state = .e ∨ l.state = .m →
      exec (.opLdw (alone i) rd p disp e) s = .next (({ s with free := s.free + 1 } : State).setCore i { c.stepped with w := c.w.set rd (l.data.toList.getD (a % 16) 0) })) ∧
    (s.mem.lineIn me line = none → (s.mem.cache me).filter (fun x => x.1 % 64 = line % 64) = [] → s.mem.msgs = [] →
      Does (.opLdw (alone i) rd p disp e) s (fun t =>
        t.mem.msgs = [⟨line, me, .getS⟩] ∧ t.mem.sram = s.mem.sram ∧ (t.core.get i).w = c.w ∧ (t.core.get i).pc = c.pc + 2 ∧
        Does (.lineGrant me line) { t with mem := { t.mem with msgs := [⟨line, me, .dataE d false⟩] } } (fun u =>
          u.mem.msgs = [⟨line, me, .done⟩] ∧ u.mem.sram = s.mem.sram ∧
          u.core.get i = { c.stepped with w := c.w.set rd (d.toList.getD (a % 16) 0) })))

/-- DMA: GO checks the extent and starts, a line access moves the words of one line, and REM0 latches REM1 (R631). A GO on a busy channel
is ignored whole with BADWR, and so is a write of SRC, DST or CNT. An accepted GO of a memory transfer whose count, source and destination
are allowed sets BUSY and takes the addresses and the count; with count 0 it sets DONE with ERR 4, with a destination outside tiles 1 to
15, or a source outside them and the core's flash window, DONE with ERR 1, from the ADC with a count that is no multiple of 3 ERR 4 and
without the ADC_ grant ERR 5, and no word moves. A line access of a running memory transfer writes the words up to the end of the source's
or destination's line, and ends with DONE at the last; a tile error ends it with ERR 3 and no word. A read of REM0 latches REM1. -/
def Obligations.DmaTransfers : Prop :=
  ∀ (s : State) (ch : DmaIndex) (v a : Word) (off : Fin 6) (e : AccessEnv) (ec : BitVec 2) (b : Bool),
    let c := s.per.dma.get ch
    let put (d : DmaChannel) : State := { s with per := { s.per with dma := s.per.dma.set ch d } }
    let took : DmaChannel := { c with srck := v.setWidth 2, dfix := v.getLsbD 2, ie := v.getLsbD 3 }
    let n := c.cnt.toNat
    let reads := if v.toNat % 4 = 1 then 1 else n
    let writes := if v.getLsbD 2 then 1 else n
    let tiles (x m : Nat) : Prop := (if ch.val < 16 then 0x110000 else 0x100000) ≤ x ∧ x + m ≤ 0x200000
    let own (x : Nat) : Prop := s.inWindow (dmaOwner ch) x = true
    let src : Prop := tiles c.src.toNat reads ∨ (own c.src.toNat ∧ own (c.src.toNat + reads - 1) ∧ bankOf c.src.toNat = bankOf (c.src.toNat + reads - 1))
    let dst : Prop := tiles c.dst.toNat writes
    let k := min c.rem.toNat (min (if c.srck = 1 then 16 else 16 - c.curSrc.toNat % 16) (if c.dfix then 16 else 16 - c.curDst.toNat % 16))
    let reach (off : Nat) : Prop := s.reaches (channelOwner ch) (channelBase ch + off)
    let go (x : DmaChannel) : Prop := exec (.dmaGo ch v) s = .next (put x)
    let begun : DmaChannel := { took with busy := true, err := 0, rem := c.cnt, curSrc := c.src, curDst := c.dst }
    let a0 := c.curSrc.toNat
    let ws := if c.srck = 1 then List.replicate k ((s.cohRead a0 1).headD 0) else s.cohRead a0 k
    let bad := ((!inArray a0) && s.tileFailed a0) || s.tileFailed c.curDst.toNat
    let due := 4 * (s.mot.adc.thr.toNat + 1)
    (reach 6 →
      (c.busy = true → v.toNat % 4 ≠ 3 → go { c with badWr := true }) ∧ (v.toNat % 4 = 3 → go { c with badWr := true }) ∧
      (v.toNat % 4 = 2 → c.busy = false →
        (n % 3 ≠ 0 ∨ n = 0 → go { took with done := true, err := 4 }) ∧
        (n % 3 = 0 → 0 < n → s.holdsAdc (dmaOwner ch) = false → go { took with done := true, err := 5 }) ∧
        (n % 3 = 0 → 0 < n → s.holdsAdc (dmaOwner ch) = true → ¬ dst → go { took with done := true, err := 1 }) ∧
        (n % 3 = 0 → 0 < n → s.holdsAdc (dmaOwner ch) = true → dst → go begun)) ∧
      (v.toNat % 4 < 2 → c.busy = false →
        (n = 0 → go { took with done := true, err := 4 }) ∧
        (0 < n → ¬ (dst ∧ src) → go { took with done := true, err := 1 }) ∧
        (0 < n → dst → src → go begun))) ∧
    (¬ reach 6 → Does (.dmaGo ch v) s (fun t => TurnedAway s t (channelOwner ch) (channelBase ch + 6))) ∧
    (c.busy = true → c.srck ≠ 2 →
      (bad = true → exec (.dmaLineDone ch ec b) s = .next (put { c with busy := false, done := true, err := 1 })) ∧
      (bad = false → inArray a0 = false →
        exec (.dmaLineDone ch ec true) s = .next (put { c with busy := false, done := true, err := 3 }) ∧
        Does (.dmaLineDone ch ec false) s (fun t =>
          let d := t.per.dma.get ch
          t.mem = (if c.dfix then s.cohWrite c.curDst.toNat (ws.drop (k - 1)) else s.cohWrite c.curDst.toNat ws).mem ∧
            d.rem = c.rem - BitVec.ofNat 24 k ∧ d.curSrc = (if c.srck = 0 then c.curSrc + BitVec.ofNat 24 k else c.curSrc) ∧
            d.curDst = (if c.dfix then c.curDst else c.curDst + BitVec.ofNat 24 k) ∧
            (c.rem.toNat = k → d.busy = false ∧ d.done = true ∧ d.err = 0) ∧ (k < c.rem.toNat → d.busy = true ∧ d.done = c.done) ∧
            { t with mem := s.mem, free := s.free, per := { t.per with dma := t.per.dma.set ch c } } = s))) ∧
    (c.busy = true → c.srck ≠ 2 → bad = false → inArray a0 = true →
      let f := s.flashDirect (dmaOwner ch) a0 (if c.srck = 1 then 1 else k) ec
      (f.1 = .busy → exec (.dmaLineDone ch ec b) s = .next (f.2.setDma ch { c with busy := false, done := true, err := 2 })) ∧
      (f.1 = .uncorrectable → exec (.dmaLineDone ch ec b) s = .next (f.2.setDma ch { c with busy := false, done := true, err := 3 })) ∧
      (c.srck = 0 → c.dfix = false → ∀ l : List Word, f.1 = .words l → Does (.dmaLineDone ch ec b) s (fun t =>
        t.mem = (f.2.cohWrite c.curDst.toNat l).mem ∧ (t.per.dma.get ch).rem = c.rem - BitVec.ofNat 24 k ∧ t.core = s.core))) ∧
    (c.srck = 2 → s.mot.adc.dmaDue = false → exec (.dmaLineDone ch ec b) s = .next s) ∧
    (c.srck = 2 → s.mot.adc.dmaDue = true → (dmaOrder s.per.dmaTurn).find? (fun x => (s.dma x).busy && (s.dma x).srck = 2) = some ch →
      s.tileFailed c.curDst.toNat = false → c.dfix = false → due ≤ s.mot.adc.fifo.length → 3 * due < c.rem.toNat → Does (.dmaLineDone ch ec b) s (fun t =>
        let d := t.per.dma.get ch
        t.mem = (s.cohWrite c.curDst.toNat ((s.mot.adc.fifo.take due).flatMap (fun x => [x.tag, x.a, x.b]))).mem ∧
          t.mot.adc.fifo = s.mot.adc.fifo.drop due ∧ d.rem = c.rem - BitVec.ofNat 24 (3 * due) ∧ d.busy = true ∧ t.core = s.core)) ∧
    (reach 8 → exec (.dmaRem0Read ch) s = .next (put { c with remLatch := (c.rem >>> 12).setWidth 12 })) ∧
    (¬ reach 8 → Does (.dmaRem0Read ch) s (fun t => TurnedAway s t (channelOwner ch) (channelBase ch + 8))) ∧
    (∀ i : Fin 4, ch.val / 4 = i.val → s.ioCause i (0xE00 + 16 * (ch.val % 4) + off.val) = none → c.busy = true →
      exec (.registerWrite (.core i) (BitVec.ofNat 12 (14 * 256 + 16 * (ch.val % 4) + off.val)) a e) s = .next (put { c with badWr := true }))

/-- CAN-B: staging, commit, discard, abort, frames sent and received, and bus-off (R634, R636, R637, 11_jieles_model.md Table Jieles-17,
R33). Where the port serves CANB_, TXDATA appends an octet within the DLC's length. A commit moves the staged frame to a free buffer and
empties the staging; to a pending buffer it is ignored with BADWR. BUF 3 discards the staged frame. An abort clears each named pending
buffer that is not on the bus and sets its ABTD; one on the bus waits for its frame's end. A frame sent frees its buffer and sets DONE;
one that failed stays pending, or is aborted where an abort waits. A received frame is stored when no filter is enabled or one matches,
and discarded with RXOVF when 16 are held. RXPOP moves the head to the RX registers. Bus-off sets MODE 0, keeps pending buffers and sets
BOFF. Nothing outside CAN-B changes. Where the block is absent, failed or without its clock, a write of its registers and what reaches its
pins change nothing. -/
def Obligations.CanBTransmit : Prop :=
  ∀ (s : State) (b : Fin 3) (o : Octet) (m : BitVec 3) (bus : Option (Fin 3)) (f : CanFrame) (lec : BitVec 3),
    let c := s.per.canb
    let ends (x : Instr) (d : CanB) : Prop := exec x s = .next { s with per := { s.per with canb := d } }
    let gives (x : Instr) (P : CanB → Prop) : Prop := Does x s (fun t => { t with per := { t.per with canb := c } } = s ∧ P t.per.canb)
    let on : Prop := s.portServes 0x900 = true
    let live : Prop := s.blockLive 9 0 = true
    let runs : Prop := live ∧ c.mode ≠ 0 ∧ (c.state ≠ 2 ∨ c.mode = 3)
    (on →
      (c.stage.data.length < dlcOctets c.stage.fdf c.stage.dlc → ends (.canbTxdataWrite (o.setWidth 12)) { c with stage := { c.stage with data := c.stage.data ++ [o] } }) ∧
      (dlcOctets c.stage.fdf c.stage.dlc ≤ c.stage.data.length → ends (.canbTxdataWrite (o.setWidth 12)) c) ∧
      ((c.tx.get b).isSome = true → ends (.canbTxqCommit b) { c with badWr := true }) ∧
      (c.tx.get b = none → ends (.canbTxqCommit b) { c with tx := c.tx.set b (some c.stage), stage := emptyFrame }) ∧
      ends .canbTxqDiscard { c with stage := emptyFrame } ∧
      ends .canbRxpopWrite (match c.rx with | [] => { c with rxFrame := emptyFrame, rxRead := 0 } | g :: r => { c with rx := r, rxFrame := g, rxRead := 0 }) ∧
      gives (.canbTxabtWrite m bus) (fun d => d.stage = c.stage ∧ d.rx = c.rx ∧ d.txDone = c.txDone ∧ ∀ j : Fin 3,
        (m.getLsbD j = true → (c.tx.get j).isSome = true → bus ≠ some j → d.tx.get j = none ∧ d.txAbtd.getLsbD j = true) ∧
        (m.getLsbD j = true → (c.tx.get j).isSome = true → bus = some j → d.tx.get j = c.tx.get j ∧ d.txAbort.getLsbD j = true) ∧
        (m.getLsbD j = false → d.tx.get j = c.tx.get j ∧ d.txAbtd.getLsbD j = c.txAbtd.getLsbD j))) ∧
    (¬ on → ∀ x ∈ [exec (.canbTxdataWrite (o.setWidth 12)) s, exec (.canbTxqCommit b) s, exec .canbTxqDiscard s, exec (.canbTxabtWrite m bus) s, exec .canbRxpopWrite s], x = .next s) ∧
    (runs → c.tx.get b = some f →
      gives (.canbFrameSent b true lec) (fun d => d.tx = c.tx.set b none ∧ d.txDone = c.txDone ||| (1#3 <<< b.val) ∧ (c.mode ≠ 3 → d.rx = c.rx)) ∧
      (c.txAbort.getLsbD b = false → gives (.canbFrameSent b false lec) (fun d => d.tx = c.tx ∧ d.txDone = c.txDone ∧ d.txAbtd = c.txAbtd ∧ d.rx = c.rx)) ∧
      (c.txAbort.getLsbD b = true → gives (.canbFrameSent b false lec) (fun d => d.tx = c.tx.set b none ∧ d.txAbtd = c.txAbtd ||| (1#3 <<< b.val)))) ∧
    (runs → (f.fdf = false ∨ c.fden = true) →
      let kept : Prop := (∀ j : Fin 4, (c.filters.get j).en = false) ∨
        ∃ j : Fin 4, (c.filters.get j).en = true ∧ f.id &&& (c.filters.get j).mask = (c.filters.get j).id &&& (c.filters.get j).mask ∧ f.ide = (c.filters.get j).ide
      (kept → c.rx.length < 16 → gives (.canbFrameReceived f) (fun d => d.rx = c.rx ++ [f] ∧ d.rxOvf = c.rxOvf ∧ d.tx = c.tx)) ∧
      (kept → 16 ≤ c.rx.length → gives (.canbFrameReceived f) (fun d => d.rx = c.rx ∧ d.rxOvf = true ∧ d.tx = c.tx)) ∧
      (¬ kept → gives (.canbFrameReceived f) (fun d => d.rx = c.rx ∧ d.rxOvf = c.rxOvf ∧ d.tx = c.tx))) ∧
    (live → ends .canbBusOff { c with mode := 0, state := 2, boff := true }) ∧
    (¬ live → ∀ x ∈ [exec (.canbFrameSent b true lec) s, exec (.canbFrameReceived f) s, exec .canbBusOff s], x = .next s)

/-- CAN-B: a mode other than 0 is entered only with a bit timing inside the limits (R635). Where the port serves CANB_, CANB_CTL takes
FDEN, BRSEN, TDCEN and IE; where it does not, nothing changes. MODE 0 is taken at once. MODE 1, 2 or 3 is taken exactly when the nominal
rate, 80 MHz over prescaler × (1 + TSEG1 + TSEG2), lies from 125 kbit/s to 1 Mbit/s, the data rate from the nominal rate to 5 Mbit/s, and
no SJW exceeds its TSEG2; otherwise MODE is 0 and BADCFG is set. A write of a timing register with MODE not 0 sets BADCFG and changes
nothing else. The reset values give 500 kbit/s and 2 Mbit/s, with sample points at 80 % and 75 %. -/
def Obligations.CanBBitTiming : Prop :=
  ∀ (s : State) (v : Word),
    let c := s.per.canb
    let mode := v.toNat % 4
    let n := (c.npre.toNat + 1) * (1 + (c.ntseg1.toNat + 1) + (c.ntseg2.toNat + 1))
    let d := (c.dpre.toNat + 1) * (1 + (c.dtseg1.toNat + 1) + (c.dtseg2.toNat + 1))
    let allowed : Prop := 125000 * n ≤ 80000000 ∧ 80000000 ≤ 1000000 * n ∧ d ≤ n ∧ 80000000 ≤ 5000000 * d ∧
      c.nsjw.toNat + 1 ≤ c.ntseg2.toNat + 1 ∧ c.dsjw.toNat + 1 ≤ c.dtseg2.toNat + 1
    let r := CanB.reset
    (s.portServes 0x900 = false → exec (.canbCtlWrite v) s = .next s) ∧
    (s.portServes 0x900 = true → Does (.canbCtlWrite v) s (fun t =>
      let e := t.per.canb
      { t with per := { t.per with canb := c } } = s ∧ e.fden = v.getLsbD 2 ∧ e.brsen = v.getLsbD 3 ∧ e.tdcen = v.getLsbD 4 ∧
        e.ie = (v >>> 5).setWidth 3 ∧ (mode = 0 → e.mode = 0 ∧ e.badCfg = c.badCfg) ∧
        (mode ≠ 0 → allowed → e.mode = BitVec.ofNat 2 mode ∧ e.badCfg = c.badCfg) ∧ (mode ≠ 0 → ¬ allowed → e.mode = 0 ∧ e.badCfg = true) ∧
        e.tx = c.tx ∧ e.rx = c.rx ∧ e.stage = c.stage)) ∧
    (c.mode ≠ 0 → ∀ off : Fin 10, 1 ≤ off.val → c.write off.val v = { c with badCfg := true }) ∧
    500000 * ((r.npre.toNat + 1) * (1 + (r.ntseg1.toNat + 1) + (r.ntseg2.toNat + 1))) = 80000000 ∧
    2000000 * ((r.dpre.toNat + 1) * (1 + (r.dtseg1.toNat + 1) + (r.dtseg2.toNat + 1))) = 80000000 ∧
    5 * (1 + (r.ntseg1.toNat + 1)) = 4 * (1 + (r.ntseg1.toNat + 1) + (r.ntseg2.toNat + 1)) ∧
    4 * (1 + (r.dtseg1.toNat + 1)) = 3 * (1 + (r.dtseg1.toNat + 1) + (r.dtseg2.toNat + 1))

/-- I2C commands, ends, time-outs and FIFOs; the sensor SPI GO, end of a transaction and FIFOs (R638, R970, 11_jieles_model.md Table
Jieles-18, R639, 11_jieles_model.md Table Jieles-19). Where the port serves I2C_: with the mode on and no transfer in progress, command 1
or 2 starts a transfer when LEN is not 0 and a write has LEN octets in the transmit FIFO, else it ends at once with RES 7. A write
transfer's end takes the acknowledged octets from the FIFO, a read's puts the received octets into the receive FIFO, with DONE, RES and
CNT; after command 2 that completed the bus is held. The hold timeout ends the hold and leaves RES; the stretch timeout ends the transfer
with RES 5. TXD appends, or at 256 octets sets BADWR; RXD pops. Nothing outside the block changes. Where the block is absent, failed or
without its clock, nothing changes. Where the port serves SSPI_: GO while BUSY or with LEN 0 is ignored with BADWR; otherwise the
transaction sends LEN octets from the transmit FIFO, 0x00 beyond its content. At its end DONE is set and the octets received enter the
receive FIFO up to 256; one more is discarded and sets RXOVF. A write of CTL or LEN while BUSY sets BADWR and changes nothing else. TXD
appends or sets BADWR when full; RXD pops. The SERIAL source requests while DONE and IE are both 1. Nothing outside the block changes.
Where the block is absent, failed or without its clock, nothing changes. -/
def Obligations.SerialTransfers : Prop :=
  (∀ (s : State) (n : Nat) (res : Fin 8) (got : List Octet) (o : Octet),
      let c := s.per.i2c
      let ends (x : Instr) (d : I2c) : Prop := exec x s = .next { s with per := { s.per with i2c := d } }
      let ok : Prop := c.len ≠ 0 ∧ (c.rd = true ∨ c.len.toNat ≤ c.tx.length)
      let begun (hold : Bool) : I2c := { c with held := false, holdAfter := hold, cnt := 0, res := 0 }
      let on : Prop := s.portServes 0xA00 = true
      let live : Prop := s.blockLive 10 0 = true
      (on → c.mode ≠ 0 → c.busy = false → (ok → ends .i2cTransferStop { begun false with busy := true } ∧ ends .i2cTransferHold { begun true with busy := true }) ∧
        (¬ ok → ends .i2cTransferStop { begun false with busy := false, done := true, res := 7 } ∧ ends .i2cTransferHold { begun true with busy := false, done := true, res := 7 })) ∧
      (live → c.busy = true → c.rd = false → n ≤ c.len.toNat → ends (.i2cTransferDone res n got)
        { c with
          busy := false, done := true, res := BitVec.ofNat 3 res.val, tx := c.tx.drop n, cnt := BitVec.ofNat 9 n,
          held := c.holdAfter && decide (res = 1) }) ∧
      (live → c.busy = true → c.rd = true → got.length ≤ c.len.toNat → c.rx.length + got.length ≤ 256 → ends (.i2cTransferDone res n got)
        { c with
          busy := false, done := true, res := BitVec.ofNat 3 res.val, rx := c.rx ++ got, cnt := BitVec.ofNat 9 got.length,
          held := c.holdAfter && decide (res = 1) }) ∧
      (live → ends .i2cHoldTimeout { c with held := false }) ∧
      (live → c.busy = true → ends .i2cStretchTimeout { c with busy := false, done := true, res := 5, held := false }) ∧
      (on → (c.tx.length < 256 → ends (.i2cTxdWrite (o.setWidth 12)) { c with tx := c.tx ++ [o] }) ∧
        (256 ≤ c.tx.length → ends (.i2cTxdWrite (o.setWidth 12)) { c with badWr := true }) ∧ ends .i2cRxdRead { c with rx := c.rx.drop 1 }) ∧
      (¬ on → ∀ x ∈ [exec .i2cTransferStop s, exec .i2cTransferHold s, exec (.i2cTxdWrite (o.setWidth 12)) s, exec .i2cRxdRead s], x = .next s) ∧
      (¬ live → ∀ x ∈ [exec (.i2cTransferDone res n got) s, exec .i2cHoldTimeout s, exec .i2cStretchTimeout s], x = .next s) ∧
      (c.busy = true → c.write 0 (o.setWidth 12) = { c with badWr := true } ∧ c.write 1 (o.setWidth 12) = { c with badWr := true } ∧
        c.write 2 (o.setWidth 12) = { c with badWr := true })) ∧
  (∀ (s : State) (got : List Octet) (o : Octet) (v : Word),
      let c := s.per.sspi
      let n := c.len.toNat
      let ends (x : Instr) (d : Sspi) : Prop := exec x s = .next { s with per := { s.per with sspi := d } }
      let on : Prop := s.portServes 0xB00 = true
      let live : Prop := s.blockLive 11 0 = true
      (on → (c.busy = true ∨ c.len = 0 → ends .sspiGo { c with badWr := true }) ∧
        (c.busy = false → c.len ≠ 0 → ends .sspiGo
          { c with busy := true, sent := (c.tx ++ List.replicate n 0).take n, tx := c.tx.drop n }) ∧
        (c.tx.length < 256 → ends (.sspiTxdWrite (o.setWidth 12)) { c with tx := c.tx ++ [o] }) ∧
        (256 ≤ c.tx.length → ends (.sspiTxdWrite (o.setWidth 12)) { c with badWr := true }) ∧
        ends .sspiRxdRead { c with rx := c.rx.drop 1 }) ∧
      (¬ on → ∀ x ∈ [exec .sspiGo s, exec (.sspiTxdWrite (o.setWidth 12)) s, exec .sspiRxdRead s], x = .next s) ∧
      (¬ live → exec (.sspiDone got) s = .next s) ∧
      (live → c.busy = true → got.length = n → ends (.sspiDone got)
        { c with
          busy := false, done := true, rx := c.rx ++ got.take (256 - c.rx.length), rxOvf := c.rxOvf || decide (256 - c.rx.length < n) }) ∧
      (c.busy = true → c.write 0 v = { c with badWr := true } ∧ c.write 1 v = { c with badWr := true }) ∧
      (c.requests = true ↔ c.done = true ∧ c.ie = true))

/-- GNSS FIFOs and PPS capture; GPIO edges, flags and PWM shadows (R640, 11_jieles_model.md Table Jieles-20, R641, 11_jieles_model.md
Table Jieles-21). A received octet enters the receive FIFO with its framing mark while the UART is enabled, and at 256 octets is discarded
with RXOVF. A PPS edge with the PLL locked captures TCAP_NOW, sets PPSNEW, and sets PPSMISS when PPSNEW stood; with the PLL unlocked it
captures nothing. TXD appends, or at 64 octets sets BADWR; RXD pops; a read of PPS0 latches bits 35:12 for its reader alone. Nothing
outside the block changes. Where the block is absent, failed or without its clock, or the core lacks the grant, nothing changes, and a
core's read traps. An edge at ball n changes its level, and sets IFLG bit n exactly when IEN bit n is 1 and the edge is of the kind that
IEDGE names. A write of word 1 of a high time moves the staged word 0 and it into the shadow and leaves the active value; of the period
too, unless it is below 16, which sets BADWR and changes no shadow. The period's end makes every shadow active at once. Nothing outside
the block changes. Where the block is absent, failed or without its clock, nothing changes. -/
def Obligations.GnssAndGpio : Prop :=
  (∀ (s : State) (o : Octet) (ferr : Bool) (r : Requester) (v : Word),
      let c := s.per.gnss
      let ends (x : Instr) (d : Gnss) : Prop := exec x s = .next { s with per := { s.per with gnss := d } }
      let on : Prop := s.portServes 0xC00 = true
      let live : Prop := s.blockLive 12 0 = true
      (live → c.en = true → c.rx.length < 256 → ends (.gnssOctetReceived o ferr) { c with rx := c.rx ++ [(o, ferr)] }) ∧
      (live → c.en = true → 256 ≤ c.rx.length → ends (.gnssOctetReceived o ferr) { c with rxOvf := true }) ∧
      (live → c.en = false → ends (.gnssOctetReceived o ferr) c) ∧
      (live → s.clk.pllLocked = true → ends (.gnssPpsEdge 0) { c with pps := some s.clk.now, ppsMiss := c.ppsMiss || c.ppsNew, ppsNew := true }) ∧
      (s.clk.pllLocked = false → exec (.gnssPpsEdge 0) s = .next s) ∧
      (on → (c.tx.length < 64 → ends (.gnssTxdWrite 0 (o.setWidth 12)) { c with tx := c.tx ++ [o] }) ∧
        (64 ≤ c.tx.length → ends (.gnssTxdWrite 0 (o.setWidth 12)) { c with badWr := true })) ∧
      (s.reaches r 0xC02 → ends (.gnssRxdRead r) { c with rx := c.rx.drop 1 }) ∧
      (s.reaches r 0xC06 → ends (.gnssPps0Read r) { c with ppsLatch := c.ppsLatch.set r.slot (((c.pps.getD 0) >>> 12).setWidth 24) }) ∧
      (¬ on → exec (.gnssTxdWrite 0 (o.setWidth 12)) s = .next s) ∧
      (¬ live → exec (.gnssOctetReceived o ferr) s = .next s ∧ exec (.gnssPpsEdge 0) s = .next s) ∧
      (¬ s.reaches r 0xC02 → Does (.gnssRxdRead r) s (fun t => TurnedAway s t r 0xC02)) ∧
      (¬ s.reaches r 0xC06 → Does (.gnssPps0Read r) s (fun t => TurnedAway s t r 0xC06)) ∧
      (c.requests = true ↔ (c.rx ≠ [] ∧ c.ieRx = true) ∨ (c.ppsNew = true ∧ c.iePps = true)) ∧
      c.write 0x003 v = { c with rxOvf := c.rxOvf && !v.getLsbD 0, ppsNew := c.ppsNew && !v.getLsbD 1, ppsMiss := c.ppsMiss && !v.getLsbD 2, badWr := c.badWr && !v.getLsbD 3 }) ∧
  (∀ (s : State) (n : Fin 40) (level : Bool) (k : Fin 8) (v w : Word),
      let c := s.per.gpio
      let ends (x : Instr) (d : Gpio) : Prop := exec x s = .next { s with per := { s.per with gpio := d } }
      let on : Prop := s.portServes 0xD00 = true
      let live : Prop := s.blockLive 13 0 = true
      (¬ live → exec (.gpioInputEdge n level) s = .next s ∧ exec .gpioPwmPeriodEnd s = .next s) ∧
      (¬ on → exec (.gpioPwmWord1Write ⟨k.val, by omega⟩ v) s = .next s ∧ exec (.gpioPwmWord1Write 8 v) s = .next s) ∧
      (live → Does (.gpioInputEdge n level) s (fun t => let d := t.per.gpio
        d.inp.getLsbD n = level ∧ (∀ m : Fin 40, m ≠ n → d.inp.getLsbD m = c.inp.getLsbD m ∧ d.iflg.getLsbD m = c.iflg.getLsbD m) ∧
          (d.iflg.getLsbD n = true ↔ c.iflg.getLsbD n = true ∨ (c.inp.getLsbD n ≠ level ∧ c.ien.getLsbD n = true ∧ c.iedge.getLsbD n = !level)) ∧
          { t with per := { t.per with gpio := { d with inp := c.inp, iflg := c.iflg } } } = s)) ∧
      (live → ends .gpioPwmPeriodEnd { c with actPer := c.per, actHigh := c.high }) ∧
      (on → c.highStage.get k = some w → ends (.gpioPwmWord1Write ⟨k.val, by omega⟩ v)
        { c with high := c.high.set k (v ++ w), highStage := c.highStage.set k none }) ∧
      (on → c.perStage = some w → 16 ≤ (v ++ w).toNat → ends (.gpioPwmWord1Write 8 v) { c with per := v ++ w, perStage := none }) ∧
      (on → c.perStage = some w → (v ++ w).toNat < 16 → ends (.gpioPwmWord1Write 8 v) { c with badWr := true, perStage := none }))

/-- Assembling flash commands by key and by sequence, launching them, and the FCTL_ reads that change state (R834, R835, R836, R837, R838,
R839, R859, R865, R824, R830, 15_eflash.md Table Flash-7, 15_eflash.md Table Flash-11). Where the port takes the access, with no write of
the requester waiting: 0x3C7, 0xC38, a code, ADDR0 and ADDR1 assemble a command in that order; a wrong key gives result 2, a code above 5
result 3, code 0 clears, any other write that does not continue the assembly abandons it with SEQERR and result 13. The last of 256 data
words launches the program, as the sequences of Table Flash-7 do. A program or erase outside the window gives 4, misaligned 5, after
PWR_FAIL 12, else it joins its bank's queue. Suspend and resume act on the requester's own erase, else give 10. INFO delivers the erase
count and the flag. ECTH takes 1 or 2 only. DATA pops, ECNT clears, EADDR0 latches. An access that the port does not take traps its core,
or changes nothing; a store outside a core's window traps with vector 4. -/
def Obligations.FlashCommands : Prop :=
  ∀ (s : State) (r : Fin 5) (v : Word) (a : Pair) (ws : List Word) (lo : Word) (e : EraseRun) (n pg : Nat) (hi : Bool),
    let o := s.fown r
    let set (y : FctlOwn) : State := s.setFown r y
    let clear := set { o with asm := .none }
    let fails (code : Nat) (res : BitVec 4) : State := set { o with asm := .none, res := res, resOp := BitVec.ofNat 3 code, err := true }
    let abandoned := set { o with asm := .none, seqErr := true, res := 13 }
    let free : Prop := o.waiting = none
    let b := bankOf a.toNat
    let k := s.bank b
    let block := blockOf a.toNat
    let inside : Prop := 0x800000 ≤ a.toNat ∧ (∀ i : Fin 4, i.val = r.val → (s.core.get i).grants.windowValid = true ∧ (s.core.get i).grants.bank.toNat = b.val ∧
      (s.core.get i).grants.first.toNat ≤ block ∧ block ≤ (s.core.get i).grants.last.toNat)
    let queues (f : FlashOp) : State := { (s.setBank b { k with queue := k.queue ++ [⟨r, f⟩] }) with fl := { (s.setBank b { k with queue := k.queue ++ [⟨r, f⟩] }).fl with own := s.fl.own.set r { o with asm := .none } } }
    let taken : Prop := inside ∧ s.fl.refusing = false ∧ s.fl.tagFree r = true
    let base := a.toNat / 0x8000 * 0x8000
    let word := BitVec.ofNat 24 (lo.toNat + 4096 * v.toNat)
    let wr (asm : Assembling) : State := set { o with asm := asm }
    let ended (t : State) (code : Nat) (res : BitVec 4) : Prop := (t.fown r).res = res ∧ (t.fown r).resOp = BitVec.ofNat 3 code ∧ (t.fown r).asm = .none ∧ t.core = s.core ∧
      t.fl.cells = s.fl.cells ∧ (∀ j : Fin 5, j ≠ r → t.fown j = s.fown j)
    let owner := ownerOf r
    let keys : Prop := ∀ off : Fin 18, s.reaches owner (0x200 + off.val)
    let serves : Prop := s.portServes 0x202 = true
    (keys →
      (o.waiting.isSome = true → exec (.fctlKeyaWrite r v) s = .next (set { o with behind := o.behind ++ [.reg 0 v] }) ∧ exec (.fctlDataWrite r v) s = .next (set { o with behind := o.behind ++ [.reg 5 v] })) ∧
      (free → v = 0x3C7 → (o.asm = .none → exec (.fctlKeyaWrite r v) s = .next (wr .keyA)) ∧ (o.asm ≠ .none → exec (.fctlKeyaWrite r v) s = .next abandoned)) ∧
      (free → v ≠ 0x3C7 → exec (.fctlKeyaWrite r v) s = .next (fails 0 2)) ∧
      (free → (o.asm = .keyA ∧ v = 0xC38 → exec (.fctlKeybWrite r v) s = .next (wr .unlocked)) ∧
        (o.asm ≠ .keyA ∨ v ≠ 0xC38 → exec (.fctlKeybWrite r v) s = .next (fails 0 2))) ∧
      (free → v.toNat % 16 = 0 → exec (.fctlCmdWrite r v) s = .next clear) ∧
      (free → o.asm = .unlocked → 1 ≤ v.toNat % 16 → (v.toNat % 16 ≤ 5 → exec (.fctlCmdWrite r v) s = .next (wr (.code (v.toNat % 16)))) ∧
        (6 ≤ v.toNat % 16 → exec (.fctlCmdWrite r v) s = .next (fails 0 3))) ∧
      (free → 1 ≤ v.toNat % 16 → o.asm = .none → exec (.fctlCmdWrite r v) s = .next (set { o with res := 2, resOp := 0, err := true })) ∧
      (free → o.asm = .code n → exec (.fctlAddrWrite r false v) s = .next (set { o with asm := .addr0 n v, addr0 := v })) ∧
      (free → o.asm ≠ .code n → o.asm = .unlocked ∨ o.asm = .none → exec (.fctlAddrWrite r hi v) s = .next abandoned) ∧
      (free → o.asm = .addr0 1 lo → exec (.fctlAddrWrite r true v) s = .next (set { o with asm := .data word.toNat [], addr1 := v })) ∧
      (free → o.asm = .addr0 2 lo → exec (.fctlAddrWrite r true v) s = exec (.fctlErase r word) (set { o with addr1 := v })) ∧
      (free → o.asm = .addr0 3 lo → exec (.fctlAddrWrite r true v) s = exec (.fctlSuspend r word false) (set { o with addr1 := v })) ∧
      (free → o.asm = .addr0 4 lo → exec (.fctlAddrWrite r true v) s = exec (.fctlResume r word) (set { o with addr1 := v })) ∧
      (free → o.asm = .addr0 5 lo → exec (.fctlAddrWrite r true v) s = exec (.fctlInfo r word) (set { o with addr1 := v })) ∧
      (free → o.asm = .data n ws → ws.length < 255 → exec (.fctlDataWrite r v) s = .next (wr (.data n (ws ++ [v])))) ∧
      (free → o.asm = .data a.toNat ws → ws.length = 255 → exec (.fctlDataWrite r v) s = exec (.fctlProgram r a (ws ++ [v])) s) ∧
      (free → o.asm = .none → exec (.fctlDataWrite r v) s = .next abandoned) ∧
      (free → exec (.fctlEcthWrite r v) s = .next (if v.toNat % 4 = 1 ∨ v.toNat % 4 = 2 then { s with fl := { s.fl with ecth := v.setWidth 2 } } else set { o with badWr := true })) ∧
      exec (.fctlDataRead r) s = .next (set { o with info := o.info.tail }) ∧
      exec (.fctlEcntRead r) s = .next (set { o with ecnt := 0 }) ∧
      exec (.fctlEaddr0Read r) s = .next (set { o with eaddrLatch := (o.eaddr >>> 12).setWidth 12 })) ∧
    (s.storeReaches owner a.toNat →
      (o.waiting.isSome = true → exec (.sequenceModeStore r a v) s = .next (set { o with behind := o.behind ++ [.store a.toNat v] })) ∧
      (free → o.asm = .none → v = 0x5C3 → a.toNat % 0x8000 = 0x1A6 → exec (.sequenceModeStore r a v) s = .next (wr (.seq1 base))) ∧
      (serves → free → o.asm = .none → v = 0x6B5 → exec (.sequenceModeStore r a v) s = exec (.fctlSuspend r a false) s) ∧
      (serves → free → o.asm = .none → v = 0x3D8 → exec (.sequenceModeStore r a v) s = exec (.fctlResume r a) s) ∧
      (free → o.asm = .seq1 n → v = 0xA3C → a.toNat = n + 0x659 → exec (.sequenceModeStore r a v) s = .next (wr (.seq2 n))) ∧
      (free → o.asm = .seq2 n → a.toNat = n + 0x1A6 → v = 0x7E1 → exec (.sequenceModeStore r a v) s = .next (wr (.seqData n none []))) ∧
      (free → o.asm = .seq2 n → a.toNat = n + 0x1A6 → v = 0x4D2 → exec (.sequenceModeStore r a v) s = .next (wr (.seqErase n))) ∧
      (serves → free → o.asm = .seqErase a.toNat → v = 0x2B4 → exec (.sequenceModeStore r a v) s = exec (.fctlErase r a) s) ∧
      (free → o.asm = .seqData base none [] → a.toNat % 256 = 0 → exec (.sequenceModeStore r a v) s = .next (wr (.seqData base (some a.toNat) [v]))) ∧
      (free → o.asm = .seqData n (some pg) ws → a.toNat = pg + ws.length →
        (ws.length < 255 → exec (.sequenceModeStore r a v) s = .next (wr (.seqData n (some pg) (ws ++ [v])))) ∧
        (serves → ws.length = 255 → exec (.sequenceModeStore r a v) s = exec (.fctlProgram r (BitVec.ofNat 24 pg) (ws ++ [v])) s)) ∧
      (free → o.asm = .seq1 n → v = 0xE47 → exec (.sequenceModeStore r a v) s = .next clear) ∧
      (free → o.asm = .seq1 n → v ≠ 0xE47 → a.toNat ≠ n + 0x659 → exec (.sequenceModeStore r a v) s = .next abandoned)) ∧
    (serves →
      (ws.length = 256 → (¬inside → exec (.fctlProgram r a ws) s = .next (fails 1 4)) ∧
        (inside → a.toNat % 256 ≠ 0 → exec (.fctlProgram r a ws) s = .next (fails 1 5)) ∧
        (inside → a.toNat % 256 = 0 → s.fl.refusing = true → exec (.fctlProgram r a ws) s = .next (fails 1 12)) ∧
        (taken → a.toNat % 256 = 0 → exec (.fctlProgram r a ws) s = .next (queues (.program a.toNat ws)))) ∧
      (¬inside → exec (.fctlErase r a) s = .next (fails 2 4)) ∧
      (inside → a.toNat % 0x8000 ≠ 0 → exec (.fctlErase r a) s = .next (fails 2 5)) ∧
      (inside → a.toNat % 0x8000 = 0 → s.fl.refusing = true → exec (.fctlErase r a) s = .next (fails 2 12)) ∧
      (taken → a.toNat % 0x8000 = 0 → exec (.fctlErase r a) s = .next (queues (.erase a.toNat))) ∧
      (taken → k.run = .erasing e → e.owner = r → hi = false ∨ e.resumed = false → Does (.fctlSuspend r a hi) s (fun t => ended t 3 1 ∧
        t.bank b = { k with run := .idle, suspended := some e })) ∧
      (taken → r ≠ 4 → k.run = .erasing e → e.owner = r → e.resumed = true → Does (.fctlSuspend r a true) s (fun t => t.bank b = { k with run := .deferring e r } ∧
        t.fown r = { o with asm := .none })) ∧
      (taken → k.run = .idle ∨ (r ≠ 4 ∧ e.owner ≠ r ∧ k.run = .erasing e) → Does (.fctlSuspend r a hi) s (fun t => ended t 3 10 ∧ t.bank b = k)) ∧
      (taken → k.run = .idle → k.suspended = some e → e.owner = r → Does (.fctlResume r a) s (fun t => ended t 4 1 ∧
        t.bank b = { k with run := .erasing { e with resumed := true }, suspended := none })) ∧
      (taken → k.suspended = none → Does (.fctlResume r a) s (fun t => ended t 4 10 ∧ t.bank b = k)) ∧
      (inside → Does (.fctlInfo r a) s (fun t => ended t 5 1 ∧ (t.fown r).info = [BitVec.ofNat 12 (s.blockMeta a.toNat).count,
        BitVec.ofNat 12 ((s.blockMeta a.toNat).count / 4096), BitVec.ofNat 12 (s.blockMeta a.toNat).flag.toNat])) ∧
      (0x400 ≤ a.toNat → a.toNat < 0x800000 → exec (.fctlInfo r a) s = .next (fails 5 4)) ∧
      exec (.fctlAbandon r) s = .next clear) ∧
    (∀ x ∈ [(exec (.fctlKeyaWrite r v) s, 0x200), (exec (.fctlKeybWrite r v) s, 0x201), (exec (.fctlCmdWrite r v) s, 0x202),
      (exec (.fctlAddrWrite r false v) s, 0x203), (exec (.fctlAddrWrite r true v) s, 0x204), (exec (.fctlDataWrite r v) s, 0x205),
      (exec (.fctlEcthWrite r v) s, 0x20D), (exec (.fctlDataRead r) s, 0x205), (exec (.fctlEcntRead r) s, 0x20E), (exec (.fctlEaddr0Read r) s, 0x20F)],
      ¬ s.reaches owner x.2 → ∃ t, x.1 = .next t ∧ TurnedAway s t owner x.2) ∧
    (¬ serves → ∀ x ∈ [exec (.fctlProgram r a ws) s, exec (.fctlErase r a) s, exec (.fctlSuspend r a hi) s, exec (.fctlResume r a) s,
      exec (.fctlInfo r a) s, exec (.fctlAbandon r) s], x = .next s) ∧
    (∀ i : Fin 4, owner = .core i → ∀ sub : Fin 3, s.region i a.toNat = .fault sub.val →
      Does (.sequenceModeStore r a v) s (fun t => CoreTrapped s t i 4 sub.val a.toNat))

/-- A bank's queue starts its next command; programs and erases end; a deferred suspend acts (R161, R828, R829, R830, R832, R842, R843,
R844, R850, R852, 15_eflash.md Table Flash-5, 15_eflash.md Table Flash-12). Outside hold-up and with FCLK, an idle bank starts the first
command queued and empties its stream buffers: a program of a block whose unfinished flag is set ends with 7, of a page that is not blank
or whose next page is not with 6, else it runs; an erase while another is suspended ends with 9, else it sets the block's flag and runs, a
ring block then being not ready. A program ends with result 1, its words the AND of the data and the cells, the page no longer blank. An
erase step counts; it may verify from the 41st on: the block then reads erased and blank, its flag clears, its lower counter slot takes
the count plus 1, and the result is 1. After 430 steps it ends with 8, the count raised, the flag set. The deferred suspend takes effect
with result 1. In hold-up, once no program runs, the image is assembled in the chosen block and its header programmed; each page that ends
leads to the next, the commit page last, and the first data page that does not read back is written again. -/
def Obligations.FlashBanks : Prop :=
  ∀ (s : State) (b : Fin 2) (c : FlashCmd) (l : List FlashCmd) (o : Fin 5) (p base x : Nat) (ws : List Word) (e : EraseRun) (ver blankOk rb : Bool) (q : HoldSeq) (h : Fin 4) (i : HoldImage) (y z : HoldPage) (rest : List HoldPage) (head : List Word) (named : List (List Word)),
    let k := s.bank b
    let m := s.blockMeta e.block
    let quiet : Prop := ∀ r : Fin 5, (s.fown r).waiting = none
    let start (t : State) : Prop := t.core = s.core ∧ t.fl.cells = s.fl.cells ∧ t.fl.programmed = s.fl.programmed ∧ (t.bank b).queue = l ∧ (t.bank b).suspended = k.suspended
    let ended (t : State) (r : Fin 5) (code : Nat) (res : BitVec 4) : Prop := (t.fown r).res = res ∧ (t.fown r).resOp = BitVec.ofNat 3 code ∧
      (t.fown r).done = ((s.fown r).done || decide (res = 1)) ∧ (t.fown r).err = ((s.fown r).err || decide (res ≠ 1))
    let runs : Prop := s.pow.pm ≠ .holdUp ∧ s.domainRuns .fclk = true
    let idle : Prop := runs ∧ k.run = .idle ∧ k.queue = c :: l ∧ quiet
    let flag := (s.blockMeta (p / 0x8000 * 0x8000)).flag
    let blank : Prop := p ∉ s.fl.programmed ∧ (p % 0x8000 < 0x7F00 → p + 256 ∉ s.fl.programmed)
    let here : Prop := bankOf p = b ∧ bankOf base = b
    let owned : Prop := e.owner ≠ 4 ∧ bankOf e.block = b ∧ e.block % 0x8000 = 0 ∧ quiet ∧ k.suspended = none
    let more := e.steps + 1
    let prog := match k.run with | .programming _ _ _ => true | _ => false
    let defer := match k.run with | .deferring _ _ => true | _ => false
    (idle → here → c.op = .program p ws → flag = true → Does (.flashCommandStart b) s (fun t => start t ∧ ended t c.owner 1 7 ∧ (t.bank b).run = .idle)) ∧
    (idle → here → c.op = .program p ws → flag = false → ¬blank → Does (.flashCommandStart b) s (fun t => start t ∧ ended t c.owner 1 6 ∧ (t.bank b).run = .idle)) ∧
    (idle → here → c.op = .program p ws → flag = false → blank → Does (.flashCommandStart b) s (fun t => start t ∧ (t.bank b).run = .programming c.owner p ws ∧ t.fl.own = s.fl.own ∧
      (t.bank b).stream = StreamReader.reset)) ∧
    (idle → here → c.op = .erase base → k.suspended ≠ none → Does (.flashCommandStart b) s (fun t => start t ∧ ended t c.owner 2 9 ∧ (t.bank b).run = .idle)) ∧
    (idle → here → base % 0x8000 = 0 → c.op = .erase base → k.suspended = none → Does (.flashCommandStart b) s (fun t => start t ∧ (t.blockMeta base).flag = true ∧
      (t.blockMeta base).count = (s.blockMeta base).count ∧ (t.bank b).run = .erasing ⟨c.owner, base, 0, false, none⟩ ∧ t.fl.own = s.fl.own ∧
      (t.bank b).stream = StreamReader.reset ∧ (∀ h ∈ holdAt base, (t.hold.blocks.get h).ready = false))) ∧
    (¬ runs ∨ k.run ≠ .idle ∨ k.queue = [] → exec (.flashCommandStart b) s = .next s) ∧
    let still : Prop := ∀ y ∈ k.suspended, y.resumeBy = none
    (quiet → still → k.run = .programming o p ws → (∀ q ∈ s.hold.seq, q.stage = .settling) → ws.length = 256 → Does (.programPulsesDone b rb) s (fun t =>
      ended t o 1 1 ∧ t.bank b = { k with run := .idle } ∧ t.fl.programmed = p :: s.fl.programmed ∧ t.core = s.core ∧ t.hold = s.hold ∧
      memGet 0xFFF t.fl.cells x = (if p ≤ x ∧ x < p + 256 then ws.getD (x - p) 0 &&& memGet 0xFFF s.fl.cells x else memGet 0xFFF s.fl.cells x))) ∧
    (prog = false → s.hold.seq = none → exec (.programPulsesDone b rb) s = .next s) ∧
    (prog = false → s.hold.seq = some q → q.stage ≠ .settling ∨ s.banksSettled = false → exec (.programPulsesDone b rb) s = .next s) ∧
    (prog = false → s.hold.seq = some q → q.stage = .settling → s.banksSettled = true →
      (q.block = none → exec (.programPulsesDone b rb) s = .next { s with hold := { s.hold with seq := some { q with stage := .ending } } }) ∧
      (q.block = some h → Does (.programPulsesDone b rb) s (fun t => t.hold.lastUsed = some h ∧ t.hold.seq = some { q with stage := .header, todo := (s.holdImage q.causes).data } ∧
        (t.hold.blocks.get h).ready = false ∧ (t.hold.blocks.get h).image = some (s.holdImage q.causes) ∧
        (t.bank (holdBank h)).run = .programming 4 (holdBase h) (s.holdImage q.causes).header ∧ t.fl.cells = s.fl.cells ∧ t.core = s.core))) ∧
    (quiet → still → k.run = .programming o p ws → s.hold.seq = some q → q.block = some h → holdBank h = b → (s.hold.blocks.get h).image = some i →
      let goes (r : HoldSeq) (page : List Word) : Prop := Does (.programPulsesDone b rb) s (fun t => t.hold.seq = some { r with pages := q.pages + 1 } ∧
        (t.bank b).run = .programming 4 (holdBase h + 256 * (q.pages + 1)) page ∧ t.hold.blocks = s.hold.blocks ∧ t.fl.programmed = p :: s.fl.programmed ∧ t.core = s.core)
      (q.stage = .header → q.todo = y :: rest → goes { q with stage := .data y, todo := rest, written := [i.header] } y.words) ∧
      (q.stage = .header → q.todo = [] → goes { q with stage := .commit, written := [i.header] } (commitPage i.seq i.header q.map [])) ∧
      (q.stage = .data z → (rb = true ∨ q.rewritten = true) → q.todo = y :: rest →
        goes { q with stage := .data y, todo := rest, map := q.map ++ [z.entry], written := q.written ++ [z.words] } y.words) ∧
      (q.stage = .data z → (rb = true ∨ q.rewritten = true) → q.todo = [] → q.written = head :: named →
        goes { q with stage := .commit, map := q.map ++ [z.entry], written := q.written ++ [z.words] }
          (commitPage i.seq head (q.map ++ [z.entry]) (named ++ [z.words]))) ∧
      (q.stage = .data z → rb = false → q.rewritten = false → goes { q with map := q.map ++ [0], rewritten := true } z.words) ∧
      (q.stage = .commit → Does (.programPulsesDone b rb) s (fun t => t.hold.seq = some { q with stage := .ending, pages := q.pages + 1 } ∧
        (t.bank b).run = .idle ∧ t.hold.blocks = s.hold.blocks))) ∧
    (k.run = .erasing e → more < 41 ∨ (ver = false ∧ more < 430) → Does (.eraseStepDone b ver blankOk) s (fun t => t = s.setBank b { k with run := .erasing { e with steps := more } })) ∧
    (owned → k.run = .erasing e → 41 ≤ more → more ≤ 430 → ver = true → m.bump.count ≤ 100000 → Does (.eraseStepDone b ver blankOk) s (fun t => ended t e.owner 2 1 ∧ t.core = s.core ∧
      (t.bank b).run = .idle ∧ (t.bank b).queue = k.queue ∧ t.blockMeta e.block = { m.bump with flag := false } ∧
      (t.fl.programmed.all fun y => y / 0x8000 ≠ e.block / 0x8000) = true ∧
      memGet 0xFFF t.fl.cells x = (if e.block ≤ x ∧ x < e.block + 0x8000 then 0xFFF else memGet 0xFFF s.fl.cells x))) ∧
    (owned → k.run = .erasing e → more = 430 → ver = false → m.bump.count ≤ 100000 → Does (.eraseStepDone b ver blankOk) s (fun t => ended t e.owner 2 8 ∧ t.fl.cells = s.fl.cells ∧
      (t.bank b).run = .idle ∧ t.blockMeta e.block = { m.bump with flag := true })) ∧
    (m.slotA = some p ∧ m.slotB = some base ∧ p < 0xFFFFFF → base < 0xFFFFFF →  m.bump.count = max p base + 1) ∧
    (k.run = .idle → exec (.eraseStepDone b ver blankOk) s = .next s) ∧
    (k.run = .deferring e o → Does (.suspendDeferralExpiry b) s (fun t => ended t o 3 1 ∧ t.bank b = { k with run := .idle, suspended := some { e with resumeBy := none } } ∧ t.core = s.core)) ∧
    (defer = false → exec (.suspendDeferralExpiry b) s = .next s)

/-- NAND programs and erases that end, time out or fail; the page and snapshot timers; patrol; the end of a mount (R880, R881, R893, R894,
R895, R896, R898, R901, R902, R903, R916, 16_journal.md Table Journal-8). A program that ends well confirms its page's records and adds
the page to its block; one that fails retires its block with cause 2, keeps its records and raises a new table version. An erase that ends
well frees the block, one more erase counted; one that fails retires it with cause 3. A third time-out in a row fails the journal. An idle
target changes nothing. In hold-up and below C-LOW no operation is issued. When the page being assembled is due and the write point has
room, it is programmed with the next page number. The snapshot adds a record of type 4 with the next number. A patrol read drops the
records of a page that are lost, one in a sector of more than twelve wrong bits too, and counts them. A mount that finds another device's
table makes the journal Foreign; a blank NAND is adopted, the table at version 1 with this device's identity, and the journal becomes
Ready; a table of its own takes it to Ready as well. -/
def Obligations.JournalOnNand : Prop :=
  ∀ (s : State) (t : Fin 2) (b : Nat) (p : JPage) (fail : Bool) (r : Rec) (n : Nat) (w l : List Nat) (f : MountFound) (fac : List Nat) (rb : Bool),
    let j := s.jou
    let blk := j.block b
    let still (u : State) : Prop := u.core = s.core ∧ u.mem = s.mem ∧ u.fl = s.fl
    let empty : Prop := j.entries = [] ∧ j.copies = [] ∧ j.overflow = [] ∧ j.moves = [] ∧ j.lost = 0 ∧ j.pageDue = false ∧ j.flushing = none
    let ready : Prop := j.state = .ready ∧ 74 ≤ j.goodBlocks ∧ j.nextSeq < 0xFFFFFFF0 ∧ j.info.pageOctets = 2048
    let calm : Prop := s.led.periods = [] ∧ s.led.rides = [] ∧ j.protectedOctets s.led.acks = 0 ∧ j.busy.get (if t = 0 then 1 else 0) = none ∧
      s.pow.pm ≠ .holdUp ∧ s.pow.cLow = false ∧ ∀ h : Fin 4, (s.hold.blocks.get h).awaiting = none
    let runs (o : NandOp) : Prop := j.busy.get t = some o ∧ empty ∧ ready ∧ calm
    let plain : Prop := r.copy = false ∧ r.link = .none ∧ r.type ≠ 1 ∧ r.body.length < 100
    let waits : Prop := j.state = .probing ∨ j.state = .absent ∨ j.state = .foreign ∨ j.state = .failed ∨ j.state = .paused
    (j.busy.get t = none → exec (.nandReady t fail) s = .next s) ∧
    (runs (.program b p) → plain → p.recs = [r] → Does (.nandReady t false) s (fun u => still u ∧ (u.jou.block b).pages = blk.pages ++ [p] ∧
      u.jou.busy.get t = none ∧ u.jou.timeouts.get t = 0 ∧ u.jou.confirmed = max j.confirmed r.seq ∧ u.jou.entries = [] ∧ u.jou.nextSeq = j.nextSeq)) ∧
    (runs (.program b p) → plain → p.recs = [r] → blk.pages = [] → Does (.nandReady t true) s (fun u => still u ∧ (u.jou.block b).kind = .retired 2 ∧
      u.jou.bbtVersion = j.bbtVersion + 1 ∧ u.jou.confirmed = j.confirmed ∧ (r ∈ u.jou.entries ∨ r ∈ u.jou.flying) ∧ u.jou.active ≠ some b)) ∧
    (runs (.erase b) → Does (.nandReady t false) s (fun u => still u ∧ u.jou.block b = { kind := .free, erases := blk.erases + 1, pages := [] } ∧
      u.jou.busy.get t = none ∧ u.jou.writeEnabled = false ∧ u.jou.confirmed = j.confirmed)) ∧
    (runs (.erase b) → Does (.nandReady t true) s (fun u => still u ∧ (u.jou.block b).kind = .retired 3 ∧ u.jou.bbtVersion = j.bbtVersion + 1)) ∧
    (runs (.erase b) → j.timeouts.get t = 1 → s.eventsLive = true → Does (.nandTimeout t) s (fun u => still u ∧ (u.jou.block b).kind = .retired 3 ∧
      u.jou.timeouts.get t = 2 ∧ u.jou.state = .ready)) ∧
    (runs (.erase b) → j.timeouts.get t = 2 → Does (.nandTimeout t) s (fun u => still u ∧ u.jou.state = .failed ∧ u.jou.busy = Vector.replicate 2 none ∧ u.jou.entries = [])) ∧
    (j.state = .absent ∨ j.state = .paused ∨ j.state = .foreign ∨ j.state = .failed → exec (.nandTimeout t) s = .next s) ∧
    (ready → s.pow.pm ≠ .holdUp → s.pow.cLow = false → j.busy = Vector.replicate 2 none → j.entries = [r] → plain → j.active = some b → blk.pages.length < j.info.pagesPerBlock → j.blocks.all (fun x => x.2.kind ≠ .erasing) = true →
      Does .journalPageTimer s (fun u => OnlyJournal s u ∧ u.jou.busy.get (j.targetOf b) = some (.program b { seq := j.nextPage, recs := [r] }) ∧
        u.jou.entries = [] ∧ u.jou.nextPage = j.nextPage + 1 ∧ u.jou.writeEnabled = true ∧ u.jou.confirmed = j.confirmed)) ∧
    (waits ∨ s.pow.pm = .holdUp ∨ s.pow.cLow = true → exec .journalPageTimer s = .next s) ∧
    (ready → empty → calm → blk.kind = .full → blk.pages = [p] → p.recs = [r] → plain → r.type ≠ 3 → w = [13] → l = [] → r.seconds + 94608000 ≥ s.led.cur.clock.seconds → j.epochSeq ≤ r.seq →
      Does (.patrolRead b 0 w l none) s (fun u => still u ∧ u.jou.lostTotal = j.lostTotal + 1 ∧ u.jou.confirmed = j.confirmed)) ∧
    (s.eventsLive = true → s.boot.tier ≠ .t0 → ready → empty → Does .snapshotTimer s (fun u => OnlyJournal s u ∧ u.jou.nextSeq = j.nextSeq + 1 ∧
      u.jou.snapshotAt = some s.clock.ticks ∧ u.jou.entries.map (fun x => (x.type, x.seq, x.era, x.seconds, x.fraction)) =
        [(4, j.nextSeq, s.led.cur.clock.era, s.led.cur.clock.seconds, s.led.cur.clock.fraction)])) ∧
    (s.boot.tier = .t0 → exec .snapshotTimer s = .next s) ∧
    (ready → empty → calm → blk.kind = .full → blk.pages = [p] → p.recs = [r] → plain → r.type ≠ 3 → (∀ x ∈ w, x < 8) → l = [0] → r.seconds + 94608000 ≥ s.led.cur.clock.seconds → j.epochSeq ≤ r.seq →
      Does (.patrolRead b 0 w l none) s (fun u => still u ∧ (u.jou.block b).pages = [{ p with recs := [] }] ∧ u.jou.lostTotal = j.lostTotal + 1 ∧ u.jou.confirmed = j.confirmed)) ∧
    (ready → empty → calm → blk.kind = .full → blk.pages = [p] → p.recs = [r] → (∀ x ∈ w, x < 8) → l = [] → r.seconds + 94608000 ≥ s.led.cur.clock.seconds → j.epochSeq ≤ r.seq → j.busy = Vector.replicate 2 none →
      j.blocks.all (fun x => x.2.kind ≠ .erasing) = true →
      Does (.patrolRead b 0 w l none) s (fun u => { u with jou := { u.jou with patrolled := j.patrolled, writeEnabled := j.writeEnabled } } = s ∧
        u.jou.patrolled = (j.patrolled + 1) % (j.blocks.foldl (fun m x => m + x.2.pages.length) 0))) ∧
    (j.state ≠ .ready → j.state ≠ .full → exec (.patrolRead b n w l none) s = .next s) ∧
    (j.state ≠ .mounting → exec (.journalMountComplete f) s = .next s) ∧
    (j.state = .mounting → f.kind = .foreign → Does (.journalMountComplete f) s (fun u => still u ∧ u.jou.state = .foreign ∧ u.jou.entries = [])) ∧
    (j.state = .mounting → f.kind = .blank fac → f.info.pageOctets = 2048 → f.info.pagesPerBlock = 64 → 90 ≤ f.info.blocks → fac.length ≤ 6 → f.secondUnusable = false → empty →
      Does (.journalMountComplete f) s (fun u => still u ∧ u.jou.state = .ready ∧ u.jou.info = f.info ∧ u.jou.identity = some Config.identity.toNat ∧ u.jou.bbtVersion = 1 ∧
        u.jou.confirmed = 0 ∧ ∀ x ∈ fac, x < f.info.blocks → (u.jou.block x).kind = .retired 1)) ∧
    (j.state = .mounting → f.kind = .own rb → j.identity ≠ none → f.info = j.info → 74 ≤ j.goodBlocks → j.nextSeq < 0xFFFFFFF0 → j.cutPages = [] → f.secondUnusable = false → empty → calm →
      j.held.all (fun x => x.2.seq < j.nextSeq) = true →
      Does (.journalMountComplete f) s (fun u => still u ∧ u.jou.state = .ready ∧ u.jou.identity = j.identity ∧ u.jou.bbtVersion = j.bbtVersion + rb.toNat ∧ u.jou.confirmed = j.confirmed))

/-- JOURNAL_STATUS, JOURNAL_READ, NOTE, ADOPT and FLUSH (R895, R903, R904, R907, R908, R936, 17_commands.md Table Cmd-12). Accepted by its
channel: JOURNAL_STATUS gives the state's code and the ring's figures where the journal is readable, 0x31 where it is not, and waits while
it mounts. JOURNAL_READ of an empty range of numbers gives 0x13; of records nothing has confirmed it streams no record and the first
unconfirmed number. NOTE enters a record of type 5 and answers its number, or 0x31 where NAND is not written. ADOPT needs 0x4A, else 0x13,
and a Foreign journal, else 0x34; it waits for the mount. FLUSH with an empty tail answers the last confirmed number; with one it waits;
0x31 where NAND is not written. -/
def Obligations.JournalCommands : Prop :=
  ∀ (s : State) (q : CmdReq) (r : Rec),
    let j := s.jou
    let ok (cmd : Nat) : Prop := s.accepts cmd q = true
    let first := fieldNat q.payload 0 4
    let last := fieldNat q.payload 4 4
    let ans (u : State) (cmd st : Nat) (p : List Octet) : Prop := OnlyHost s u ∧ Answered s u cmd q st p
    let total := j.blocks.foldl (fun n x => n + x.2.pages.length) 0
    let oldest := (j.held.map (fun x => x.2.seq)).foldl (fun (o : Option Nat) x => match o with | none => some x | some y => some (min y x)) none
    let count := j.entries.length + (j.flying.filter (fun x => !x.copy)).length
    let still : Prop := j.entries = [] ∧ j.lost = 0 ∧ j.overflow = [] ∧ j.flying = [] ∧ j.pageDue = false ∧ j.flushing = none ∧ j.copies = [] ∧ j.info.pageOctets = 2048
    (ok 0x0701 → j.readable = true → Does (.journalStatus q) s (fun u => ans u 0x0701 0 (leOctets 1 j.state.code ++ leOctets 1 j.info.targets ++ leOctets 2 j.info.pageOctets ++
      leOctets 3 (j.goodBlocks - 10) ++ leOctets 3 j.freeBlocks.length ++ leOctets 2 (j.info.blocks - j.goodBlocks) ++ leOctets 4 (oldest.getD 0) ++ leOctets 4 j.confirmed ++
      leOctets 4 j.nextSeq ++ leOctets 2 count ++ leOctets 2 j.overflow.length ++ leOctets 4 j.lostTotal ++ leOctets 1 (100 * j.patrolled / total) ++ leOctets 4 j.info.endurance))) ∧
    (ok 0x0701 → j.readable = false → j.state ≠ .mounting → Does (.journalStatus q) s (fun u => ans u 0x0701 0x31 [])) ∧
    (ok 0x0701 → j.state = .mounting → Does (.journalStatus q) s (fun u => OnlyHost s u ∧ Waits s u 0x0701 q)) ∧
    (ok 0x0702 → j.readable = true → last < first → Does (.journalRead q) s (fun u => ans u 0x0702 0x13 [])) ∧
    (ok 0x0702 → j.readable = true → still → j.nextSeq ≤ first → first ≤ last → Does (.journalRead q) s (fun u =>
      (u.port q.transport).responses = (s.port q.transport).responses ++ [mkResponse (cmdChannel 0x0702).val q.seq 0x0702 0 (leOctets 4 first)] ∧ u.core = s.core ∧ u.jou = s.jou)) ∧
    (ok 0x0702 → j.readable = false → j.state ≠ .mounting → Does (.journalRead q) s (fun u => ans u 0x0702 0x31 [])) ∧
    (ok 0x0703 → j.writing = true → still → q.payload.length < 1000 → Does (.note q) s (fun u => u.core = s.core ∧ u.led = s.led ∧ Answered s u 0x0703 q 0 (leOctets 4 j.nextSeq) ∧
      u.jou.nextSeq = j.nextSeq + 1 ∧ u.jou.entries = [⟨5, false, j.nextSeq, s.led.cur.clock.era, s.led.cur.clock.seconds, s.led.cur.clock.fraction, q.payload, .none⟩])) ∧
    (ok 0x0703 → j.writing = false → Does (.note q) s (fun u => ans u 0x0703 0x31 [])) ∧
    (ok 0x0704 → octetAt q.payload 0 ≠ 0x4A → Does (.adopt q) s (fun u => ans u 0x0704 0x13 [])) ∧
    (ok 0x0704 → octetAt q.payload 0 = 0x4A → j.state ≠ .foreign → Does (.adopt q) s (fun u => ans u 0x0704 0x34 [])) ∧
    (ok 0x0704 → octetAt q.payload 0 = 0x4A → j.state = .foreign → Does (.adopt q) s (fun u => Waits s u 0x0704 q ∧ u.jou.state = .mounting ∧ u.jou.blocks = [] ∧ u.led = s.led)) ∧
    (ok 0x0705 → j.writing = true → j.flushing = none → j.entries = [] → Does (.flush q) s (fun u => ans u 0x0705 0 (leOctets 4 j.confirmed))) ∧
    (ok 0x0705 → j.writing = true → j.flushing = none → j.entries = [r] → Does (.flush q) s (fun u => Waits s u 0x0705 q ∧ u.jou.flushing = some r.seq ∧ u.led = s.led ∧ u.core = s.core)) ∧
    (ok 0x0705 → j.writing = false → j.flushing = none → Does (.flush q) s (fun u => ans u 0x0705 0x31 []))

/-- Rails that rise and fall: the always-on rail, the four V33 conditions, IO-BOR, AO-LOW, the always-on source, and Teasel's rail (R143,
R144, R145, R146, R137, R139, R172, R536, R173, R194, 03_power_and_swap.md Table Power-6). ALWAYS_ON_RISE takes the part from Off to AO:
Celandine and its clock return to their reset values, the retry timer is stopped, no fault is counted, the presence window and every
pending presence are gone, the temperature registers are at reset, and flash, cores and memories are as they were; in another state it
changes nothing. ALWAYS_ON_FALL leads to Off with every monitor of V33 tripped; with VCORE on, cores, memories and motor blocks return to
reset. A supply's rise starts the 1 ms period exactly when all four conditions hold. VDDIO_A below IO-BOR in Off or AO clears its own
marks and nothing else; with VCORE on it enters AO, not ready, with cores, memories and motor blocks at reset. AO-LOW, the always-on
source and Teasel's rail set their own bits; the loss of Teasel's rail turns the gate pads off, and its return sets the latch with cause
bit 6. -/
def Obligations.SupplyEvents : Prop :=
  ∀ (s : State) (x : SupplyCause) (b : Bool) (cut : Vector PageCut 2),
    let p := s.pow
    let up (q : Power) : Bool := match x with | .vddioA => q.vddioAUp | .vdda => q.vddaUp | .pfiN => q.pfiHigh | .bLow => q.vddioBUp
    let gone (t : State) : Prop := t.core = Vector.replicate 4 CoreState.reset ∧ t.mem = Memory.reset ∧ t.mot = s.mot.restarted ∧ t.per = Periph.reset ∧
      t.boot.phase = .stopped ∧ t.hold.seq = none ∧ t.cus = s.cus ∧ t.hold.blocks = s.hold.blocks
    let cool (t : State) : Prop := t.clk.temp = 0 ∧ t.clk.alarm = false ∧ t.clk.clamp = false ∧ t.clk.band = 1
    (p.pm = .off → Does .alwaysOnRise s (fun t =>
      t.pow = { p with pm := .ao, coldStart := true, retry := .stopped, faultCount := 0, faultTimes := [], wakePending := false } ∧
      t.led.cur = { s.led.cur with clock := Clock.reset } ∧ t.cel = { Celandine.reset with dockLevel := s.cel.dockLevel } ∧ cool t ∧
      t.cus.presence.windowOpen = false ∧ t.cus.presence.jumperPending = false ∧ t.cus.presence.dockGates = 0 ∧ t.cus.presence.serviceCounts = false ∧
      t.fl = s.fl ∧ t.core = s.core ∧ t.mem = s.mem ∧ t.boot = s.boot)) ∧
    (p.pm ≠ .off → exec .alwaysOnRise s = .next s) ∧
    Does (.alwaysOnFall cut) s (fun t => t.pow.pm = .off ∧ t.pow.conditions = false ∧ t.pow.vddioAUp = false ∧ t.pow.vddaUp = false ∧ t.pow.vddioBUp = false ∧
      t.pow.pfiHigh = false ∧ t.pow.ioUp = false ∧ t.pow.v33Good = false ∧ t.pow.goodPeriod = false ∧ t.pow.retry = .stopped ∧ t.host.preEvents = [] ∧ cool t ∧
      (p.vcoreOn = true → gone t) ∧ (p.vcoreOn = false → { t with pow := s.pow, host := s.host, clk := s.clk } = s)) ∧
    Does (.supplyMonitorRise x) s (fun t => { t with pow := s.pow } = s ∧ up t.pow = true ∧ (up p = true → t = s) ∧
      (up p = false → t.pow.goodPeriod = (t.pow.vddioAUp && t.pow.vddaUp && t.pow.vddioBUp && t.pow.pfiHigh) ∧ t.pow.v33Good = false ∧ t.pow.pm = p.pm)) ∧
    (p.pm = .off → exec (.ioBorTrip cut) s = .next { s with pow := { p with vddioAUp := false, v33Good := false, goodPeriod := false } }) ∧
    (p.pm = .ao → exec (.ioBorTrip cut) s = .next { s with pow := { p with vddioAUp := false, v33Good := false, goodPeriod := false, ioUp := false } }) ∧
    (p.vcoreOn = true → Does (.ioBorTrip cut) s (fun t =>
      t.pow = { p with pm := .ao, vddioAUp := false, v33Good := false, goodPeriod := false, ioUp := false, orderly := false } ∧ gone t)) ∧
    (b = false ∨ p.aoLow = true → exec (.aoLowTrip b) s = .next { s with pow := { p with aoLow := b } }) ∧
    (b = true → p.aoLow = false → Does (.aoLowTrip b) s (fun t => t.pow = { p with aoLow := true } ∧
      { t with pow := s.pow, host := s.host, jou := s.jou } = s ∧
      (s.eventsLive = false → t.host.preEvents.getLast?.map (·.code) = some 0x2000 ∧ t.jou = s.jou))) ∧
    exec (.alwaysOnSourceSwitch b) s = .next { s with pow := { p with aoSrc := b } } ∧
    exec .teaselRailLoss s = .next { s with pow := { p with teaselRail := false }, mot := { s.mot with tsl := { s.mot.tsl with pads := .allOff } } } ∧
    (p.teaselRail = false → Does .teaselRailReturn s (fun t => t.pow = { p with teaselRail := true } ∧ t.mot.tsl.latch = true ∧
      t.mot.tsl.cause = s.mot.tsl.cause ||| 0x040 ∧ t.mem = s.mem ∧ t.fl = s.fl ∧ t.cus = s.cus)) ∧
    (p.teaselRail = true → exec .teaselRailReturn s = .next s)

/-- PWR_FAIL by each of its four causes, the end of the sequence, and VCORE faults with their count and timer (R151, R152, R153, R155,
R160, R178, R122, R236, R147, 03_power_and_swap.md Table Power-8). With VCORE on and firmware begun, a fall of VDDIO_A or VDDA, PFI_N, or
B-LOW enters Hold-up: every core stops, the Teasel latch stands with cause bit 6, the target is held at code 50, no request is admitted,
flash commands are refused, V33 is not good, and the sequence has chosen a ready ring block or none, which it has not touched; B-LOW with
VDDIO_A and VDDA in range is kept as a rail mismatch. Before firmware has begun the part enters AO. A second cause joins the first until
the image is assembled. In Off and AO only the monitor's bits change. At the sequence's end the part is in AO, not orderly: an image
wholly written stays as it is; with programs settled, a block chosen and FCLK it is written whole; without FCLK nothing is. A VCORE fault
sets the latch, enters AO, counts, and starts the 10 ms timer, or the 3 600 s timer when it is the third within 60 s. -/
def Obligations.PowerFailSequence : Prop :=
  ∀ (s : State) (a : Bool) (f : VcoreFault) (cut : Vector PageCut 2) (q : HoldSeq) (k : Fin 4),
    let p := s.pow
    let low : Power := { p with v33Good := false, goodPeriod := false }
    let fell (t : State) (bit : BitVec 4) : Prop := t.pow.pm = .holdUp ∧ t.mot.tsl.latch = true ∧ t.mot.tsl.cause.getLsbD 6 = true ∧
      t.clk.held = true ∧ t.clk.target = 50 ∧ t.host.admitting = false ∧ t.fl.refusing = true ∧ t.pow.v33Good = false ∧ t.pow.goodPeriod = false ∧
      (∀ i : Fin 4, (t.core.get i).run = .stopped) ∧ t.hold.seq.map (fun q => (q.causes, q.stage, q.pages)) = some (bit, .settling, 0) ∧
      t.fl.cells = s.fl.cells ∧ t.led = s.led ∧
      ∀ k : Fin 4, t.hold.seq.bind (·.block) = some k →
        (s.hold.blocks.get k).ready = true ∧ (t.hold.blocks.get k).ready = true ∧ (t.hold.blocks.get k).image = (s.hold.blocks.get k).image
    let dead (t : State) : Prop := t.pow.pm = .ao ∧ t.pow.orderly = false ∧ t.hold.seq = none ∧ t.core = Vector.replicate 4 CoreState.reset ∧
      t.mem = Memory.reset ∧ t.boot.phase = .stopped
    let recent := (s.ticks :: p.faultTimes.filter (fun x => decide (s.ticks < x + 1966080))).take 3
    (p.pm = .running ∨ p.pm = .starting → s.boot.phase ≠ .stopped →
      (p.vddioAUp = true → Does (.pwrFailTrip false) s (fun t => fell t 1 ∧ t.pow.vddioAUp = false)) ∧
      (p.vddaUp = true → Does (.pwrFailTrip true) s (fun t => fell t 2 ∧ t.pow.vddaUp = false)) ∧
      (p.pfiHigh = true → Does .pfiNFall s (fun t => fell t 4 ∧ t.pow.pfiHigh = false)) ∧
      (p.vddioBUp = true → Does .bLowTrip s (fun t => fell t 8 ∧ t.pow.vddioBUp = false ∧ t.pow.mismatch = (p.mismatch || (p.vddioAUp && p.vddaUp))))) ∧
    (p.pm = .running ∨ p.pm = .starting → s.boot.phase = .stopped → p.pfiHigh = true → Does .pfiNFall s (fun t => dead t ∧ t.pow.pfiHigh = false)) ∧
    (p.pm = .off ∨ p.pm = .ao →
      (p.pfiHigh = true → exec .pfiNFall s = .next { s with pow := { low with pfiHigh := false } }) ∧
      (p.vddioBUp = true → exec .bLowTrip s = .next { s with pow := { low with vddioBUp := false } }) ∧
      ((if a then p.vddaUp else p.vddioAUp) = true →
        exec (.pwrFailTrip a) s = .next { s with pow := { low with vddioAUp := p.vddioAUp && a, vddaUp := p.vddaUp && !a } })) ∧
    (p.pfiHigh = false → exec .pfiNFall s = .next s) ∧ (p.vddioBUp = false → exec .bLowTrip s = .next s) ∧
    ((if a then p.vddaUp else p.vddioAUp) = false → exec (.pwrFailTrip a) s = .next s) ∧
    (s.hold.seq = none → exec .holdupSequenceComplete s = .next s) ∧
    (s.hold.seq = some q →
      (p.pm = .holdUp → p.pfiHigh = true → Does .pfiNFall s (fun t => t.pow.pm = .holdUp ∧
        t.hold.seq = some (if q.stage = .settling then { q with causes := q.causes ||| 4 } else q) ∧ t.core = s.core)) ∧
      Does .holdupSequenceComplete s dead ∧
      (q.stage = .ending → Does .holdupSequenceComplete s (fun t => t.hold.blocks = s.hold.blocks ∧ t.hold.lastUsed = s.hold.lastUsed)) ∧
      (q.stage = .settling → s.domainRuns .fclk = false → Does .holdupSequenceComplete s (fun t => t.hold.blocks = s.hold.blocks ∧
        t.hold.lastUsed = s.hold.lastUsed)) ∧
      (q.stage = .settling → s.domainRuns .fclk = true → s.banksSettled = true → q.block = some k → Does .holdupSequenceComplete s (fun t =>
        t.hold.lastUsed = some k ∧ (t.hold.blocks.get k).image = some (s.holdImage q.causes) ∧ (t.hold.blocks.get k).ready = false))) ∧
    (p.vcoreOn = true → Does (.vcoreFault f cut) s (fun t => dead t ∧ t.pow.faultCount = p.faultCount + 1 ∧ t.pow.faultTimes = recent ∧
      t.pow.retry = (if 3 ≤ recent.length then .long else .short) ∧ t.mot = s.mot.restarted ∧
      (p.pm = .holdUp → t.pow.v33Good = false ∧ t.pow.goodPeriod = p.conditions))) ∧
    (p.vcoreOn = false → exec (.vcoreFault f cut) s = .next s) ∧
    exec .faultCountClear s = .next { s with pow := { p with faultCount := 0, faultTimes := [] } }

/-- V33 good, the retry timer and the host wake start the device through its boot block to Beacon, or leave it in AO (R145, R146, R195,
R201, R205, R207, R243, R244, R215, R147, R57, R573). With V33 good after its 1 ms period, in AO, the retry timer stopped and an
oscillator serving: when the ROM and a boot block pass, no early unit fails and nothing breaks the start, the part runs at Beacon with the
strapped role, the self-test record of the units tested early, every wake source that acted recorded, and the start event first in the
host queue unless events were lost; a boot from the set not preferred is a fallback. A failed Celandine starts nothing. TESTEN holds the
start. Without a sound ROM, or without a boot block that passes, the part stays in AO with the 3 600 s timer. With the timer running V33
good changes no state of VCORE; its expiry starts the part. A falling host line in AO asks for a start, which waits for V33. -/
def Obligations.StartsOfTheDevice : Prop :=
  ∀ (s : State) (e : StartEnv) (r0 r1 : Bool) (k : Fin 2),
    let p := s.pow
    let due : Prop := p.goodPeriod = true ∧ p.vddioAUp = true ∧ p.vddaUp = true ∧ p.vddioBUp = true ∧ p.pfiHigh = true ∧ p.ioUp = true ∧ p.pm = .ao
    let rests : Prop := ∀ b : Fin 2, (s.bank b).run = .idle ∧ (s.bank b).suspended = none
    let sound : Prop := e.romOk = true ∧ e.failed = [] ∧ e.stop = .none ∧ e.store = StoreEnv.good ∧ s.canStart = true ∧ rests
    let straps : Prop := strapLevel e.role0 = some r0 ∧ strapLevel e.role1 = some r1
    let takes (k : Fin 2) : Prop := s.setBoots e k = true ∧ (k = s.preferredSet ∨ s.setBoots e s.preferredSet = false)
    let begins (n : Nat) (t : State) : Prop := t.pow.pm = .running ∧ t.boot.phase = .beacon ∧ t.boot.role = Role.ofCode (r0.toNat + 2 * r1.toNat) ∧
      t.boot.tier = .t1 ∧ t.boot.runningB = decide (k = 1) ∧ t.boot.bootFallback = decide (k ≠ s.preferredSet) ∧ t.pow.retry = .stopped ∧ t.pow.v33Good = true ∧
      t.pow.cLevel = e.cLevel ∧ t.pow.cLow = false ∧ t.pow.coldStart = false ∧ t.boot.hsel = (strapLevel e.hsel).getD false ∧
      t.boot.lifecycleReadable = e.lifecycleOk ∧ t.cel.wakeCopy = (s.cel.wake ||| (1#9 <<< n)) ||| e.also.setWidth 9 ∧ t.cel.wake = 0 ∧
      (∀ u : UnitId, t.boot.units.get u = (if unitOn t.boot.role u then (if testedEarly u then .passed else .untested) else .notPresent)) ∧
      ((t.port .hostPort).events.head?.map (·.code) = some 0x1000 ∨ 0 < (t.port .hostPort).lost) ∧ t.host.preEvents = []
    let stays (t : State) : Prop := t.pow.pm = .ao ∧ t.pow.retry = .long ∧ t.boot.phase = .stopped
    (e.testen = false → straps → takes k →
      (due → sound → p.retry = .stopped → Does (.v33Good e) s (begins 7)) ∧
      (p.pm = .ao → p.v33Good = true → sound → p.retry ≠ .stopped → Does (.retryTimerExpiry e) s (begins 8)) ∧
      (p.pm = .ao → p.v33Good = true → sound → p.retry = .stopped → Does (.hostWakeEdge s.boot.hsel e) s (begins 6))) ∧
    (due → p.retry = .stopped → s.canStart = true → rests → e.testen = false → e.failed = [] → e.stop = .none →
      (e.romOk = false ∨ (s.setBoots e 0 = false ∧ s.setBoots e 1 = false)) → Does (.v33Good e) s stays) ∧
    (due → p.retry = .stopped → s.canStart = true → e.testen = true → e.failed = [] → Does (.v33Good e) s (fun t => t.pow.pm = .starting ∧ t.boot.phase = .stopped ∧
      t.boot.testen = true ∧ t.core = Vector.replicate 4 CoreState.reset)) ∧
    (due → p.retry = .stopped → s.canStart = true → e.failed = [UnitId.celandine] → Does (.v33Good e) s (fun t =>
      t.pow = { p with v33Good := true, goodPeriod := false, wakePending := true } ∧ t.boot = s.boot ∧ t.core = s.core ∧ t.fl = s.fl)) ∧
    (due → p.retry ≠ .stopped ∨ s.canStart = false → Does (.v33Good e) s (fun t => t.pow = { p with v33Good := true, goodPeriod := false } ∧
      { t with pow := s.pow, cel := s.cel } = s)) ∧
    (p.goodPeriod = false → exec (.v33Good e) s = .next s) ∧
    (p.retry = .stopped → exec (.retryTimerExpiry e) s = .next s) ∧
    (p.pm = .ao → p.v33Good = false → Does (.hostWakeEdge s.boot.hsel e) s (fun t => t.pow = { p with wakePending := true } ∧ { t with pow := s.pow, cel := s.cel } = s))

/-- The PLL's lock and loss, relock waits, HFX and FCLK, stopped domains, and the checks of LFX and LFO (R102, R117, R127, R128, R129,
R130, R544, R545, R546, R108). A lock with VCORE on and HFX good runs the PLL domains that the role needs and gates the others; a failed
one stays so. A loss of lock holds those that have not failed, sets the Teasel latch with cause bit 8, and begins the first of three
relock waits, after which no more is tried; with the tier at T0 the last of them ends the start. HFX without a stable clock is failed and
the PLL stays unlocked. A running register-port domain declared stopped is failed and no other domain changes; a UCLK stop with the host
port in UART mode ends the start. FCLK that stops limits the device, and in Hold-up ends the sequence. LFX is declared failed after two
windows outside 240 to 272 edges in a row and good after sixteen inside; LFO is declared failed by a count more than 5 % off, and stopped
by 200 µs without an edge, in either case closing the presence window. With the power manager off none of it happens. -/
def Obligations.ClockEvents : Prop :=
  ∀ (s : State) (d : ClockDomain) (edges off : Nat) (cut : Vector PageCut 2) (b : Bool),
    let dom (t : State) (x : ClockDomain) : DomainClock := t.clk.domains.get x.row
    let on : Prop := s.pow.vcoreOn = true
    let kept : Prop := s.boot.phase = .decided → beaconFails s.boot.units = false
    let ends : Prop := s.boot.tier = .t0 ∧ s.boot.phase = .decided
    let ended (t : State) : Prop := t.pow.pm = .ao ∧ t.pow.retry = .long ∧ t.boot.phase = .stopped ∧ t.boot.beacons.length = s.boot.beacons.length + 1
    (on → s.clk.hfxFailed = false → s.clk.pllLocked = false → ¬ (s.clk.relocking = true ∧ ends) → Does .pllLock s (fun t =>
      t.clk.pllLocked = true ∧ t.clk.relocking = false ∧ t.clk.relocks = 0 ∧
      (∀ x ∈ pllDomains, dom t x = (if dom s x = .failed then .failed else if s.wants x then .running else .gated)) ∧ { t with clk := s.clk, mot := s.mot } = s)) ∧
    (on → s.clk.hfxFailed = false → s.clk.pllLocked = false → s.clk.relocking = true → ends → Does .pllLock s ended) ∧
    (s.clk.pllLocked = true → Does .pllLockLoss s (fun t => t.clk.pllLocked = false ∧ t.clk.relocking = true ∧ t.clk.relocks = 1 ∧
      (∀ x ∈ pllDomains, dom t x = (if dom s x = .failed then .failed else .held)) ∧ t.mot.tsl.latch = true ∧ t.mot.tsl.cause.getLsbD 8 = true)) ∧
    (s.clk.pllLocked = false → exec .pllLockLoss s = .next s) ∧
    (s.clk.relocking = true →
      (s.clk.relocks < 3 → exec .pllRelockTimeout s = .next { s with clk := { s.clk with relocks := s.clk.relocks + 1 } }) ∧
      (3 ≤ s.clk.relocks → ¬ ends → exec .pllRelockTimeout s = .next { s with clk := { s.clk with relocking := false } }) ∧
      (3 ≤ s.clk.relocks → ends → Does .pllRelockTimeout s ended)) ∧
    (s.clk.pllLocked = false → s.clk.hfxFailed = false → on → kept → s.boot.hsel = false → Does .hfxStartTimeout s (fun t =>
      t.clk.hfxFailed = true ∧ t.clk.pllLocked = false ∧ dom t .hfx = .failed)) ∧
    (on → d.isPll = true → d.portKind = .register → dom s d = .running → kept → d ≠ .uclk ∨ s.boot.hsel = false → Does (.domainClockStopped d []) s (fun t =>
      dom t d = .failed ∧ (∀ u ∈ s.domainUnits d, unitOn s.boot.role u = true → s.boot.phase = .decided → unitFailed (t.boot.units.get u) = true) ∧
      ∀ x : Fin 14, x ≠ d.row → t.clk.domains.get x = s.clk.domains.get x)) ∧
    (on → dom s .uclk = .running → s.boot.hsel = true → s.boot.phase = .decided → unitFailed (s.boot.units.get UnitId.hostPort) = false → s.boot.tier ≠ .t0 →
      s.clk.relocking = false → Does (.domainClockStopped .uclk []) s ended) ∧
    (dom s d ≠ .running ∨ d.portKind ≠ .register ∨ d.isPll = false → exec (.domainClockStopped d []) s = .next s) ∧
    (s.pow.pm = .running → s.domainRuns .fclk = true → kept → Does (.fclkStopped cut) s (fun t => dom t .fclk = .failed ∧ t.boot.fclkLost = true ∧
      ((s.bank 0).run = .idle → (s.bank 1).run = .idle → t.fl.cells = s.fl.cells))) ∧
    (s.pow.pm = .holdUp → s.domainRuns .fclk = true → Does (.fclkStopped cut) s (fun t => t.pow.pm = .ao ∧ t.hold.seq = none ∧ t.hold.blocks = s.hold.blocks)) ∧
    (s.domainRuns .fclk = false → exec (.fclkStopped cut) s = .next s) ∧
    (s.pow.pm ≠ .off → s.cel.lfo = .good →
      let pass := inRange edges 240 272
      (s.cel.lfxFailed = false → pass = false → 1 ≤ s.cel.lfxBad → Does (.lfxCheckWindow edges) s (fun t =>
        t.cel.lfxFailed = true ∧ t.led.lfxLost = true ∧ t.led.cur.clock.cls = 0 ∧ t.cus.presence.dockGates = 0 ∧ t.core = s.core)) ∧
      (s.cel.lfxFailed = false → pass = false → s.cel.lfxBad = 0 → Does (.lfxCheckWindow edges) s (fun t =>
        t.cel.lfxFailed = false ∧ t.cel.lfxBad = 1 ∧ { t with cel := s.cel, cus := s.cus } = s)) ∧
      (s.cel.lfxFailed = true → pass = true → 15 ≤ s.cel.lfxGood → Does (.lfxCheckWindow edges) s (fun t => t.cel.lfxFailed = false ∧ t.core = s.core)) ∧
      (s.eventsLive = true → s.domainRuns .tsclk = true → 50 < off → Does (.lfoCountCheck off) s (fun t =>
        t.cel.lfo = .counted ∧ t.cus.presence.windowOpen = false)) ∧
      (s.eventsLive = true → s.domainRuns .tsclk = true → off ≤ 40 → exec (.lfoCountCheck off) s = .next
        { s with cel := { s.cel with lfoGood := s.cel.lfoGood + 1 } }) ∧
      Does (.oscActivityTimeout false) s (fun t => t.cel.lfo = .stopped ∧ t.cel.lfoActive = false ∧ t.cus.presence.windowOpen = false)) ∧
    (s.pow.pm ≠ .off → Does (.oscActivityTimeout true) s (fun t => t.cel.lfxActive = false ∧ t.cel.lfxFailed = true)) ∧
    (s.pow.pm = .off → exec (.lfxCheckWindow edges) s = .next s ∧ exec (.oscActivityTimeout b) s = .next s)

/-- The VCORE target is the highest enabled request below the ceiling; invalid codes set BADREQ; the temperature bands and the alarm (R88,
R89, R91, R92, R93, R94, R126, 02_fabric_and_domains.md Table Fabric-3). PMU_OPREQ written by a core that the port serves, with a code of
at most 100, replaces that core's request, and the target becomes the highest of the Steward's request and the enabled requests, clamped
to the ceiling, to 10 under ALARM, or 50 while held; SETTLED falls exactly when the target changes. A code above 100 sets BADREQ and
nothing else. A write that the port does not serve is turned away. VCORE settled sets SETTLED while VCORE is on. A sample of the
temperature, while VCORE is on, is kept in TEMP; ALARM rises above 150 °C, falls below 140 °C, BAND moves with 3 °C of hysteresis, CLAMP
falls with ALARM, rises with it when a request is above 10, and else stays. Without VCORE neither changes anything. -/
def Obligations.VcoreTargetAndTemperature : Prop :=
  ∀ (s : State) (i : Fin 4) (v t : Word),
    let code := v.toNat % 128
    let reqs (q : Vector OpReq 4) : Nat := ([0, 1, 2, 3] : List (Fin 4)).foldl (fun m j => if (q.get j).en then max m (q.get j).vcode.toNat else m) s.clk.stewardReq.toNat
    let target (q : Vector OpReq 4) (alarm : Bool) : BitVec 7 :=
      BitVec.ofNat 7 (if s.clk.held then 50 else if alarm then min (min (reqs q) s.ceiling) 10 else min (reqs q) s.ceiling)
    let q1 := s.clk.opreq.set i { en := v.getLsbD 7, vcode := BitVec.ofNat 7 code }
    let c := t.toInt
    let alarm := decide (1200 < c) || (s.clk.alarm && decide (1120 ≤ c))
    let served : Prop := s.reaches (.core i) 0x100
    (served → code ≤ 100 → Does (.pmuOpreqWrite i v) s (fun u => { u with clk := s.clk } = s ∧ u.clk.opreq = q1 ∧
      u.clk.target = target q1 s.clk.alarm ∧ u.clk.settled = (s.clk.settled && decide (target q1 s.clk.alarm = s.clk.target)) ∧
      u.clk.badReq = s.clk.badReq)) ∧
    (served → 100 < code → exec (.pmuOpreqWrite i v) s = .next { s with clk := { s.clk with badReq := s.clk.badReq.set i true } }) ∧
    (¬ served → Does (.pmuOpreqWrite i v) s (fun u => TurnedAway s u (.core i) 0x100)) ∧
    (s.pow.vcoreOn = true → exec .vcoreSettled s = .next { s with clk := { s.clk with settled := true } }) ∧
    (s.pow.vcoreOn = true → Does (.tjSample t) s (fun u => u.clk.temp = t ∧ u.clk.alarm = alarm ∧ u.clk.target = target s.clk.opreq alarm ∧
      u.clk.settled = (s.clk.settled && decide (target s.clk.opreq alarm = s.clk.target)) ∧
      u.clk.clamp = (alarm && (s.clk.clamp || (!s.clk.alarm && decide (10 < reqs s.clk.opreq)))) ∧
      (224 ≤ c → u.clk.band ≠ 0) ∧ (1024 ≤ c → 2 ≤ u.clk.band.toNat) ∧ (c ≤ 176 → u.clk.band = 0) ∧ (c ≤ 976 → u.clk.band.toNat ≤ 1) ∧
      (176 < c → c < 224 → s.clk.band.toNat ≤ 1 → u.clk.band = s.clk.band) ∧ u.core = s.core ∧ u.mem = s.mem ∧
      (s.clk.alarm = true ∨ alarm = false → { u with clk := s.clk } = s))) ∧
    (s.pow.vcoreOn = false → exec .vcoreSettled s = .next s ∧ exec (.tjSample t) s = .next s)

/-- PMU_WDT and PMU_WDKICK, the expiry of a core watchdog, and the Steward watchdog's warm reset (R227, R228, R229, R230, R220, R225,
R226, 04_startup_and_tiers.md Table Start-9, R199). Where the port serves the core, and no edition write was cut short: PMU_WDT with PER
up to 11 sets the enable and the period while the watchdog is off, and changes nothing while it is on; PER 12 to 15 leaves the register
unchanged. A kick with 0x6D9, or with the watchdog off, changes nothing. A write that the port does not serve is turned away. With no
probation running, a running core whose watchdog expires, or is kicked with another key, is reset with CAUSE 1, or 3; a halted or stopped
core's watchdog does nothing. The Steward watchdog's expiry counts, from zero again after 60 s of service, and restarts the part through
its boot block to Beacon; the third in a row puts the alternate block first and clears the count, after which the third ends the start in
Beacon failure. -/
def Obligations.CoreWatchdogs : Prop :=
  ∀ (s : State) (i : Fin 4) (v : Word) (e : StoreEnv) (f : StartEnv),
    let w := s.boot.wdt.get i
    let per : BitVec 4 := (v >>> 1).setWidth 4
    let served (n : Nat) : Prop := s.reaches (.core i) n
    let runs : Prop := s.pow.pm = .running ∧ w.en = true ∧ (s.core.get i).run = .running ∧ s.cus.cut = none ∧ s.cus.probation = none
    let reset (cause : BitVec 2) (t : State) : Prop := (t.boot.wdt.get i).cause = cause ∧ (t.boot.wdt.get i).en = false ∧ (t.core.get i).window = [] ∧
      (t.core.get i).w = Vector.replicate 32 0 ∧ ((t.core.get i).run = .running ∨ (t.core.get i).run = .stopped) ∧
      ∀ j : Fin 4, j ≠ i → (t.core.get j).w = (s.core.get j).w ∧ (t.core.get j).pc = (s.core.get j).pc
    let b := s.boot
    let count := (match b.serviceSince with | none => b.stewardExpiries | some a => if a + 1966080 ≤ s.ticks then 0 else b.stewardExpiries) + 1
    let sound : Prop := f.romOk = true ∧ f.failed = [] ∧ f.stop = .none ∧ f.store = StoreEnv.good ∧ s.setBoots f 0 = true ∧ s.setBoots f 1 = true ∧
      ∀ k : Fin 2, (s.bank k).run = .idle ∧ (s.bank k).suspended = none
    let again (n : Nat) (alternate : Bool) (t : State) : Prop := t.pow.pm = .running ∧ t.boot.phase = .beacon ∧ t.boot.tier = .t1 ∧
      t.boot.stewardExpiries = n ∧ t.boot.alternateFirst = alternate ∧ t.boot.stewardCause = true ∧
      (t.boot.runningB = true ↔ ((s.preferredSet = 1) ↔ alternate = false)) ∧ t.mot.tsl.latch = true
    (served 0x105 → per.toNat < 12 → w.en = false → exec (.pmuWdtWrite i v) s = .next
      { s with boot := { s.boot with wdt := s.boot.wdt.set i { w with en := v.getLsbD 5, per := per } } }) ∧
    (served 0x105 → per.toNat < 12 → w.en = true → exec (.pmuWdtWrite i v) s = .next s) ∧
    (served 0x105 → 12 ≤ per.toNat → Does (.pmuWdtWrite i v) s (fun t => t.boot = s.boot ∧ t.core = s.core)) ∧
    (¬ served 0x105 → Does (.pmuWdtWrite i v) s (fun t => TurnedAway s t (.core i) 0x105)) ∧
    (s.cus.cut = none → served 0x106 → v = 0x6D9 ∨ w.en = false → exec (.pmuWdkickWrite i v e) s = .next s) ∧
    (s.cus.cut = none → ¬ served 0x106 → Does (.pmuWdkickWrite i v e) s (fun t => TurnedAway s t (.core i) 0x106)) ∧
    (runs → served 0x106 → v ≠ 0x6D9 → Does (.pmuWdkickWrite i v e) s (reset 3)) ∧
    (runs → Does (.coreWatchdogExpiry i e) s (reset 1)) ∧
    (s.cus.cut = none → w.en = false ∨ (s.core.get i).run = .halted ∨ (s.core.get i).run = .stopped → exec (.coreWatchdogExpiry i e) s = .next s) ∧
    (s.pow.pm = .running → b.testen = false → s.cus.probation = none → sound →
      (count < 3 → Does (.stewardWatchdogExpiry f) s (again count b.alternateFirst)) ∧
      (3 ≤ count → b.alternateFirst = false → Does (.stewardWatchdogExpiry f) s (again 0 true)) ∧
      (3 ≤ count → b.alternateFirst = true → Does (.stewardWatchdogExpiry f) s (fun t => t.pow.pm = .ao ∧ t.pow.retry = .long ∧ t.boot.phase = .stopped ∧
        t.boot.beacons.length = b.beacons.length + 1 ∧ t.core = Vector.replicate 4 CoreState.reset))) ∧
    (s.pow.pm ≠ .running ∨ b.testen = true → exec (.stewardWatchdogExpiry f) s = .next s)

/-- The tier that the failed units leave, in every role (R214, R215, R130, R131, 01_device_and_agents.md Table Arch-2,
01_device_and_agents.md Table Arch-3). Over every self-test record: a failed Beacon unit gives T0. Otherwise the bring-up role has T1; a
pack or a dock has T3 exactly when every unit on for its role, the NAND journal excepted, passed, and T1 if not; a vehicle has T3 exactly
when no unit but the NAND journal failed, T1 when all four cores or a unit that leaves T1 failed, and T2 in every other case, which one
failed core is. -/
def Obligations.TiersByFailedUnits : Prop :=
  ∀ (r : Role) (u : Vector UnitResult 42),
    let bad (n : Fin 42) : Prop := unitFailed (u.get n) = true
    let one : Prop := (∀ i : Fin 4, bad (UnitId.core i)) ∨ bad 1 ∨ bad 19 ∨ bad 20 ∨ bad 30 ∨ bad 32 ∨ bad 33 ∨ bad 34 ∨ bad 35
    (beaconFails u = true → tierFor r u = .t0) ∧
    (beaconFails u = false → r = .bringUp → tierFor r u = .t1) ∧
    (beaconFails u = false → r = .pack ∨ r = .dock →
      ((∀ n : Fin 42, n ≠ 41 → unitOn r n = true → u.get n = .passed) → tierFor r u = .t3) ∧
      (∀ n : Fin 42, n ≠ 41 → unitOn r n = true → u.get n ≠ .passed → tierFor r u = .t1)) ∧
    (beaconFails u = false → r = .vehicle →
      (one → tierFor r u = .t1) ∧
      (¬one → (∃ n : Fin 42, n ≠ 41 ∧ bad n) → tierFor r u = .t2) ∧
      ((∀ n : Fin 42, n ≠ 41 → ¬bad n) → tierFor r u = .t3))

/-- The tier's decision, or its timeout, from Beacon; known-answer tests; C-LOW pauses the journal; the ledger tail's timer (R213, R214,
R220, R221, R246, R157, R192, R366, R393, R903, 04_startup_and_tiers.md Table Start-8, 16_journal.md Table Journal-8). At Beacon, the
decision marks each untested unit failed, where its test failed or a PLL domain it needs does not run, or passed; a unit that passed and
has no clock is failed too, and so is the power manager without a good LFO. The tier is the one that the record gives, at most T1 with
FCLK lost, and a journal that was probed mounts where the NAND passed and is failed where not; T0 ends the start in Beacon failure. The
self-test timeout does the same; outside Beacon both change nothing. A known-answer test that fails while no ride is open marks the unit
failed at run time and lowers the tier to what the record then gives; with a ride open, or while no events are kept, nothing happens.
C-LOW with VCORE on ends the NAND operations and pauses a journal that mounts or writes, tier and cores unchanged; while no event is
journalled yet, the records in flight stand in front of the tail, and in every case they are in flight no more; its clearing sends a
paused journal to mounting. While a ride is open and the ring has pages, the tail is written to flash and is the newest there; without
pages no tail is added. -/
def Obligations.TierAndSelfTest : Prop :=
  ∀ (s : State) (failed : List UnitId) (u : Fin 42) (e : StoreEnv) (w : RingWrite),
    let judged : Vector UnitResult 42 := Vector.ofFn (fun n =>
      let r := s.boot.units.get n
      let clock := s.clockless.contains n
      if r = .untested then (if failed.contains n || clock then .failedAtStart else .passed)
      else if r = .passed then (if clock then .failedAtStart else if n = UnitId.powerManager && decide (s.cel.lfo ≠ .good) then .failedAtRun else .passed)
      else r)
    let given := tierFor s.boot.role judged
    let best := if s.boot.fclkLost then given.min .t1 else given
    let decided (t : State) : Prop := t.boot.phase = .decided ∧ t.boot.units = judged ∧ t.boot.tier = best ∧
      t.boot.selfTestSeconds = s.led.cur.clock.seconds ∧ t.pow = s.pow ∧ t.cus = s.cus ∧
      (s.jou.state = .probing → t.jou.state = (if judged.get UnitId.nand = .passed then .mounting else .failed))
    let ended (t : State) : Prop := t.pow.pm = .ao ∧ t.pow.retry = .long ∧ t.boot.phase = .stopped ∧ t.boot.beacons.length = s.boot.beacons.length + 1
    let hit : Vector UnitResult 42 := s.boot.units.set u .failedAtRun
    (s.boot.phase = .beacon →
      (best ≠ .t0 → Does (.tierDecision failed e) s decided ∧ Does (.selftestTimeout failed e) s decided) ∧
      (best = .t0 → s.pow.vcoreOn = true → Does (.tierDecision failed e) s ended ∧ Does (.selftestTimeout failed e) s ended)) ∧
    (s.boot.phase ≠ .beacon → exec (.tierDecision failed e) s = .next s ∧ exec (.selftestTimeout failed e) s = .next s) ∧
    (s.led.cur.ride = none → s.eventsLive = true → s.boot.phase = .decided → 26 ≤ u.val → u.val ≤ 30 →
      unitOn s.boot.role u = true → unitFailed (s.boot.units.get u) = false → beaconFails hit = false → s.boot.tier ≠ .t0 →
      Does (.knownAnswerRetest [u]) s (fun t => t.boot.units = hit ∧ t.boot.tier = s.boot.tier.min (tierFor s.boot.role hit) ∧ t.cus = s.cus)) ∧
    (s.led.cur.ride.isSome = true ∨ s.eventsLive = false → exec (.knownAnswerRetest failed) s = .next s) ∧
    (s.pow.vcoreOn = true → s.pow.cLow = false → Does .cLowTrip s (fun t =>
      t.pow = { s.pow with cLow := true } ∧ t.jou.busy = Vector.replicate 2 none ∧ t.jou.writeEnabled = false ∧
      (s.eventsLive = false → s.jou.accepting = true → t.jou.entries = s.jou.flying.filter (fun r => !r.copy) ++ s.jou.entries) ∧
      t.boot.tier = s.boot.tier ∧ t.core = s.core ∧ t.mem = s.mem ∧
      (s.jou.state = .ready ∨ s.jou.state = .full ∨ s.jou.state = .mounting → t.jou.state = .paused))) ∧
    (s.pow.vcoreOn = false ∨ s.pow.cLow = true → exec .cLowTrip s = .next s) ∧
    (s.pow.cLow = true → Does .cLowClear s (fun t => t.pow = { s.pow with cLow := false } ∧ t.core = s.core ∧
      (s.jou.state = .paused → t.jou.state = .mounting ∧ t.jou.timeouts = Vector.replicate 2 0))) ∧
    (s.pow.cLow = false → exec .cLowClear s = .next s) ∧
    (s.cus.cut = none →
      (s.led.cur.ride.isSome = true → s.eventsLive = true →
        let pages := (s.storedTail.record.length + 255) / 256
        ((s.led.takePages pages).isSome = true → 260 ≤ s.led.freePages → Does (.ledgerTailTimer .done) s (fun t =>
          { t with led := s.led, fl := s.fl } = s ∧ t.led.flashTail = some s.storedTail ∧ t.led.cur = s.led.cur.raiseHwm)) ∧
        ((s.led.takePages pages).isSome = false → Does (.ledgerTailTimer .done) s (fun t =>
          { t with led := s.led } = s ∧ t.led.ring.tails = s.led.ring.tails))) ∧
      (s.led.cur.ride = none ∨ s.eventsLive = false → exec (.ledgerTailTimer w) s = .next s))

/-- WRITE, READ, REREAD, STATUS, unknown opcodes and the HCS_N time-out of the host SPI (R252, R253, R254, R255, R256, R257, R271, R274,
R275, R301, R302, 05_host_port.md Table Host-1). With the port enabled and strapped to SPI: STATUS gives the free buffers, the queue's
length and the discards, then clears the discards and ERR. A READ of the whole head frame gives its octets and zeros after them, consumes
it and keeps it for REREAD; a shorter READ gives what was clocked and keeps the frame at the head; the head is the frame whose delivery
has begun, else the first response, else the first event; with nothing queued it gives zeros. REREAD repeats the last frame read. A WRITE
with both buffers in use, or whose octets are no frame, is discarded and sets ERR; a request that fails the tests of R271 is answered with
its status, whatever its channel holds, and one that passes begins on a channel that has no request yet. The four opcodes select these
transactions, and any other counts one discard. HCS_N low too long abandons the transaction and counts one. While the port is disabled the
status octet reads 0; in UART mode none of these changes anything. That MORE, EVT and STAT count as reserved bits of a request, and that a
STATUS ended early clears all the same, are the model's choice (log 136). -/
def Obligations.HostSpiTransport : Prop :=
  ∀ (s : State) (used : Fin 3) (n : Nat) (os : List Octet) (f : Frame) (e : Event) (r : List Frame) (l : List Event) (q : RawFrame) (c : Fin 7) (st : Nat) (w : Bool) (op : Octet),
    let p := s.port .hostPort
    let on : Prop := s.boot.hsel = false ∧ s.portUp .hostPort = true
    let pad (x : List Octet) : List Octet := (x ++ List.replicate n 0).take n
    let only (t : State) : Prop := { t with host := s.host } = s
    let queued := p.staged.isSome.toNat + p.responses.length + p.events.length
    let status : Octet := BitVec.ofNat 8 (0xA0 + 8 * s.host.err.toNat + 2 * (decide (0 < queued)).toNat + (decide (used.val < 2)).toNat)
    let first : Prop := p.staged = some f ∨ (p.staged = none ∧ (p.responses = f :: r ∨ (p.responses = [] ∧ p.events = e :: l ∧ f = e.frame p.lost p.lostMask)))
    let left (x : Port) : Prop := (p.staged.isSome = true → x = { p with staged := none }) ∧
      (p.staged = none → p.responses = f :: r → x = { p with responses := r }) ∧
      (p.staged = none → p.responses = [] → x = { p with events := l, lost := 0, lostMask := 0 })
    let discarded (t : State) : Prop := (t.port .hostPort).chans = p.chans ∧ (t.port .hostPort).responses = p.responses ∧
      (t.port .hostPort).discarded = (p.discarded + 1) % 256
    (on → Does (.spiStatus used) s (fun t => t.host.statusOctet = status ∧ t.host.err = false ∧ only t ∧
      t.host.hmiso = [BitVec.ofNat 8 (2 - used.val), BitVec.ofNat 8 (min 255 queued), BitVec.ofNat 8 p.discarded] ∧
      t.port .hostPort = { p with discarded := 0 })) ∧
    (on → first → f.octets.length ≤ n → Does (.spiRead used n) s (fun t => t.host.statusOctet = status ∧ only t ∧
      t.host.hmiso = pad f.octets ∧ left (t.port .hostPort) ∧ t.host.lastRead = some f.octets)) ∧
    (on → first → n < f.octets.length → Does (.spiRead used n) s (fun t => only t ∧
      t.host.hmiso = pad f.octets ∧ left { t.port .hostPort with staged := none } ∧ (t.port .hostPort).staged = some f ∧ t.host.lastRead = s.host.lastRead)) ∧
    (on → queued = 0 → Does (.spiRead used n) s (fun t => only t ∧ t.host.hmiso = pad (List.replicate 12 0) ∧ t.port .hostPort = p)) ∧
    (on → Does (.spiReread used n) s (fun t => only t ∧ t.host.hmiso = pad (s.host.lastRead.getD (List.replicate 12 0)) ∧
      t.port .hostPort = p ∧ t.host.lastRead = s.host.lastRead)) ∧
    (on → 2 ≤ used.val → Does (.spiWrite used os) s (fun t => only t ∧ t.host.err = true ∧ discarded t)) ∧
    (on → used.val < 2 → parseFrame os = none → Does (.spiWrite used os) s (fun t => t.host.err = true ∧ discarded t)) ∧
    (on → used.val < 2 → parseFrame os = some q → q.chan = c.val →
      (s.r271 q = some st → Does (.spiWrite used os) s (fun t => only t ∧ t.host.err = s.host.err ∧
        t.port .hostPort = { p with responses := p.responses ++ [mkResponse c.val q.seq q.cmd st []] })) ∧
      (s.r271 q = none → (p.chans.get c).last = none → Does (.spiWrite used os) s (fun t => only t ∧ t.host.err = s.host.err ∧ t.port .hostPort = { p with
        chans := p.chans.set c { phase := .executing, begun := false, last := some ⟨q.seq, q.cmd, q.payload⟩, flags := q.flags, cache := none, interim := none } }))) ∧
    (on → op ≠ 0x5A → op ≠ 0xA5 → op ≠ 0xA6 → op ≠ 0x3C → Does (.spiBadOpcode used op) s (fun t => only t ∧ t.host.err = s.host.err ∧ discarded t)) ∧
    (exec (.spiBadOpcode used 0x5A) s = exec (.spiWrite used []) s ∧ exec (.spiBadOpcode used 0xA5) s = exec (.spiRead used 0) s ∧
      exec (.spiBadOpcode used 0xA6) s = exec (.spiReread used 0) s ∧ exec (.spiBadOpcode used 0x3C) s = exec (.spiStatus used) s) ∧
    (on → Does (.hcsTimeout w) s (fun t => only t ∧ t.host.hcsAbandoned = true ∧ t.host.err = (s.host.err || w) ∧ discarded t)) ∧
    (let plain := [exec (.spiRead used n) s, exec (.spiReread used n) s, exec (.spiStatus used) s, exec (.spiBadOpcode used op) s, exec (.spiWrite used os) s]
     (s.boot.hsel = true → ∀ x ∈ plain, x = .next s) ∧
     (s.boot.hsel = false → s.portUp .hostPort = false → ∀ x ∈ plain, x = .next { s with host := { s.host with statusOctet := 0, hmiso := [] } }) ∧
     (s.boot.hsel = true ∨ s.portUp .hostPort = false → exec (.hcsTimeout w) s = .next s))

/-- Frames, gaps, flow control and rate of the host UART; transfers, VBUS and configuration of USB (R253, R259, R260, R261, R262, R263,
R264, R265, R266, R290, R301, R954). With the port strapped to UART, up, and nothing kept from before: a marked frame whose octets check
proves the rate and reaches its channel; with both buffers in use it is discarded; one whose CRC fails, with no mark inside it, is
discarded; octets that do not yet make up a header wait. A gap discards. A queued frame leaves with the mark 0x55, 0xC3 unless HCTS_N is
high, and when HCTS_N rises inside a frame the rest is held back and sent when it is low again. The pending rate takes effect and stays
unproved until a valid frame; 5 s without one returns to rate 0. Over USB a frame reaches its channel on USB's own sequence state, with
both buffers in use it is not taken, the head frame answers an IN transfer in packets of 64 octets ending with a short one, VBUS leaving
ends the configuration, and a configuration holds only with the pull-up connected. The order of responses before events on USB is the
model's choice (log 136). -/
def Obligations.HostUartAndUsb : Prop :=
  ∀ (s : State) (used : Fin 3) (os : List Octet) (f : Frame) (r : List Frame) (q : RawFrame) (c : Fin 7) (b : Bool) (k n : Nat),
    let p := s.port .hostPort
    let u := s.port .usb
    let uart : Prop := s.boot.hsel = true ∧ s.portUp .hostPort = true
    let idle : Prop := s.host.uartRx = []
    let only (t : State) : Prop := { t with host := s.host } = s
    let marked : List Octet := [0x55, 0xC3] ++ os
    let out : List Octet := [0x55, 0xC3] ++ f.octets
    let len := fieldNat os 4 2 % 1024
    let discarded (t : State) : Prop := (t.port .hostPort).chans = p.chans ∧ (t.port .hostPort).discarded = (p.discarded + 1) % 256 ∧ t.host.uartRx = []
    let begun : Channel := { phase := .executing, begun := false, last := some ⟨q.seq, q.cmd, q.payload⟩, flags := q.flags, cache := none, interim := none }
    (uart → idle → parseFrame os = some q →
      (used.val < 2 → q.chan = c.val → (p.chans.get c).last = none → s.r271 q = none → Does (.uartFrame used marked) s (fun t => only t ∧
        t.host.rateUnproved = false ∧ t.host.uartRx = [] ∧ t.port .hostPort = { p with chans := p.chans.set c begun } ∧ t.port .usb = u)) ∧
      (2 ≤ used.val → Does (.uartFrame used marked) s (fun t => only t ∧ t.host.rateUnproved = s.host.rateUnproved ∧ discarded t))) ∧
    (uart → idle → os.length = 12 + len → len ≤ 1020 → parseFrame os = none → 0x55 ∉ os →
      Does (.uartFrame used marked) s (fun t => t.host.rateUnproved = s.host.rateUnproved ∧ discarded t)) ∧
    (uart → idle → os.length < 8 → Does (.uartFrame used marked) s (fun t => only t ∧ t.host.uartRx = marked ∧ t.host.ports = s.host.ports)) ∧
    (uart → Does .uartGapTimeout s discarded) ∧
    (uart → s.host.hcts = false → p.staged = none → p.responses = f :: r →
      (s.host.uartLeft = [] → Does .uartFrameSent s (fun t => only t ∧ t.host.uartOut = out ∧ t.port .hostPort = { p with responses := r }) ∧
        (0 < n → n < out.length → Does (.hctsChange true n) s (fun t => only t ∧ t.host.hcts = true ∧ t.host.uartOut = out.take n ∧
          t.host.uartLeft = out.drop n ∧ t.port .hostPort = { p with responses := r, staged := some f })))) ∧
    (uart → s.host.hcts = false → p.staged = some f → s.host.uartLeft = os → os ≠ [] → Does .uartFrameSent s (fun t => only t ∧ t.host.uartOut = os ∧
      t.host.uartLeft = [] ∧ t.port .hostPort = { p with staged := none })) ∧
    (s.host.hcts = true → exec .uartFrameSent s = .next s) ∧
    (b = false ∨ s.host.hcts = true ∨ n = 0 → exec (.hctsChange b n) s = .next { s with host := { s.host with hcts := b } }) ∧
    (s.boot.hsel = false ∨ s.portUp .hostPort = false → exec (.uartFrame used os) s = .next s ∧ exec .uartGapTimeout s = .next s ∧
      exec .uartFrameSent s = .next s) ∧
    (s.host.ratePending = some k → exec .uartRateApply s = .next { s with host := { s.host with rate := k, ratePending := none, rateUnproved := true } }) ∧
    (s.host.ratePending = none → exec .uartRateApply s = .next s) ∧
    (s.host.rateUnproved = true → Does .uartRateRevert s (fun t => t.host.rate = 0 ∧ t.host.rateUnproved = false ∧ t.core = s.core)) ∧
    (s.host.rateUnproved = false → exec .uartRateRevert s = .next s) ∧
    (s.portUp .usb = true →
      (used.val < 2 → parseFrame os = some q → q.chan = c.val → (u.chans.get c).last = none → s.r271 q = none →
        Does (.usbFrame used os) s (fun t => only t ∧ t.port .usb = { u with chans := u.chans.set c begun } ∧ t.port .hostPort = p)) ∧
      (2 ≤ used.val → Does (.usbFrame used os) s (fun t => only t ∧ t.host.ports = s.host.ports)) ∧
      (u.staged = none → u.responses = f :: r → f.payload.length ≤ 1020 → Does .usbInTransfer s (fun t => only t ∧
        t.host.usbOut.flatten = f.octets ∧ (∀ x ∈ t.host.usbOut.dropLast, x.length = 64) ∧ (∀ x ∈ t.host.usbOut.getLast?, x.length < 64) ∧
        t.port .usb = { u with responses := r } ∧ t.port .hostPort = p)) ∧
      (u.staged = none → u.responses = [] → u.events = [] → exec .usbInTransfer s = .next { s with host := { s.host with usbOut := [] } })) ∧
    (s.portUp .usb = false → exec (.usbFrame used os) s = .next s ∧ exec .usbInTransfer s = .next s) ∧
    exec (.usbVbusChange b) s = .next { s with host := { s.host with vbus := b, usbConfigured := s.host.usbConfigured && b } } ∧
    let on := b && s.host.vbus && s.host.admitting && decide (s.boot.tier ≠ .t0) && s.domainRuns .uclk
    exec (.usbConfiguration b) s = .next { s with host := { s.host with usbConfigured := on } }

/-- Repeated requests, interims, and requests given to a core: their area, PEND, DONE, time-out, and GRT_MBXEVT (R271, R274, R275, R276,
R284, R285, R286, R288, R289, R290, 05_host_port.md Table Host-8, 05_host_port.md Table Host-10). A request that fails the tests of R271
is answered with their status, also while its channel executes. One that passes and has the last SEQ and the same content again gets the
latest interim or the cached response with RTX; with other content, sequence reuse. An interim is queued while its request executes, and
for a request that a core has, states what remains of the route's limit. A new request on a routed channel whose core runs writes the
request area, sets PEND and stays executing; without a route the answer is 0x07. DONE from the routed core while pending clears PEND and
answers with the area's status and payload, or with 0x0A where its status or length is not allowed; a DONE that names no application
channel ends no request. The response limit answers 0x08. GRT_MBXEVT raises event 0xA000 plus CODE with the core's number. A core that has
no route has neither register: it traps. -/
def Obligations.ApplicationChannels : Prop :=
  ∀ (s : State) (c : Fin 7) (a : Fin 4) (i : Fin 4) (cmd : Nat) (g : Octet) (q : CmdReq) (r : Request) (fr : Frame) (x : AppRoute) (tr : Transport) (ms st : Nat) (v : Word),
    let ac : Fin 7 := ⟨a.val + 1, by omega⟩
    let ch := (s.port q.transport).chans.get c
    let old := (s.port q.transport).responses
    let sent (t : State) (f : Frame) : Prop := { t with host := s.host } = s ∧ (t.port q.transport).responses = old ++ [f]
    let up : Prop := s.portUp q.transport = true
    let tests := s.r271 { chan := c.val, dir := false, reserved := false, seq := q.seq, cmd := cmd, flags := g, payload := q.payload }
    let fresh : Prop := ((s.port q.transport).chans.get ac).last = none ∧ 0x8000 ≤ cmd ∧ s.boot.tier ≠ .t0
    let runs : Prop := (s.core.get x.core).run = .running ∨ (s.core.get x.core).run = .waiting ∨ (s.core.get x.core).run = .halted
    let req : Request := ⟨q.seq, cmd, q.payload⟩
    let head := s.cohRead (x.base + 1024) 2
    let stat := wordsNat (head.take 1)
    let len := wordsNat (head.drop 1)
    let legal : Prop := (stat = 0 ∨ (0xC0 ≤ stat ∧ stat ≤ 0xFF)) ∧ len ≤ 1020
    let ended (t : State) (st : Nat) (pay : List Octet) : Prop := t.host.app.get a = none ∧ (t.host.pend.get x.core).getLsbD a.val = false ∧
      (t.port tr).responses = (s.port tr).responses ++ [mkResponse ac.val r.seq r.cmd st pay] ∧ ((t.port tr).chans.get ac).phase = .answered ∧ t.core = s.core
    let held : Prop := s.host.app.get a = some (tr, r) ∧ s.host.routes.get a = some x ∧ ((s.port tr).chans.get ac).last = some r
    let again : Prop := up ∧ ch.last = some r ∧ r.seq = q.seq
    let same : Prop := r.cmd = cmd ∧ r.payload = q.payload
    (again → tests = some st → Does (.duplicateRequest c cmd g q) s (fun t => sent t (mkResponse c.val q.seq cmd st []) ∧
      (t.port q.transport).chans = (s.port q.transport).chans)) ∧
    (again → tests = none → same → ch.phase = .executing → ch.interim = some fr → Does (.duplicateRequest c cmd g q) s (fun t => sent t { fr with rtx := true })) ∧
    (again → tests = none → same → ch.phase = .answered → c ≠ 6 → ch.cache = some fr → Does (.duplicateRequest c cmd g q) s (fun t => sent t { fr with rtx := true })) ∧
    (again → tests = none → ¬ same → ch.phase ≠ .idle → Does (.duplicateRequest c cmd g q) s (fun t => sent t (mkResponse c.val q.seq cmd 0x09 []))) ∧
    (ch.last = none → exec (.duplicateRequest c cmd g q) s = .next s) ∧
    (up → ch.phase = .executing → ch.last = some r → (c.val = 0 ∨ 5 ≤ c.val) → Does (.interimDue q.transport c ms) s (fun t =>
      sent t (mkResponse c.val r.seq r.cmd 0x01 (leOctets 3 ms)) ∧ ((t.port q.transport).chans.get c).phase = .executing)) ∧
    (held → s.portUp tr = true → ((s.port tr).chans.get ac).phase = .executing → Does (.interimDue tr ac ms) s (fun t =>
      { t with host := s.host } = s ∧ (t.port tr).responses = (s.port tr).responses ++
        [mkResponse ac.val r.seq r.cmd 0x01 (leOctets 3 (x.limit - (s.ticks - s.host.appAt.get a) * 1000 / 32768))])) ∧
    (up → fresh → s.host.routes.get a = some x → runs → s.host.app.get a = none → Does (.appRequest a cmd g q) s (fun t =>
      t.host.app.get a = some (q.transport, req) ∧ t.host.appAt.get a = s.ticks ∧ (t.host.pend.get x.core).getLsbD a.val = true ∧
      (t.port q.transport).responses = old ∧ ((t.port q.transport).chans.get ac).phase = .executing ∧ ((t.port q.transport).chans.get ac).begun = true ∧
      t.mem = (s.cohWrite x.base (requestArea a q.transport g req)).mem)) ∧
    (up → fresh → s.host.routes.get a = none → Does (.appRequest a cmd g q) s (fun t =>
      (t.port q.transport).responses = old ++ [mkResponse ac.val q.seq cmd 0x07 []] ∧ t.mem = s.mem ∧ t.core = s.core)) ∧
    (held → x.core = i → s.reaches (.core i) 0x011 → (s.host.pend.get i).getLsbD a.val = true → v.toNat % 8 = ac.val →
      (legal → Does (.grtMbxdoneWrite i v) s (fun t => ended t stat (wordsToOctets len (s.cohRead (x.base + 1026) 680)))) ∧
      (¬legal → Does (.grtMbxdoneWrite i v) s (fun t => ended t 0x0A []))) ∧
    (s.reaches (.core i) 0x011 → v.toNat % 8 = 0 ∨ 5 ≤ v.toNat % 8 → Does (.grtMbxdoneWrite i v) s (fun t => t.host.app = s.host.app ∧
      t.host.pend = s.host.pend ∧ t.core = s.core)) ∧
    (¬ s.reaches (.core i) 0x011 → Does (.grtMbxdoneWrite i v) s (fun t => TurnedAway s t (.core i) 0x011) ∧
      Does (.grtMbxevtWrite i v) s (fun t => TurnedAway s t (.core i) 0x012)) ∧
    (held → Does (.appResponseTimeout a) s (fun t => ended t 0x08 [])) ∧
    (s.host.app.get a = none → exec (.appResponseTimeout a) s = .next s) ∧
    (s.reaches (.core i) 0x012 → s.eventsLive = true → (s.port .hostPort).mask.getLsbD 10 = false → (s.port .hostPort).events.length < 64 →
      Does (.grtMbxevtWrite i v) s (fun t => (t.port .hostPort).events = (s.port .hostPort).events ++
        [⟨0xA000 + v.toNat, s.host.eventNumber, s.led.cur.clock.era, s.led.cur.clock.seconds, s.led.cur.clock.fraction, [BitVec.ofNat 8 i.val]⟩] ∧ t.core = s.core))

/-- IDENTITY, STATUS, OPPOINT, RATE, EVMASK, RESET and RELEASE; core status and reset; the diagnostics group (R88, R150, R195, R196, R199,
R213, R222, R259, R293, R928, 17_commands.md Table Cmd-3, 17_commands.md Table Cmd-4). Accepted by its channel: IDENTITY and STATUS answer
the octets of their tables and change nothing. OPPOINT above 100 gives 0x13, else sets the Steward's request and answers the code applied.
RATE above 5, over USB or on SPI gives 0x13, else the rate is pending. EVMASK with a reserved bit gives 0x13, else the mask is set. RESET
without 0xA5 gives 0x13, with a ride open 0x17, else a warm reset brings it to Beacon, straps kept, the Teasel latch set; RELEASE with a
ride open gives 0x17, else the device stands in AO, its shutdown orderly. CORE_RESET above 3 gives 0x13, of a core not running 0x34, else
resets it with cause 2. SELFTEST_READ gives two bits a unit; SELFTEST_RUN with a ride open gives 0x17, at T3 answers 3 and 3, below it
stops the cores under a set latch and, where every test passes and the clocks run, leaves no unit failed. BEACON_RECORD gives the count
and the latest record. -/
def Obligations.SystemAndCoreCommands : Prop :=
  ∀ (s : State) (q : CmdReq) (nf : Vector Bool 2) (e : StartEnv) (en : StoreEnv) (i : Fin 4) (b : BeaconRecord) (l : List BeaconRecord),
    let ok (cmd : Nat) : Prop := s.accepts cmd q = true
    let ans (u : State) (cmd st : Nat) (p : List Octet) : Prop := OnlyHost s u ∧ Answered s u cmd q st p
    let o := octetAt q.payload 0
    let k := s.led.cur.clock
    let p := s.cus.presence
    let set (n : Nat) (x : Bool) : Nat := 2 ^ n * x.toNat
    let version := s.runningVersion
    let noRide : Prop := s.led.cur.ride = none
    let m := fieldNat q.payload 0 2
    let one (j : Fin 4) : List Octet := leOctets 1 (s.coreCode j) ++ leOctets 1 (s.boot.wdt.get j).cause.toNat ++
      leOctets 1 ((s.boot.wdtExpiries.get j).filter (fun t => s.ticks < t + 60 * 32768)).length ++ leOctets 1 (s.core.get j).doubleVector ++
      leOctets 3 (s.core.get j).doubleEpc.toNat ++ leOctets 3 (s.core.get j).doubleEaddr.toNat
    let runs (j : Fin 4) : Prop := (s.core.get j).run = .running ∨ (s.core.get j).run = .waiting ∨ (s.core.get j).run = .halted
    let started : Prop := e.testen = false ∧ e.failed = [] ∧ e.romOk = true ∧ e.stop = .none ∧ e.store = StoreEnv.good ∧ s.boot.testen = false ∧
      s.boot.alternateFirst = false ∧ s.setBoots e s.preferredSet = true ∧ (∀ j : Fin 2, (s.bank j).run = .idle ∧ (s.bank j).suspended = none) ∧ s.jou.busy = Vector.replicate 2 none
    let clocked : Prop := s.clk.pllLocked = true ∧ s.cel.lfo = .good ∧ ∀ x ∈ pllDomains, s.clk.domains.get x.row ≠ .held ∧ (s.wants x = true → s.clk.domains.get x.row ≠ .gated)
    let code (u : UnitResult) : Nat := match u with | .passed => 0 | .failedAtStart => 1 | .failedAtRun => 2 | .notPresent => 3 | .untested => 0
    (ok 0x0101 → Does (.identity q) s (fun u => ans u 0x0101 0 (leOctets 5 Config.identity.toNat ++ [0xB1, BitVec.ofNat 8 (version / 65536), BitVec.ofNat 8 (version / 256),
      BitVec.ofNat 8 version, 4, 3, 2] ++ leOctets 1 s.boot.role.code ++ leOctets 1 s.lifecycle.code ++ leOctets 4 s.fleetIdentity ++ leOctets 2 s.floor))) ∧
    (ok 0x0102 → Does (.status q) s (fun u => ans u 0x0102 0 (leOctets 1 s.boot.tier.toNat ++
      leOctets 1 (set 0 s.boot.bootFallback + set 1 s.pow.aoLow + set 2 s.led.cur.ride.isSome + set 3 s.cus.probation.isSome + set 4 s.cel.lfxFailed + set 5 (!s.lfoGood) +
        set 6 s.boot.debugUnlocked + set 7 s.mot.tsl.latch) ++ leOctets 1 s.boot.role.code ++ leOctets 1 s.lifecycle.code ++ leOctets 1 s.jou.state.code ++
      leOctets 1 (set 0 p.windowOpen + set 1 p.sources.service + set 2 p.sources.dock + set 3 p.sources.jumper) ++ leOctets 2 p.windowLeft ++ leOctets 1 k.cls ++ leOctets 5 k.wall ++
      leOctets 1 k.era ++ leOctets 5 k.seconds ++ leOctets 1 s.requestMask.toNat ++ leOctets 1 s.hold.ready ++ leOctets 3 (s.port q.transport).lostTotal ++
      leOctets 3 ((s.led.cur.ride.map (·.number)).getD 0) ++ leOctets 1 s.admitted ++ leOctets 2 s.con.epoch ++ leOctets 1 s.clk.target.toNat ++ leOctets 2 s.clk.temp.toNat ++
      leOctets 1 s.failedUnits.length ++ [0]))) ∧
    (ok 0x0103 → 100 < o.toNat → Does (.oppoint q) s (fun u => ans u 0x0103 0x13 [])) ∧
    (ok 0x0103 → o.toNat ≤ 100 → Does (.oppoint q) s (fun u => u.clk.stewardReq = o.setWidth 7 ∧ u.clk.target.toNat = u.wantedTarget ∧ u.core = s.core ∧
      Answered s u 0x0103 q 0 (leOctets 1 u.clk.target.toNat))) ∧
    (ok 0x0104 → 5 < o.toNat ∨ q.transport = .usb ∨ s.boot.hsel = false → Does (.rate q) s (fun u => ans u 0x0104 0x13 [] ∧ u.host.ratePending = s.host.ratePending)) ∧
    (ok 0x0104 → o.toNat ≤ 5 → q.transport = .hostPort → s.boot.hsel = true → Does (.rate q) s (fun u => ans u 0x0104 0 [] ∧ u.host.ratePending = some o.toNat ∧ u.host.rate = s.host.rate)) ∧
    (ok 0x0105 → BitVec.ofNat 16 m &&& 0xE203 ≠ 0 → Does (.evmask q) s (fun u => ans u 0x0105 0x13 [] ∧ (u.port q.transport).mask = (s.port q.transport).mask)) ∧
    (ok 0x0105 → BitVec.ofNat 16 m &&& 0xE203 = 0 → Does (.evmask q) s (fun u => ans u 0x0105 0 (leOctets 2 m) ∧ (u.port q.transport).mask = BitVec.ofNat 16 m)) ∧
    (ok 0x0106 → o ≠ 0xA5 → Does (.reset q nf e) s (fun u => ans u 0x0106 0x13 [])) ∧
    (ok 0x0106 → o = 0xA5 → s.led.cur.ride.isSome = true → Does (.reset q nf e) s (fun u => ans u 0x0106 0x17 [])) ∧
    (ok 0x0106 → o = 0xA5 → noRide → s.pow.pm = .running → started → Does (.reset q nf e) s (fun u => u.pow.pm = .running ∧ u.boot.phase = .beacon ∧ u.boot.tier = .t1 ∧
      u.boot.role = s.boot.role ∧ u.con.members = [] ∧ u.mot.tsl.latch = true ∧ u.mot.pwm.run = false ∧ (∀ j : Fin 4, (u.core.get j).run = .stopped) ∧
      (u.port q.transport).responses = [])) ∧
    (ok 0x0107 → s.led.cur.ride.isSome = true → Does (.release q nf) s (fun u => ans u 0x0107 0x17 [])) ∧
    (ok 0x0107 → noRide → Does (.release q nf) s (fun u => u.pow.pm = .ao ∧ u.pow.orderly = true ∧ u.core = Vector.replicate 4 CoreState.reset ∧ u.mot = s.mot.restarted ∧ u.led.cur.ride = none)) ∧
    (ok 0x0901 → Does (.coreStatus q) s (fun u => ans u 0x0901 0 (leOctets 1 ((s.cus.imageActive.map (·.val)).getD 0xFF) ++ one 0 ++ one 1 ++ one 2 ++ one 3))) ∧
    (ok 0x0902 → 3 < o.toNat → Does (.coreReset q) s (fun u => ans u 0x0902 0x13 [])) ∧
    (ok 0x0902 → o.toNat = i.val → ¬runs i → Does (.coreReset q) s (fun u => ans u 0x0902 0x34 [])) ∧
    (ok 0x0902 → o.toNat = i.val → runs i → Does (.coreReset q) s (fun u => Answered s u 0x0902 q 0 [] ∧ (u.boot.wdt.get i).cause = 2 ∧ (u.core.get i).window = [] ∧
      (u.core.get i).w = Vector.replicate 32 0 ∧ (∀ j : Fin 4, j ≠ i → (u.core.get j).w = (s.core.get j).w ∧ (u.core.get j).pc = (s.core.get j).pc))) ∧
    (ok 0x0A01 → s.boot.units.toList.all (· ≠ .untested) = true → Does (.selftestRead q) s (fun u => u.core = s.core ∧ u.boot = s.boot ∧ Answered s u 0x0A01 q 0
      (leOctets 11 ((List.finRange 42).foldr (fun j n => code (s.boot.units.get j) * 4 ^ j.val + n) 0) ++ leOctets 5 s.boot.selfTestSeconds))) ∧
    (ok 0x0A02 → s.led.cur.ride.isSome = true → Does (.selftestRun q [] en) s (fun u => ans u 0x0A02 0x17 [])) ∧
    (ok 0x0A02 → noRide → s.boot.tier = .t3 → Does (.selftestRun q [] en) s (fun u => ans u 0x0A02 0 [3, 3])) ∧
    (ok 0x0A02 → noRide → s.boot.tier = .t1 ∨ s.boot.tier = .t2 → s.failedUnits ≠ [] → clocked → Does (.selftestRun q [] en) s (fun u => u.failedUnits = [] ∧ u.mot.tsl.latch = true ∧
      u.boot.selfTestSeconds = k.seconds ∧ s.boot.tier.toNat ≤ u.boot.tier.toNat ∧ Answered s u 0x0A02 q 0 [BitVec.ofNat 8 s.boot.tier.toNat, BitVec.ofNat 8 u.boot.tier.toNat])) ∧
    (ok 0x0A03 → s.boot.beacons = b :: l → Does (.beaconRecord q) s (fun u => ans u 0x0A03 0 (leOctets 1 (min 255 (l.length + 1)) ++ leOctets 1 b.era ++ leOctets 5 b.seconds ++
      unitOctets b.failed ++ List.replicate 5 0))) ∧
    (ok 0x0A03 → s.boot.beacons = [] → Does (.beaconRecord q) s (fun u => ans u 0x0A03 0 (List.replicate 18 0)))

/-- The image commands from BEGIN to END with their status; the motor group; the Celandine group (R516, R520, R555, R560, R569, R622,
R623, R857, R935, 17_commands.md Table Cmd-10, 17_commands.md Table Cmd-11, 17_commands.md Table Cmd-14). Accepted by its channel, with no
write cut short: IMAGE_BEGIN refuses a kind that the role has not with 0x1A, above 1 or a total above the slot with 0x13, kind 0 on trial
with 0x18, a failed erase with 0x35; else it discards the staged image and receives. IMAGE_DATA with nothing begun or another total gives
0x13; a first part is held; IMAGE_END with nothing begun or staged, or an image not complete, gives 0x13, an image that breaks R623's
rules 0x13, a signature that fails 0x12, else it is staged. IMAGE_STATUS, FLASH_INFO, MOTOR_STATUS, CEL_STATUS and DISPLAY_READ answer the
octets of their tables and change nothing. TEASEL_CLEAR gives 0x33 with its reason, or clears the latch; TEASEL_TRIP sets it with bit 5;
SHOCK_HOLD above 600 gives 0x13, else it and KEY_WAKE set their registers. -/
def Obligations.ImageMotorAndCelandineCommands : Prop :=
  ∀ (s : State) (q : CmdReq) (w : StoreWrite) (b : Bool) (d : Fin 2) (x : ImageWrite) (ws : List Word),
    let ok (cmd : Nat) : Prop := s.accepts cmd q = true
    let whole : Prop := s.accepts 0x0601 q = true ∧ s.cus.cut = none
    let ans (u : State) (cmd st : Nat) (p : List Octet) : Prop := OnlyHost s u ∧ Answered s u cmd q st p
    let o := octetAt q.payload 0
    let f := fieldNat q.payload
    let has : Prop := (o = 0 ∧ (s.boot.role = .vehicle ∨ s.boot.role = .dock)) ∨ o = 1
    let kind : Prop := has ∧ o.toNat = d.val
    let limit := if o = 0 then 884736 else 52 + 16 * 0x8000
    let trial : Prop := o = 0 ∧ (s.cus.probation.any (·.program)) = true
    let slot := s.img.slots.get s.cus.stageSlot
    let staged : Option (List Word) := match slot with | none => none | some y => if y.staged = true then some y.words else none
    let n2 (v : Word) : List Octet := leOctets 2 v.toNat
    let t := s.mot.tsl
    let cel := s.cel
    let loop (y : SealLoop) : List Octet := leOctets 1 y.bin.toNat ++ leOctets 1 y.state.code ++ leOctets 1 (y.exp.toNat + 16 * y.en.toNat)
    let fresh := decide (cel.sopen ≠ 0)
    (whole → 1 < o.toNat → Does (.imageBegin q w b) s (fun u => ans u 0x0601 0x13 [])) ∧
    (whole → ¬has → o = 0 → Does (.imageBegin q w b) s (fun u => ans u 0x0601 0x1A [])) ∧
    (whole → has → limit < f 1 3 → Does (.imageBegin q w b) s (fun u => ans u 0x0601 0x13 [])) ∧
    (whole → has → f 1 3 ≤ limit → trial → Does (.imageBegin q w b) s (fun u => ans u 0x0601 0x18 [])) ∧
    (whole → kind → f 1 3 ≤ limit → ¬trial → w = .done → Does (.imageBegin q w true) s (fun u => u.core = s.core ∧ Answered s u 0x0601 q 0 [] ∧
      u.img.writing.get d = some ⟨d.val, f 1 3, [], false⟩ ∧ (d = 0 → u.img.slots.get u.cus.stageSlot = none) ∧ (d = 1 → u.zheyrStaged = false))) ∧
    (whole → kind → f 1 3 ≤ limit → ¬trial → w = .done → Does (.imageBegin q w false) s (fun u => u.core = s.core ∧ Answered s u 0x0601 q 0x35 [] ∧ u.img.writing.get d = none)) ∧
    (ok 0x0602 → kind → s.img.writing.get d = none → (partAt q.payload 0).isSome = true → Does (.imageData q b) s (fun u => ans u 0x0602 0x13 [])) ∧
    (ok 0x0602 → kind → s.img.writing.get d = some x → f 2 3 ≠ x.total → Does (.imageData q b) s (fun u => ans u 0x0602 0x13 [])) ∧
    (ok 0x0602 → kind → s.img.writing.get d = some x → f 2 3 = x.total → f 5 3 = 0 → octetAt q.payload 1 = 0 → ws = unpackOctets (q.payload.drop 8) → ws.length ≤ x.total → ws.length % 2 = 0 →
      ws.length ≤ 672 → Does (.imageData q true) s (fun u => u.core = s.core ∧ Answered s u 0x0602 q 0 [] ∧
        ⟨0x0602, d.val, x.total, ws⟩ ∈ u.host.assemblies ∧ u.img.writing.get d = some { x with words := [], complete := false })) ∧
    (ok 0x0603 → kind → s.img.writing.get d = some x → x.complete = false → Does (.imageEnd q) s (fun u => ans u 0x0603 0x13 [])) ∧
    (ok 0x0603 → has → o = 0 → s.img.writing.get 0 = some x → x.complete = true → programImageOk x.words = false → Does (.imageEnd q) s (fun u => ans u 0x0603 0x13 [])) ∧
    (ok 0x0603 → has → o = 0 → s.img.writing.get 0 = some x → x.complete = true → programImageOk x.words = true → Does (.imageEnd q) s (fun u =>
      if s.cus.keys.image.any (fun key => imageSigned key x.words) = true then
        u.core = s.core ∧ (u.img.slots.get s.cus.stageSlot).map (fun y => (y.words, y.staged)) = some (x.words, true) ∧ u.img.writing.get 0 = none ∧
        Answered s u 0x0603 q 0 (leOctets 1 (wN x.words 3) ++ leOctets 1 (wN x.words 4 % 16) ++ leOctets 3 (imageLength x.words))
      else ans u 0x0603 0x12 [])) ∧
    (ok 0x0603 → has → o = 0 → s.img.writing.get 0 = none → staged = none → Does (.imageEnd q) s (fun u => ans u 0x0603 0x13 [])) ∧
    (ok 0x0604 → Does (.imageStatus q) s (fun u => ans u 0x0604 0 (leOctets 1 ((s.cus.imageActive.map (·.val)).getD 0xFF) ++ leOctets 1 staged.isSome.toNat ++
      leOctets 3 ((staged.map imageLength).getD 0) ++ leOctets 1 ((staged.map (fun y => wN y 3)).getD 0) ++ leOctets 1 s.boot.runningB.toNat ++ leOctets 1 s.preferredSet.val ++
      leOctets 2 s.boot.swapCells ++ leOctets 1 s.boot.bootFallback.toNat ++ leOctets 3 (s.img.zheyr.get 0).version ++ leOctets 3 (s.img.zheyr.get 1).version ++
      leOctets 1 s.zheyrStaged.toNat ++ leOctets 2 s.floor))) ∧
    (ok 0x0605 → 1 < o.toNat ∨ f 2 1 = 0 ∨ 128 < f 2 1 ∨ 128 < f 1 1 + f 2 1 → Does (.flashInfo q) s (fun u => ans u 0x0605 0x13 [])) ∧
    (ok 0x0605 → o.toNat ≤ 1 → f 2 1 = 1 → f 1 1 < 128 → Does (.flashInfo q) s (fun u =>
      let y := s.blockMeta (0x800000 + 0x400000 * o.toNat + 0x8000 * f 1 1)
      ans u 0x0605 0 (leOctets 3 y.count ++ leOctets 1 (y.flag.toNat + 2 * (s.infoRetired o.toNat (f 1 1)).toNat)))) ∧
    (ok 0x0501 → Does (.motorStatus q) s (fun u => ans u 0x0501 0 (n2 ((s.tslRead 0).getD 0) ++ n2 (t.cause.setWidth 12) ++ n2 ((s.tslRead 4).getD 0) ++ leOctets 1 s.mot.pwm.sup.toNat ++
      n2 s.mot.pwm.limi ++ leOctets 3 s.mot.pwm.limw.toNat ++ n2 s.mot.tcap.hstat ++ leOctets 3 s.mot.tcap.wcnt.toNat ++ leOctets 1 (s.con.merged.get 7).toNat))) ∧
    (ok 0x0502 → s.clearResult ≠ 1 → Does (.teaselClear q) s (fun u => ans u 0x0502 0x33 (leOctets 1 s.clearResult))) ∧
    (ok 0x0502 → s.clearResult = 1 → t.latch = true → Does (.teaselClear q) s (fun u => u.core = s.core ∧ u.mot.tsl = { t with latch := false, cause := 0, handback := true } ∧ Answered s u 0x0502 q 0 [1])) ∧
    (ok 0x0503 → Does (.teaselTrip q) s (fun u => u.core.map (·.w) = s.core.map (·.w) ∧ u.mot.tsl.latch = true ∧ u.mot.tsl.cause = t.cause ||| 0x020 ∧ Answered s u 0x0503 q 0 [])) ∧
    (ok 0x0801 → Does (.celStatus q) s (fun u => ans u 0x0801 0 (leOctets 1 cel.clk.toNat ++ loop (cel.seals.get 0) ++ loop (cel.seals.get 1) ++
      leOctets 1 ((if fresh then cel.sopen else cel.sopenCopy).toNat + 16 * s.cus.presence.servicePeriod.toNat) ++ leOctets 1 (if fresh then cel.openEra else cel.openEraCopy) ++
      leOctets 5 (if fresh then cel.openSeconds else cel.openSecondsCopy) ++ leOctets 2 (min 65535 (cel.shocksCopy + cel.shocks)) ++ n2 s.celPres ++ leOctets 2 s.cus.presence.windowLeft ++
      leOctets 1 (cel.wet.toNat + 2 * cel.stuck.toNat) ++ leOctets 2 cel.wakeCopy.toNat))) ∧
    (ok 0x0802 → Does (.displayRead q) s (fun u => ans u 0x0802 0 (leOctets 1 (s.showsWorking 7).toNat ++ packWords cel.shown.toList))) ∧
    (ok 0x0803 → 600 < f 0 2 → Does (.shockHold q) s (fun u => ans u 0x0803 0x13 [])) ∧
    (ok 0x0803 → f 0 2 ≤ 600 → Does (.shockHold q) s (fun u => { u with host := s.host, cel := cel } = s ∧ u.cel = { cel with shkHold := f 0 2 } ∧ Answered s u 0x0803 q 0 [])) ∧
    (ok 0x0804 → Does (.keyWake q) s (fun u => { u with host := s.host, cel := cel } = s ∧ u.cel = { cel with kwake := BitVec.ofNat 16 (f 0 2) } ∧ Answered s u 0x0804 q 0 []))

/-- What opens, extends and closes the presence window (R308, R309, R310, R311, R312, R313, R333, R353, R360, R361, 06_custody.md Table
Custody-1, 06_custody.md Table Custody-2). With the part running and LFO good, a counted press of SERVICE_N recognised after 2 s, a jumper
recognised after 1 s, or the fourth accepted dock gate in a row opens a closed window for CEL_PWLEN seconds with that source alone, and
restarts an open one, joining the sources; a press and a jumper recognised together open it once with both. A further accepted gate in an
open window restarts it and joins no source, where no staged record commits on docking. Levels of SERVICE_N and JMP_PRES are taken as they
are. A gate outside 251 to 261 edges, or with LFX failed, starts the count again; the dock role does not count, and nothing is recognised
with the power manager off. The window closes at its expiry and by WINDOW_CLOSE. The service period, the stuck button and rejected gates,
at most one event in 600 s, change only their own marks. -/
def Obligations.PresenceWindow : Prop :=
  ∀ (s : State) (b : Bool) (e : StartEnv) (edges : Nat) (q : CmdReq),
    let p := s.cus.presence
    let good : Prop := s.pow.pm = .running ∧ s.cel.lfo = .good
    let now (t : State) (x : Sources) : Prop :=
      (p.windowOpen = false → t.cus.presence.windowOpen = true ∧ t.cus.presence.windowLeft = s.cel.pwLen ∧
        t.cus.presence.windowLen = s.cel.pwLen ∧ t.cus.presence.sources = x) ∧
      (p.windowOpen = true → t.cus.presence.windowOpen = true ∧ t.cus.presence.windowLeft = p.windowLen ∧
        t.cus.presence.sources = p.sources.join x)
    let both := b && p.jumperFitted && p.jumperPending
    let noStaged : Prop := ∀ d : Fin 5, (s.cus.slots.get d).staged = none
    let closed : Presence := { p with windowOpen := false, windowLeft := 0, sources := Sources.none, dockBlocked := false }
    let gates (n : Nat) : State := { s with cus := { s.cus with presence := { p with dockGates := n } } }
    exec (.serviceNFall b) s = .next { s with cus := { s.cus with presence := { p with serviceLow := b, serviceCounts := b && p.servicePeriod } } } ∧
    (good → p.serviceLow = true → p.serviceCounts = true → Does (.servicePressRecognised b e) s (fun t => now t ⟨true, false, both⟩ ∧
      t.cus.presence.serviceCounts = false ∧ t.cus.slots = s.cus.slots ∧ t.core = s.core)) ∧
    (p.serviceLow = false ∨ p.serviceCounts = false ∨ s.pow.pm = .off → exec (.servicePressRecognised b e) s = .next s) ∧
    exec (.jmpPresFall b) s = .next { s with cus := { s.cus with presence := { p with jumperFitted := b, jumperPending := b } } } ∧
    (good → p.jumperFitted = true → p.jumperPending = true → Does (.jumperRecognised e) s (fun t => now t ⟨false, false, true⟩ ∧
      t.cus.presence.jumperPending = false ∧ t.core = s.core)) ∧
    (p.jumperFitted = false ∨ p.jumperPending = false ∨ s.pow.pm = .off → exec (.jumperRecognised e) s = .next s) ∧
    (s.cus.cut = none → s.boot.role = .dock ∨ s.pow.pm = .off → exec (.dockGateEnd edges e) s = .next s) ∧
    (s.cus.cut = none → s.boot.role ≠ .dock → s.pow.pm ≠ .off →
      (s.cel.lfxFailed = true ∨ edges < 251 ∨ 261 < edges → exec (.dockGateEnd edges e) s = .next (gates 0)) ∧
      (s.cel.lfxFailed = false → 251 ≤ edges → edges ≤ 261 →
        (p.dockGates < 3 → p.windowOpen = false ∨ p.dockBlocked = false → exec (.dockGateEnd edges e) s = .next (gates (p.dockGates + 1))) ∧
        (good → p.dockGates = 3 → noStaged → Does (.dockGateEnd edges e) s (fun t => now t ⟨false, true, false⟩ ∧ t.cus.presence.dockGates = 4 ∧ t.core = s.core)) ∧
        (4 ≤ p.dockGates → p.windowOpen = true → noStaged → exec (.dockGateEnd edges e) s = .next { s with cus := { s.cus with presence :=
          { p with dockGates := 4, windowLeft := p.windowLen, windowPhase := 0, dockBlocked := false } } }) ∧
        (4 ≤ p.dockGates → p.windowOpen = false → exec (.dockGateEnd edges e) s = .next (gates 4)))) ∧
    (p.windowOpen = true → Does .presenceWindowExpiry s (fun t => t.cus = { s.cus with presence := closed } ∧ t.core = s.core)) ∧
    (p.windowOpen = false → exec .presenceWindowExpiry s = .next s) ∧
    exec .servicePeriodExpiry s = .next { s with cus := { s.cus with presence := { p with servicePeriod := false } } } ∧
    (p.serviceLow = false → exec .stuckButtonTimeout s = .next s) ∧
    (p.serviceLow = true → Does .stuckButtonTimeout s (fun t => { t with host := s.host, jou := s.jou } = s)) ∧
    (p.dockEventAt = none → Does .dockRejectTimeout s (fun t => t.cus.presence = { p with dockEventAt := some s.ticks } ∧ t.core = s.core)) ∧
    (∀ x ∈ p.dockEventAt, (x + 600 * 32768 ≤ s.ticks → Does .dockRejectTimeout s (fun t => t.cus.presence = { p with dockEventAt := some s.ticks } ∧ t.core = s.core)) ∧
      (s.ticks < x + 600 * 32768 → exec .dockRejectTimeout s = .next s)) ∧
    (s.accepts 0x0208 q = true → Does (.windowClose q) s (fun t => Answered s t 0x0208 q 0 [] ∧
      t.cus = { s.cus with presence := if p.windowOpen then closed else p }))

/-- A probation's end, the scrub, the closure check of a second, the ageing of class 4, and the longest ride (R334, R339, R341, R342,
R344, R366, R368, R376, R384, R388, R390, 06_custody.md Table Custody-7). Where no write was cut short and events are kept: at 86 400 s a
running probation ends as a success, its slots unchanged, if the store has a page for the slot map, and else nothing changes. The scrub of
a store whose copies agree, or with a ride open, changes nothing; where one Current of a domain that is not known to be bad diverges
materially and every other copy agrees, the slots are those that the slot map gives, with that Current marked bad and its domain
requesting custody. The closure check raises the high-water mark; without a period, or below the open period's end, it does no more, and
at its end, with pages in the ring, it seals the period and opens the next index from that end. Class 4 becomes class 3 after 86 400 s
without an accepted class-4 time, and not before. A ride that reaches its tariff's longest duration is closed and its record appended,
with pages in the ring. -/
def Obligations.CustodyAndLedgerTimers : Prop :=
  ∀ (s : State) (e : StoreEnv) (d : EdDomain) (o : OpenPeriod) (r : OpenRide) (m : EdRecord) (at_ : Nat) (w : RingWrite) (x : StoreWrite),
    let live : Prop := s.eventsLive = true
    let next := nextBoundary (s.edition .tariff) o.stop
    let map := s.cus.writing { s.cus with probation := none } []
    let u := s.readMaps e.flash
    let same (q : EdDomain × Fin 3) : Prop := ∀ y ∈ (u.slot q.1).held q.2, ∀ l ∈ u.cus.store.loc q.1 q.2, u.compareRecord e.flash q.1 l y.key = .agreement
    let raised : State := { s with led := { s.led with cur := { s.led.cur with hwm := max s.led.cur.hwm s.led.cur.clock.wall } } }
    let roomy : Prop := 260 ≤ s.led.freePages
    (s.cus.cut = none →
      (live → s.probationDue = true → map ≠ none → Does (.probationExpiry .done) s (fun t => t.cus.probation = none ∧ t.cus.slots = s.cus.slots ∧ t.core = s.core)) ∧
      (live → s.probationDue = true → map = none → exec (.probationExpiry .done) s = .next s) ∧
      (s.probationDue = false ∨ s.eventsLive = false → exec (.probationExpiry x) s = .next s) ∧
      (live → s.led.cur.period = none → s.led.due = [] → exec (.closureCheck .done) s = .next raised) ∧
      (live → s.led.cur.period = some o → s.led.due = [] → s.led.cur.clock.wall < o.stop → exec (.closureCheck .done) s = .next raised) ∧
      (live → s.boot.tier ≠ .t0 → s.led.cur.period = some o → s.led.due = [] → s.led.sealed s.led.epoch o.index = false → o.stop ≤ s.led.cur.clock.wall →
        s.led.cur.clock.wall < next → o.index < 0xFFFFFF → roomy →
        Does (.closureCheck .done) s (fun t => t.led.cur.period = some (OpenPeriod.fresh (o.index + 1) o.stop next s.led.lfxLost) ∧
          t.led.periods.length = s.led.periods.length + 1 ∧ t.led.rides = s.led.rides ∧
          t.led.periods.getLast?.map (fun p => (p.epoch, p.index)) = some (s.led.epoch, o.index))) ∧
      (s.eventsLive = false → exec (.closureCheck w) s = .next s) ∧
      (live → s.led.cur.ride = some r → tariffMaxRide r.tariff ≤ s.rideSeconds r → s.cus.probation = none → roomy →
        Does (.maxRideDuration .done e) s (fun t => t.led.cur.ride = none ∧ t.led.rides.length = s.led.rides.length + 1 ∧
          t.led.rides.getLast?.map (·.number) = some r.number)) ∧
      (s.led.cur.ride = none ∨ s.eventsLive = false → exec (.maxRideDuration w e) s = .next s)) ∧
    (s.led.cur.ride.isSome = true ∨ s.eventsLive = false → exec (.scrubTimer e) s = .next s) ∧
    (live → s.led.cur.ride = none → e.changed = [] → Does (.scrubTimer e) s (fun t => t.core = s.core ∧ (s.storeAgrees e.flash = true → t = s) ∧
      (s.storeAgrees e.flash = false → u.cus.probation = none → (u.cus.store.take 1).isSome = true →
        (u.slot d).held 1 = some m → u.cus.store.loc d 1 = some at_ → u.compareRecord e.flash d at_ m.key = .material → (∀ q ∈ everySlot, q ≠ (d, 1) → same q) →
        (∀ q ∈ everySlot, ((u.slot q.1).held q.2).isSome = (u.cus.store.loc q.1 q.2).isSome) →
        t.cus.slots = u.cus.slots.set (domIdx d) { u.slot d with currentBad := true, requested := true }))) ∧
    (s.led.cur.clock.cls = 4 → 86400 ≤ s.led.cur.class4Age →
      exec .class4Decay s = .next { s with led := { s.led with cur := { s.led.cur with clock := { s.led.cur.clock with cls := 3 } } } }) ∧
    (s.led.cur.clock.cls ≠ 4 ∨ s.led.cur.class4Age < 86400 → exec .class4Decay s = .next s)

/-- STAGE_EDITION, DISCARD_STAGED, SLOTS, COMMIT, ROLLBACK, ACCEPT and CONFIRM_PREVIOUS: what they change and how they refuse (R315, R318,
R321, R325, R328, R330, R331, R334, R336, R343, R926, 17_commands.md Table Cmd-5). For a request that its channel takes up, with no write
cut short, and where the store has pages for what is written. STAGE_EDITION keeps a first part that is not the last and answers 0; a whole
record in range is staged when its signature verifies, its number exceeds the highest and the store has room, with 0x12, 0x14, 0x15
otherwise; an unheld domain is 0x1A. DISCARD_STAGED empties Staged, or 0x16. SLOTS answers the numbers and changes nothing. With the
window open, COMMIT makes each named Staged the Current, the old Current the Previous, the number the highest, and starts a probation of
those domains, where the copies of the store agree once the slot map is written; ROLLBACK makes Previous the Current; ACCEPT ends a
probation; CONFIRM_PREVIOUS makes what is effective Current. Without it they answer 0x10; guards give 0x13, 0x16, 0x17, 0x18, 0x1C, 0x34.
-/
def Obligations.EditionCommands : Prop :=
  ∀ (s : State) (q : CmdReq) (e : StoreEnv) (d : EdDomain) (p : Part) (key : List Octet),
    let ok (cmd : Nat) : Prop := s.accepts cmd q = true ∧ s.cus.cut = none
    let room (f : Custody → Custody) : Prop := (s.cus.writing (f s.cus) []).isSome = true
    let open1 : Prop := s.cus.presence.windowOpen = true ∧ s.cel.lfo = .good
    let shut : Prop := s.cus.presence.windowOpen = false ∧ s.cus.presence.jumperFitted = false
    let x := s.slot d
    let m : BitVec 5 := BitVec.ofNat 5 (octetAt q.payload 0).toNat
    let held : Prop := ∀ i : Fin 5, m.getLsbD i = true → domHeld ([EdDomain.vehicle, .fleet, .tariff, .grants, .teasel].get i) s.boot.role = true
    let two (st : Nat) (c : Nat) (i : Instr) (pay : List Octet) : Prop := Does i s (fun t => Answered s t c q st pay ∧ t.cus = s.cus)
    let r := edRecordOf key p.chunk
    let after := s.writeMap .done (fun c => c.commit m false s.led.cur.clock.era s.led.cur.clock.seconds)
    let st := if ecdsaVerify key (sha256 (packWords (signedWords d p.chunk))) (wordsToOctets 64 r.signature) = false then 0x12
      else if r.number ≤ x.highest then 0x14 else if s.cus.store.full r.pages then 0x15 else 0
    (ok 0x0201 → s.heldDomain (octetAt q.payload 0).toNat = none → two 0x1A 0x0201 (.stageEdition q .done) []) ∧
    (ok 0x0201 → s.heldDomain (octetAt q.payload 0).toNat = some d → partAt q.payload 0 = some p → p.offset = 0 →
      (p.last = false → p.chunk.length ≤ p.total → Does (.stageEdition q .done) s (fun t => Answered s t 0x0201 q 0 [] ∧ t.cus = s.cus ∧
        t.host.assemblies.getLast? = some ⟨0x0201, p.selector, p.total, p.chunk⟩)) ∧
      (p.last = true → p.chunk.length = p.total → recordRange d s.boot.role p.chunk = true → two 0x13 0x0201 (.stageEdition q .done) []) ∧
      (p.last = true → p.chunk.length = p.total → recordRange d s.boot.role p.chunk = false → s.cus.keys.config = some key →
        (st = 0 → room (fun c => c.setSlot d (fun y => { y with staged := some r }))) →
        Does (.stageEdition q .done) s (fun t => Answered s t 0x0201 q st (if st = 0 then leOctets 2 r.number else []) ∧
          t.cus.slots = if st = 0 then s.cus.slots.set (domIdx d) { x with staged := some r } else s.cus.slots))) ∧
    (ok 0x0202 → s.heldDomain (octetAt q.payload 0).toNat = some d →
      (x.staged.isSome = true → room (fun c => c.setSlot d (fun y => { y with staged := none })) → Does (.discardStaged q .done) s (fun t => Answered s t 0x0202 q 0 [] ∧
        t.cus.slots = s.cus.slots.set (domIdx d) { x with staged := none })) ∧
      (x.staged = none → two 0x16 0x0202 (.discardStaged q .done) [])) ∧
    (s.accepts 0x0203 q = true → Does (.slots q) s (fun t => Answered s t 0x0203 q 0 s.slotsPayload ∧ OnlyHost s t) ∧ s.slotsPayload.length = 50 ∧
      s.slotsPayload.take 6 = leOctets 2 (slotNumber (s.slot .vehicle).staged) ++ leOctets 2 (currentNumber (s.slot .vehicle)) ++
        leOctets 2 (slotNumber (s.slot .vehicle).previous)) ∧
    (ok 0x0204 → shut → two 0x10 0x0204 (.commit q e) []) ∧
    (ok 0x0204 → open1 → octetAt q.payload 1 = 0 →
      (m = 0 → two 0x13 0x0204 (.commit q e) []) ∧
      (m ≠ 0 → held → (∃ i : Fin 5, m.getLsbD i = true ∧ (s.cus.slots.get i).staged = none) → two 0x16 0x0204 (.commit q e) []) ∧
      (m ≠ 0 → held → (∀ i : Fin 5, m.getLsbD i = true → (s.cus.slots.get i).staged.isSome = true) →
        (s.led.cur.ride.isSome = true → two 0x17 0x0204 (.commit q e) []) ∧
        (s.led.cur.ride = none → s.cus.probation.isSome = true → two 0x18 0x0204 (.commit q e) []) ∧
        (s.led.cur.ride = none → s.cus.probation = none → e.write = .done → e.changed = [] → after.2 = true →
          Does (.commit q e) s (fun t => Answered s t 0x0204 q 0 (q.payload.take 2) ∧ (after.1.storeAgrees e.flash = true →
            t.cus.probation.map (fun p => (p.domains, p.program, p.failed)) = some (Vector.ofFn (fun i : Fin 5 => m.getLsbD i), false, false) ∧
            ∀ i : Fin 5, let y := s.cus.slots.get i
              t.cus.slots.get i = if m.getLsbD i then ⟨none, y.staged, if y.currentBad then none else y.current, (y.staged.map (·.number)).getD 0, false, false⟩ else y))))) ∧
    (ok 0x0205 → shut → two 0x10 0x0205 (.rollback q e) []) ∧
    (ok 0x0205 → open1 → octetAt q.payload 1 = 0 → m ≠ 0 → held →
      (s.led.cur.ride.isSome = true → two 0x17 0x0205 (.rollback q e) []) ∧
      (s.led.cur.ride = none → e.write = .done → room (fun c => c.rollBack m false) → Does (.rollback q e) s (fun t => Answered s t 0x0205 q 0 (q.payload.take 2) ∧
        ∀ i : Fin 5, let y := s.cus.slots.get i
          t.cus.slots.get i = if m.getLsbD i then { y with current := y.previous, previous := none, currentBad := false } else y))) ∧
    (ok 0x0206 → open1 →
      (s.cus.probation = none → two 0x1C 0x0206 (.accept q .done) []) ∧
      (s.cus.probation.map (·.failed) = some true → two 0x34 0x0206 (.accept q .done) []) ∧
      (s.cus.probation.map (·.failed) = some false → room (fun c => { c with probation := none }) → Does (.accept q .done) s (fun t => Answered s t 0x0206 q 0 [] ∧
        t.cus.probation = none ∧ t.cus.slots = s.cus.slots))) ∧
    (ok 0x0207 → open1 →
      (m &&& ~~~s.requestMask ≠ 0 → two 0x34 0x0207 (.confirmPrevious q .done) []) ∧
      (m &&& ~~~s.requestMask = 0 → room (fun c => (maskDomains m).foldl (fun c d => c.setSlot d DomainSlots.confirmed) c) → Does (.confirmPrevious q .done) s (fun t => Answered s t 0x0207 q 0 [] ∧
        ∀ i : Fin 5, t.cus.slots.get i = if m.getLsbD i then (s.cus.slots.get i).confirmed else s.cus.slots.get i)))

/-- KEYS by its three operations, LIFECYCLE, DEBUG_UNLOCK and READ_KEYS (R233, R234, R315, R347, R348, R349, R350, R387, R397,
17_commands.md Table Cmd-6, 04_startup_and_tiers.md Table Start-11). Without C2 these refuse with 0x10. With C2, provisioning in Blank or
Returned takes the three keys and the certificate, if the points lie on the curve and the certificate verifies, with a fresh sealing key;
replacing the configuration or the image key in Provisioned or Fielded needs the old key's signature. LIFECYCLE takes Blank with every key
to Provisioned in a new epoch with ride number 1, Provisioned to Fielded, and Fielded to Returned, which, with no probation running, no
period due, and room in the ring and the store, closes the ride, empties the slots and zeroises the operator's keys; any other step is
0x11. DEBUG_UNLOCK unlocks a fielded part alone. READ_KEYS changes nothing. -/
def Obligations.KeysAndLifecycle : Prop :=
  ∀ (s : State) (q : CmdReq) (e : StoreEnv) (old : List Octet) (w : RingWrite),
    let ok : Prop := s.accepts 0x020A q = true ∧ s.cus.cut = none
    let emptied := s.cus.writing { s.cus with slots := s.cus.slots.map DomainSlots.emptied, probation := none, keys := s.cus.keys.zeroised } []
    let p := s.cus.presence
    let c2 : Prop := p.windowOpen = true ∧ p.sources.service = true ∧ p.jumperFitted = true
    let shut : Prop := p.windowOpen = false ∧ p.jumperFitted = false
    let op : Nat := (octetAt q.payload 0).toNat
    let key (i : Nat) : List Octet := (q.payload.drop i).take 64
    let cert : List Octet := (q.payload.drop 193).take 153
    let refused (st c : Nat) (i : Instr) : Prop := Does i s (fun t => Answered s t c q st [] ∧ OnlyHost s t)
    let life (l : Lifecycle) : Prop := s.boot.lifecycleReadable = true ∧ s.boot.lifecycle = l
    let changed (i : Instr) (b : Bool) (k : Keys) : Prop := Does i s (fun t =>
      if b then Answered s t 0x0209 q 0 [] ∧ t.cus = { s.cus with keys := k } else Answered s t 0x0209 q 0x12 [] ∧ OnlyHost s t)
    let newKey : Bool := ecdsaVerify old (sha256 (q.payload.take 65)) (key 65)
    let cmdOf : Instr := if op = 0 then .keysProvision q else if op = 1 then .keysReplaceConfig q else .keysReplaceImage q
    (s.accepts 0x0209 q = true → op ≤ 2 → shut → refused 0x10 0x0209 cmdOf) ∧
    (s.accepts 0x0209 q = true → c2 → op = 0 → (life .blank ∨ life .returned) → ecPoint (key 1) = true → ecPoint (key 65) = true → ecPoint (key 129) = true →
      changed (.keysProvision q) (s.ownCertOk (key 129) cert) { s.cus.keys with config := some (key 1), image := some (key 65), fleetRoot := some (key 129), cert := some cert, sealing := some s.free }) ∧
    (s.accepts 0x0209 q = true → c2 → op = 0 → (life .provisioned ∨ life .fielded) → refused 0x11 0x0209 (.keysProvision q)) ∧
    (s.accepts 0x0209 q = true → c2 → (life .provisioned ∨ life .fielded) → ecPoint (key 1) = true →
      (op = 1 → s.cus.keys.config = some old → changed (.keysReplaceConfig q) newKey { s.cus.keys with config := some (key 1) }) ∧
      (op = 2 → s.cus.keys.image = some old → changed (.keysReplaceImage q) newKey { s.cus.keys with image := some (key 1) })) ∧
    (ok → shut → refused 0x10 0x020A (.lifecycle q w e)) ∧
    (ok → c2 → op = 0 ∨ 3 < op → refused 0x13 0x020A (.lifecycle q w e)) ∧
    (ok → c2 → op = 1 → life .blank → s.cus.keys.complete = true → s.led.epoch < 4095 →
      Does (.lifecycle q w e) s (fun t => Answered s t 0x020A q 0 [] ∧ t.boot.lifecycle = .provisioned ∧ t.led.epoch = s.led.epoch + 1 ∧
        t.led.nextRide = 1 ∧ t.led.cur.clock.era = 0 ∧ t.led.cur.clock.seconds = 0 ∧ t.led.cur.clock.wall = s.led.cur.clock.wall ∧
        t.led.cur.period.map (·.index) = some 1)) ∧
    (ok → c2 → op = 1 → life .blank → s.cus.keys.complete = false → refused 0x11 0x020A (.lifecycle q w e)) ∧
    (ok → c2 → op = 2 → life .provisioned → Does (.lifecycle q w e) s (fun t => Answered s t 0x020A q 0 [] ∧
      t.boot = { s.boot with lifecycle := .fielded } ∧ t.cus = s.cus)) ∧
    (ok → c2 → op = 3 → life .fielded → w = .done → s.cus.probation = none → s.led.due = [] → (∀ o ∈ s.led.cur.period, s.led.cur.clock.wall < o.stop) →
      600 ≤ s.led.freePages → emptied.isSome = true → Does (.lifecycle q w e) s (fun t => Answered s t 0x020A q 0 [] ∧
      t.boot.lifecycle = .returned ∧ t.led.cur.ride = none ∧ t.cus.keys = { Keys.reset with exports := s.cus.keys.exports } ∧ t.cus.probation = none ∧
      ∀ i : Fin 5, (t.cus.slots.get i).current = none ∧ (t.cus.slots.get i).staged = none ∧ (t.cus.slots.get i).previous = none)) ∧
    (ok → c2 → op = 1 → life .fielded → refused 0x11 0x020A (.lifecycle q w e)) ∧
    (s.accepts 0x020B q = true → c2 → Does (.debugUnlock q) s (fun t => Answered s t 0x020B q 0 [] ∧
      t.boot.debugUnlocked = (s.boot.debugUnlocked || decide (s.lifecycle = .fielded)) ∧ t.cus = s.cus)) ∧
    (s.accepts 0x020B q = true → shut → refused 0x10 0x020B (.debugUnlock q)) ∧
    (s.accepts 0x020C q = true → Does (.readKeys q) s (fun t => OnlyHost s t ∧ Answered s t 0x020C q 0
      ((identityKey ++ List.replicate 64 0).take 64 ++ s.cus.keys.cert.getD (List.replicate 153 0) ++
        leOctets 1 (boolsNat [s.cus.keys.config.isSome, s.cus.keys.image.isSome, s.cus.keys.fleetRoot.isSome, s.cus.keys.cert.isSome, s.cus.keys.sealing.isSome]) ++
        leOctets 2 s.cus.keys.exports)))

/-- SET_TIME by rows 3, 4 and 6 of its table and its refusals; RIDE_OPEN, RIDE_CLOSE, RIDE_STATUS and RIDE_READ (R365, R366, R370, R371,
R372, R378, R379, R384, R385, R388, R409, 17_commands.md Table Cmd-7). For a request that its channel takes up, with no period due and no
write cut short: SET_TIME within 1 s changes the class alone (row 3); a later time is stepped to at once (row 4); an earlier one within
900 s, where the ring takes its tail, is a setback that marks the open ride retrograde (row 6); ledger time never moves. A lower class
without presence is 0x27, a far setback of class below 3 without presence 0x10, class 4 without a PPS 0x26, a class above 4 0x13.
RIDE_OPEN answers a refusal that applies and opens nothing, else, its tail written, it opens the next number. RIDE_CLOSE, with pages in
the ring, adds the record and answers its words, and 0x20 with no ride, as RIDE_STATUS does. RIDE_READ answers the record as its page
reads, 0x29 where it does not read or its HMAC fails, and 0x2A when it is not held. -/
def Obligations.TimeAndRideCommands : Prop :=
  ∀ (s : State) (q : CmdReq) (dt st : Nat) (e : StoreEnv) (r : OpenRide) (x : RideRecord) (z : RingWrite) (g : FlashFacts) (ws : List Word),
    let c := s.led.cur.clock
    let w := fieldNat q.payload 0 5
    let f := fieldNat q.payload 5 2
    let k := (octetAt q.payload 7).toNat
    let new := w * 32768 + f
    let old := c.wall * 32768 + c.wallFraction
    let hwm := max s.led.cur.hwm c.wall
    let idle (v : Nat) : Prop := s.led.due = [] ∧ s.led.cur.period.all (fun o => decide (v < o.stop)) = true
    let roomy : Prop := 260 ≤ s.led.freePages
    let shut : Prop := s.cus.presence.windowOpen = false ∧ s.cus.presence.jumperFitted = false
    let go (cmd : Nat) : Prop := s.accepts cmd q = true ∧ idle c.wall ∧ s.cus.cut = none
    let kept (t : State) : Prop := t.led = { s.led with cur := { s.led.cur with hwm := hwm } } ∧ t.cus = s.cus ∧ t.core = s.core
    let no (cmd sta : Nat) (i : Instr) : Prop := Does i s (fun t => Answered s t cmd q sta [] ∧ kept t)
    let row (n : Nat) (wall fr : Nat) (t : State) : Prop := Answered s t 0x0301 q 0 (leOctets 1 n ++ leOctets 5 wall ++ leOctets 2 fr ++ leOctets 1 k) ∧
      t.led.cur.clock = { c with wall := wall, wallFraction := fr, cls := k } ∧ t.led.cur.class4Age = s.led.cur.class4Age
    let found := s.led.rides.find? (fun y => y.epoch = fieldNat q.payload 0 2 && y.number = fieldNat q.payload 2 3)
    let reads := (s.ringReads g x.page 256).filter (s.recordGood x.key 231)
    (go 0x0301 → 4 < k → no 0x0301 0x13 (.setTime q dt z)) ∧
    (go 0x0301 → k = 4 → s.per.gnss.pps = none → no 0x0301 0x26 (.setTime q 0 z)) ∧
    (go 0x0301 → k ≤ 3 → k < c.cls → shut → no 0x0301 0x27 (.setTime q 0 z)) ∧
    (go 0x0301 → k ≤ 3 → c.cls ≤ k → new ≤ old + 32768 → old ≤ new + 32768 → Does (.setTime q dt z) s (fun t => row 3 c.wall c.wallFraction t ∧ t.led.cur.hwm = hwm)) ∧
    (go 0x0301 → k ≤ 3 → c.cls ≤ k → old + 32768 < new → f < 32768 → idle w → Does (.setTime q dt z) s (fun t => row 4 w f t ∧ t.led.cur.hwm = max hwm w ∧
      t.led.cur.ride = s.led.cur.ride)) ∧
    (go 0x0301 → k ≤ 3 → c.cls ≤ k → new + 32768 < old → old ≤ new + 29491200 → f < 32768 → roomy → Does (.setTime q dt .done) s (fun t => row 6 w f t ∧
      t.led.cur.hwm = hwm ∧ t.led.cur.setback = none ∧ (∀ y ∈ t.led.cur.ride, y.flags.retrograde = true))) ∧
    (go 0x0301 → k < 3 → c.cls ≤ k → new + 29491200 < old → shut → no 0x0301 0x10 (.setTime q 0 z)) ∧
    (go 0x0302 → s.rideRefusal = some st → Does (.rideOpen q z) s (fun t => Answered s t 0x0302 q st [] ∧ kept t)) ∧
    (go 0x0302 → s.rideRefusal = none → roomy → Does (.rideOpen q .done) s (fun t => Answered s t 0x0302 q 0 (leOctets 3 s.led.nextRide ++ packWords (s.timeBlock 0).words) ∧
      t.led.nextRide = s.led.nextRide + 1 ∧ t.led.cur.ride.map (·.number) = some s.led.nextRide ∧ t.led.cur.ride.map (·.tariff) = some (s.edition .tariff) ∧
      t.led.cur.ride.map (·.opened) = some (s.timeBlock 0) ∧ t.led.rides = s.led.rides ∧ t.led.flashTail.map (·.ride.map (·.number)) = some (some s.led.nextRide))) ∧
    (go 0x0303 → s.led.cur.ride = none → no 0x0303 0x20 (.rideClose q z e)) ∧
    (go 0x0303 → s.led.cur.ride = some r → s.cus.probation = none → roomy → Does (.rideClose q .done e) s (fun t =>
      t.led.cur.ride = none ∧ t.led.rides.length = s.led.rides.length + 1 ∧ t.led.rides.getLast?.map (·.number) = some r.number ∧
      ∀ y ∈ t.led.rides.getLast?, Answered s t 0x0303 q 0 (packWords (t.ringWords y.page)))) ∧
    (go 0x0304 → s.led.cur.ride = none → no 0x0304 0x20 (.rideStatus q)) ∧
    (go 0x0304 → s.led.cur.ride = some r → Does (.rideStatus q) s (fun t => kept t ∧ Answered s t 0x0304 q 0
      (leOctets 3 r.number ++ leOctets 2 r.flags.word ++ leOctets 3 (s.rideSeconds r) ++ leOctets 3 (s.metres (s.ridePulses r)) ++
        packWords (decNat dsDigits r.energySum) ++ leOctets 1 (min 10 r.segments.length)))) ∧
    (go 0x0305 → found = none → no 0x0305 0x2A (.rideRead q g)) ∧
    (go 0x0305 → found = some x →
      (reads = some ws → Does (.rideRead q g) s (fun t => kept t ∧ Answered s t 0x0305 q 0 (packWords ws))) ∧
      (reads = none → Does (.rideRead q g) s (fun t => kept t ∧ Answered s t 0x0305 q 0x29 (packWords (s.ringWords x.page)))))

/-- PERIOD_READ, ACK, EPOCH, KEY_EXPORT, LEDGER_STATUS; CONCORD_STATUS, PRESENCE and RELAY (R387, R390, R395, R397, R398, R409, R452,
R453, R461, R933, 17_commands.md Table Cmd-7, 17_commands.md Table Cmd-8). For a request that its channel takes up, with no period due and
no write cut short: PERIOD_READ answers a sealed record as its page or else its journal copy reads, 0x28 where neither verifies, 0x2B for
one not sealed, 0x2A for one not held. ACK, with pages in the ring, marks the periods up to its index, and answers the highest
acknowledged. EPOCH with C2 and pages in the ring begins the next epoch: ride number and ledger time restart, the first period opens;
without C2 it is 0x10. KEY_EXPORT counts an export in Provisioned with C2 when the ephemeral point is signed, 0x12 when not, 0x11 in
another state. The two status commands change nothing. PRESENCE of a dock marks the vehicle to which it is admitted, 0x30 otherwise, or
withdraws it. RELAY of a whole record to a member waits for its result, and 0x30 answers for a node that is none; while one is in
progress, it stays accepted. -/
def Obligations.PeriodAndConcordCommands : Prop :=
  ∀ (s : State) (q : CmdReq) (x : PeriodRecord) (p : Part) (cfg : List Octet) (sk : Nat) (g : FlashFacts) (w : RingWrite) (ws : List Word),
    let c := s.led.cur.clock
    let ep := fieldNat q.payload 0 2
    let n := fieldNat q.payload 2 3
    let pr := s.cus.presence
    let c2 : Prop := pr.windowOpen = true ∧ pr.sources.service = true ∧ pr.jumperFitted = true
    let shut : Prop := pr.windowOpen = false ∧ pr.jumperFitted = false
    let roomy : Prop := 260 ≤ s.led.freePages
    let go (cmd : Nat) : Prop := s.accepts cmd q = true ∧ s.led.due = [] ∧ s.led.cur.period.all (fun o => decide (c.wall < o.stop)) = true ∧ s.cus.cut = none
    let kept (t : State) : Prop := t.led = { s.led with cur := { s.led.cur with hwm := max s.led.cur.hwm c.wall } } ∧ t.cus = s.cus ∧ t.con = s.con ∧ t.core = s.core
    let no (cmd sta : Nat) (i : Instr) : Prop := Does i s (fun t => Answered s t cmd q sta [] ∧ kept t)
    let find := s.led.periods.find? (fun y => y.epoch = ep && y.index = n)
    let reads := (s.ringReads g x.page 256).filter (s.recordGood x.key 116)
    let copy := (if s.jou.readable then s.journalPeriod x.epoch x.index else none).filter (s.recordGood x.key 116)
    let top := max n ((ackedOf s.led.acks ep).getD 0)
    let id := fieldNat q.payload 0 5
    let on := (octetAt q.payload 5).toNat
    let node := (octetAt q.payload 0).toNat
    let signed := ecPoint (q.payload.take 64) && ecdsaVerify cfg (sha256 (q.payload.take 64)) ((q.payload.drop 64).take 64)
    let life (l : Lifecycle) : Prop := s.boot.lifecycleReadable = true ∧ s.boot.lifecycle = l
    (go 0x0306 → s.led.unsealed ep n = true → no 0x0306 0x2B (.periodRead q g)) ∧
    (go 0x0306 → s.led.unsealed ep n = false → find = none → no 0x0306 0x2A (.periodRead q g)) ∧
    (go 0x0306 → s.led.unsealed ep n = false → find = some x →
      (reads = some ws → Does (.periodRead q g) s (fun t => kept t ∧ Answered s t 0x0306 q 0 (packWords ws))) ∧
      (reads = none → copy = some ws → Does (.periodRead q g) s (fun t => Answered s t 0x0306 q 0 (packWords ws) ∧ t.led.rides = s.led.rides ∧ t.core = s.core)) ∧
      (reads = none → copy = none → Does (.periodRead q g) s (fun t => Answered s t 0x0306 q 0x28 [] ∧ t.led.rides = s.led.rides ∧ t.core = s.core))) ∧
    (go 0x0307 → s.led.unsealed ep n = true → no 0x0307 0x2B (.ack q)) ∧
    (go 0x0307 → s.led.unsealed ep n = false → find = none → no 0x0307 0x2A (.ack q)) ∧
    (go 0x0307 → s.led.unsealed ep n = false → find = some x → roomy → Does (.ack q) s (fun t => Answered s t 0x0307 q 0 (leOctets 3 top) ∧
      ackedOf t.led.acks ep = some top ∧ t.led.rides = s.led.rides ∧ t.led.cur.ride = s.led.cur.ride ∧
      t.led.periods = s.led.periods.map (fun y => if y.epoch = ep && decide (y.index ≤ n) then { y with acked := true } else y))) ∧
    (go 0x0308 → shut → s.boot.lifecycleReadable = false ∨ s.boot.lifecycle ≠ .blank → no 0x0308 0x10 (.epoch q w)) ∧
    (go 0x0308 → c2 → s.led.cur.ride.isSome = true → no 0x0308 0x17 (.epoch q w)) ∧
    (go 0x0308 → c2 → s.led.cur.ride = none → (life .provisioned ∨ life .fielded) → s.led.epoch < 4095 → roomy → Does (.epoch q .done) s (fun t =>
      Answered s t 0x0308 q 0 (leOctets 2 (s.led.epoch + 1)) ∧ t.led.epoch = s.led.epoch + 1 ∧ t.led.nextRide = 1 ∧ t.led.eraExhausted = false ∧
      t.led.cur.clock = { c with era := 0, seconds := 0, fraction := 0 } ∧ t.led.cur.period.map (fun o => (o.index, o.start)) = some (1, c.wall) ∧ t.led.rides = s.led.rides)) ∧
    (go 0x0309 → (life .blank ∨ life .fielded ∨ life .returned) → no 0x0309 0x11 (.keyExport q)) ∧
    (go 0x0309 → life .provisioned → shut → no 0x0309 0x10 (.keyExport q)) ∧
    (go 0x0309 → life .provisioned → c2 → s.cus.keys.config = some cfg → s.cus.keys.sealing = some sk → Does (.keyExport q) s (fun t =>
      if signed then t.cus.keys = { s.cus.keys with exports := min 65535 (s.cus.keys.exports + 1) } else Answered s t 0x0309 q 0x12 [] ∧ kept t)) ∧
    (go 0x030A → Does (.ledgerStatus q) s (fun t => kept t ∧ ∀ o ∈ s.led.cur.period, s.boot.role = .vehicle → Answered s t 0x030A q 0
      (leOctets 1 c.era ++ leOctets 5 c.seconds ++ leOctets 2 c.fraction ++ leOctets 5 c.wall ++ leOctets 2 c.wallFraction ++ leOctets 1 c.cls ++
        leOctets 3 (min 0xFFFFFF s.led.cur.class4Age) ++ leOctets 5 (max s.led.cur.hwm c.wall) ++ leOctets 2 s.led.epoch ++ leOctets 3 o.index ++
        leOctets 5 o.start ++ leOctets 5 o.stop ++ leOctets 2 o.retroCount ++ leOctets 4 o.retroLargest ++ leOctets 4 o.retroTotal ++
        leOctets 2 s.led.freePages ++ leOctets 5 (BitVec.ofInt 36 s.led.cur.offset).toNat))) ∧
    (s.accepts 0x0401 q = true → Does (.concordStatus q) s (fun t => OnlyHost s t ∧ Answered s t 0x0401 q 0 s.concordPayload)) ∧
    (s.accepts 0x0402 q = true → on = 1 → s.con.phase = .member → s.con.vehicle.map (·.1) = some id →
      Does (.presence q) s (fun t => Answered s t 0x0402 q 0 [] ∧ t.con = { s.con with presenceFor := some id })) ∧
    (s.accepts 0x0402 q = true → on = 1 → (s.con.phase ≠ .member ∨ s.con.vehicle.map (·.1) ≠ some id) →
      Does (.presence q) s (fun t => Answered s t 0x0402 q 0x30 [] ∧ OnlyHost s t)) ∧
    (s.accepts 0x0402 q = true → on = 0 → Does (.presence q) s (fun t => Answered s t 0x0402 q 0 [] ∧
      t.con = { s.con with presenceFor := if s.con.presenceFor = some id then none else s.con.presenceFor })) ∧
    (s.accepts 0x0403 q = true → (domOfCode (octetAt q.payload 1).toNat).isSome = true → partAt q.payload 1 = some p → p.offset = 0 → p.last = true →
      p.chunk.length = p.total →
      (s.con.relay = none → (s.member node).isSome = true → Does (.relay q) s (fun t => Waits s t 0x0403 q ∧
        t.con.relay.map (fun y => (y.transport, y.node)) = some (q.transport, node) ∧ t.led = s.led)) ∧
      (s.con.relay = none → s.member node = none → Does (.relay q) s (fun t => Answered s t 0x0403 q 0x30 [] ∧ t.con = s.con)) ∧
      (s.con.relay.isSome = true → Does (.relay q) s (fun t => OnlyHost s t ∧ ((t.port q.transport).chans.get 0).phase = .executing ∧
        ((t.port q.transport).chans.get 0).begun = false)))

/-- Concord: announcing, joining step by step, leaving, silence, and the renewal of keys (R427, R428, R430, R431, R432, R433, R434, R435,
R438, R439, R440, R474). Each message comes as the frames that its sender forms. An idle member whose guard holds answers a vehicle's
ANNOUNCE with JOIN_REQ; a second vehicle within 3 s stops it. The vehicle announces each second. A JOIN_REQ is refused, challenged, or
queued behind the one served; a proof whose signature verifies admits the member at its node under the keys of R430 and raises the epoch,
another is refused. JOIN_CHAL that verifies is answered with the proof, another fails the join; a secured JOIN_RESULT makes the device a
member, a refusal backs it off; so do the time-outs. LEAVE and silence end one membership, with the epoch raised, or the member's own.
REKEY turns the generation to new keys and keeps the previous one; it starts by age, is abandoned, tried again, and the previous
generation ends. -/
def Obligations.ConcordSessions : Prop :=
  ∀ (s : State) (b : List Octet) (brs : Bool) (tie tr ctr node : Nat) (v : Serving) (o : JoinOwn) (m : Member) (y : Session) (other : Nat × Nat) (f : CanFrame),
    let c := s.con
    let now := s.ticks
    let a := announceOf b
    let j := joinRequestOf b
    let live : Prop := s.canLive = true
    let veh : Prop := live ∧ s.boot.role = .vehicle
    let set (x : Concord) : State := { s with con := { x with sent := [] } }
    let sent (t : State) : List (Nat × Nat) := t.con.sent.map (fun x => (x.type, x.dst))
    let still (t : State) : Prop := t.core = s.core ∧ t.mem = s.mem ∧ t.cus = s.cus
    let ids (t : State) : List (Nat × Nat) := t.con.members.map (fun x => (x.node, x.identity))
    let gone (n : Nat) : List (Nat × Nat) := (c.members.filter (fun x => x.node ≠ n)).map (fun x => (x.node, x.identity))
    let up : Nat := if 0xFFFE ≤ c.epoch then 0 else c.epoch + 1
    let plain (type src dst tie : Nat) : List CanFrame := plainFrames (concordId type src dst tie) brs tr b
    let joining : Prop := live ∧ s.boot.role ≠ .vehicle ∧ c.phase = .joining
    let member : Prop := live ∧ s.boot.role ≠ .vehicle ∧ c.phase = .member ∧ 1 ≤ c.node ∧ c.node ≤ 3 ∧ c.session = some y ∧ y.keys.length = 32 ∧ y.rx < ctr ∧ ctr < 0x100000000
    let admitted : Prop := veh ∧ 1 ≤ node ∧ node ≤ 3 ∧ s.member node = some m ∧ m.session.keys.length = 32 ∧ m.session.rx < ctr ∧ ctr < 0x100000000
    let toVehicle (type : Nat) : List CanFrame := securedFrames (concordId type node 0 tie) brs ((m.session.keys.drop 16).take 16) m.session.gen ctr b
    let toMember (type : Nat) : List CanFrame := securedFrames (concordId type 0 c.node tie) brs (y.keys.take 16) y.gen ctr b
    let cert := (b.drop 80).take 153
    let challenged : Bool := s.certAccepted cert && decide (octetAt cert 1 = 0) && s.datesHold cert &&
      ecdsaVerify (certKey cert) (sha256 (o.req ++ b.take 233)) ((b.drop 233).take 64)
    let challengeKeys := sessionKeys o.key ((b.drop 16).take 64) (b.take 16) o.nonce (certIdentity cert) Config.identity.toNat
    let j1 := v.request
    let proof : Bool := ecdsaVerify (certKey j1.cert) (sha256 (j1.body ++ v.chal)) b
    let proofKeys := sessionKeys v.key j1.ephemeral v.nonce j1.nonce Config.identity.toNat j1.identity
    let place : Nat := if j1.role = .dock then 3 else if c.members.any (fun x => x.node = 1) then 2 else 1
    let renewed (t : State) (x : Session) (k : List Octet) : Prop := (if s.boot.role = .vehicle then (t.member node).map (·.session) else t.con.session) =
      some { x with keys := k, gen := !x.gen, tx := 0, rx := 0, prevOk := true, prevKeys := x.keys, prevRx := ctr, madeAt := now, rekey := .none }
    let rekeyed (t : State) (r : RekeyPhase) : Prop := (t.member node).map (·.session.rekey) = some r
    (∀ i ∈ ([.announce (plain 1 0 7 tie), .twoVehiclesHeard (plain 1 0 7 tie)] : List Instr), live → b.length = 16 →
      (s.joinGuard = true → a.role = .vehicle → c.phase = .idle → c.heard = [] → Does i s (fun t => still t ∧ t.con.phase = .joining ∧
        t.con.vehicle = some (a.identity, a.nonce) ∧ sent t = [(2, 0)] ∧ t.con.joining.isSome = true ∧ t.con.heard = [(a.identity, now)] ∧ t.con.twoVehicles = false)) ∧
      (s.joinGuard = true → a.role = .vehicle → c.phase = .idle → c.heard = [other] → other.1 ≠ a.identity → now < other.2 + 98304 →
        Does i s (fun t => still t ∧ t.con.phase = .idle ∧ t.con.twoVehicles = true ∧ sent t = [])) ∧
      (a.role ≠ .vehicle → c.partials = [] → exec i s = .next (set { c with restricted := false }))) ∧
    (veh → exec .announceTimer s = .next { s with con := { c with transfer := (c.transfer + 1) % 256, sent := [⟨0x01, 7, s.announceBody,
      plainFrames (concordId 1 0 7 0) (!c.fallback) c.transfer s.announceBody⟩] } }) ∧
    (s.joinGuard = true → c.phase = .idle → c.twoVehicles = false → Does .announceTimer s (fun t => still t ∧ t.con.phase = .joining ∧ sent t = [(1, 7), (2, 0)])) ∧
    (veh → b.length = 237 → c.serving = none →
      (∀ n ∈ s.joinRefusal j, Does (.joinReq (plain 2 6 0 tie)) s (fun t => still t ∧ sent t = [(5, 6)] ∧ t.con.serving = none ∧ t.con.members = c.members)) ∧
      (s.joinRefusal j = none → Does (.joinReq (plain 2 6 0 tie)) s (fun t => still t ∧ sent t = [(3, 6)] ∧ t.con.serving.map (·.request) = some j ∧
        t.con.members = c.members))) ∧
    (veh → b.length = 237 → c.serving.isSome = true → c.joinQueue.length < 3 → c.partials = [] → exec (.joinReq (plain 2 6 0 tie)) s =
      .next (set { c with restricted := false, joinQueue := c.joinQueue ++ [j] })) ∧
    (veh → b.length = 64 → c.serving = some v → c.joinQueue = [] → s.joinRefusal j1 = none →
      Does (.joinProof (plain 4 6 0 tie)) s (fun t => still t ∧ t.con.serving = none ∧
        (∀ k, proofKeys = some k → proof = true → ids t = c.members.map (fun x => (x.node, x.identity)) ++ [(place, j1.identity)] ∧ t.con.epoch = up ∧
          (t.con.members.getLast?).map (fun x => (x.session.keys, x.session.gen, x.session.rx)) = some (k, false, 0)) ∧
        (proof = false ∨ proofKeys = none → t.con.members = c.members ∧ t.con.epoch = c.epoch ∧ sent t = [(5, 6)]))) ∧
    (veh → b.length = 64 → c.serving = none → c.joinQueue = [] → c.partials = [] →
      exec (.joinProof (plain 4 6 0 tie)) s = .next (set { c with restricted := false })) ∧
    (joining → b.length = 297 → c.joining = some o → c.proved = false →
      Does (.joinChal (plain 3 0 6 ownTie)) s (fun t => still t ∧
        (∀ k, challengeKeys = some k → challenged = true → t.con.phase = .joining ∧ t.con.proved = true ∧ t.con.session = some (Session.fresh k now) ∧
          t.con.vehicle.map (·.1) = some (certIdentity cert) ∧ sent t = [(4, 0)]) ∧
        (challenged = false ∨ challengeKeys = none → t.con.phase = .backoff ∧ t.con.failures = c.failures + 1 ∧ t.con.session = none ∧ sent t = []))) ∧
    (joining → b.length = 6 →
      (octetAt b 0 ≠ 0 → fieldNat b 1 5 = Config.identity.toNat → (∀ x ∈ c.session, x.gen = false) →
        Does (.joinResult (plain 5 0 6 ownTie)) s (fun t => still t ∧ t.con.phase = .backoff ∧ t.con.session = none)) ∧
      (octetAt b 0 = 0 → c.proved = true → c.session = some y → y.keys.length = 32 → y.rx < ctr → ctr < 0x100000000 →
        Does (.joinResult (securedFrames (concordId 5 0 6 ownTie) brs (y.keys.take 16) y.gen ctr b)) s (fun t => still t ∧ t.con.phase = .member ∧
          t.con.node = (octetAt b 1).toNat ∧ t.con.bay = (octetAt b 2).toNat ∧ t.con.limited = decide ((octetAt b 3).toNat = 1) ∧ t.con.epoch = fieldNat b 4 2 ∧
          t.con.failures = 0))) ∧
    (joining → c.proved = true → c.session = some y → inPlan f = true → concordType f = 5 → concordSrc f = 0 → concordDst f = 6 → concordTie f = ownTie → 12 < f.data.length →
      (∀ k ∈ y.rxKey false (securedFragment f.data).gen, macVerifies k f = false → exec (.joinResult [f]) s =
        .next (set { c with restricted := false, macFailures := min 65535 (c.macFailures + 1) }))) ∧
    (c.phase = .joining → exec .joinTimeout s = .next (set { c with phase := .backoff, failures := c.failures + 1, joining := none, proved := false, session := none })) ∧
    (c.phase = .backoff → exec .backoffExpiry s = .next (set { c with phase := .idle })) ∧
    (c.joinQueue = [] → exec .proofTimeout s = .next (set { c with serving := none })) ∧
    (admitted → b = [] → Does (.leave (toVehicle 6)) s (fun t => still t ∧ ids t = gone node ∧ t.con.epoch = up)) ∧
    (member → b = [] → Does (.leave (toMember 6)) s (fun t => still t ∧ t.con.phase = .idle ∧ t.con.session = none ∧ t.led = s.led)) ∧
    (veh → s.member node = some m → Does (.memberSilenceTimeout node) s (fun t => still t ∧ ids t = gone node ∧ t.con.epoch = up)) ∧
    (s.boot.role ≠ .vehicle → c.phase = .member → Does .vehicleSilenceTimeout s (fun t => still t ∧ t.con.phase = .idle ∧ t.con.session = none)) ∧
    (admitted → b.length = 80 → ∀ q ∈ (match m.session.rekey with | .waiting n k => some (n, k) | _ => none),
      Does (.rekey (toVehicle 7)) s (fun t => still t ∧ sent t = [] ∧ ids t = c.members.map (fun x => (x.node, x.identity)) ∧
        ∀ k ∈ sessionKeys q.2 (b.drop 16) (nonceOctets q.1) (b.take 16) Config.identity.toNat m.identity, renewed t m.session k)) ∧
    (member → b.length = 80 → y.tx < 0xFFFFFFFE →
      Does (.rekey (toMember 7)) s (fun t => still t ∧
        ∀ k ∈ sessionKeys (s.free + 1) (b.drop 16) (b.take 16) (nonceOctets s.free) ((c.vehicle.map (·.1)).getD 0) Config.identity.toNat,
          sent t = [(7, 0)] ∧ renewed t y k)) ∧
    (veh → s.member node = some m → 1 ≤ node →
      (m.session.tx < 0xFFFFFFFE → m.session.rekey = .none → m.session.aged now = true → Does (.keyAgeRekey node) s (fun t => still t ∧ sent t = [(7, node)] ∧
        rekeyed t (.waiting s.free (s.free + 1)))) ∧
      (m.session.tx < 0xFFFFFFFE → m.session.rekey = .retry → Does (.rekeyRetry node) s (fun t => still t ∧ sent t = [(7, node)] ∧ rekeyed t (.waiting s.free (s.free + 1)))) ∧
      ((∃ q ∈ (match m.session.rekey with | .waiting n k => some (n, k) | _ => none), 0 ≤ q.1) → Does (.rekeyTimeout node) s (fun t => still t ∧ sent t = [] ∧ rekeyed t .retry)) ∧
      Does (.prevGenerationExpiry node) s (fun t => still t ∧ (t.member node).map (·.session) = some { m.session with prevOk := false })) ∧
    (c.session = some y → exec (.prevGenerationExpiry 0) s = .next (set { c with session := some { y with prevOk := false } }))

/-- Concord: heartbeats, rosters, reports, time and configuration offers, dock and charge data, and relays (R373, R435, R436, R441, R445,
R446, R448, R450, R453, R457, R460, R463). A message in the frames that its sender forms, under the keys of the session and with a counter
above the highest, is taken, and raises that counter. At the vehicle: HEARTBEAT updates the member's tier and flags, and ends a member
below T3; ENERGY_REPORT with a newer number replaces the pack's report; CONFIG_OFFER records the member's edition and values and sets the
merge; DOCK_STATE from node 3 is kept; RELAY_RESULT answers the relay command, its time-out answers 0x32. At a member: HEARTBEAT with its
epoch clears the misses, a second wrong one asks for the roster; ROSTER sets epoch and entries; CONFIG_MERGED sets the values; REPORT_REQ
is answered by a pack; a dock keeps CHARGE_REPORT; STAGE_RELAY stages the record and is answered. A TIME_OFFER of a lower class changes
nothing, a winning later one steps the wall clock, a winning earlier one leaves an offset. The timers send to every peer. -/
def Obligations.ConcordMessages : Prop :=
  ∀ (s : State) (b : List Octet) (brs : Bool) (tie ctr node dt : Nat) (m : Member) (y : Session) (on fault : Bool) (dm : EdDomain),
    let c := s.con
    let k := s.led.cur.clock
    let live : Prop := s.canLive = true
    let sent (t : State) : List (Nat × Nat) := t.con.sent.map (fun x => (x.type, x.dst))
    let still (t : State) : Prop := t.core = s.core ∧ t.mem = s.mem
    let member : Prop := live ∧ s.boot.role ≠ .vehicle ∧ c.phase = .member ∧ 1 ≤ c.node ∧ c.node ≤ 3 ∧ c.session = some y ∧ y.keys.length = 32 ∧ y.rx < ctr ∧ ctr < 0x100000000
    let admitted : Prop := live ∧ s.boot.role = .vehicle ∧ 1 ≤ node ∧ node ≤ 3 ∧ s.member node = some m ∧ m.session.keys.length = 32 ∧ m.session.rx < ctr ∧ ctr < 0x100000000
    let toVehicle (type : Nat) : List CanFrame := securedFrames (concordId type node 0 tie) brs ((m.session.keys.drop 16).take 16) m.session.gen ctr b
    let toMember (type : Nat) : List CanFrame := securedFrames (concordId type 0 c.node tie) brs (y.keys.take 16) y.gen ctr b
    let peers : List Nat := if s.boot.role = .vehicle then c.members.map (·.node) else [0]
    let peered : Prop := live ∧ (s.boot.role = .vehicle ∨ c.phase = .member ∧ c.session.isSome = true) ∧
      (∀ x ∈ c.members, x.session.tx + c.members.length < 0xFFFFFFFE) ∧ (∀ x ∈ c.session, x.tx + 1 < 0xFFFFFFFE)
    let heard (t : State) : Prop := t.con.session.map (·.rx) = some ctr ∧ still t
    let at_ (t : State) : Option Member := t.member node
    let epoch := fieldNat b 0 2
    let tier := (octetAt b 2).toNat
    let flags := octetAt b 4
    let level := (octetAt b 3).toNat
    let r := reportOf b
    let offered := fieldNat b 0 5 * 32768 + fieldNat b 5 2 + dt * 32768 / 96000000
    let own := k.wall * 32768 + k.wallFraction
    let cls := (octetAt b 7).toNat
    let wins : Prop := k.cls < cls ∧ Role.ofCode (octetAt b 8).toNat = .vehicle ∧ s.led.cur.period = none ∧ s.led.due = []
    let ws := octetsToWords b
    (admitted → b.length = 5 → 3 ≤ tier → epoch ≠ 0xFFFF → Does (.heartbeat (toVehicle 8)) s (fun t => still t ∧ sent t = [] ∧
      (at_ t).map (fun x => (x.tier, x.holdUpReady, x.presence, x.session.rx)) = some (tier, flags.getLsbD 0, flags.getLsbD 1, ctr))) ∧
    (admitted → b.length = 5 → tier < 3 → Does (.heartbeat (toVehicle 8)) s (fun t => still t ∧ (t.con.members.map (·.identity)) =
      (c.members.filter (fun x => x.node ≠ node)).map (·.identity))) ∧
    (admitted → b.length = 5 → 3 ≤ tier → epoch = 0xFFFF → m.session.tx < 0xFFFFFFFE → Does (.heartbeat (toVehicle 8)) s (fun t => still t ∧ sent t = [(9, node)])) ∧
    (member → b.length = 5 → epoch = c.epoch → Does (.heartbeat (toMember 8)) s (fun t => heard t ∧ t.con.epochMisses = 0 ∧ t.con.vehicleTier = tier ∧
      t.con.vehicleLevel = level ∧ sent t = [])) ∧
    (member → b.length = 5 → epoch ≠ c.epoch → c.epochMisses = 0 → Does (.heartbeat (toMember 8)) s (fun t => heard t ∧ t.con.epochMisses = 1 ∧ sent t = [])) ∧
    (member → b.length = 5 → epoch ≠ c.epoch → 1 ≤ c.epochMisses → y.tx < 0xFFFFFFFE → Does (.heartbeat (toMember 8)) s (fun t => heard t ∧ t.con.epochMisses = 0 ∧
      t.con.sent.map (fun x => (x.type, x.dst, fieldNat x.body 0 2)) = [(8, 0, 0xFFFF)])) ∧
    (peered → Does .heartbeatTimer s (fun t => still t ∧ sent t = peers.map (fun p => (0x08, p)))) ∧
    (member → b.length % 9 = 2 → b.length ≤ 3262 → Does (.roster (toMember 9)) s (fun t => heard t ∧ t.con.epoch = epoch ∧ t.con.roster = rosterOf 6 (b.drop 2))) ∧
    (admitted → node ≤ 2 → b.length = 29 → m.role = .pack → (∀ q ∈ m.report, q.number < r.number) →
      Does (.energyReport (toVehicle 0x0A)) s (fun t => still t ∧ (at_ t).map (·.report) = some (some r))) ∧
    (admitted → node ≤ 2 → b.length = 29 → (∃ q ∈ m.report, r.number ≤ q.number) →
      Does (.energyReport (toVehicle 0x0A)) s (fun t => still t ∧ (at_ t).map (·.report) = some m.report ∧ t.led = s.led)) ∧
    (live → s.boot.role = .pack → c.phase = .member → c.session = some y → y.tx < 0xFFFFFFFE → Does .energyReportTimer s (fun t => still t ∧ sent t = [(0x0A, 0)] ∧
      t.con.pack.reportNumber = (c.pack.reportNumber + 1) % 0x1000000)) ∧
    (member → c.node ≤ 2 → b = [] → s.boot.role = .pack → y.tx < 0xFFFFFFFE → Does (.reportReq (toMember 0x0B)) s (fun t => heard t ∧ sent t = [(0x0A, 0)])) ∧
    (member → b.length = 9 → cls < k.cls → Does (.timeOffer (toMember 0x0C) dt) s (fun t => heard t ∧ t.led = s.led)) ∧
    (member → b.length = 9 → 96000000 < dt → Does (.timeOffer (toMember 0x0C) dt) s (fun t => heard t ∧ t.led = s.led)) ∧
    (member → b.length = 9 → dt ≤ 96000000 → wins → own + 32768 < offered → Does (.timeOffer (toMember 0x0C) dt) s (fun t => heard t ∧
      t.led.cur.clock = { k with wall := offered / 32768, wallFraction := offered % 32768, cls := cls } ∧ t.led.cur.offset = 0)) ∧
    (member → b.length = 9 → dt ≤ 96000000 → wins → offered + 32768 < own → Does (.timeOffer (toMember 0x0C) dt) s (fun t => heard t ∧
      t.led.cur.clock = k ∧ t.led.cur.offset = -(((own - offered) / 32768 : Nat) : Int))) ∧
    (peered → Does .timeOfferTimer s (fun t => still t ∧ sent t = peers.map (fun p => (0x0C, p)) ∧ t.led = s.led)) ∧
    (peered → c.offerQueued = true → Does .offerWithdraw s (fun t => still t ∧ sent t = peers.map (fun p => (0x0C, p)))) ∧
    (c.offerQueued = false → exec .offerWithdraw s = .next { s with con := { c with sent := [] } }) ∧
    (admitted → b.length = 18 → Does (.configOffer (toVehicle 0x0D)) s (fun t => still t ∧
      (at_ t).map (fun x => (x.fleetEdition, x.params)) = some (some epoch, some (clampParams (paramsAt b 2))) ∧
      (s.led.cur.ride = none → t.con.merged = t.mergeTarget ∧ t.con.loosening = none))) ∧
    (member → b.length = 16 → Does (.configMerged (toMember 0x0E)) s (fun t => heard t ∧ t.con.merged = paramsAt b 0)) ∧
    (admitted → node = 3 → b.length = 5 → Does (.dockState (toVehicle 0x0F)) s (fun t => still t ∧
      t.con.dock = some ⟨(octetAt b 0).getLsbD 0, (octetAt b 0).getLsbD 1, (octetAt b 0).getLsbD 2, fieldNat b 1 2, fieldNat b 3 2⟩)) ∧
    (live → s.boot.role = .dock → c.phase = .member → c.session = some y → y.tx < 0xFFFFFFFE → Does (.dockStateTimer on fault) s (fun t => still t ∧
      t.con.sent.map (fun x => (x.type, x.dst, x.body)) = [(0x0F, 0, [BitVec.ofNat 8 (c.presenceFor.isSome.toNat + 2 * on.toNat + 4 * fault.toNat)] ++
        leOctets 2 (s.veh 96) ++ leOctets 2 (s.editionNumber .fleet))])) ∧
    (member → c.node = 3 → b.length % 31 = 0 → b.length ≤ 3262 → Does (.chargeReport (toMember 0x10)) s (fun t => heard t ∧
      t.con.chargeReports = chargesOf 2 b ∧ t.con.chargeReportAt = some s.ticks)) ∧
    (member → packedLengthOk b.length = true → b.length ≤ 3262 → y.tx < 0xFFFFFFFE → s.cus.cut = none →
      (domOfCode (wN ws 2) = some dm → Does (.stageRelay (toMember 0x11) .done) s (fun t => heard t ∧ t.cus = (s.stage dm ws .done).1.cus ∧
        t.con.sent.map (fun x => (x.type, x.dst, x.body)) = [(0x12, 0, [BitVec.ofNat 8 (s.stage dm ws .done).2])])) ∧
      (domOfCode (wN ws 2) = none → Does (.stageRelay (toMember 0x11) .done) s (fun t => heard t ∧ t.cus = s.cus ∧
        t.con.sent.map (fun x => (x.type, x.dst, x.body)) = [(0x12, 0, [0x1A])]))) ∧
    (admitted → b.length = 1 → ∀ x ∈ c.relay, x.node = node → ∀ w ∈ s.waiter 0x0403, Does (.relayResult (toVehicle 0x12)) s (fun t => still t ∧ t.con.relay = none ∧
      (t.port w.1).responses.length = (s.port w.1).responses.length + 1 ∧
      (t.port w.1).responses.getLast?.map (fun f => (f.cmd, f.stat, f.payload)) = some (0x0403, 0, [octetAt b 0]))) ∧
    (∀ x ∈ c.relay, ∀ w ∈ s.waiter 0x0403, Does .relayTimeout s (fun t => still t ∧ t.con.relay = none ∧
      (t.port w.1).responses.getLast?.map (fun f => (f.cmd, f.stat, f.payload)) = some (0x0403, 0x32, [])))

/-- CAN-A's ignored frames, discarded messages, fallback, bus-off and restricted operation; the pack's samples (R415, R416, R419, R423,
R443, R444, R447, R477, R478, R637). A frame outside the plan, one of an unlisted type or between wrong nodes, and a message whose next
fragment is missing each count once, up to 65 535; a frame heard ends restricted operation. An error count that reaches 96 clears the bit-
rate switch; its end, with both counts below, enters restricted operation, which the 50 ms end. A transmit count above 255 is bus-off:
counted, with an event; the recovery begins and ends with clear counts in restricted operation; CAN-B's is its own. A good sample of the
pack adds |P| times the interval to the counter of P's sign, its remainder kept, and clears the failures; a failed one counts, and at word
69 the front end has failed; both counters stay. The persisted counters follow, with room for the tail, at 0.50 Wh of change and at the
row's timer. -/
def Obligations.BusErrorsAndPackSamples : Prop :=
  ∀ (s : State) (te re dt n : Nat) (f : CanFrame) (rsp : List (List Octet)) (u i : Int),
    let c := s.con
    let set (x : Concord) : State := { s with con := x }
    let v := s.edition .vehicle
    let cells := (v.getD 65 0).toNat
    let x := readSample (decide ((v.getD 64 0).toNat / 8 % 2 = 1)) (descriptors v) rsp
    let p := c.pack
    let runs : Prop := s.boot.role = .pack ∧ s.pow.pm = .running
    let cur : Int := if (v.getD 67 0).toNat = 1 then -i else i
    let good : Prop := x.ok = true ∧ x.packVoltage cells = some u ∧ x.current = some i
    let bad : Prop := x.ok = false ∨ x.packVoltage cells = none ∨ x.current = none
    let sum (a r : Nat) : Nat := a * 345600000000000000000 + r
    let out (t : State) : Prop := t.core = s.core ∧ t.mem = s.mem ∧ t.boot = s.boot
    let power := u * cur
    let due (q : Pack) : Prop := p.savedDischarge + 50 ≤ q.discharge ∨ p.savedCharge + 50 ≤ q.charge
    let live : Prop := s.canLive = true
    let agrees : Bool := nodesAgree (concordType f) (concordSrc f) (concordDst f)
    let gap : Bool := c.partials.any (fun x => x.sender = n)
    let room : Prop := 260 ≤ s.led.freePages ∧ s.cus.cut = none
    (gap = true → exec (.fragmentTimeout n) s = .next (set { c with discarded := min 65535 (c.discarded + 1), partials := c.partials.filter (fun x => x.sender ≠ n) })) ∧
    (gap = false → exec (.fragmentTimeout n) s = .next s) ∧
    (live → inPlan f = false → exec (.canAFrameIgnored f) s = .next (set { c with ignored := min 65535 (c.ignored + 1), restricted := false })) ∧
    (¬live ∨ inPlan f = true → exec (.canAFrameIgnored f) s = .next s) ∧
    (live → inPlan f = true → agrees = false → exec (.concordUnknownType f) s = .next (set { c with discarded := min 65535 (c.discarded + 1), restricted := false })) ∧
    (¬live ∨ inPlan f = false ∨ agrees = true → exec (.concordUnknownType f) s = .next s) ∧
    (te < 256 → exec (.canABusError te re) s = .next (set { c with txErrors := te, rxErrors := min 255 re, fallback := c.fallback || decide (96 ≤ te ∨ 96 ≤ re) })) ∧
    (256 ≤ te → c.busOff = true → exec (.canABusError te re) s = .next (set { c with txErrors := 255, rxErrors := min 255 re, fallback := true })) ∧
    (256 ≤ te → c.busOff = false → Does (.canABusError te re) s (fun t => out t ∧ t.con.busOff = true ∧ t.con.busOffs = min 65535 (c.busOffs + 1) ∧
      t.con.busOffTimes.head? = some s.ticks ∧ t.con.members = c.members ∧ t.con.phase = c.phase)) ∧
    exec .busOffRecovery s = .next (if c.busOff = true then set { c with recovering := true } else s) ∧
    (c.busOff = true → c.recovering = true → exec (.busOffRecoveryDone false) s =
      .next (set { c with busOff := false, recovering := false, txErrors := 0, rxErrors := 0, restricted := true })) ∧
    (c.busOff = false ∨ c.recovering = false → exec (.busOffRecoveryDone false) s = .next s) ∧
    (s.per.canb.state = 2 → s.per.canb.mode = 1 → exec (.busOffRecoveryDone true) s = .next { s with per := { s.per with canb := { s.per.canb with state := 0, tec := 0, recv := 0 } } }) ∧
    (c.fallback = true → c.txErrors < 96 → c.rxErrors < 96 → exec .rateFallbackEnd s = .next (set { c with fallback := false, restricted := true })) ∧
    (c.fallback = false ∨ 96 ≤ c.txErrors ∨ 96 ≤ c.rxErrors → exec .rateFallbackEnd s = .next s) ∧
    exec .restrictedModeTimeout s = .next (set { c with restricted := false }) ∧
    (runs → good → Does (.afeSample rsp dt) s (fun t => out t ∧ t.con.pack.failed = 0 ∧ t.con.pack.afeFailed = false ∧ t.con.pack.voltage = (u / 1000).toNat ∧
      t.con.pack.current = cur.tdiv 1000 ∧
      sum t.con.pack.discharge t.con.pack.dischargeRem = sum p.discharge p.dischargeRem + (if 0 < power then power.natAbs * dt else 0) ∧
      sum t.con.pack.charge t.con.pack.chargeRem = sum p.charge p.chargeRem + (if 0 < power then 0 else power.natAbs * dt) ∧
      (room → due t.con.pack → t.con.pack.savedDischarge = t.con.pack.discharge ∧ t.con.pack.savedCharge = t.con.pack.charge ∧ t.led.flashTail = some t.storedTail) ∧
      (¬due t.con.pack → t.con.pack.savedDischarge = p.savedDischarge ∧ t.con.pack.savedCharge = p.savedCharge ∧ t.led = s.led))) ∧
    (runs → bad → p.savedDischarge + 50 > p.discharge → p.savedCharge + 50 > p.charge → exec (.afeSample rsp dt) s = .next (set { c with pack := { p with
      failed := p.failed + 1, afeFailed := p.afeFailed || decide ((v.getD 69 0).toNat ≤ p.failed + 1) } })) ∧
    (¬runs → exec (.afeSample rsp dt) s = .next s) ∧
    (room → s.boot.role = .pack → Does .packCounterPersist s (fun t => out t ∧ t.con = { c with pack := { p with savedDischarge := p.discharge, savedCharge := p.charge } } ∧
      t.led.flashTail = some t.storedTail ∧ t.led.rides = s.led.rides)) ∧
    (s.boot.role ≠ .pack → exec .packCounterPersist s = .next s)

/-- PWM words, events and control, the supervisor at the valley, and the ADC's triggers, conversions and FIFO (R487, R488, R489, R490,
R491, R492, R494, R495, R498, R500, R502, R503). Word 0 waits in its latch; word 1 moves both into the shadow, unless PER lies outside 1
250 to 10 000, which sets BADWR. An update event copies the shadow unless HOLD, takes the written limits, and hands back the pads of a
cleared latch; the valley makes one, ends the chop and judges the inhibits, the peak makes one with UPD. RUN rising makes one; RUN 0
stands the counter at 0. The ADC trigger and SWTRG start a sequence by TRG and are lost with MISS while one runs. A conversion pair stores
its results and a FIFO entry, OVF when 32 are held; channel 3 above the limit chops once a period. FIFOT pops the head into the
requester's latches. CNT0 latches its high bits, CHOPS is cleared by reading. -/
def Obligations.PwmTimerAndAdc : Prop :=
  ∀ (s : State) (i : Fin 5) (v ca cb : Word) (dt : Nat) (r : Requester) (cnt : BitVec 14) (pk : Bool) (e : AdcEntry) (rest : List AdcEntry) (n last : Nat) (sq : Vector (BitVec 10) 8),
    let p := s.mot.pwm
    let a := s.mot.adc
    let pwm (q : Pwm) : State := { s with mot := { s.mot with pwm := q } }
    let adc (q : Adc) : State := { s with mot := { s.mot with adc := q } }
    let low : Word := (p.staged.get i).getD ((p.shadow.value i).setWidth 12)
    let x : BitVec 14 := v.setWidth 2 ++ low
    let bad : Prop := i = 0 ∧ (x.toNat < 1250 ∨ 10000 < x.toNat)
    let ctl : Pwm := { p with run := v.getLsbD 0, hold := v.getLsbD 1, upd := v.getLsbD 2 }
    let updated (t : State) : Prop := t.mot.pwm.active = (if p.hold then p.active else p.shadow) ∧ t.mot.pwm.limi = p.nextLimi ∧
      t.mot.pwm.limw = p.nextLimw ∧ t.mot.pwm.shadow = p.shadow ∧ (s.mot.tsl.handback = true → s.mot.tsl.latch = false → t.mot.tsl.pads = .pwm)
    let first : Adc := { a with running := some (0, a.last.toNat, a.seq), trigger := a.trigger + 1 }
    let en : BitVec 10 := if h : n < 8 then sq.get ⟨n, h⟩ else 0
    let va := a.en0 && en.getLsbD 8
    let vb := a.en1 && en.getLsbD 9
    let tag : Word := BitVec.ofNat 12 (n + 8 * va.toNat + 16 * vb.toNat + 32 * a.trigger.toNat)
    let beyond (on : Bool) (ch : Nat) (code : Word) : Bool := on && decide (ch = 3) && decide (p.limi.toNat < code.toNat)
    let place : Bool := [!p.dir, p.dir, true, p.dir == p.active.trg.getLsbD 3 && decide (p.active.trgc.toNat ≤ p.active.per.toNat)].getD (p.active.trg.toNat % 4) true
    let hit := beyond va (en.toNat % 16) ca || beyond vb (en.toNat / 16 % 16) cb
    let mclk : Prop := s.domainRuns .mclk = true
    let pw : Prop := s.portServes 0x300 = true
    let ad : Prop := s.portServes 0x400 = true
    (pw → exec (.pwmWord0Write i v) s = .next (pwm { p with staged := p.staged.set i (some v) })) ∧
    (pw → bad → exec (.pwmWord1Write i v) s = .next (pwm { p with badWr := true, staged := p.staged.set i none })) ∧
    (pw → ¬bad → exec (.pwmWord1Write i v) s = .next (pwm { p with shadow := p.shadow.setValue i x, staged := p.staged.set i none, updPend := true })) ∧
    (¬pw → ∀ x ∈ [exec (.pwmWord0Write i v) s, exec (.pwmWord1Write i v) s, exec (.pwmCtlWrite v) s], x = .next s) ∧
    (¬ad → ∀ x ∈ [exec (.adcCtlWrite v) s, exec (.adcSwtrgWrite v) s], x = .next s) ∧
    (p.run = false ∨ ¬mclk → exec (.pwmUpdateEvent pk dt) s = .next (s.tickTs dt)) ∧
    (p.run = true → mclk → Does (.pwmUpdateEvent false dt) s (fun t => updated t ∧ t.mot.pwm.cnt = 0 ∧ t.mot.pwm.chop = false ∧ t.mot.pwm.sampled = false ∧
      t.mot.pwm.noRideInhibit = s.led.cur.ride.isNone ∧ t.mot.adc = a ∧ t.mem = s.mem)) ∧
    (p.run = true → mclk → Does (.pwmUpdateEvent true dt) s (fun t => t.mot.pwm.cnt = p.active.per ∧ t.mot.pwm.dir = true ∧ t.mot.pwm.chop = p.chop ∧ t.mem = s.mem ∧
      (p.upd = true → updated t) ∧ (p.upd = false → t.mot.pwm.active = p.active ∧ t.core = s.core))) ∧
    (pw → v.getLsbD 0 = false → exec (.pwmCtlWrite v) s = .next (pwm { ctl with cnt := 0, dir := false })) ∧
    (pw → v.getLsbD 0 = true → p.run = true → exec (.pwmCtlWrite v) s = .next (pwm ctl)) ∧
    (pw → v.getLsbD 0 = true → p.run = false → Does (.pwmCtlWrite v) s (fun t => t.mot.pwm.run = true ∧ t.mot.pwm.cnt = 0 ∧ t.mot.pwm.limi = p.nextLimi ∧
      t.mot.pwm.active = (if v.getLsbD 1 then p.active else p.shadow) ∧ t.mem = s.mem)) ∧
    (p.run = true → mclk → s.domainRuns .aclk = true → p.active.trg.getLsbD 2 = true → place = true → a.trg = 1 →
      exec .pwmAdcTrigger s = .next (adc (if a.running.isSome then { a with miss := true } else first))) ∧
    (p.run = false ∨ a.trg ≠ 1 ∨ place = false ∨ ¬mclk → exec .pwmAdcTrigger s = .next s) ∧
    (ad → v.getLsbD 0 = true → a.trg = 2 → exec (.adcSwtrgWrite v) s = .next (adc (if a.running.isSome then { a with miss := true } else first))) ∧
    (v.getLsbD 0 = false ∨ a.trg ≠ 2 → exec (.adcSwtrgWrite v) s = .next s) ∧
    (ad → 16 ≤ v.toNat % 32 → exec (.adcCtlWrite v) s = .next (adc { a with badWr := true })) ∧
    (ad → v.toNat % 32 < 12 → Does (.adcCtlWrite v) s (fun t => t.mot.adc = { a with en0 := v.getLsbD 0, en1 := v.getLsbD 1, trg := (v >>> 2).setWidth 3, last := (v >>> 5).setWidth 3, dmaEn := v.getLsbD 8 } ∧ t.core = s.core)) ∧
    (s.blockLive 4 0 = false → exec (.adcEntryComplete ca cb) s = .next s) ∧
    (s.blockLive 4 0 = true → a.running = some (n, last, sq) → n < last → Does (.adcEntryComplete ca cb) s (fun t => t.mot.adc.running = some (n + 1, last, sq) ∧
      (a.fifo.length < 32 → a.dmaEn = false → t.mot.adc.fifo = a.fifo ++ [⟨tag, if va then ca else 0, if vb then cb else 0⟩] ∧ t.mot.adc.ovf = a.ovf) ∧
      (32 ≤ a.fifo.length → a.dmaEn = false → t.mot.adc.fifo = a.fifo ∧ t.mot.adc.ovf = true) ∧
      (hit = true → p.chop = false → t.mot.pwm.chop = true ∧ t.mot.pwm.chops = min 4095 (p.chops + 1)) ∧
      (hit = false ∨ p.chop = true → t.mot.pwm.chop = p.chop ∧ t.mot.pwm.chops = p.chops))) ∧
    (s.reaches r 0x403 → a.fifo = e :: rest → exec (.adcFifotRead r) s = .next (adc { a with fifo := rest, latch := a.latch.set r.slot (e.a, e.b) })) ∧
    (s.reaches r 0x403 → a.fifo = [] → exec (.adcFifotRead r) s = .next (adc { a with latch := a.latch.set r.slot (0, 0) })) ∧
    (s.reaches r 0x30F → p.run = true → cnt.toNat ≤ p.active.per.toNat → exec (.pwmCnt0Read r cnt) s = .next (pwm { p with cnt := cnt, cntLatch := p.cntLatch.set r.slot ((cnt >>> 12).setWidth 2) })) ∧
    (s.reaches r 0x315 → exec (.pwmChopsRead r) s = .next (pwm { p with chops := 0 })) ∧
    (¬s.reaches r 0x403 → Does (.adcFifotRead r) s (fun t => TurnedAway s t r 0x403)) ∧
    (¬s.reaches r 0x30F → Does (.pwmCnt0Read r cnt) s (fun t => TurnedAway s t r 0x30F)) ∧
    (¬s.reaches r 0x315 → Does (.pwmChopsRead r) s (fun t => TurnedAway s t r 0x315))

/-- Edges and reads of the capture inputs; Teasel's sources, latch, clear requests, trips and timers (R505, R506, R507, R508, R510, R513,
R514, R516, R517, R518, R520, R532). A rising WHA edge counts a pulse, times it and takes WHB as direction; hall edges time the sector and
count errors; a read of a low word latches the high one; EV0 pops the FIFO; HERR is cleared by reading. A source that becomes active and
is enabled sets the latch with its cause bit, counts a trip and restarts the re-arm interval; four in 10 s lock; a disabled one only
shows. The latch's pads are all-off below T2 or with low-side-on not chosen. A clear succeeds only with no active source, re-arm and lock
over, T2 or more and healthy supplies, with the reason in RES otherwise; a software trip sets the latch with bit 5, a wrong key changes
RES alone. The timers end re-arm, lock, dead time and dwell; loss of MCLK sets the latch with bit 8. -/
def Obligations.CaptureAndTeasel : Prop :=
  ∀ (s : State) (r : Requester) (dt : Nat) (w : Bool) (hc : BitVec 3) (ev : CapEvent) (rest : List CapEvent) (n : Fin 4) (i : Fin 4) (e : StoreEnv),
    let c := s.mot.tcap
    let z := s.mot.tsl
    let k := r.slot
    let cap (q : Tcap) : State := { s with mot := { s.mot with tcap := q } }
    let tsl (q : Teasel) : State := { s with mot := { s.mot with tsl := q } }
    let s1 := s.tickTs dt
    let stamp (flt : Word) : BitVec 36 := s1.clk.now - flt.setWidth 36
    let diff := hallDiff c.hall hc
    let errs := (decide (hc = 0 ∨ hc = 7)).toNat + (decide (1 < diff.length)).toNat
    let src : Fin 5 := ⟨n.val, by omega⟩
    let rose (x : Fin 5) (t : State) : Prop := t.mot.tsl.act = z.act ||| (1#5 <<< x.val) ∧ t.mot.tsl.latch = true ∧
      t.mot.tsl.cause.getLsbD x.val = true ∧ t.mot.tsl.armWait = true ∧ t.mot.tsl.trips = min 4095 (z.trips + 1) ∧
      (z.latch = true → t.mot.tsl.pads = z.pads) ∧ (z.latch = false → s.boot.tier.toNat < 2 → t.mot.tsl.pads = .allOff) ∧ t.mem = s.mem
    let shows (x : Fin 5) : State := tsl { z with act := z.act ||| (1#5 <<< x.val) }
    let off (x : Nat) : State := tsl { z with act := z.act &&& ~~~(1#5 <<< x) }
    let healthy : Prop := 2 ≤ s.boot.tier.toNat ∧ s.supplyLow = false ∧ s.mot.mclk = true ∧ s.pow.teaselRail = true
    let edges : Prop := s.blockLive 5 3 = true
    let takes : Prop := s.reaches (.core i) 0x602
    let ts : Prop := s.portServes 0x602 = true
    (edges → c.wha = false → Does (.filteredEdge dt (.wha true)) s (fun t => t.mot.tcap.wcnt = c.wcnt + 1 ∧ t.mot.tcap.lastWha = some (stamp c.wflt) ∧
      t.mot.tcap.dir = c.whb ∧ t.mot.tcap.wper = (match c.lastWha with | none => 0xFFFFFF | some l => min 0xFFFFFF (stamp c.wflt - l).toNat) ∧ t.core = s.core)) ∧
    (edges → c.wha = w → Does (.filteredEdge dt (.wha w)) s (fun t => t.mot.tcap.wcnt = c.wcnt ∧ t.mot.tcap.fifo = c.fifo)) ∧
    (edges → Does (.filteredEdge dt (.whb w)) s (fun t => t.mot.tcap = { c with whb := w })) ∧
    (¬edges → exec (.filteredEdge dt (.wha w)) s = .next s1) ∧
    (edges → hc ≠ c.hall → Does (.filteredEdge dt (.hall hc)) s (fun t => t.mot.tcap.hall = hc ∧ t.mot.tcap.lastHall = some (stamp c.hflt) ∧
      t.mot.tcap.herr = min 4095 (c.herr + errs) ∧ t.mot.tcap.seqErr = (c.seqErr || decide (0 < errs)) ∧ t.mot.tcap.wcnt = c.wcnt ∧ t.core = s.core)) ∧
    (s.reaches r 0x500 → exec (.tcapNow0Read r dt) s = .next { s1 with clk := { s1.clk with nowLatch := s.clk.nowLatch.set k ((s1.clk.now >>> 12).setWidth 24) } }) ∧
    (s.reaches r 0x507 → exec (.tcapWcnt0Read r) s = .next (cap { c with wcntLatch := c.wcntLatch.set k ((c.wcnt >>> 12).setWidth 12) })) ∧
    (s.reaches r 0x509 → Does (.tcapWper0Read r dt) s (fun t => t.mot.tcap = { c with wperLatch := c.wperLatch.set k (BitVec.ofNat 12 (s1.wper / 4096)) } ∧ t.core = s.core)) ∧
    (s.reaches r 0x50B → Does (.tcapHper0Read r dt) s (fun t => t.mot.tcap = { c with hperLatch := c.hperLatch.set k (BitVec.ofNat 12 (s1.hper / 4096)) } ∧ t.core = s.core)) ∧
    (s.reaches r 0x506 → exec (.tcapHerrRead r) s = .next (cap { c with herr := 0 })) ∧
    (s.reaches r 0x50E → c.fifo = ev :: rest → exec (.tcapEv0Read r) s = .next (cap { c with fifo := rest, evLatch := c.evLatch.set k ev.stamp })) ∧
    (s.reaches r 0x50E → c.fifo = [] → exec (.tcapEv0Read r) s = .next s) ∧
    (∀ x ∈ ([(.tcapNow0Read r dt, 0x500), (.tcapWcnt0Read r, 0x507), (.tcapWper0Read r dt, 0x509), (.tcapHper0Read r dt, 0x50B), (.tcapHerrRead r, 0x506), (.tcapEv0Read r, 0x50E)] : List (Instr × Nat)),
      ¬s.reaches r x.2 → Does x.1 s (fun t => TurnedAway s t r x.2)) ∧
    (z.act.getLsbD n.val = false → z.cfg.enabled src = true → s.cus.probation = none → s.cus.cut = none → Does (.comparatorActive n e) s (rose src)) ∧
    (z.act.getLsbD n.val = false → z.cfg.enabled src = false → s.cus.cut = none → exec (.comparatorActive n e) s = .next (shows src)) ∧
    (z.act.getLsbD n.val = true → s.cus.cut = none → exec (.comparatorActive n e) s = .next s) ∧
    exec (.comparatorInactive n) s = .next (off n.val) ∧
    (z.act.getLsbD 4 = false → z.cfg.enabled 4 = true → s.cus.probation = none → s.cus.cut = none → Does (.faultNActive e) s (rose 4)) ∧
    (z.act.getLsbD 4 = false → z.cfg.enabled 4 = false → s.cus.cut = none → exec (.faultNActive e) s = .next (shows 4)) ∧
    exec .faultNRelease s = .next (off 4) ∧
    (takes → z.sourceActive = true → exec (.tslClrClear i) s = .next (tsl { z with res := 2 })) ∧
    (takes → z.sourceActive = false → z.armWait = true → exec (.tslClrClear i) s = .next (tsl { z with res := 3 })) ∧
    (takes → z.sourceActive = false → z.armWait = false → z.lock = true → exec (.tslClrClear i) s = .next (tsl { z with res := 4 })) ∧
    (takes → z.sourceActive = false → z.armWait = false → z.lock = false → ¬healthy → exec (.tslClrClear i) s = .next (tsl { z with res := 5 })) ∧
    (takes → z.sourceActive = false → z.armWait = false → z.lock = false → healthy → z.latch = true → Does (.tslClrClear i) s (fun t =>
      t.mot.tsl = { z with res := 1, latch := false, cause := 0, handback := true } ∧ t.core = s.core ∧ t.mem = s.mem)) ∧
    (¬takes → Does (.tslClrClear i) s (fun t => TurnedAway s t (.core i) 0x602)) ∧
    (ts → Does .tslSoftwareTrip s (fun t => t.mot.tsl.res = 6 ∧ t.mot.tsl.latch = true ∧ t.mot.tsl.cause.getLsbD 5 = true ∧ t.mot.tsl.trips = z.trips ∧ t.mem = s.mem)) ∧
    (ts → exec .tslBadKey s = .next (tsl { z with res := 7 })) ∧
    (¬ts → ∀ x ∈ [exec .tslSoftwareTrip s, exec .tslBadKey s], x = .next s) ∧
    exec .rearmExpiry s = .next (tsl { z with armWait := false }) ∧
    exec .lockExpiry s = .next (tsl { z with lock := false }) ∧
    (z.pads = .lowSideDead → exec .lowSideDeadTime s = .next (tsl { z with pads := .lowSideOn })) ∧
    (z.pads ≠ .lowSideDead → exec .lowSideDeadTime s = .next s) ∧
    (z.pads = .lowSideOn → exec .dwellExpiry s = .next (tsl { z with pads := .allOff })) ∧
    (z.pads = .pwm ∨ z.pads = .allOff → exec .dwellExpiry s = .next s) ∧
    Does .mclkLoss s (fun t => t.mot.mclk = false ∧ t.mot.tsl.latch = true ∧ t.mot.tsl.cause.getLsbD 8 = true ∧ t.mem = s.mem)

/-- Celandine: the time base, keys, the display, the seal loops, shocks, and the registers that reads clear (R542, R543, R549, R551, R553,
R554, R560, R561, R564, R565, R569, R572). An edge advances both counters, or takes a staged value whole; without VIN_AO nothing of
Celandine moves. With the scanner on, a column's fall starts scanning; a key whose reading persists for DB scans is accepted, enters the
FIFO with its scan number, and one held past the limit is released and ignored. A frame start takes a committed buffer, and shows nothing
while the display is off. A loop's bin is confirmed by the second equal measurement; a change from intact records the opening and starts
the service period. CEL_SEALn takes EXP and EN unless EXP is 0 or 15; EN low forgets the bin. Shocks saturate at 255 and wake after the
hold. CEL_WAKE, SOPEN and SHK are cleared by reading, KEY pops, KDOWN0, LT0 and WT0 latch. -/
def Obligations.CelandineEvents : Prop :=
  ∀ (s : State) (e : StartEnv) (kr : Vector KeyReading 16) (n : Fin 16) (r : Requester) (j : Fin 2) (b : BitVec 4) (v : Word) (i : Fin 7) (i6 : Fin 6) (sec era : Nat) (w : Bool),
    let c := s.cel
    let k := s.led.cur.clock
    let lit : Prop := s.dark = false
    let cel (x : Celandine) : State := { s with cel := x }
    let l := c.seals.get j
    let key := c.keys.get n
    let carry := decide (32767 ≤ k.fraction)
    let up (a f : Nat) : Nat × Nat := if 32767 ≤ f then ((a + 1) % 0x10000000000, 0) else (a, f + 1)
    let loop (x : SealLoop) : State := cel { c with seals := c.seals.set j x }
    let exp : BitVec 4 := (v >>> 6).setWidth 4
    let still (t : State) : Prop := t.core = s.core ∧ t.mem = s.mem ∧ t.boot = s.boot
    let scanning : Prop := c.keyEn = true ∧ s.boot.role ≠ .pack ∧ (c.scanning = true ∨ c.wet = true)
    let one : Prop := kr.get n = .down ∧ ∀ x : Fin 16, x ≠ n → kr.get x = .up
    let seen := if key.reading = true then min 7 (key.agree + 1) else 1
    (lit → c.ltPending = false → c.wtPending = false → Does .timeBaseEdge s (fun t => still t ∧
      ((t.led.cur.clock.seconds, t.led.cur.clock.fraction) = up k.seconds k.fraction) ∧ ((t.led.cur.clock.wall, t.led.cur.clock.wallFraction) = up k.wall k.wallFraction) ∧
      t.led.cur.clock.era = k.era ∧ t.led.cur.clock.cls = k.cls ∧ t.led.cur.hwm = max s.led.cur.hwm t.led.cur.clock.wall ∧
      t.cus = s.cus ∧
      t.cel.onLfo = (if carry && c.backToLfx then false else c.onLfo))) ∧
    (lit → c.ltPending = true → Does .timeBaseEdge s (fun t => still t ∧ t.cel.ltPending = false ∧ t.led.cur.clock.seconds = stagedSeconds c.ltStage.toList ∧
      t.led.cur.clock.fraction = stagedFraction c.ltStage.toList)) ∧
    (lit → c.wtPending = true → Does .timeBaseEdge s (fun t => still t ∧ t.cel.wtPending = false ∧ t.led.cur.clock.wall = stagedSeconds c.wtStage.toList ∧
      t.led.cur.clock.wallFraction = stagedFraction c.wtStage.toList)) ∧
    (lit → c.keyEn = true → s.boot.role ≠ .pack → c.wet = false → exec .keyColumnFall s = .next (cel { c with scanning := true, quietScans := 0 })) ∧
    (c.keyEn = false ∨ s.boot.role = .pack ∨ c.wet = true → exec .keyColumnFall s = .next s) ∧
    (s.pow.pm = .running → lit → scanning → c.wet = false → one → key.ignored = false → key.down = false → c.keyFifo.length < 8 → c.kwake.getLsbD n.val = false →
      (∀ x : Fin 16, x ≠ n → (c.keys.get x).down = false ∧ (c.keys.get x).ignored = false) →
      Does (.keyScan kr e) s (fun t => still t ∧ (t.cel.keys.get n).down = decide (c.db.toNat ≤ seen) ∧ t.cel.scanNumber = c.scanNumber + 1 ∧
        t.cel.keyFifo = if c.db.toNat ≤ seen then c.keyFifo ++ [BitVec.ofNat 12 (n.val + 16 + 32 * (c.scanNumber + 1).toNat)] else c.keyFifo)) ∧
    (c.keyEn = false ∨ (c.scanning = false ∧ c.wet = false) → exec (.keyScan kr e) s = .next s) ∧
    (lit → key.down = true → key.ignored = false → c.keyFifo.length < 8 → Does (.keyHoldLimit n) s (fun t => still t ∧ t.cel.stuck = true ∧
      (t.cel.keys.get n).down = false ∧ (t.cel.keys.get n).ignored = true ∧ t.cel.keyFifo = c.keyFifo ++ [BitVec.ofNat 12 (n.val + 32 * c.scanNumber.toNat)])) ∧
    (key.down = false → exec (.keyHoldLimit n) s = .next s) ∧
    (s.reaches r 0x702 → exec (.celKeyRead r) s = .next (cel { c with keyFifo := c.keyFifo.drop 1 })) ∧
    (s.reaches r 0x703 → Does (.celKdown0Read r) s (fun t => t = cel { c with kdownLatch := t.cel.kdownLatch } ∧ ∀ q : Fin 4,
      ((t.cel.kdownLatch.get r.slot).getLsbD q.val) = (c.keys.get ⟨q.val + 12, by omega⟩).down)) ∧
    (¬s.reaches r 0x702 → Does (.celKeyRead r) s (fun t => TurnedAway s t r 0x702)) ∧
    (¬s.reaches r 0x703 → Does (.celKdown0Read r) s (fun t => TurnedAway s t r 0x703)) ∧
    (¬lit → ∀ x ∈ [exec .timeBaseEdge s, exec .keyColumnFall s, exec (.keyScan kr e) s, exec (.keyHoldLimit n) s, exec .lcdFrameStart s, exec (.sealMeasure j b e) s,
      exec (.shockDetect e) s], x = .next s) ∧
    exec .lcdCommit s = .next (cel { c with lcdPend := true }) ∧
    (lit → Does .lcdFrameStart s (fun t => { t with cel := c } = s ∧ t.cel.lcdPend = false ∧ t.cel.lcdSource = (if c.lcdPend then c.lcdW else c.lcdSource) ∧
      (c.lcdEn = false ∨ c.pump = false → t.cel.shown = Vector.replicate 12 0) ∧
      (c.lcdEn = true → c.pump = true → s.showsWorking 7 = true → (∀ x ∈ c.seals.toList, x.state = .intact) → s.pow.aoLow = false →
        t.cel.shown = Vector.ofFn (fun q : Fin 12 => t.cel.lcdSource.get q ||| c.lcdF.get q)))) ∧
    (l.en = false → exec (.sealMeasure j b e) s = .next s) ∧
    (lit → l.en = true → l.confirmed = true → b = l.bin → exec (.sealMeasure j b e) s = .next (loop { l with candidate := none })) ∧
    (lit → l.en = true → (l.confirmed = false ∨ b ≠ l.bin) → l.candidate.map (·.1) ≠ some b → exec (.sealMeasure j b e) s =
      .next (loop { l with candidate := some (b, k.seconds, k.era) })) ∧
    (s.pow.pm = .running → lit → l.en = true → l.state = .intact → b ≠ l.exp → (l.confirmed = false ∨ b ≠ l.bin) → l.candidate = some (b, sec, era) →
      Does (.sealMeasure j b e) s (fun t => still t ∧ (t.cel.seals.get j).bin = b ∧ (t.cel.seals.get j).state = sealKind b l.exp ∧ (t.cel.seals.get j).confirmed = true ∧
        t.cel.openSeconds = sec ∧ t.cel.openEra = era ∧ t.cus.presence.servicePeriod = true ∧ t.cel.wake.getLsbD 1 = true)) ∧
    (exp = 0 ∨ exp = 15 → exec (.celSealWrite j v) s = .next s) ∧
    (exp ≠ 0 → exp ≠ 15 → v.getLsbD 10 = false → exec (.celSealWrite j v) s = .next (loop { l with exp := exp, en := false, bin := 15, state := .intact, candidate := none, confirmed := false })) ∧
    (exp ≠ 0 → exp ≠ 15 → v.getLsbD 10 = true → l.en = false → exec (.celSealWrite j v) s = .next (loop { l with exp := exp, en := true, bin := 15, state := .intact, candidate := none, confirmed := false })) ∧
    (s.pow.pm = .running → lit → c.shockWakeAt = none → Does (.shockDetect e) s (fun t => still t ∧ t.cel.shocks = min 255 (c.shocks + 1) ∧ t.cel.shockWakeAt = some s.ticks ∧
      t.cel.wake.getLsbD 2 = true)) ∧
    (lit → ∀ a ∈ c.shockWakeAt, s.ticks < a + c.shkHold * 32768 → exec (.shockDetect e) s = .next (cel { c with shocks := min 255 (c.shocks + 1) })) ∧
    exec .celWakeRead s = .next (cel { c with wake := 0 }) ∧
    Does .celSopenRead s (fun t => { t with cel := c } = s ∧ t.cel.sopen = 0 ∧ (c.sopen ≠ 0 → t.cel.sopenCopy = c.sopen)) ∧
    exec .celShkRead s = .next (cel { c with shocks := 0, shocksCopy := min 65535 (c.shocksCopy + c.shocks) }) ∧
    exec (.celTimeWrite false i v) s = .next (cel { c with ltStage := c.ltStage.set i v, ltPending := c.ltPending || decide (i = 6) }) ∧
    exec (.celTimeWrite true ⟨i6.val, by omega⟩ v) s = .next (cel { c with wtStage := c.wtStage.set i6 v, wtPending := c.wtPending || decide (i6 = 5) }) ∧
    Does (.celTimeRead w) s (fun t => { t with cel := c } = s ∧ (w = false → (t.cel.ltLatch.get 4).toList = leWords 2 k.fraction ++ leWords 4 k.seconds ++ [BitVec.ofNat 12 k.era]) ∧
      (w = true → (t.cel.wtLatch.get 4).toList = leWords 2 k.wallFraction ++ leWords 4 k.wall))

/-- The test access port: scan instructions, status, halting, stepping and reading cores, memory, reset and trace (R979, R980, R981, R982,
R983, R984, R985, R986, 18_electrical.md Table Elec-22). With the TAP enabled and VCORE on: EXTEST and SAMPLE/PRELOAD capture the balls
and load the cells, EXTEST and CLAMP drive them, HIGHZ floats the outputs, IDCODE captures 0x21224B67, CLAMP, HIGHZ and BYPASS capture 0;
DBGSTAT captures lifecycle, debug and the halted and running cores. With debug available: CORECTL halts a running core that has drained at
its next bundle and one in WAIT at once, resumes a halted one, and steps one bundle. COREREG writes and reads w, k, acc and PC of a halted
core, else its status is 0. MEMADDR sets the address; MEMDATA reads and writes tiles, scratch of a halted core and reads flash, reports
what it cannot reach, and advances. JRESET makes a warm reset. TRACECTL sets rate and cores. Without debug each acts as BYPASS; with the
TAP off nothing changes. -/
def Obligations.TestAccessPort : Prop :=
  ∀ (s : State) (i : Fin 4) (n : Fin 32) (kk : Fin 4) (v a : Pair) (v12 : Word) (e : StartEnv) (cells : List Bool) (up : Option (List Bool)) (w inc : Bool) (ec : BitVec 2) (sel : BitVec 7) (line : List Word),
    let d := s.dbg
    let c := s.core.get i
    let on : Prop := s.boot.jtagen = true ∧ s.pow.vcoreOn = true
    let open_ : Prop := on ∧ (s.lifecycle ≠ .fielded ∨ s.boot.debugUnlocked = true)
    let one : BitVec 4 := 1#4 <<< i.val
    let is (x : TapInstr) : Debug := { d with instr := x, driving := x = .extest || x = .clamp, highz := x = .highz }
    let ends (x : Instr) (y : Debug) : Prop := exec x s = .next { s with dbg := y }
    let bits (f : RunState → Bool) : Nat := (List.finRange 4).foldr (fun j m => (f (s.core.get j).run).toNat + 2 * m) 0
    let halted := bits (fun r => r = .halted)
    let running := bits (fun r => r = .running || r = .waiting)
    let ctl : Debug := { is .corectl with capture := BitVec.ofNat 35 (halted + 16 * running) }
    let done := d.traceRate = 0 ∧ c.granted 3 = false
    let reg : Debug := { is .corereg with capture := BitVec.ofNat 35 (d.regValue.toNat + 2 ^ 34 * d.regOk.toNat), regOk := true }
    let at_ := d.memAddr.toNat
    let next (y : Debug) : Debug := if d.autoInc = true then { y with memAddr := d.memAddr + 2 } else y
    let tile : Prop := at_ % 2 = 0 ∧ 0x110000 ≤ at_ ∧ at_ + 2 ≤ 0x200000 ∧ s.tileFailed at_ = false
    let m := s.core.get d.memCore
    let pc := c.pc.toNat
    (on → ends (.tapExtest cells up) { is .extest with sampled := cells, cells := up.getD d.cells } ∧
      ends (.tapSamplePreload cells up) { is .samplePreload with sampled := cells, cells := up.getD d.cells } ∧
      ends .tapIdcode { is .idcode with capture := 0x21224B67 } ∧ ends .tapClamp { is .clamp with capture := 0 } ∧
      ends .tapHighz { is .highz with capture := 0 } ∧ ends .tapBypass { is .bypass with capture := 0 } ∧
      ends .dbgstat { is .dbgstat with capture := BitVec.ofNat 35 (s.lifecycle.code + 4 * (decide (s.lifecycle ≠ .fielded ∨ s.boot.debugUnlocked = true)).toNat + 16 * halted + 256 * running) }) ∧
    (¬on → exec (.tapExtest cells up) s = .next s ∧ exec .tapIdcode s = .next s ∧ exec .dbgstat s = .next s ∧ exec (.coreHalt one) s = .next s ∧ exec (.memdataWrite w v) s = .next s) ∧
    (on → ¬open_ → ends (.coreHalt one) { is .bypass with capture := 0 } ∧ ends (.coreResume one) { is .bypass with capture := 0 } ∧ ends (.jreset e) { is .bypass with capture := 0 } ∧
      ends (.memdataWrite w v) { is .bypass with capture := 0 } ∧ ends (.coreregAccess i sel w v) { is .bypass with capture := 0 }) ∧
    (open_ → done → c.run = .running → c.window = [] → c.preTrap = none → c.gather = [] → Does (.coreHalt one) s (fun t => (t.core.get i).run = .halted ∧ (t.core.get i).pc = c.pc ∧
      (t.core.get i).w = c.w ∧ (∀ j : Fin 4, j ≠ i → t.core.get j = s.core.get j) ∧ t.dbg = { ctl with wasWaiting := d.wasWaiting.set i false })) ∧
    (open_ → done → c.run = .waiting → Does (.coreHalt one) s (fun t => t.core = s.core.set i { c with run := .halted } ∧ t.dbg = { ctl with wasWaiting := d.wasWaiting.set i true })) ∧
    (open_ → done → c.run = .halted → Does (.coreResume one) s (fun t => t.core = s.core.set i { c with run := if d.wasWaiting.get i = true then .waiting else .running } ∧
      t.dbg = { ctl with wasWaiting := d.wasWaiting.set i false })) ∧
    (open_ → d.traceRate = 0 → Ready (s.setCore i { c with run := .running }) i → c.run = .halted → d.wasWaiting.get i = false → s.tileFailed pc = false →
      s.mem.icache.get i = [(pc / 32, line)] → line.getD (pc % 32 + 1) 0 ++ line.getD (pc % 32) 0 = encodeSyl (.ai .ldi n v12) true →
      exec (.coreSingleStep one AccessEnv.quiet) s = .next ({ s with dbg := ctl }.setCore i { c.stepped with w := c.w.set n v12 })) ∧
    (open_ → c.run ≠ .halted → ends (.coreSingleStep one AccessEnv.quiet) ctl) ∧
    (open_ → c.run = .halted →
      exec (.coreregAccess i (BitVec.ofNat 7 n.val) true v) s = .next ({ s with dbg := reg }.setCore i { c with w := c.w.set n (loWord v) }) ∧
      ends (.coreregAccess i (BitVec.ofNat 7 n.val) false v) { reg with regValue := (c.w.get n).setWidth 24 } ∧
      ends (.coreregAccess i (BitVec.ofNat 7 (32 + kk.val)) false v) { reg with regValue := c.k.get kk } ∧
      exec (.coreregAccess i 38 true v) s = .next ({ s with dbg := reg }.setCore i { c with pc := v }) ∧
      ends (.coreregAccess i 36 false v) { reg with regValue := c.acc.setWidth 24 }) ∧
    (open_ → c.run ≠ .halted ∨ 54 ≤ sel.toNat → ends (.coreregAccess i sel w v) { reg with regOk := false }) ∧
    (open_ → ends (.memaddrUpdate a i inc) { is .memaddr with memAddr := a, memCore := i, autoInc := inc }) ∧
    (open_ → tile → (s.mem.homeOf (at_ / 16)).err = false → ends (.memdataCapture ec)
      { is .memdata with capture := BitVec.ofNat 35 (((s.cohRead at_ 2).getD 1 0 ++ (s.cohRead at_ 2).getD 0 0).toNat + 2 ^ 25 * d.memErr.toNat), memErr := false }) ∧
    (open_ → at_ % 2 = 1 ∨ (0x4000 ≤ at_ ∧ at_ < 0x110000) ∨ (0x200000 ≤ at_ ∧ at_ < 0x800000) →
      ends (.memdataCapture ec) { is .memdata with capture := BitVec.ofNat 35 (2 ^ 25), memErr := false } ∧ ends (.memdataWrite true v) (next { is .memdata with memErr := true })) ∧
    (open_ → tile → Does (.memdataWrite true v) s (fun t => t.mem = (s.cohWrite at_ [loWord v, hiWord v]).mem ∧ t.dbg = next (is .memdata) ∧ t.core = s.core)) ∧
    (open_ → at_ % 2 = 0 → at_ < 0x4000 → m.run = .halted → exec (.memdataWrite true v) s =
      .next ({ s with dbg := next (is .memdata) }.setCore d.memCore { m with scratch := memSetList 0 at_ [loWord v, hiWord v] m.scratch })) ∧
    (open_ → ends (.memdataWrite false v) (next (is .memdata))) ∧
    (open_ → s.pow.pm = .running → s.boot.testen = false → s.boot.alternateFirst = false → e.testen = false → e.failed = [] → e.romOk = true → s.setBoots e s.preferredSet = true →
      Does (.jreset e) s (fun t => t.pow.pm = .running ∧ t.boot.phase = .beacon ∧ t.boot.tier = .t1 ∧ t.boot.role = s.boot.role ∧ ∀ j : Fin 4, (t.core.get j).run = .stopped)) ∧
    (open_ → v12.toNat % 4 = 0 → ends (.tracectlUpdate v12) { is .tracectl with traceRate := 0, traceEn := (v12 >>> 2).setWidth 4 })

/-- A step executes the command at the front of the queue on the state with the rest of the queue; with an empty queue the block idles
(95_what_each_step_holds.md, 18_electrical.md Table Elec-23). For every command and state: with the command at the front of the queue,
step is exec of it on the state with the queue's rest. With an empty queue step answers a next state in which only the debug part and the
trace FIFOs may differ (log 3, the model's choice), and with trace off the state itself. No word of the table spells a command, so
withFetchWord changes nothing. -/
def Obligations.StepRunsTheFrontCommand : Prop :=
  ∀ (s : State) (c : Instr) (l : List Instr) (nbits w : Nat),
    step { s with pending := c :: l } = exec c { s with pending := l } ∧
    (s.pending = [] → ∃ t, step s = .next t ∧ { t with core := s.core, dbg := s.dbg } = s ∧
      (∀ i : Fin 4, { t.core.get i with trace := (s.core.get i).trace } = s.core.get i) ∧ (s.dbg.traceRate = 0 → t = s)) ∧
    s.withFetchWord nbits w = s ∧ decodeTableWord nbits w = none

/-- The state after reset holds the values that the register tables give for reset (R538, R820, 02_fabric_and_domains.md Table Fabric-3,
04_startup_and_tiers.md Table Start-9, 09_motor_teasel.md Table Motor-1, 09_motor_teasel.md Table Motor-5, 09_motor_teasel.md Table
Motor-8, 10_celandine.md Table Cel-4, 10_celandine.md Table Cel-5, 11_jieles_model.md Table Jieles-17, 13_decimal_ct.md Table Decimal-2,
15_eflash.md Table Flash-11). PMU_OPREQ has EN 0 and VCODE 50, CUR is 50, BAND 1; PMU_WDT is 0; PWM_PER and the compares are 5 000, DT
160, OUT 0x015, LIMI 0xFFF, LIMW 0, SUP 0x020; ADC_ is 0; HFLT 0x060, WFLT 0x300, the periods 0xFFFFFF; the Teasel latch is set with cause
0x080, its pads all-off, re-arm running; Celandine's KCTL, LCDCON, seals, SHKHOLD, PWLEN and KWAKE hold their resets and the counters 0;
FL, CTL, GRT_IEN, GRT_DBSRC and the decimal contexts are 0; the bit timing of CAN-B, GNSS RATE 1, GPIO pulls all 1 and PWM period
0x027100; TAP 15, ECTH 2, no command in the flash or the queue; DMA_ and I2C_ are 0. Memory and cells list nothing but canonical entries.
-/
def Obligations.ResetState : Prop :=
  let s := State.reset
  (∀ i : Fin 4, s.clk.opreq.get i = ⟨false, 50⟩ ∧ s.clk.badReq.get i = false ∧ s.boot.wdt.get i = ⟨0, false, 0⟩ ∧ (s.core.get i).fl = 0 ∧ (s.core.get i).ctl = 0 ∧
    (s.core.get i).ien = 0 ∧ (s.core.get i).dbsrc = 0 ∧ (s.core.get i).dec = ⟨0, 0, 0, 0, false⟩ ∧ s.host.pend.get i = 0) ∧
  s.clk.target = 50 ∧ s.clk.settled = false ∧ s.clk.temp = 0 ∧ s.clk.alarm = false ∧ s.clk.band = 1 ∧ s.clk.now = 0 ∧
  (let p := s.mot.pwm
   p.upd = false ∧ p.hold = false ∧ p.run = false ∧ p.shadow = ⟨5000, Vector.replicate 3 5000, 160, 0x015, 0, 0⟩ ∧ p.dir = false ∧ p.updPend = false ∧ p.badWr = false ∧ p.cnt = 0 ∧
     p.limi = 0xFFF ∧ p.limw = 0 ∧ p.sup = 0x020 ∧ p.chops = 0) ∧
  (let a := s.mot.adc
   a.en0 = false ∧ a.en1 = false ∧ a.trg = 0 ∧ a.last = 0 ∧ a.dmaEn = false ∧ a.fifo = [] ∧ a.ovf = false ∧ a.miss = false ∧ a.badWr = false ∧ a.thr = 0 ∧
     a.seq = Vector.replicate 8 0 ∧ a.res = Vector.replicate 16 0) ∧
  (let c := s.mot.tcap
   c.hflt = 0x060 ∧ c.wflt = 0x300 ∧ c.seqErr = false ∧ c.mism = false ∧ c.ovf = false ∧ c.herr = 0 ∧ c.wcnt = 0 ∧ c.wper = 0xFFFFFF ∧ c.hper = 0xFFFFFF ∧ c.fifo = [] ∧ c.ecfg = 0) ∧
  (let t := s.mot.tsl
   t.latch = true ∧ t.pads = .allOff ∧ t.lock = false ∧ t.armWait = true ∧ t.cause = 0x080 ∧ t.res = 0 ∧ t.trips = 0) ∧
  (let c := s.cel
   c.keyEn = true ∧ c.db = 3 ∧ c.keyFifo = [] ∧ c.wet = false ∧ c.keyOvf = false ∧ c.stuck = false ∧ c.lcdEn = false ∧ c.frm = 1 ∧ c.lcdPend = false ∧ c.vc = 8 ∧
     c.lcdW = Vector.replicate 12 0 ∧ c.lcdI = Vector.replicate 12 0 ∧ c.lcdF = Vector.replicate 12 0 ∧ c.wake = 0 ∧ c.sopen = 0 ∧ c.shocks = 0 ∧ c.shkHold = 30 ∧ c.pwLen = 120 ∧
     c.inds = 0 ∧ c.indb = 0 ∧ c.kwake = 0xFFFF ∧ ∀ n : Fin 2, (c.seals.get n).bin = 15 ∧ (c.seals.get n).state = .intact ∧ (c.seals.get n).exp = 0 ∧ (c.seals.get n).en = false) ∧
  s.led.cur.clock = ⟨0, 0, 0, 0, 0, 0⟩ ∧ s.cus.cut = none ∧ s.cus.presence.windowOpen = false ∧ s.cus.presence.windowLeft = 0 ∧
  (let c := s.per.canb
   c.mode = 0 ∧ c.fden = false ∧ c.npre = 1 ∧ c.ntseg1 = 62 ∧ c.ntseg2 = 15 ∧ c.nsjw = 15 ∧ c.dpre = 0 ∧ c.dtseg1 = 28 ∧ c.dtseg2 = 9 ∧ c.dsjw = 9 ∧ c.tdco = 30 ∧
     c.tx = Vector.replicate 3 none ∧ c.rx = [] ∧ c.tec = 0 ∧ c.recv = 0 ∧ c.state = 0 ∧ c.lec = 0) ∧
  s.per.i2c = ⟨0, false, 0, false, 0, [], [], false, false, 0, false, 0, false, false⟩ ∧ s.per.sspi = ⟨0, 0, false, false, 0, [], [], false, false, false, false, []⟩ ∧
  s.per.gnss.rate = 1 ∧ s.per.gnss.en = false ∧ s.per.gpio.dir = 0 ∧ s.per.gpio.out = 0 ∧ s.per.gpio.pull = BitVec.allOnes 40 ∧ s.per.gpio.per = 0x027100 ∧ s.per.gpio.pwmEn = 0 ∧
  (∀ n : Fin 32, let d := s.per.dma.get n; d.src = 0 ∧ d.dst = 0 ∧ d.cnt = 0 ∧ d.busy = false ∧ d.done = false ∧ d.err = 0 ∧ d.rem = 0) ∧
  s.fl.tap = 15 ∧ s.fl.ecth = 2 ∧ (∀ r : Fin 5, (s.fown r).asm = .none ∧ (s.fown r).res = 0 ∧ s.fl.queued r = false ∧ (s.fown r).ecnt = 0 ∧ (s.fown r).ien = 0) ∧
  memWf 0 s.mem.sram = true ∧ memWf 0xFFF s.fl.cells = true ∧ s.pending = []

/-- Every syllable decodes from its 24 bits to itself, and every 24 bits are those of the syllable they decode to (R600, R601,
11_jieles_model.md Table Jieles-11, 12_jieles_operations.md Table Ops-2, 12_jieles_operations.md Table Ops-14). For every syllable that
some unit assigns, with every operand at every value its field admits, and either stop bit: decoding its 24 bits gives the syllable and
the stop bit again. For all 24 bits, the syllable they decode to, assigned or not, with their stop bit, encodes to the same bits. So no
bit of an encoding is dropped and no two encodings share a syllable. -/
def Obligations.SyllableRoundTrip : Prop :=
  (∀ (y : Syl) (stop : Bool), (∀ raw, y ≠ .unassigned raw) → decodeSyl (encodeSyl y stop) = y ∧ stopBit (encodeSyl y stop) = stop) ∧
    ∀ v : BitVec 24, encodeSyl (decodeSyl v) (stopBit v) = v

/-- Every step, of every command, keeps shared SRAM and the flash cells in canonical form (R767, R811, R590). In every state whose shared
SRAM and flash cells are each held in canonical form (addresses rising strictly, no word listed that equals what an unlisted address reads
as), whatever command stands at the front of its queue, or none: if the step answers a next state, both are in canonical form there. The
canonical form and what an unlisted word reads as are the model's choice (log 7, log 8); that it holds at reset is a clause of ResetState.
-/
def Obligations.StepKeepsMemoryForm : Prop := ∀ s t : State, Canonical s → step s = .next t → Canonical t
end

