-- ==== Sys2Proof/Laws/Memory.lean ====
section
/-! SUPPORT. Word memory: every operation keeps the canonical form. -/
namespace Sys2Proof.Machine

theorem memWfFrom_mono {fill : Word} {m : WordMem} {lo lo' : Nat} (h : memWfFrom fill lo m = true) (hl : lo' ≤ lo) :
    memWfFrom fill lo' m = true := by
  cases m with
  | nil => rfl
  | cons p r =>
    simp only [memWfFrom, Bool.and_eq_true, decide_eq_true_eq] at h ⊢
    exact ⟨⟨by omega, h.1.2⟩, h.2⟩

theorem memSet_wfFrom {fill : Word} {m : WordMem} {lo a : Nat} (v : Word) (h : memWfFrom fill lo m = true) (ha : lo ≤ a) :
    memWfFrom fill lo (memSet fill a v m) = true := by
  induction m generalizing lo with
  | nil => unfold memSet; split <;> simp_all [memWfFrom]
  | cons p r ih =>
    obtain ⟨j, y⟩ := p
    simp only [memWfFrom, Bool.and_eq_true, decide_eq_true_eq] at h
    obtain ⟨⟨h1, h2⟩, h3⟩ := h
    unfold memSet
    split
    · next hj =>
      simp only [memWfFrom, Bool.and_eq_true, decide_eq_true_eq]
      exact ⟨⟨h1, h2⟩, ih h3 (by omega)⟩
    · split
      · next hj =>
        subst hj
        split
        · exact memWfFrom_mono h3 (by omega)
        · next hv => simp only [memWfFrom, Bool.and_eq_true, decide_eq_true_eq]; exact ⟨⟨h1, hv⟩, h3⟩
      · split
        · simp only [memWfFrom, Bool.and_eq_true, decide_eq_true_eq]; exact ⟨⟨h1, h2⟩, h3⟩
        · next hv =>
          simp only [memWfFrom, Bool.and_eq_true, decide_eq_true_eq]
          exact ⟨⟨ha, hv⟩, ⟨by omega, h2⟩, h3⟩

/-- A word written keeps the form. -/
theorem memSet_wf {fill : Word} {m : WordMem} (a : Nat) (v : Word) (h : memWf fill m = true) : memWf fill (memSet fill a v m) = true :=
  memSet_wfFrom v h (Nat.zero_le a)

/-- Words written in a row keep the form. -/
theorem memSetList_wf {fill : Word} (ws : List Word) : ∀ {m : WordMem} (a : Nat), memWf fill m = true → memWf fill (memSetList fill a ws m) = true := by
  induction ws with
  | nil => intro m a h; exact h
  | cons w r ih => intro m a h; exact ih (a + 1) (memSet_wf a w h)

theorem memFilter_wfFrom {fill : Word} (f : Nat × Word → Bool) {m : WordMem} {lo : Nat} (h : memWfFrom fill lo m = true) :
    memWfFrom fill lo (m.filter f) = true := by
  induction m generalizing lo with
  | nil => rfl
  | cons p r ih =>
    obtain ⟨j, y⟩ := p
    simp only [memWfFrom, Bool.and_eq_true, decide_eq_true_eq] at h
    obtain ⟨⟨h1, h2⟩, h3⟩ := h
    simp only [List.filter_cons]
    split
    · simp only [memWfFrom, Bool.and_eq_true, decide_eq_true_eq]; exact ⟨⟨h1, h2⟩, ih h3⟩
    · exact memWfFrom_mono (ih h3) (by omega)

/-- A range set back to the fill keeps the form. -/
theorem memClear_wf {fill : Word} {m : WordMem} (a b : Nat) (h : memWf fill m = true) : memWf fill (memClear a b m) = true :=
  memFilter_wfFrom _ h

end Sys2Proof.Machine
end

