-- ==== Sys2Proof/Laws/Canonical.lean ====
section
/-! SUPPORT. Every operation of the machine keeps the canonical form of the shared SRAM and of the flash cells: one lemma per operation,
named after it. -/
namespace Sys2Proof.Machine

@[simp] theorem canonical_mk (pow hold clk boot host cus led con mot cel core stewDec stewCrypto cop mem per fl img jou dbg free pending) :
    Canonical (State.mk pow hold clk boot host cus led con mot cel core stewDec stewCrypto cop mem per fl img jou dbg free pending) ↔
      SramForm mem.sram ∧ CellForm fl.cells := Iff.rfl
@[simp] theorem sram_of_canonical {s : State} (h : Canonical s) : SramForm s.mem.sram := h.1
@[simp] theorem cells_of_canonical {s : State} (h : Canonical s) : CellForm s.fl.cells := h.2
@[simp] theorem sramForm_nil : SramForm [] := rfl
@[simp] theorem cellForm_nil : CellForm [] := rfl
@[simp] theorem sramForm_set {m : WordMem} (a : Nat) (l : List Word) (h : SramForm m) : SramForm (memSetList 0 a l m) := memSetList_wf l a h
@[simp] theorem cellForm_set {m : WordMem} (a : Nat) (l : List Word) (h : CellForm m) : CellForm (memSetList 0xFFF a l m) := memSetList_wf l a h
@[simp] theorem sramForm_clear {m : WordMem} (a b : Nat) (h : SramForm m) : SramForm (memClear a b m) := memClear_wf a b h
@[simp] theorem cellForm_clear {m : WordMem} (a b : Nat) (h : CellForm m) : CellForm (memClear a b m) := memClear_wf a b h
@[simp] theorem canonical_ite {c : Prop} [Decidable c] {a b : State} (ha : Canonical a) (hb : Canonical b) : Canonical (if c then a else b) := by
  split
  · exact ha
  · exact hb
@[simp] theorem canonical_dite {c : Prop} [Decidable c] {a : c → State} {b : ¬c → State} (ha : ∀ h, Canonical (a h)) (hb : ∀ h, Canonical (b h)) :
    Canonical (if h : c then a h else b h) := by
  split
  · exact ha _
  · exact hb _
@[simp] theorem canonical_ite_fst {α : Type} {c : Prop} [Decidable c] {a b : State × α} (ha : Canonical a.1) (hb : Canonical b.1) :
    Canonical (if c then a else b).1 := by
  split
  · exact ha
  · exact hb
theorem canonical_foldl {α : Type} (g : State → α → State) (hg : ∀ s x, Canonical s → Canonical (g s x)) :
    ∀ (l : List α) (s : State), Canonical s → Canonical (l.foldl g s)
  | [], _, h => h
  | x :: l, s, h => canonical_foldl g hg l (g s x) (hg s x h)
theorem memory_foldl {α : Type} (g : Memory → α → Memory) (hg : ∀ s x, SramForm s.sram → SramForm (g s x).sram) :
    ∀ (l : List α) (s : Memory), SramForm s.sram → SramForm (l.foldl g s).sram
  | [], _, h => h
  | x :: l, s, h => memory_foldl g hg l (g s x) (hg s x h)
def GoodRead (o : Option (Word × State)) : Prop := ∀ r, o = some r → Canonical r.2
theorem goodRead_none : GoodRead none := fun _ h => nomatch h
theorem goodRead_some {w : Word} {s : State} (h : Canonical s) : GoodRead (some (w, s)) := fun _ e => by cases e; exact h
theorem goodRead_ite {c : Prop} [Decidable c] {a b : Option (Word × State)} (ha : GoodRead a) (hb : GoodRead b) : GoodRead (if c then a else b) := by
  split
  · exact ha
  · exact hb
theorem goodRead_dite {c : Prop} [Decidable c] {a : c → Option (Word × State)} {b : ¬c → Option (Word × State)}
    (ha : ∀ h, GoodRead (a h)) (hb : ∀ h, GoodRead (b h)) : GoodRead (if h : c then a h else b h) := by
  split
  · exact ha _
  · exact hb _
theorem canonical_of_fst {α : Type} {p : State × α} {s : State} {x : α} (e : p = (s, x)) (h : Canonical p.1) : Canonical s := by
  subst e
  exact h
theorem canonical_of_snd {α : Type} {p : α × State} {s : State} {x : α} (e : p = (x, s)) (h : Canonical p.2) : Canonical s := by
  subst e
  exact h
@[simp] theorem cellForm_memSet {m : WordMem} (a : Nat) (w : Word) (h : CellForm m) : CellForm (memSet 0xFFF a w m) := memSet_wf a w h
theorem cellForm_foldl {α : Type} (g : WordMem → α → WordMem) (hg : ∀ s x, CellForm s → CellForm (g s x)) :
    ∀ (l : List α) (s : WordMem), CellForm s → CellForm (l.foldl g s)
  | [], _, h => h
  | x :: l, s, h => cellForm_foldl g hg l (g s x) (hg s x h)
theorem form_foldl {α : Type} (g : WordMem → α → WordMem) (hg : ∀ s x, SramForm s → SramForm (g s x)) :
    ∀ (l : List α) (s : WordMem), SramForm s → SramForm (l.foldl g s)
  | [], _, h => h
  | x :: l, s, h => form_foldl g hg l (g s x) (hg s x h)

@[simp] theorem State.pumpJournal_canonical (s : State) (due : Bool) (hs : Canonical s) :
    Canonical (State.pumpJournal s due) := by
  simp (maxDischargeDepth := 14) [State.pumpJournal, hs]

@[simp] theorem State.journal_canonical (s : State) (t : Clock) (type : Nat) (link : RecLink) (body : List Octet) (hs : Canonical s) :
    Canonical (State.journal s t type link body) := by
  simp (maxDischargeDepth := 14) [State.journal, hs]

@[simp] theorem State.raiseAt_canonical (s : State) (t : Clock) (code : Nat) (data : List Octet) (hs : Canonical s) :
    Canonical (State.raiseAt s t code data) := by
  simp (maxDischargeDepth := 14) [State.raiseAt, hs]

@[simp] theorem State.raise_canonical (s : State) (code : Nat) (data : List Octet) (hs : Canonical s) :
    Canonical (State.raise s code data) := by
  simp (maxDischargeDepth := 14) [State.raise, hs]

@[simp] theorem State.raisePre_canonical (x0 : List Event) (x1 : State) (hx1 : Canonical x1) :
    Canonical (State.raisePre x0 x1) := by
  induction x0 generalizing x1 with
  | nil => exact hx1
  | cons w ws ih => exact ih _ (State.raiseAt_canonical _ _ _ _ hx1)

@[simp] theorem State.setJournal_canonical (s : State) (j : JState) (hs : Canonical s) :
    Canonical (State.setJournal s j) := by
  simp (maxDischargeDepth := 14) [State.setJournal, hs]

@[simp] theorem State.judgeJournal_canonical (s : State) (hs : Canonical s) : Canonical (State.judgeJournal s) := by
  simp (maxDischargeDepth := 14) [State.judgeJournal, hs]

@[simp] theorem State.requeueLedger_canonical (s : State) (hs : Canonical s) : Canonical (State.requeueLedger s) := by
  simp (maxDischargeDepth := 14) (contextual := true) [canonical_foldl, apply_ite, State.requeueLedger, hs]

@[simp] theorem State.journalConfirmed_canonical (s : State) (b : Nat) (p : JPage) (hs : Canonical s) :
    Canonical (State.journalConfirmed s b p) := by
  simp (maxDischargeDepth := 14) [State.journalConfirmed, hs]

@[simp] theorem State.setPort_canonical (s : State) (t : Transport) (f : Port → Port) (hs : Canonical s) :
    Canonical (State.setPort s t f) := by
  simp (maxDischargeDepth := 14) [State.setPort, hs]

@[simp] theorem State.raiseTier_canonical (s : State) (data : List Octet) (hs : Canonical s) :
    Canonical (State.raiseTier s data) := by
  simp (maxDischargeDepth := 14) [State.raiseTier, hs]

@[simp] theorem State.tierReleased_canonical (s : State) (t : Transport) (c : Fin 7) (hs : Canonical s) :
    Canonical (State.tierReleased s t c) := by
  simp (maxDischargeDepth := 14) [State.tierReleased, hs]

@[simp] theorem State.arrive_canonical (s : State) (t : Transport) (f : RawFrame) (hs : Canonical s) :
    Canonical (State.arrive s t f).1 := by
  unfold State.arrive
  dsimp only
  (repeat' split) <;> simp (maxDischargeDepth := 14) [hs]

@[simp] theorem State.respond_canonical (s : State) (t : Transport) (c : Fin 7) (stat : Nat) (payload : List Octet) (hs : Canonical s) :
    Canonical (State.respond s t c stat payload) := by
  unfold State.respond
  dsimp only
  (repeat' split) <;> simp (maxDischargeDepth := 14) [hs]

@[simp] theorem State.respondStream_canonical (s : State) (t : Transport) (c : Fin 7) (parts : List (Nat × List Octet)) (hs : Canonical s) :
    Canonical (State.respondStream s t c parts) := by
  unfold State.respondStream
  dsimp only
  (repeat' split) <;> simp (maxDischargeDepth := 14) [hs]

@[simp] theorem State.interim_canonical (s : State) (t : Transport) (c : Fin 7) (ms : Nat) (hs : Canonical s) :
    Canonical (State.interim s t c ms) := by
  unfold State.interim
  dsimp only
  (repeat' split) <;> simp (maxDischargeDepth := 14) [hs]

@[simp] theorem State.reply_canonical (s : State) (t : Transport) (c : Fin 7) (x3 : Reply) (hs : Canonical s) :
    Canonical (State.reply s t c x3) := by
  unfold State.reply
  dsimp only
  (repeat' split) <;> simp (maxDischargeDepth := 14) [hs]

@[simp] theorem State.command_canonical (s : State) (cmd : Nat) (q : CmdReq) (run : State → State × Reply) (hs : Canonical s) (hrun : ∀ s, Canonical s → Canonical (run s).1) :
    Canonical (State.command s cmd q run) := by
  unfold State.command
  split
  · exact hs
  · split
    · exact hs
    · extract_lets c ch r execute
      have hx : ∀ s, Canonical s → Canonical (execute s) := fun s h => by
        simp only [execute]
        split
        · exact State.respond_canonical _ _ _ _ _ h
        · exact State.reply_canonical _ _ _ _ (hrun s h)
      clear_value execute
      split
      · exact hx _ hs
      · split <;> rename_i heq <;> have h1 := canonical_of_fst heq (State.arrive_canonical _ _ _ hs)
        · exact h1
        · exact hx _ h1

@[simp] theorem State.finish_canonical (s : State) (cmd : Nat) (rep : Reply) (hs : Canonical s) :
    Canonical (State.finish s cmd rep) := by
  unfold State.finish
  (repeat' split) <;> simp (maxDischargeDepth := 14) [hs]

@[simp] theorem State.setBank_canonical (s : State) (b : Fin 2) (x : Bank) (hs : Canonical s) :
    Canonical (State.setBank s b x) := by
  simp (maxDischargeDepth := 14) [State.setBank, hs]

@[simp] theorem State.setFown_canonical (s : State) (r : Fin 5) (x : FctlOwn) (hs : Canonical s) :
    Canonical (State.setFown s r x) := by
  simp (maxDischargeDepth := 14) [State.setFown, hs]

@[simp] theorem State.setMeta_canonical (s : State) (base : Nat) (m : BlockMeta) (hs : Canonical s) :
    Canonical (State.setMeta s base m) := by
  simp (maxDischargeDepth := 14) [State.setMeta, hs]

@[simp] theorem State.streamFetch_canonical (s : State) (a : Nat) (branch : Bool) (hs : Canonical s) :
    Canonical (State.streamFetch s a branch) := by
  simp (maxDischargeDepth := 14) [State.streamFetch, hs]

@[simp] theorem State.streamRead_canonical (s : State) (a : Nat) (n : Nat) (hs : Canonical s) :
    Canonical (State.streamRead s a n) := by
  simp (maxDischargeDepth := 14) (contextual := true) [canonical_foldl, State.streamRead, hs]

@[simp] theorem State.unbuffer_canonical (s : State) (b : Fin 2) (hs : Canonical s) : Canonical (State.unbuffer s b) := by
  simp (maxDischargeDepth := 14) [State.unbuffer, hs]

@[simp] theorem State.flashEnd_canonical (s : State) (r : Fin 5) (op : Nat) (res : Nat) (hs : Canonical s) :
    Canonical (State.flashEnd s r op res) := by
  simp (maxDischargeDepth := 14) [State.flashEnd, hs]

@[simp] theorem State.flashAbandon_canonical (s : State) (r : Fin 5) (hs : Canonical s) :
    Canonical (State.flashAbandon s r) := by
  simp (maxDischargeDepth := 14) [State.flashAbandon, hs]

@[simp] theorem State.flashSuspend_canonical (s : State) (r : Fin 5) (b : Fin 2) (early : Bool) (hs : Canonical s) :
    Canonical (State.flashSuspend s r b early) := by
  unfold State.flashSuspend
  dsimp only
  (repeat' split) <;> simp (maxDischargeDepth := 14) [hs]

@[simp] theorem State.flashResume_canonical (s : State) (r : Fin 5) (b : Fin 2) (hs : Canonical s) :
    Canonical (State.flashResume s r b) := by
  unfold State.flashResume
  dsimp only
  (repeat' split) <;> simp (maxDischargeDepth := 14) [hs]

@[simp] theorem State.flashAdmit_canonical (s : State) (r : Fin 5) (early : Bool) (x3 : Launch) (hs : Canonical s) :
    Canonical (State.flashAdmit s r early x3) := by
  unfold State.flashAdmit
  dsimp only
  (repeat' split) <;> simp (maxDischargeDepth := 14) [hs]

@[simp] theorem State.flashLaunch_canonical (s : State) (r : Fin 5) (opCode : Nat) (early : Bool) (l : Launch) (hs : Canonical s) :
    Canonical (State.flashLaunch s r opCode early l) := by
  simp (maxDischargeDepth := 14) [State.flashLaunch, hs]

@[simp] theorem State.flashProgram_canonical (s : State) (r : Fin 5) (a : Nat) (data : List Word) (hs : Canonical s) :
    Canonical (State.flashProgram s r a data) := by
  simp (maxDischargeDepth := 14) [State.flashProgram, hs]

@[simp] theorem State.flashErase_canonical (s : State) (r : Fin 5) (a : Nat) (hs : Canonical s) :
    Canonical (State.flashErase s r a) := by
  simp (maxDischargeDepth := 14) [State.flashErase, hs]

@[simp] theorem State.flashControl_canonical (s : State) (r : Fin 5) (a : Nat) (resume : Bool) (early : Bool) (hs : Canonical s) :
    Canonical (State.flashControl s r a resume early) := by
  simp (maxDischargeDepth := 14) [State.flashControl, hs]

@[simp] theorem State.flashInfo_canonical (s : State) (r : Fin 5) (a : Nat) (hs : Canonical s) :
    Canonical (State.flashInfo s r a) := by
  simp (maxDischargeDepth := 14) [State.flashInfo, hs]

@[simp] theorem State.flashKeyed_canonical (s : State) (r : Fin 5) (op : Nat) (a : Nat) (hs : Canonical s) :
    Canonical (State.flashKeyed s r op a) := by
  simp (maxDischargeDepth := 14) [State.flashKeyed, hs]

@[simp] theorem State.fctlWriteNow_canonical (s : State) (r : Fin 5) (off : Nat) (v : Word) (hs : Canonical s) :
    Canonical (State.fctlWriteNow s r off v) := by
  unfold State.fctlWriteNow
  dsimp only
  (repeat' split) <;> simp (maxDischargeDepth := 14) (contextual := true) [hs]

@[simp] theorem State.seqStoreNow_canonical (s : State) (r : Fin 5) (a : Nat) (v : Word) (hs : Canonical s) :
    Canonical (State.seqStoreNow s r a v) := by
  unfold State.seqStoreNow
  dsimp only
  (repeat' split) <;> simp (maxDischargeDepth := 14) (contextual := true) [hs]

@[simp] theorem State.fctlWrite_canonical (s : State) (r : Fin 5) (w : FctlWrite) (hs : Canonical s) :
    Canonical (State.fctlWrite s r w) := by
  unfold State.fctlWrite
  dsimp only
  (repeat' split) <;> simp (maxDischargeDepth := 14) [hs]

@[simp] theorem State.fctlReplay_canonical (s : State) (r : Fin 5) (x2 : List FctlWrite) (hs : Canonical s) :
    Canonical (State.fctlReplay s r x2) := by
  induction x2 generalizing s with
  | nil => exact hs
  | cons w ws ih => exact ih _ (by simp [hs])

@[simp] theorem State.flashDrain_canonical (s : State) (hs : Canonical s) : Canonical (State.flashDrain s) := by
  unfold State.flashDrain
  refine canonical_foldl _ (fun s x h => ?_) _ _ hs
  dsimp only
  split
  · exact h
  · split
    · simp (maxDischargeDepth := 14) [h]
    · exact h

@[simp] theorem State.fctlRead_canonical (s : State) (r : Fin 5) (off : Nat) (hs : Canonical s) :
    Canonical (State.fctlRead s r off).2 := by
  unfold State.fctlRead
  dsimp only
  (repeat' split) <;> simp (maxDischargeDepth := 14) [hs]

@[simp] theorem State.flashDirect_canonical (s : State) (r : Fin 5) (a : Nat) (n : Nat) (ec : BitVec 2) (hs : Canonical s) :
    Canonical (State.flashDirect s r a n ec).2 := by
  unfold State.flashDirect
  dsimp only
  (repeat' split) <;> simp (maxDischargeDepth := 14) [hs]

@[simp] theorem State.flashStart_canonical (s : State) (b : Fin 2) (hs : Canonical s) :
    Canonical (State.flashStart s b) := by
  unfold State.flashStart
  dsimp only
  (repeat' split) <;> simp (maxDischargeDepth := 14) [hs]

@[simp] theorem State.flashIdle_canonical (s : State) (b : Fin 2) (hs : Canonical s) :
    Canonical (State.flashIdle s b) := by
  unfold State.flashIdle
  dsimp only
  (repeat' split) <;> simp (maxDischargeDepth := 14) [hs]

@[simp] theorem State.programDone_canonical (s : State) (b : Fin 2) (hs : Canonical s) :
    Canonical (State.programDone s b) := by
  unfold State.programDone
  split
  · dsimp only
    refine State.flashDrain_canonical _ (State.flashEnd_canonical _ _ _ _ (State.flashIdle_canonical _ _ ⟨hs.1, cellForm_set _ _ hs.2⟩))
  all_goals exact hs

@[simp] theorem Flash.wipe_canonical (f : Flash) (base : Nat) (hf : CellForm f.cells) :
    CellForm (Flash.wipe f base).cells := by
  simp (maxDischargeDepth := 14) [Flash.wipe, hf]

@[simp] theorem State.eraseDone_canonical (s : State) (b : Fin 2) (e : EraseRun) (verified : Bool) (hs : Canonical s) :
    Canonical (State.eraseDone s b e verified) := by
  simp (maxDischargeDepth := 14) [State.eraseDone, hs]

@[simp] theorem State.eraseStep_canonical (s : State) (b : Fin 2) (verified : Bool) (hs : Canonical s) :
    Canonical (State.eraseStep s b verified).1 := by
  unfold State.eraseStep
  dsimp only
  (repeat' split) <;> simp (maxDischargeDepth := 14) [hs]

@[simp] theorem State.flashDiscard_canonical (s : State) (r : Fin 5) (hs : Canonical s) :
    Canonical (State.flashDiscard s r) := by
  unfold State.flashDiscard
  extract_lets o dropped s1 s2
  have h2 : Canonical s2 := by
    refine canonical_foldl _ (fun s x h => ?_) _ _ (State.setFown_canonical _ _ _ hs)
    dsimp only
    (repeat' split) <;> simp [h]
  clear_value s2
  refine State.flashDrain_canonical _ ?_
  split
  · exact State.flashEnd_canonical _ _ _ _ h2
  · exact h2

@[simp] theorem State.flashFail_canonical (s : State) (hs : Canonical s) : Canonical (State.flashFail s) := by
  unfold State.flashFail
  extract_lets s1 s2 s3
  have h1 : Canonical s1 := by
    simp only [s1]
    refine canonical_foldl _ (fun s x h => ?_) _ _ hs
    refine canonical_foldl _ (fun s x h => ?_) _ _ (State.setBank_canonical _ _ _ h)
    exact State.flashEnd_canonical _ _ _ _ h
  clear_value s1
  have h2 : Canonical s2 := by
    simp only [s2]
    refine canonical_foldl _ (fun s x h => ?_) _ _ h1
    split
    · exact State.flashEnd_canonical _ _ _ _ (State.setFown_canonical _ _ _ h)
    · exact h
  clear_value s2
  have h3 : Canonical s3 := by
    simp only [s3]
    refine canonical_foldl _ (fun s x h => ?_) _ _ h2
    (repeat' split) <;> simp [h]
  exact ⟨h3.1, h3.2⟩

@[simp] theorem State.flashSuspendNow_canonical (s : State) (b : Fin 2) (hs : Canonical s) :
    Canonical (State.flashSuspendNow s b) := by
  unfold State.flashSuspendNow
  dsimp only
  (repeat' split) <;> simp (maxDischargeDepth := 14) [hs]

@[simp] theorem Flash.eraseLines_canonical (f : Flash) (base : Nat) (lines : List Nat) (hf : CellForm f.cells) :
    CellForm (Flash.eraseLines f base lines).cells := by
  exact cellForm_foldl _ (fun _ _ h => cellForm_clear _ _ h) _ _ hf

@[simp] theorem State.checkCount_canonical (s : State) (base : Nat) (hs : Canonical s) :
    Canonical (State.checkCount s base) := by
  simp (maxDischargeDepth := 14) [State.checkCount, hs]

@[simp] theorem State.eraseCut_canonical (s : State) (e : EraseRun) (c : PageCut) (keep : Bool) (hs : Canonical s) :
    Canonical (State.eraseCut s e c keep) := by
  unfold State.eraseCut
  dsimp only
  (repeat' split) <;> simp (maxDischargeDepth := 14) [hs]

@[simp] theorem State.flashCut_canonical (s : State) (b : Fin 2) (c : PageCut) (res : Option Nat) (hs : Canonical s) :
    Canonical (State.flashCut s b c res) := by
  unfold State.flashCut
  extract_lets k done
  have hd : ∀ (s : State) (o : Fin 5) (op : Nat), Canonical s → Canonical (done s o op) := by
    intro s o op h
    simp only [done]
    split
    · exact h
    · exact State.flashEnd_canonical _ _ _ _ h
  clear_value done
  split
  · exact hs
  · refine hd _ _ _ (State.setBank_canonical _ _ _ ⟨hs.1, ?_⟩)
    dsimp only
    split
    · exact hs.2
    · exact cellForm_set _ _ hs.2
  · exact hd _ _ _ (State.eraseCut_canonical _ _ _ _ (State.setBank_canonical _ _ _ hs))
  · exact hd _ _ _ (State.eraseCut_canonical _ _ _ _ (State.setBank_canonical _ _ _ hs))

@[simp] theorem State.flashLost_canonical (s : State) (b : Fin 2) (c : PageCut) (hs : Canonical s) :
    Canonical (State.flashLost s b c) := by
  unfold State.flashLost
  dsimp only
  (repeat' split) <;> simp (maxDischargeDepth := 14) [hs]

@[simp] theorem State.live_canonical (s : State) (n : Nat) (off : Nat) (act : State → State) (hs : Canonical s) (hact : ∀ s, Canonical s → Canonical (act s)) :
    Canonical (State.live s n off act) := by
  simp (maxDischargeDepth := 14) [State.live, hs, hact]

@[simp] theorem State.setPwm_canonical (s : State) (p : Pwm) (hs : Canonical s) :
    Canonical (State.setPwm s p) := by
  simp (maxDischargeDepth := 14) [State.setPwm, hs]

@[simp] theorem State.setAdc_canonical (s : State) (a : Adc) (hs : Canonical s) :
    Canonical (State.setAdc s a) := by
  simp (maxDischargeDepth := 14) [State.setAdc, hs]

@[simp] theorem State.setTcap_canonical (s : State) (t : Tcap) (hs : Canonical s) :
    Canonical (State.setTcap s t) := by
  simp (maxDischargeDepth := 14) [State.setTcap, hs]

@[simp] theorem State.setTsl_canonical (s : State) (t : Teasel) (hs : Canonical s) :
    Canonical (State.setTsl s t) := by
  simp (maxDischargeDepth := 14) [State.setTsl, hs]

@[simp] theorem State.tickTs_canonical (s : State) (n : Nat) (hs : Canonical s) : Canonical (State.tickTs s n) := by
  simp (maxDischargeDepth := 14) [State.tickTs, hs]

@[simp] theorem State.writeLimits_canonical (s : State) (hs : Canonical s) : Canonical (State.writeLimits s) := by
  simp (maxDischargeDepth := 14) [State.writeLimits, hs]

@[simp] theorem State.superviseValley_canonical (s : State) (hs : Canonical s) : Canonical (State.superviseValley s) := by
  simp (maxDischargeDepth := 14) [State.superviseValley, hs]

@[simp] theorem State.handback_canonical (s : State) (hs : Canonical s) : Canonical (State.handback s) := by
  simp (maxDischargeDepth := 14) [State.handback, hs]

@[simp] theorem State.mapCores_canonical (s : State) (f : Fin 4 → CoreState → CoreState) (hs : Canonical s) :
    Canonical (State.mapCores s f) := by
  simp (maxDischargeDepth := 14) [State.mapCores, hs]

@[simp] theorem State.pwmSource_canonical (s : State) (hs : Canonical s) : Canonical (State.pwmSource s) := by
  unfold State.pwmSource State.mapCores
  exact hs

@[simp] theorem State.tslSource_canonical (s : State) (hs : Canonical s) : Canonical (State.tslSource s) := by
  unfold State.tslSource State.mapCores
  exact hs

@[simp] theorem State.updateEvent_canonical (s : State) (hs : Canonical s) : Canonical (State.updateEvent s) := by
  simp (maxDischargeDepth := 14) [State.updateEvent, hs]

@[simp] theorem State.pwmEvent_canonical (s : State) (peak : Bool) (hs : Canonical s) :
    Canonical (State.pwmEvent s peak) := by
  simp (maxDischargeDepth := 14) [State.pwmEvent, hs]

@[simp] theorem State.pwmCtl_canonical (s : State) (v : Word) (hs : Canonical s) :
    Canonical (State.pwmCtl s v) := by
  simp (maxDischargeDepth := 14) [State.pwmCtl, hs]

theorem State.pwmRead_canonical (s : State) (r : Fin 6) (off : Nat) (hs : Canonical s) :
    ∀ res, State.pwmRead s r off = some res → Canonical res.2 := by
  unfold State.pwmRead
  dsimp only
  (repeat' split) <;> simp (maxDischargeDepth := 14) [hs]

theorem State.pwmWrite_canonical (s : State) (off : Nat) (v : Word) (hs : Canonical s) :
    ∀ res, State.pwmWrite s off v = some res → Canonical res := by
  unfold State.pwmWrite
  dsimp only
  (repeat' split) <;> simp (maxDischargeDepth := 14) [hs]

theorem State.adcRead_canonical (s : State) (r : Fin 6) (off : Nat) (hs : Canonical s) :
    ∀ res, State.adcRead s r off = some res → Canonical res.2 := by
  unfold State.adcRead
  dsimp only
  (repeat' split) <;> simp (maxDischargeDepth := 14) [hs]

theorem State.adcWrite_canonical (s : State) (off : Nat) (v : Word) (hs : Canonical s) :
    ∀ res, State.adcWrite s off v = some res → Canonical res := by
  unfold State.adcWrite
  dsimp only
  (repeat' split) <;> simp (maxDischargeDepth := 14) [hs]

@[simp] theorem State.wheelCheck_canonical (s : State) (hs : Canonical s) : Canonical (State.wheelCheck s) := by
  simp (maxDischargeDepth := 14) [State.wheelCheck, hs]

@[simp] theorem State.hallErrEvent_canonical (s : State) (before : Nat) (hs : Canonical s) :
    Canonical (State.hallErrEvent s before) := by
  simp (maxDischargeDepth := 14) [State.hallErrEvent, hs]

@[simp] theorem State.capEdge_canonical (s : State) (x1 : CapEdge) (hs : Canonical s) :
    Canonical (State.capEdge s x1) := by
  unfold State.capEdge
  dsimp only
  (repeat' split) <;> simp (maxDischargeDepth := 14) [hs]

theorem State.tcapRead_canonical (s : State) (r : Fin 6) (off : Nat) (hs : Canonical s) :
    ∀ res, State.tcapRead s r off = some res → Canonical res.2 := by
  unfold State.tcapRead
  dsimp only
  (repeat' split) <;> simp (maxDischargeDepth := 14) [hs]

theorem State.tcapWrite_canonical (s : State) (off : Nat) (v : Word) (hs : Canonical s) :
    ∀ res, State.tcapWrite s off v = some res → Canonical res := by
  unfold State.tcapWrite
  dsimp only
  (repeat' split) <;> simp (maxDischargeDepth := 14) [hs]

@[simp] theorem State.latchEvent_canonical (s : State) (hs : Canonical s) : Canonical (State.latchEvent s) := by
  simp (maxDischargeDepth := 14) [State.latchEvent, hs]

@[simp] theorem State.setLatch_canonical (s : State) (cause : BitVec 11) (hs : Canonical s) :
    Canonical (State.setLatch s cause) := by
  simp (maxDischargeDepth := 14) [State.setLatch, hs]

@[simp] theorem State.sourceOn_canonical (s : State) (n : Fin 5) (hs : Canonical s) : Canonical (State.sourceOn s n) := by
  unfold State.sourceOn
  dsimp only
  (repeat' split) <;> simp (maxDischargeDepth := 14) [hs]

@[simp] theorem State.sourceOff_canonical (s : State) (n : Fin 5) (hs : Canonical s) :
    Canonical (State.sourceOff s n) := by
  simp (maxDischargeDepth := 14) [State.sourceOff, hs]

@[simp] theorem State.clearLatch_canonical (s : State) (who : Nat) (hs : Canonical s) :
    Canonical (State.clearLatch s who) := by
  simp (maxDischargeDepth := 14) [State.clearLatch, hs]

@[simp] theorem State.softTrip_canonical (s : State) (hs : Canonical s) : Canonical (State.softTrip s) := by
  simp (maxDischargeDepth := 14) [State.softTrip, hs]

@[simp] theorem State.padsOff_canonical (s : State) (hs : Canonical s) : Canonical (State.padsOff s) := by
  simp (maxDischargeDepth := 14) [State.padsOff, hs]

@[simp] theorem State.loadTeasel_canonical (s : State) (c : TeaselCfg) (hs : Canonical s) :
    Canonical (State.loadTeasel s c) := by
  simp (maxDischargeDepth := 14) [State.loadTeasel, hs]

theorem State.tslWrite_canonical (s : State) (who : Nat) (off : Nat) (v : Word) (hs : Canonical s) :
    ∀ res, State.tslWrite s who off v = some res → Canonical res := by
  unfold State.tslWrite
  dsimp only
  (repeat' split) <;> simp (maxDischargeDepth := 14) [hs]

@[simp] theorem State.setCel_canonical (s : State) (c : Celandine) (hs : Canonical s) :
    Canonical (State.setCel s c) := by
  simp (maxDischargeDepth := 14) [State.setCel, hs]

@[simp] theorem State.setClock_canonical (s : State) (c : Clock) (hs : Canonical s) :
    Canonical (State.setClock s c) := by
  simp (maxDischargeDepth := 14) [State.setClock, hs]

@[simp] theorem State.timeEdge_canonical (s : State) (hs : Canonical s) : Canonical (State.timeEdge s) := by
  simp (maxDischargeDepth := 14) [State.timeEdge, hs]

@[simp] theorem State.windowTick_canonical (s : State) (hs : Canonical s) : Canonical (State.windowTick s) := by
  simp (maxDischargeDepth := 14) [State.windowTick, hs]

@[simp] theorem State.keyScan_canonical (s : State) (r : Vector KeyReading 16) (hs : Canonical s) :
    Canonical (State.keyScan s r).1 := by
  simp (maxDischargeDepth := 14) [State.keyScan, hs]

@[simp] theorem State.keyHeld_canonical (s : State) (n : Fin 16) (hs : Canonical s) : Canonical (State.keyHeld s n) := by
  simp (maxDischargeDepth := 14) [State.keyHeld, hs]

@[simp] theorem State.frameStart_canonical (s : State) (bit : Nat) (hs : Canonical s) :
    Canonical (State.frameStart s bit) := by
  simp (maxDischargeDepth := 14) [State.frameStart, hs]

@[simp] theorem State.setForce_canonical (s : State) (hs : Canonical s) : Canonical (State.setForce s) := by
  simp (maxDischargeDepth := 14) [State.setForce, hs]

@[simp] theorem State.loadDisplay_canonical (s : State) (hs : Canonical s) : Canonical (State.loadDisplay s) := by
  simp (maxDischargeDepth := 14) [State.loadDisplay, hs]

@[simp] theorem State.parkDisplay_canonical (s : State) (hs : Canonical s) : Canonical (State.parkDisplay s) := by
  simp (maxDischargeDepth := 14) [State.parkDisplay, hs]

@[simp] theorem State.wakeBit_canonical (s : State) (n : Nat) (hs : Canonical s) : Canonical (State.wakeBit s n) := by
  simp (maxDischargeDepth := 14) [State.wakeBit, hs]

@[simp] theorem State.sealEvent_canonical (s : State) (n : Fin 2) (old : SealKind) (new : SealKind) (bin : BitVec 4) (fas : Bool) (hs : Canonical s) :
    Canonical (State.sealEvent s n old new bin fas) := by
  simp (maxDischargeDepth := 14) [State.sealEvent, hs]

@[simp] theorem State.sealOpening_canonical (s : State) (n : Fin 2) (fas : Bool) (seconds : Nat) (era : Nat) (hs : Canonical s) :
    Canonical (State.sealOpening s n fas seconds era) := by
  simp (maxDischargeDepth := 14) [State.sealOpening, hs]

@[simp] theorem State.sealTakes_canonical (s : State) (n : Fin 2) (l : SealLoop) (new : SealKind) (fas : Bool) (seconds : Nat) (era : Nat) (hs : Canonical s) :
    Canonical (State.sealTakes s n l new fas seconds era).1 := by
  simp (maxDischargeDepth := 14) [State.sealTakes, hs]

@[simp] theorem State.sealMeasure_canonical (s : State) (n : Fin 2) (b : BitVec 4) (hs : Canonical s) :
    Canonical (State.sealMeasure s n b).1 := by
  unfold State.sealMeasure
  dsimp only
  (repeat' split) <;> simp (maxDischargeDepth := 14) [hs]

@[simp] theorem State.sealWrite_canonical (s : State) (n : Fin 2) (v : Word) (hs : Canonical s) :
    Canonical (State.sealWrite s n v).1 := by
  simp (maxDischargeDepth := 14) [State.sealWrite, hs]

@[simp] theorem State.loadSeals_canonical (s : State) (hs : Canonical s) : Canonical (State.loadSeals s) := by
  simp (maxDischargeDepth := 14) [State.loadSeals, hs]

@[simp] theorem State.reportSeals_canonical (s : State) (hs : Canonical s) : Canonical (State.reportSeals s) := by
  unfold State.reportSeals
  refine canonical_foldl _ (fun s x h => ?_) _ _ hs
  dsimp only
  split
  · exact h
  · exact h

@[simp] theorem State.shock_canonical (s : State) (hs : Canonical s) : Canonical (State.shock s).1 := by
  simp (maxDischargeDepth := 14) [State.shock, hs]

@[simp] theorem State.celKeyRead_canonical (s : State) (r : Fin 6) (off : Nat) (hs : Canonical s) :
    Canonical (State.celKeyRead s r off).2 := by
  unfold State.celKeyRead
  dsimp only
  (repeat' split) <;> simp (maxDischargeDepth := 14) [hs]

@[simp] theorem State.celKeyWrite_canonical (s : State) (off : Nat) (v : Word) (hs : Canonical s) :
    Canonical (State.celKeyWrite s off v) := by
  unfold State.celKeyWrite
  dsimp only
  (repeat' split) <;> simp (maxDischargeDepth := 14) [hs]

theorem State.celStewardRead_canonical (s : State) (r : Fin 6) (off : Nat) (hs : Canonical s) :
    ∀ res, State.celStewardRead s r off = some res → Canonical res.2 := by
  show GoodRead (s.celStewardRead r off)
  unfold State.celStewardRead
  dsimp only
  repeat' first
    | refine goodRead_ite ?_ ?_
    | refine goodRead_dite (fun _ => ?_) (fun _ => ?_)
  all_goals first
    | exact goodRead_none
    | exact goodRead_some hs
    | exact goodRead_some (State.setCel_canonical _ _ hs)

@[simp] theorem State.stageLedger_canonical (s : State) (i : Fin 7) (v : Word) (hs : Canonical s) :
    Canonical (State.stageLedger s i v) := by
  simp (maxDischargeDepth := 14) [State.stageLedger, hs]

@[simp] theorem State.stageWall_canonical (s : State) (i : Fin 6) (v : Word) (hs : Canonical s) :
    Canonical (State.stageWall s i v) := by
  simp (maxDischargeDepth := 14) [State.stageWall, hs]

@[simp] theorem State.celStewardWrite_canonical (s : State) (off : Nat) (v : Word) (hs : Canonical s) :
    Canonical (State.celStewardWrite s off v) := by
  simp (maxDischargeDepth := 14) [State.celStewardWrite, hs]

@[simp] theorem State.setCus_canonical (s : State) (c : Custody) (hs : Canonical s) :
    Canonical (State.setCus s c) := by
  simp (maxDischargeDepth := 14) [State.setCus, hs]

@[simp] theorem State.putPage_canonical (s : State) (o : PageOp) (hs : Canonical s) :
    Canonical (State.putPage s o) := by
  exact State.unbuffer_canonical _ _ ⟨hs.1, cellForm_set _ _ hs.2⟩

@[simp] theorem State.putPages_canonical (s : State) (l : List PageOp) (hs : Canonical s) :
    Canonical (State.putPages s l) := by
  simp (maxDischargeDepth := 14) (contextual := true) [canonical_foldl, State.putPages, hs]

@[simp] theorem State.storeFailed_canonical (s : State) (a : Nat) (hs : Canonical s) :
    Canonical (State.storeFailed s a) := by
  simp (maxDischargeDepth := 14) [State.storeFailed, hs]

@[simp] theorem State.spoilPage_canonical (s : State) (a : Nat) (reads : List Word) (hs : Canonical s) :
    Canonical (State.spoilPage s a reads) := by
  simp (maxDischargeDepth := 14) [State.spoilPage, hs]

@[simp] theorem State.writeStore_canonical (s : State) (w : StoreWrite) (fresh : List (EdDomain × Fin 3)) (f : Custody → Custody) (hs : Canonical s) :
    Canonical (State.writeStore s w fresh f).1 := by
  unfold State.writeStore
  split
  · exact hs
  · split
    · exact State.setCus_canonical _ _ (State.putPages_canonical _ _ hs)
    · exact State.setCus_canonical _ _ (State.putPages_canonical _ _ hs)
    · exact State.setCus_canonical _ _ (State.putPages_canonical _ _ hs)
    · exact State.storeFailed_canonical _ _ (State.setCus_canonical _ _ (State.spoilPage_canonical _ _ _ (State.putPages_canonical _ _ hs)))
    · exact State.storeFailed_canonical _ _ (State.setCus_canonical _ _ (State.spoilPage_canonical _ _ _ (State.putPages_canonical _ _ hs)))
    · dsimp only
      split
      · exact State.storeFailed_canonical _ _ (State.setCus_canonical _ _ (State.spoilPage_canonical _ _ _ hs))
      · exact State.setCus_canonical _ _ (State.putPages_canonical _ _ (State.setCus_canonical _ _ (State.spoilPage_canonical _ _ _ hs)))

@[simp] theorem State.reclaim_canonical (s : State) (hs : Canonical s) : Canonical (State.reclaim s) := by
  unfold State.reclaim
  dsimp only
  (repeat' split) <;> simp (maxDischargeDepth := 14) [hs]

@[simp] theorem State.writeMap_canonical (s : State) (w : StoreWrite) (f : Custody → Custody) (hs : Canonical s) :
    Canonical (State.writeMap s w f).1 := by
  simp (maxDischargeDepth := 14) [State.writeMap, hs]

@[simp] theorem State.storeErased_canonical (s : State) (b : Fin 2) (k : Fin 4) (verified : Bool) (hs : Canonical s) :
    Canonical (State.storeErased s b k verified) := by
  simp (maxDischargeDepth := 14) [State.storeErased, hs]

@[simp] theorem State.scanStore_canonical (s : State) (page : Option Nat) (hs : Canonical s) :
    Canonical (State.scanStore s page) := by
  simp (maxDischargeDepth := 14) [State.scanStore, hs]

@[simp] theorem State.completeB_canonical (s : State) (m : MapRead) (hs : Canonical s) :
    Canonical (State.completeB s m) := by
  unfold State.completeB
  dsimp only
  (repeat' split) <;> simp (maxDischargeDepth := 14) [hs]

@[simp] theorem State.readMaps_canonical (s : State) (f : FlashFacts) (hs : Canonical s) :
    Canonical (State.readMaps s f) := by
  unfold State.readMaps
  dsimp only
  (repeat' split) <;> simp (maxDischargeDepth := 14) [hs]

@[simp] theorem State.changeCells_canonical (s : State) (l : List (Nat × Word)) (hs : Canonical s) :
    Canonical (State.changeCells s l) := by
  exact ⟨hs.1, cellForm_foldl _ (fun _ _ h => cellForm_memSet _ _ h) _ _ hs.2⟩

@[simp] theorem State.countErase_canonical (s : State) (base : Nat) (hs : Canonical s) :
    Canonical (State.countErase s base) := by
  simp (maxDischargeDepth := 14) [State.countErase, hs]

@[simp] theorem State.eraseTarget_canonical (s : State) (base : Nat) (hs : Canonical s) :
    Canonical (State.eraseTarget s base) := by
  simp (maxDischargeDepth := 14) [State.eraseTarget, hs]

@[simp] theorem State.setTail_canonical (s : State) (t : LedgerTail) (hs : Canonical s) :
    Canonical (State.setTail s t) := by
  simp (maxDischargeDepth := 14) [State.setTail, hs]

@[simp] theorem State.setLed_canonical (s : State) (l : Ledger) (hs : Canonical s) :
    Canonical (State.setLed s l) := by
  simp (maxDischargeDepth := 14) [State.setLed, hs]

@[simp] theorem State.retireRing_canonical (s : State) (k : Nat) (hs : Canonical s) :
    Canonical (State.retireRing s k) := by
  simp (maxDischargeDepth := 14) [State.retireRing, hs]

@[simp] theorem State.putRing_canonical (s : State) (page : Nat) (ws : List Word) (hs : Canonical s) :
    Canonical (State.putRing s page ws) := by
  simp (maxDischargeDepth := 14) [State.putRing, hs]

@[simp] theorem State.cutBy_canonical (s : State) (c : SupplyCause) (hs : Canonical s) :
    Canonical (State.cutBy s c) := by
  simp (maxDischargeDepth := 14) [State.cutBy, hs]

@[simp] theorem State.ringWrite_canonical (s : State) (w : RingWrite) (ws : List Word) (hs : Canonical s) :
    Canonical (State.ringWrite s w ws).1 := by
  unfold State.ringWrite
  dsimp only
  (repeat' split) <;> simp (maxDischargeDepth := 14) [hs]

@[simp] theorem State.copyPage_canonical (s : State) (page : Nat) (hs : Canonical s) :
    Canonical (State.copyPage s page).1 := by
  simp (maxDischargeDepth := 14) [State.copyPage, hs]

@[simp] theorem State.moveRide_canonical (s : State) (r : RideRecord) (hs : Canonical s) :
    Canonical (State.moveRide s r) := by
  unfold State.moveRide
  split <;> rename_i heq <;> have h1 := canonical_of_fst heq (State.copyPage_canonical _ _ hs)
  · exact h1
  · exact State.setLed_canonical _ _ h1

@[simp] theorem State.movePeriod_canonical (s : State) (r : PeriodRecord) (hs : Canonical s) :
    Canonical (State.movePeriod s r) := by
  unfold State.movePeriod
  split <;> rename_i heq <;> have h1 := canonical_of_fst heq (State.copyPage_canonical _ _ hs)
  · exact h1
  · exact State.setLed_canonical _ _ h1

@[simp] theorem State.moveTail_canonical (s : State) (t : RingTail) (hs : Canonical s) :
    Canonical (State.moveTail s t) := by
  unfold State.moveTail
  split <;> rename_i heq <;> have h1 := canonical_of_fst heq (State.ringWrite_canonical _ _ _ hs)
  · exact h1
  · exact State.setLed_canonical _ _ h1

@[simp] theorem State.reclaimBlock_canonical (s : State) (k : Nat) (hs : Canonical s) :
    Canonical (State.reclaimBlock s k) := by
  unfold State.reclaimBlock
  dsimp only
  (repeat' split) <;> simp (maxDischargeDepth := 14) (contextual := true) [canonical_foldl, hs]

@[simp] theorem State.reclaimRing_canonical (s : State) (hs : Canonical s) : Canonical (State.reclaimRing s) := by
  unfold State.reclaimRing
  dsimp only
  (repeat' split) <;> simp (maxDischargeDepth := 14) [hs]

@[simp] theorem State.ringErased_canonical (s : State) (k : Nat) (verified : Bool) (hs : Canonical s) :
    Canonical (State.ringErased s k verified) := by
  simp (maxDischargeDepth := 14) [State.ringErased, hs]

@[simp] theorem State.tailWritten_canonical (s : State) (w : RingWrite) (hs : Canonical s) :
    Canonical (State.tailWritten s w).1 := by
  unfold State.tailWritten
  extract_lets s0 t
  have h0 : Canonical s0 := State.setTail_canonical _ _ hs
  clear_value s0
  split
  · exact h0
  · split <;> rename_i heq <;> have h1 := canonical_of_fst heq (State.ringWrite_canonical _ _ _ h0)
    · exact h1
    · exact State.reclaimRing_canonical _ (State.setLed_canonical _ _ h1)

@[simp] theorem State.writeTail_canonical (s : State) (hs : Canonical s) : Canonical (State.writeTail s) := by
  simp (maxDischargeDepth := 14) [State.writeTail, hs]

@[simp] theorem State.findTail_canonical (s : State) (f : FlashFacts) (hs : Canonical s) :
    Canonical (State.findTail s f) := by
  simp (maxDischargeDepth := 14) [State.findTail, hs]

@[simp] theorem State.endedSegments_canonical (s : State) (cause : Nat) (seconds : Nat) (disc : Bool) (p : Segment → Bool) (hs : Canonical s) :
    Canonical (State.endedSegments s cause seconds disc p) := by
  unfold State.endedSegments
  dsimp only
  (repeat' split) <;> simp (maxDischargeDepth := 14) (contextual := true) [canonical_foldl, hs]

@[simp] theorem State.endSegments_canonical (s : State) (cause : Nat) (seconds : Nat) (disc : Bool) (p : Segment → Bool) (hs : Canonical s) :
    Canonical (State.endSegments s cause seconds disc p) := by
  simp (maxDischargeDepth := 14) [State.endSegments, hs]

@[simp] theorem State.openSegment_canonical (s : State) (bay : Nat) (pack : Nat) (hs : Canonical s) :
    Canonical (State.openSegment s bay pack) := by
  unfold State.openSegment
  dsimp only
  (repeat' split) <;> simp (maxDischargeDepth := 14) [hs]

@[simp] theorem State.seal_canonical (s : State) (w : RingWrite) (epoch : Nat) (kind : Nat) (intervals : Nat) (late : Bool) (o : OpenPeriod) (hs : Canonical s) :
    Canonical (State.seal s w epoch kind intervals late o).1 := by
  unfold State.seal
  extract_lets ws
  split <;> rename_i heq <;> have h1 := canonical_of_fst heq (State.ringWrite_canonical _ _ _ hs)
  · exact h1
  · dsimp only
    simp (maxDischargeDepth := 14) [h1]

@[simp] theorem State.sealOrWait_canonical (s : State) (w : RingWrite) (kind : Nat) (intervals : Nat) (o : OpenPeriod) (hs : Canonical s) :
    Canonical (State.sealOrWait s w kind intervals o).1 := by
  unfold State.sealOrWait
  extract_lets l waits
  have hw : ∀ s, Canonical s → Canonical (waits s) := fun s h => State.setLed_canonical _ _ h
  clear_value waits
  split
  · exact hs
  · split
    · exact hw _ hs
    · split <;> rename_i heq <;> have h1 := canonical_of_fst heq (State.seal_canonical _ _ _ _ _ _ _ hs)
      · exact h1
      · split
        · exact h1
        · exact hw _ h1

@[simp] theorem State.sealDue_canonical (x0 : Nat) (x1 : State) (hx1 : Canonical x1) :
    Canonical (State.sealDue x0 x1) := by
  induction x0 generalizing x1 with
  | zero => exact hx1
  | succ n ih =>
    unfold State.sealDue
    split
    · exact hx1
    · split <;> rename_i heq
      · exact hx1
      · exact ih _ (State.setLed_canonical _ _ (canonical_of_fst heq (State.seal_canonical _ _ _ _ _ _ _ hx1)))

@[simp] theorem State.sealEmpty_canonical (lfx : Bool) (p : List Word) (x2 : Nat) (x3 : Nat) (x4 : Nat) (x5 : State) (hx5 : Canonical x5) :
    Canonical (State.sealEmpty lfx p x2 x3 x4 x5) := by
  induction x2 generalizing x3 x4 x5 with
  | zero => exact hx5
  | succ n ih => exact ih _ _ _ (by simp [hx5])

@[simp] theorem State.openPeriodAt_canonical (s : State) (index : Nat) (start : Nat) (hs : Canonical s) :
    Canonical (State.openPeriodAt s index start) := by
  simp (maxDischargeDepth := 14) [State.openPeriodAt, hs]

@[simp] theorem State.closureCheckWith_canonical (s : State) (w : RingWrite) (hs : Canonical s) :
    Canonical (State.closureCheckWith s w) := by
  unfold State.closureCheckWith
  dsimp only
  (repeat' split) <;> simp (maxDischargeDepth := 14) (contextual := true) [hs]

@[simp] theorem State.closureCheck_canonical (s : State) (hs : Canonical s) : Canonical (State.closureCheck s) := by
  simp (maxDischargeDepth := 14) [State.closureCheck, hs]

@[simp] theorem State.finishClose_canonical (s : State) (w : RingWrite) (hs : Canonical s) :
    Canonical (State.finishClose s w).1 := by
  unfold State.finishClose
  split
  · exact hs
  · split
    · exact hs
    · dsimp only
      split <;> rename_i heq <;> have h1 := canonical_of_fst heq (State.ringWrite_canonical _ _ _ hs)
      · split
        · exact h1
        · exact State.setTail_canonical _ _ h1
      · simp (maxDischargeDepth := 14) [h1]

@[simp] theorem State.closeRide_canonical (s : State) (cause : Nat) (w : RingWrite) (hs : Canonical s) :
    Canonical (State.closeRide s cause w).1 := by
  unfold State.closeRide
  dsimp only
  (repeat' split) <;> simp (maxDischargeDepth := 14) [hs]

@[simp] theorem State.recount_canonical (s : State) (hs : Canonical s) : Canonical (State.recount s) := by
  simp (maxDischargeDepth := 14) [State.recount, hs]

@[simp] theorem State.flagRide_canonical (s : State) (f : RideFlags → RideFlags) (hs : Canonical s) :
    Canonical (State.flagRide s f) := by
  unfold State.flagRide
  dsimp only
  (repeat' split) <;> simp (maxDischargeDepth := 14) [hs]

@[simp] theorem State.stepWall_canonical (s : State) (row : Nat) (wall : Nat) (fraction : Nat) (cls : Nat) (hs : Canonical s) :
    Canonical (State.stepWall s row wall fraction cls) := by
  simp (maxDischargeDepth := 14) [State.stepWall, hs]

@[simp] theorem State.takeSetback_canonical (s : State) (amount : Nat) (hs : Canonical s) :
    Canonical (State.takeSetback s amount) := by
  simp (maxDischargeDepth := 14) [State.takeSetback, hs]

@[simp] theorem State.setBack_canonical (s : State) (w : RingWrite) (wall : Nat) (fraction : Nat) (cls : Nat) (hs : Canonical s) :
    Canonical (State.setBack s w wall fraction cls).1 := by
  simp (maxDischargeDepth := 14) [State.setBack, hs]

@[simp] theorem State.sealFinal_canonical (s : State) (w : RingWrite) (hs : Canonical s) :
    Canonical (State.sealFinal s w).1 := by
  unfold State.sealFinal
  split
  · exact hs
  · split <;> rename_i heq <;> have h1 := canonical_of_fst heq (State.sealOrWait_canonical _ _ _ _ _ (State.setTail_canonical _ _ hs))
    · exact h1
    · exact State.setTail_canonical _ _ h1

@[simp] theorem State.setEpoch_canonical (s : State) (w : RingWrite) (hs : Canonical s) :
    Canonical (State.setEpoch s w).1 := by
  simp (maxDischargeDepth := 14) [State.setEpoch, hs]

@[simp] theorem State.setPeriod_canonical (s : State) (p : PeriodRecord) (hs : Canonical s) :
    Canonical (State.setPeriod s p) := by
  simp (maxDischargeDepth := 14) [State.setPeriod, hs]

@[simp] theorem State.readPeriod_canonical (s : State) (f : FlashFacts) (copy : Bool) (p : PeriodRecord) (hs : Canonical s) :
    Canonical (State.readPeriod s f copy p).1 := by
  unfold State.readPeriod
  split
  · exact hs
  · split
    · split <;> rename_i heq <;> have h1 := canonical_of_fst heq (State.ringWrite_canonical _ _ _ hs)
      · exact h1
      · exact State.raise_canonical _ _ _ (State.setPeriod_canonical _ _ h1)
    · dsimp only
      split
      · exact hs
      · exact State.raise_canonical _ _ _ (State.setPeriod_canonical _ _ hs)

@[simp] theorem State.comparePeriod_canonical (s : State) (f : FlashFacts) (unread : List (Nat × Nat)) (p : PeriodRecord) (hs : Canonical s) :
    Canonical (State.comparePeriod s f unread p) := by
  unfold State.comparePeriod
  extract_lets gone
  split <;> rename_i heq <;> have h1 := canonical_of_fst heq (State.readPeriod_canonical _ _ _ _ hs)
  · exact h1
  · extract_lets differs
    split
    · exact State.setLed_canonical _ _ h1
    · exact h1

@[simp] theorem State.setHoldBlock_canonical (s : State) (k : Fin 4) (b : HoldBlock) (hs : Canonical s) :
    Canonical (State.setHoldBlock s k b) := by
  simp (maxDischargeDepth := 14) [State.setHoldBlock, hs]

@[simp] theorem State.retireHold_canonical (s : State) (k : Fin 4) (hs : Canonical s) :
    Canonical (State.retireHold s k) := by
  simp (maxDischargeDepth := 14) [State.retireHold, hs]

@[simp] theorem State.eraseHold_canonical (s : State) (k : Fin 4) (hs : Canonical s) :
    Canonical (State.eraseHold s k) := by
  simp (maxDischargeDepth := 14) [State.eraseHold, hs]

@[simp] theorem State.holdErased_canonical (s : State) (k : Fin 4) (verified : Bool) (blankOk : Bool) (hs : Canonical s) :
    Canonical (State.holdErased s k verified blankOk) := by
  simp (maxDischargeDepth := 14) [State.holdErased, hs]

@[simp] theorem State.flashBegin_canonical (s : State) (b : Fin 2) (hs : Canonical s) :
    Canonical (State.flashBegin s b) := by
  unfold State.flashBegin
  dsimp only
  (repeat' split) <;> simp (maxDischargeDepth := 14) [hs]

@[simp] theorem State.stewardPage_canonical (s : State) (addr : Nat) (ws : List Word) (hs : Canonical s) :
    Canonical (State.stewardPage s addr ws) := by
  simp (maxDischargeDepth := 14) [State.stewardPage, hs]

@[simp] theorem State.holdAssemble_canonical (s : State) (q : HoldSeq) (hs : Canonical s) :
    Canonical (State.holdAssemble s q) := by
  unfold State.holdAssemble
  dsimp only
  (repeat' split) <;> simp (maxDischargeDepth := 14) [hs]

@[simp] theorem State.holdNext_canonical (s : State) (k : Fin 4) (q : HoldSeq) (hs : Canonical s) :
    Canonical (State.holdNext s k q) := by
  unfold State.holdNext
  dsimp only
  (repeat' split) <;> simp (maxDischargeDepth := 14) [hs]

@[simp] theorem State.holdPage_canonical (s : State) (q : HoldSeq) (readBack : Bool) (hs : Canonical s) :
    Canonical (State.holdPage s q readBack) := by
  unfold State.holdPage
  dsimp only
  (repeat' split) <;> simp (maxDischargeDepth := 14) [hs]

@[simp] theorem State.holdFinish_canonical (x0 : Nat) (x1 : State) (hx1 : Canonical x1) :
    Canonical (State.holdFinish x0 x1) := by
  induction x0 generalizing x1 with
  | zero => exact hx1
  | succ n ih =>
    unfold State.holdFinish
    split
    · exact hx1
    · split
      · exact hx1
      · exact ih _ (State.holdAssemble_canonical _ _ hx1)
      · exact ih _ (State.holdPage_canonical _ _ _ (State.programDone_canonical _ _ hx1))
      · exact ih _ (State.holdPage_canonical _ _ _ (State.programDone_canonical _ _ hx1))
      · exact ih _ (State.holdPage_canonical _ _ _ (State.programDone_canonical _ _ hx1))
      all_goals exact hx1

@[simp] theorem State.holdConfirm_canonical (s : State) (k : Fin 4) (hs : Canonical s) :
    Canonical (State.holdConfirm s k) := by
  unfold State.holdConfirm
  dsimp only
  generalize List.range 19 = l
  split
  · split
    · exact hs
    · refine State.eraseHold_canonical _ _ (State.unbuffer_canonical _ _ ?_)
      generalize replayPage _ = ws
      exact ⟨hs.1, cellForm_set _ _ hs.2⟩
  · exact hs

@[simp] theorem State.holdConfirmed_canonical (s : State) (hs : Canonical s) : Canonical (State.holdConfirmed s) := by
  simp (maxDischargeDepth := 14) [State.holdConfirmed, hs]

@[simp] theorem State.stewardErased_canonical (s : State) (e : EraseRun) (verified : Bool) (blankOk : Bool) (hs : Canonical s) :
    Canonical (State.stewardErased s e verified blankOk) := by
  unfold State.stewardErased
  dsimp only
  (repeat' split) <;> simp (maxDischargeDepth := 14) [hs]

@[simp] theorem afterRead_canonical (s : State) (x1 : Option (Word × State)) (hs : Canonical s) (hx1 : ∀ r, x1 = some r → Canonical r.2) :
    Canonical (afterRead s x1) := by
  cases x1 with
  | none => exact hs
  | some r => exact hx1 r rfl

@[simp] theorem Memory.setHome_canonical (m : Memory) (line : Nat) (h : HomeLine) (hm : SramForm m.sram) :
    SramForm (Memory.setHome m line h).sram := by
  simp (maxDischargeDepth := 14) [Memory.setHome, hm]

@[simp] theorem Memory.writeTile_canonical (m : Memory) (addr : Nat) (ws : List Word) (hm : SramForm m.sram) :
    SramForm (Memory.writeTile m addr ws).sram := by
  exact sramForm_set _ _ hm

@[simp] theorem Memory.writeLine_canonical (m : Memory) (line : Nat) (d : LineData) (hm : SramForm m.sram) :
    SramForm (Memory.writeLine m line d).sram := by
  simp (maxDischargeDepth := 14) [Memory.writeLine, hm]

@[simp] theorem Memory.send_canonical (m : Memory) (line : Nat) (c : CacheId) (x : CohMsg) (hm : SramForm m.sram) :
    SramForm (Memory.send m line c x).sram := by
  simp (maxDischargeDepth := 14) [Memory.send, hm]

@[simp] theorem Memory.sendAll_canonical (m : Memory) (line : Nat) (cs : List CacheId) (x : CohMsg) (hm : SramForm m.sram) :
    SramForm (Memory.sendAll m line cs x).sram := by
  simp (maxDischargeDepth := 14) (contextual := true) [memory_foldl, Memory.sendAll, hm]

@[simp] theorem Memory.setBusy_canonical (m : Memory) (line : Nat) (t : Option Txn) (hm : SramForm m.sram) :
    SramForm (Memory.setBusy m line t).sram := by
  simp (maxDischargeDepth := 14) [Memory.setBusy, hm]

@[simp] theorem Memory.setDir_canonical (m : Memory) (line : Nat) (d : DirState) (hm : SramForm m.sram) :
    SramForm (Memory.setDir m line d).sram := by
  simp (maxDischargeDepth := 14) [Memory.setDir, hm]

@[simp] theorem Memory.deliver_canonical (m : Memory) (line : Nat) (offset : Nat) (len : Nat) (hm : SramForm m.sram) :
    SramForm (Memory.deliver m line offset len).sram := by
  simp (maxDischargeDepth := 14) [Memory.deliver, hm]

@[simp] theorem Memory.agentPut_canonical (m : Memory) (line : Nat) (offset : Nat) (ws : List Word) (hm : SramForm m.sram) :
    SramForm (Memory.agentPut m line offset ws).sram := by
  unfold Memory.agentPut
  dsimp only
  (repeat' split) <;> simp (maxDischargeDepth := 14) [hm]

@[simp] theorem Memory.invalidate_canonical (m : Memory) (line : Nat) (q : HomeReq) (r : CacheId) (set : Vector Bool 5) (grant : CohMsg) (hm : SramForm m.sram) :
    SramForm (Memory.invalidate m line q r set grant).sram := by
  unfold Memory.invalidate
  dsimp only
  (repeat' split) <;> simp (maxDischargeDepth := 14) [hm]

@[simp] theorem Memory.serveGetM_canonical (m : Memory) (line : Nat) (r : CacheId) (hm : SramForm m.sram) :
    SramForm (Memory.serveGetM m line r).sram := by
  unfold Memory.serveGetM
  dsimp only
  (repeat' split) <;> simp (maxDischargeDepth := 14) [hm]

@[simp] theorem Memory.serve_canonical (m : Memory) (line : Nat) (q : HomeReq) (hm : SramForm m.sram) :
    SramForm (Memory.serve m line q).1.sram := by
  unfold Memory.serve
  dsimp only
  (repeat' split) <;> simp (maxDischargeDepth := 14) [hm]

@[simp] theorem Memory.serveQueue_canonical (line : Nat) (x1 : List HomeReq) (x2 : Memory) (hx2 : SramForm x2.sram) :
    SramForm (Memory.serveQueue line x1 x2).1.sram := by
  induction x1 generalizing x2 with
  | nil => exact Memory.setHome_canonical _ _ _ hx2
  | cons q qs ih =>
    unfold Memory.serveQueue
    dsimp only
    split
    · exact Memory.setHome_canonical _ _ _ (Memory.serve_canonical _ _ _ hx2)
    · exact ih _ (Memory.serve_canonical _ _ _ hx2)

@[simp] theorem Memory.endTxn_canonical (m : Memory) (line : Nat) (d : DirState) (hm : SramForm m.sram) :
    SramForm (Memory.endTxn m line d).1.sram := by
  simp (maxDischargeDepth := 14) [Memory.endTxn, hm]

@[simp] theorem Memory.request_canonical (m : Memory) (line : Nat) (q : HomeReq) (hm : SramForm m.sram) :
    SramForm (Memory.request m line q).1.sram := by
  unfold Memory.request
  dsimp only
  (repeat' split) <;> simp (maxDischargeDepth := 14) [hm]

@[simp] theorem Memory.answer_canonical (m : Memory) (line : Nat) (t : Txn) (o : CacheId) (kept : Bool) (hm : SramForm m.sram) :
    SramForm (Memory.answer m line t o kept).1.sram := by
  unfold Memory.answer
  dsimp only
  (repeat' split) <;> simp (maxDischargeDepth := 14) [hm]

@[simp] theorem Memory.settleRebuild_canonical (m : Memory) (line : Nat) (t : Txn) (hm : SramForm m.sram) :
    SramForm (Memory.settleRebuild m line t).1.sram := by
  unfold Memory.settleRebuild
  dsimp only
  (repeat' split) <;> simp (maxDischargeDepth := 14) [hm]

@[simp] theorem Memory.rebuildAnswer_canonical (m : Memory) (line : Nat) (t : Txn) (c : CacheId) (x : CohMsg) (hm : SramForm m.sram) :
    SramForm (Memory.rebuildAnswer m line t c x).1.sram := by
  unfold Memory.rebuildAnswer
  dsimp only
  split
  · exact hm
  · cases x <;> dsimp only <;> simp [hm]

@[simp] theorem Memory.settleCrossing_canonical (m : Memory) (line : Nat) (t : Txn) (o : CacheId) (hm : SramForm m.sram) :
    SramForm (Memory.settleCrossing m line t o).1.sram := by
  unfold Memory.settleCrossing
  dsimp only
  (repeat' split) <;> simp (maxDischargeDepth := 14) [hm]

@[simp] theorem Memory.notice_canonical (m : Memory) (line : Nat) (r : CacheId) (d : Option LineData) (hm : SramForm m.sram) :
    SramForm (Memory.notice m line r d).1.sram := by
  unfold Memory.notice
  dsimp only
  (repeat' split) <;> simp (maxDischargeDepth := 14) [hm]

@[simp] theorem Memory.response_canonical (m : Memory) (line : Nat) (c : CacheId) (x : CohMsg) (hm : SramForm m.sram) :
    SramForm (Memory.response m line c x).1.sram := by
  unfold Memory.response
  generalize (m.homeOf line).busy = b
  cases b with
  | none => exact hm
  | some t =>
    dsimp only
    split
    · exact Memory.rebuildAnswer_canonical _ _ _ _ _ hm
    cases x
    case invAck =>
      dsimp only
      split
      · exact hm
      · split
        · simp [hm]
        · split <;> simp [hm]
    case snpData =>
      dsimp only
      (repeat' split) <;> simp [hm]
    case snpClean =>
      dsimp only
      (repeat' split) <;> simp [hm]
    case inFlight =>
      dsimp only
      (repeat' split) <;> simp [hm]
    case snpNone =>
      dsimp only
      (repeat' split) <;> simp [hm]
    all_goals exact hm

@[simp] theorem Memory.doneAt_canonical (m : Memory) (line : Nat) (hm : SramForm m.sram) :
    SramForm (Memory.doneAt m line).1.sram := by
  unfold Memory.doneAt
  (repeat' split) <;> simp (maxDischargeDepth := 14) [hm]

@[simp] theorem Memory.putLine_canonical (m : Memory) (c : CacheId) (line : Nat) (l : CacheLine) (hm : SramForm m.sram) :
    SramForm (Memory.putLine m c line l).sram := by
  simp (maxDischargeDepth := 14) [Memory.putLine, hm]

@[simp] theorem Memory.dropLine_canonical (m : Memory) (c : CacheId) (line : Nat) (hm : SramForm m.sram) :
    SramForm (Memory.dropLine m c line).sram := by
  simp (maxDischargeDepth := 14) [Memory.dropLine, hm]

@[simp] theorem Memory.evict_canonical (m : Memory) (c : CacheId) (line : Nat) (hm : SramForm m.sram) :
    SramForm (Memory.evict m c line).sram := by
  unfold Memory.evict
  (repeat' split) <;> simp (maxDischargeDepth := 14) [hm]

@[simp] theorem Memory.room_canonical (m : Memory) (c : CacheId) (line : Nat) (pick : Nat) (hm : SramForm m.sram) :
    SramForm (Memory.room m c line pick).sram := by
  unfold Memory.room
  dsimp only
  (repeat' split) <;> simp (maxDischargeDepth := 14) [hm]

@[simp] theorem Memory.access_canonical (m : Memory) (c : CacheId) (pick : Nat) (w : WaitAccess) (hm : SramForm m.sram) :
    SramForm (Memory.access m c pick w).sram := by
  unfold Memory.access
  dsimp only
  (repeat' split) <;> simp (maxDischargeDepth := 14) [hm]

@[simp] theorem Memory.accesses_canonical (c : CacheId) (pick : Nat) (x2 : List WaitAccess) (x3 : Memory) (hx3 : SramForm x3.sram) :
    SramForm (Memory.accesses c pick x2 x3).sram := by
  induction x2 generalizing x3 with
  | nil => exact hx3
  | cons w ws ih => exact ih _ (Memory.access_canonical _ _ _ _ hx3)

@[simp] theorem Memory.snoopAt_canonical (m : Memory) (c : CacheId) (line : Nat) (k : SnoopKind) (hm : SramForm m.sram) :
    SramForm (Memory.snoopAt m c line k).sram := by
  unfold Memory.snoopAt
  split
  · exact Memory.send_canonical _ _ _ _ hm
  · split
    all_goals refine Memory.send_canonical _ _ _ _ ?_
    all_goals first | exact hm | exact Memory.dropLine_canonical _ _ _ hm | exact Memory.putLine_canonical _ _ _ _ hm

@[simp] theorem Memory.take_canonical (m : Memory) (c : CacheId) (line : Nat) (pick : Nat) (st : LineState) (d : LineData) (err : Bool) (hm : SramForm m.sram) :
    SramForm (Memory.take m c line pick st d err).sram := by
  simp (maxDischargeDepth := 14) [Memory.take, hm]

@[simp] theorem Memory.grantAt_canonical (m : Memory) (c : CacheId) (line : Nat) (pick : Nat) (x : CohMsg) (hm : SramForm m.sram) :
    SramForm (Memory.grantAt m c line pick x).sram := by
  unfold Memory.grantAt
  split
  · exact hm
  · rename_i l _
    cases l.state <;> cases x <;> first | exact hm | exact Memory.take_canonical _ _ _ _ _ _ _ hm

@[simp] theorem Memory.putAckAt_canonical (m : Memory) (c : CacheId) (line : Nat) (pick : Nat) (hm : SramForm m.sram) :
    SramForm (Memory.putAckAt m c line pick).sram := by
  unfold Memory.putAckAt
  (repeat' split) <;> simp (maxDischargeDepth := 14) [hm]

theorem Memory.pop_canonical (m : Memory) (c : CacheId) (line : Nat) (k : MsgClass) (hm : SramForm m.sram) :
    ∀ res, Memory.pop m c line k = some res → SramForm res.2.sram := by
  unfold Memory.pop
  (repeat' split) <;> simp (maxDischargeDepth := 14) [hm]

@[simp] theorem Memory.receive_canonical (m : Memory) (c : CacheId) (line : Nat) (pick : Nat) (x : CohMsg) (hm : SramForm m.sram) :
    SramForm (Memory.receive m c line pick x).1.sram := by
  unfold Memory.receive
  (repeat' split) <;> simp (maxDischargeDepth := 14) [hm]

@[simp] theorem Memory.drain_canonical (line : Nat) (pick : Nat) (x2 : Nat) (x3 : Memory) (hx3 : SramForm x3.sram) :
    SramForm (Memory.drain line pick x2 x3).sram := by
  induction x2 generalizing x3 with
  | zero => exact hx3
  | succ n ih =>
    unfold Memory.drain
    split
    · exact hx3
    · exact ih _ (Memory.receive_canonical _ _ _ _ _ hx3)

@[simp] theorem State.draw_canonical (s : State) (hs : Canonical s) : Canonical (State.draw s).2 := by
  simp (maxDischargeDepth := 14) [State.draw, hs]

@[simp] theorem State.strayPuts_canonical (line : Nat) (x1 : Nat) (x2 : State) (hx2 : Canonical x2) :
    Canonical (State.strayPuts line x1 x2) := by
  induction x1 generalizing x2 with
  | zero => exact hx2
  | succ n ih => exact ih _ (by simp [hx2])

@[simp] theorem State.rebuildLine_canonical (s : State) (line : Nat) (hs : Canonical s) :
    Canonical (State.rebuildLine s line) := by
  simp (maxDischargeDepth := 14) [State.rebuildLine, hs]

@[simp] theorem State.rebuildCache_canonical (s : State) (c : CacheId) (pick : Nat) (hs : Canonical s) :
    Canonical (State.rebuildCache s c pick) := by
  simp (maxDischargeDepth := 14) (contextual := true) [canonical_foldl, State.rebuildCache, hs]

@[simp] theorem State.deliverMsg_canonical (s : State) (c : CacheId) (line : Nat) (k : MsgClass) (hs : Canonical s) :
    Canonical (State.deliverMsg s c line k) := by
  unfold State.deliverMsg
  split
  · exact hs
  · rename_i x m heq
    have hm : SramForm m.sram := Memory.pop_canonical _ _ _ _ hs.1 _ heq
    exact State.strayPuts_canonical _ _ _ ⟨Memory.receive_canonical _ _ _ _ _ hm, (State.draw_canonical s hs).2⟩

@[simp] theorem Memory.cohWriteLine_canonical (m : Memory) (pick : Nat) (addr : Nat) (ws : List Word) (hm : SramForm m.sram) :
    SramForm (Memory.cohWriteLine m pick addr ws).sram := by
  unfold Memory.cohWriteLine
  refine Memory.setDir_canonical _ _ _ (Memory.writeLine_canonical _ _ _ (memory_foldl _ (fun s x h => ?_) _ _ (Memory.drain_canonical _ _ _ _ hm)))
  dsimp only
  split
  · exact h
  · split
    · exact Memory.dropLine_canonical _ _ _ h
    · exact h

@[simp] theorem Memory.cohWrite_canonical (pick : Nat) (x1 : Nat) (x2 : Nat) (x3 : List Word) (x4 : Memory) (hx4 : SramForm x4.sram) :
    SramForm (Memory.cohWrite pick x1 x2 x3 x4).sram := by
  induction x1 generalizing x2 x3 x4 with
  | zero => exact hx4
  | succ n ih =>
    unfold Memory.cohWrite
    split
    · exact hx4
    · exact ih _ _ _ (Memory.cohWriteLine_canonical _ _ _ _ hx4)

@[simp] theorem State.cohWrite_canonical (s : State) (addr : Nat) (ws : List Word) (hs : Canonical s) :
    Canonical (State.cohWrite s addr ws) := by
  simp (maxDischargeDepth := 14) [State.cohWrite, hs]

@[simp] theorem State.setPer_canonical (s : State) (p : Periph) (hs : Canonical s) :
    Canonical (State.setPer s p) := by
  simp (maxDischargeDepth := 14) [State.setPer, hs]

@[simp] theorem State.setDma_canonical (s : State) (i : DmaIndex) (c : DmaChannel) (hs : Canonical s) :
    Canonical (State.setDma s i c) := by
  simp (maxDischargeDepth := 14) [State.setDma, hs]

@[simp] theorem State.dmaCtl_canonical (s : State) (i : DmaIndex) (v : Word) (hs : Canonical s) :
    Canonical (State.dmaCtl s i v) := by
  unfold State.dmaCtl
  dsimp only
  (repeat' split) <;> simp (maxDischargeDepth := 14) [hs]

@[simp] theorem State.dmaStore_canonical (s : State) (c : DmaChannel) (ws : List Word) (hs : Canonical s) :
    Canonical (State.dmaStore s c ws) := by
  unfold State.dmaStore
  (repeat' split) <;> simp (maxDischargeDepth := 14) [hs]

@[simp] theorem State.dmaLine_canonical (s : State) (i : DmaIndex) (ec : BitVec 2) (tileErr : Bool) (hs : Canonical s) :
    Canonical (State.dmaLine s i ec tileErr) := by
  unfold State.dmaLine
  extract_lets c n c1 put a
  have hp : ∀ s ws, Canonical s → Canonical (put s ws) := fun s ws h => State.setDma_canonical _ _ _ (State.dmaStore_canonical _ _ _ h)
  clear_value put
  split
  · exact hs
  · split
    · exact State.setDma_canonical _ _ _ hs
    · split
      · split <;> rename_i heq <;> have h1 := canonical_of_snd heq (State.flashDirect_canonical _ _ _ _ _ hs)
        · exact hp _ _ h1
        · exact State.setDma_canonical _ _ _ h1
        · exact State.setDma_canonical _ _ _ h1
      · split
        · exact State.setDma_canonical _ _ _ hs
        · exact hp _ _ hs

@[simp] theorem State.dmaAdc_canonical (s : State) (hs : Canonical s) : Canonical (State.dmaAdc s) := by
  unfold State.dmaAdc
  dsimp only
  (repeat' split) <;> simp (maxDischargeDepth := 14) [hs]

@[simp] theorem State.dmaRead_canonical (s : State) (i : DmaIndex) (off : Nat) (hs : Canonical s) :
    Canonical (State.dmaRead s i off).2 := by
  unfold State.dmaRead
  dsimp only
  (repeat' split) <;> simp (maxDischargeDepth := 14) [hs]

@[simp] theorem State.dmaWrite_canonical (s : State) (i : DmaIndex) (off : Nat) (v : Word) (hs : Canonical s) :
    Canonical (State.dmaWrite s i off v) := by
  unfold State.dmaWrite
  dsimp only
  (repeat' split) <;> simp (maxDischargeDepth := 14) [hs]

@[simp] theorem State.ppsEdge_canonical (s : State) (hs : Canonical s) : Canonical (State.ppsEdge s) := by
  simp (maxDischargeDepth := 14) [State.ppsEdge, hs]

@[simp] theorem State.setCanb_canonical (s : State) (c : CanB) (hs : Canonical s) :
    Canonical (State.setCanb s c) := by
  simp (maxDischargeDepth := 14) [State.setCanb, hs]

@[simp] theorem State.setI2c_canonical (s : State) (c : I2c) (hs : Canonical s) :
    Canonical (State.setI2c s c) := by
  simp (maxDischargeDepth := 14) [State.setI2c, hs]

@[simp] theorem State.setSspi_canonical (s : State) (c : Sspi) (hs : Canonical s) :
    Canonical (State.setSspi s c) := by
  simp (maxDischargeDepth := 14) [State.setSspi, hs]

@[simp] theorem State.setGnss_canonical (s : State) (c : Gnss) (hs : Canonical s) :
    Canonical (State.setGnss s c) := by
  simp (maxDischargeDepth := 14) [State.setGnss, hs]

@[simp] theorem State.setGpio_canonical (s : State) (c : Gpio) (hs : Canonical s) :
    Canonical (State.setGpio s c) := by
  simp (maxDischargeDepth := 14) [State.setGpio, hs]

@[simp] theorem State.setCon_canonical (s : State) (c : Concord) (hs : Canonical s) :
    Canonical (State.setCon s c) := by
  simp (maxDischargeDepth := 14) [State.setCon, hs]

@[simp] theorem State.sendPlain_canonical (s : State) (type : Nat) (dst : Nat) (tie : Nat) (body : List Octet) (hs : Canonical s) :
    Canonical (State.sendPlain s type dst tie body) := by
  simp (maxDischargeDepth := 14) [State.sendPlain, hs]

@[simp] theorem State.mapMember_canonical (s : State) (node : Nat) (f : Member → Member) (hs : Canonical s) :
    Canonical (State.mapMember s node f) := by
  simp (maxDischargeDepth := 14) [State.mapMember, hs]

@[simp] theorem State.mapSession_canonical (s : State) (node : Nat) (f : Session → Session) (hs : Canonical s) :
    Canonical (State.mapSession s node f) := by
  simp (maxDischargeDepth := 14) [State.mapSession, hs]

@[simp] theorem State.sendSecuredTo_canonical (s : State) (type : Nat) (node : Nat) (dst : Nat) (tie : Nat) (body : List Octet) (hs : Canonical s) :
    Canonical (State.sendSecuredTo s type node dst tie body) := by
  unfold State.sendSecuredTo
  dsimp only
  (repeat' split) <;> simp (maxDischargeDepth := 14) [hs]

@[simp] theorem State.sendSecured_canonical (s : State) (type : Nat) (dst : Nat) (body : List Octet) (hs : Canonical s) :
    Canonical (State.sendSecured s type dst body) := by
  simp (maxDischargeDepth := 14) [State.sendSecured, hs]

@[simp] theorem State.discardFrame_canonical (s : State) (hs : Canonical s) : Canonical (State.discardFrame s) := by
  simp (maxDischargeDepth := 14) [State.discardFrame, hs]

@[simp] theorem State.takeFragment_canonical (s : State) (f : CanFrame) (x : Fragment) (act : State → Nat → List Octet → State) (hs : Canonical s) (hact : ∀ s n l, Canonical s → Canonical (act s n l)) :
    Canonical (State.takeFragment s f x act) := by
  unfold State.takeFragment
  dsimp only
  (repeat' split) <;> simp (maxDischargeDepth := 14) [hs, hact]

@[simp] theorem State.securedFrame_canonical (s : State) (x : Session) (f : CanFrame) (failed : State) (act : State → Nat → List Octet → State) (hs : Canonical s) (hfailed : Canonical failed) (hact : ∀ s n l, Canonical s → Canonical (act s n l)) :
    Canonical (State.securedFrame s x f failed act) := by
  unfold State.securedFrame
  extract_lets y
  split
  · exact State.discardFrame_canonical _ hs
  · split
    · exact hfailed
    · split
      · exact State.takeFragment_canonical _ _ _ _ hs hact
      · split
        · exact State.takeFragment_canonical _ _ _ _ (State.mapSession_canonical _ _ _ hs) hact
        · exact State.discardFrame_canonical _ hs

@[simp] theorem State.countMac_canonical (s : State) (hs : Canonical s) : Canonical (State.countMac s) := by
  simp (maxDischargeDepth := 14) [State.countMac, hs]

@[simp] theorem State.quiet_canonical (s : State) (hs : Canonical s) : Canonical (State.quiet s) := by
  simp (maxDischargeDepth := 14) [State.quiet, hs]

@[simp] theorem State.heardFrame_canonical (s : State) (hs : Canonical s) : Canonical (State.heardFrame s) := by
  simp (maxDischargeDepth := 14) [State.heardFrame, hs]

@[simp] theorem State.onFrame_canonical (s : State) (type : Nat) (f : CanFrame) (take : State → State) (hs : Canonical s) (htake : ∀ s, Canonical s → Canonical (take s)) :
    Canonical (State.onFrame s type f take) := by
  simp (maxDischargeDepth := 14) [State.onFrame, hs, htake]

@[simp] theorem State.onPlain_canonical (s : State) (type : Nat) (fs : List CanFrame) (ok : Nat → Bool) (act : State → Nat → List Octet → State) (hs : Canonical s) (hact : ∀ s n l, Canonical s → Canonical (act s n l)) :
    Canonical (State.onPlain s type fs ok act) := by
  simp (maxDischargeDepth := 14) (contextual := true) [canonical_foldl, apply_ite, State.onPlain, hs, hact]

@[simp] theorem State.sendMembers_canonical (s : State) (type : Nat) (body : Member → List Octet) (hs : Canonical s) :
    Canonical (State.sendMembers s type body) := by
  simp (maxDischargeDepth := 14) (contextual := true) [canonical_foldl, State.sendMembers, hs]

@[simp] theorem State.sendPeers_canonical (s : State) (type : Nat) (body : List Octet) (hs : Canonical s) :
    Canonical (State.sendPeers s type body) := by
  simp (maxDischargeDepth := 14) [State.sendPeers, hs]

@[simp] theorem State.offerTime_canonical (s : State) (hs : Canonical s) : Canonical (State.offerTime s) := by
  simp (maxDischargeDepth := 14) [State.offerTime, hs]

@[simp] theorem State.remerge_canonical (s : State) (hs : Canonical s) : Canonical (State.remerge s) := by
  simp (maxDischargeDepth := 14) [State.remerge, hs]

@[simp] theorem State.relayEnds_canonical (s : State) (p : Nat → Bool) (hs : Canonical s) :
    Canonical (State.relayEnds s p) := by
  unfold State.relayEnds
  dsimp only
  (repeat' split) <;> simp (maxDischargeDepth := 14) [hs]

@[simp] theorem State.endMembers_canonical (s : State) (cause : Nat) (leave : Bool) (p : Member → Bool) (hs : Canonical s) :
    Canonical (State.endMembers s cause leave p) := by
  unfold State.endMembers
  extract_lets gone s1 dockGone x1 s2 s3 s4 s5
  have h1 : Canonical s1 := by
    simp only [s1]
    split
    · exact canonical_foldl _ (fun s x h => by simp [h]) _ _ hs
    · exact hs
  clear_value s1
  have h2 : Canonical s2 := h1
  clear_value s2
  have h3 : Canonical s3 := State.endSegments_canonical _ _ _ _ _ h2
  clear_value s3
  have h4 : Canonical s4 := by
    simp only [s4]
    split <;> simp [h3]
  clear_value s4
  have h5 : Canonical s5 := canonical_foldl _ (fun s x h => by simp [h]) _ _ h4
  clear_value s5
  split
  · exact hs
  · exact State.writeLimits_canonical _ (State.remerge_canonical _ (State.relayEnds_canonical _ _ h5))

@[simp] theorem State.dropSession_canonical (s : State) (phase : MemberPhase) (hs : Canonical s) :
    Canonical (State.dropSession s phase) := by
  simp (maxDischargeDepth := 14) [State.dropSession, hs]

@[simp] theorem State.memberEnded_canonical (s : State) (cause : Nat) (hs : Canonical s) :
    Canonical (State.memberEnded s cause) := by
  simp (maxDischargeDepth := 14) [State.memberEnded, hs]

@[simp] theorem State.sendJoinReq_canonical (s : State) (hs : Canonical s) : Canonical (State.sendJoinReq s) := by
  simp (maxDischargeDepth := 14) [State.sendJoinReq, hs]

@[simp] theorem State.hearVehicle_canonical (s : State) (m : AnnounceMsg) (hs : Canonical s) :
    Canonical (State.hearVehicle s m) := by
  unfold State.hearVehicle
  dsimp only
  (repeat' split) <;> simp (maxDischargeDepth := 14) (contextual := true) [hs]

@[simp] theorem State.announced_canonical (s : State) (m : AnnounceMsg) (hs : Canonical s) :
    Canonical (State.announced s m) := by
  simp (maxDischargeDepth := 14) [State.announced, hs]

@[simp] theorem State.refuseJoin_canonical (s : State) (j : JoinRequest) (reason : Nat) (hs : Canonical s) :
    Canonical (State.refuseJoin s j reason) := by
  simp (maxDischargeDepth := 14) [State.refuseJoin, hs]

@[simp] theorem State.serveJoin_canonical (s : State) (j : JoinRequest) (hs : Canonical s) :
    Canonical (State.serveJoin s j) := by
  unfold State.serveJoin
  dsimp only
  (repeat' split) <;> simp (maxDischargeDepth := 14) [hs]

@[simp] theorem State.serveNext_canonical (x0 : Nat) (x1 : State) (hx1 : Canonical x1) :
    Canonical (State.serveNext x0 x1) := by
  induction x0 generalizing x1 with
  | zero => exact hx1
  | succ n ih =>
    unfold State.serveNext
    split
    · exact ih _ (by simp [hx1])
    · exact hx1

@[simp] theorem State.joinReq_canonical (s : State) (j : JoinRequest) (hs : Canonical s) :
    Canonical (State.joinReq s j) := by
  simp (maxDischargeDepth := 14) [State.joinReq, hs]

@[simp] theorem State.takeIn_canonical (s1 : State) (j : JoinRequest) (keys : List Octet) (hs1 : Canonical s1) :
    Canonical (State.takeIn s1 j keys) := by
  simp (maxDischargeDepth := 14) [State.takeIn, hs1]

@[simp] theorem State.joinProof_canonical (s : State) (proof : List Octet) (hs : Canonical s) :
    Canonical (State.joinProof s proof) := by
  unfold State.joinProof
  dsimp only
  (repeat' split) <;> simp (maxDischargeDepth := 14) [hs]

@[simp] theorem State.joinFails_canonical (s : State) (hs : Canonical s) : Canonical (State.joinFails s) := by
  simp (maxDischargeDepth := 14) [State.joinFails, hs]

@[simp] theorem State.joinChal_canonical (s : State) (b : List Octet) (hs : Canonical s) :
    Canonical (State.joinChal s b) := by
  unfold State.joinChal
  dsimp only
  (repeat' split) <;> simp (maxDischargeDepth := 14) [hs]

@[simp] theorem State.joinAccepted_canonical (s : State) (b : List Octet) (hs : Canonical s) :
    Canonical (State.joinAccepted s b) := by
  simp (maxDischargeDepth := 14) [State.joinAccepted, hs]

@[simp] theorem State.joinRefused_canonical (s : State) (b : List Octet) (hs : Canonical s) :
    Canonical (State.joinRefused s b) := by
  simp (maxDischargeDepth := 14) [State.joinRefused, hs]

@[simp] theorem State.resultFrame_canonical (s : State) (f : CanFrame) (hs : Canonical s) :
    Canonical (State.resultFrame s f) := by
  unfold State.resultFrame
  dsimp only
  (repeat' split) <;> simp (maxDischargeDepth := 14) (contextual := true) [hs]

@[simp] theorem State.macFailed_canonical (s : State) (node : Nat) (hs : Canonical s) :
    Canonical (State.macFailed s node) := by
  unfold State.macFailed
  dsimp only
  (repeat' split) <;> simp (maxDischargeDepth := 14) [hs]

@[simp] theorem State.onSecured_canonical (s : State) (type : Nat) (fs : List CanFrame) (ok : Nat → Bool) (act : State → Nat → List Octet → State) (hs : Canonical s) (hact : ∀ s n l, Canonical s → Canonical (act s n l)) :
    Canonical (State.onSecured s type fs ok act) := by
  unfold State.onSecured
  refine canonical_foldl _ (fun s f h => State.onFrame_canonical _ _ _ _ h (fun s h => ?_)) _ _ (State.quiet_canonical _ hs)
  split
  · exact State.discardFrame_canonical _ h
  · split
    · exact State.discardFrame_canonical _ h
    · refine State.securedFrame_canonical _ _ _ _ _ h (State.macFailed_canonical _ _ h) (fun s n l h => ?_)
      split
      · exact hact _ _ _ h
      · exact State.discardFrame_canonical _ h

@[simp] theorem State.startRekey_canonical (s : State) (node : Nat) (hs : Canonical s) :
    Canonical (State.startRekey s node) := by
  simp (maxDischargeDepth := 14) [State.startRekey, hs]

@[simp] theorem State.rekeyed_canonical (s : State) (node : Nat) (b : List Octet) (hs : Canonical s) :
    Canonical (State.rekeyed s node b) := by
  unfold State.rekeyed
  dsimp only
  (repeat' split) <;> simp (maxDischargeDepth := 14) [hs]

@[simp] theorem State.endSpent_canonical (s : State) (hs : Canonical s) : Canonical (State.endSpent s) := by
  unfold State.endSpent
  (repeat' split) <;> simp (maxDischargeDepth := 14) [hs]

@[simp] theorem State.settleOffer_canonical (s : State) (wall : Nat) (fraction : Nat) (cls : Nat) (peer : Role) (dt : Nat) (hs : Canonical s) :
    Canonical (State.settleOffer s wall fraction cls peer dt) := by
  simp (maxDischargeDepth := 14) [State.settleOffer, hs]

@[simp] theorem State.sendReport_canonical (s : State) (hs : Canonical s) : Canonical (State.sendReport s) := by
  simp (maxDischargeDepth := 14) [State.sendReport, hs]

@[simp] theorem State.takeReport_canonical (s : State) (node : Nat) (r : EnergyReport) (hs : Canonical s) :
    Canonical (State.takeReport s node r) := by
  unfold State.takeReport
  dsimp only
  (repeat' split) <;> simp (maxDischargeDepth := 14) [hs]

@[simp] theorem State.requestReports_canonical (s : State) (hs : Canonical s) : Canonical (State.requestReports s) := by
  simp (maxDischargeDepth := 14) (contextual := true) [canonical_foldl, apply_ite, State.requestReports, hs]

@[simp] theorem State.endRide_canonical (s : State) (cause : Nat) (w : RingWrite) (hs : Canonical s) :
    Canonical (State.endRide s cause w).1 := by
  simp (maxDischargeDepth := 14) [State.endRide, hs]

@[simp] theorem State.busOff_canonical (s : State) (hs : Canonical s) : Canonical (State.busOff s) := by
  simp (maxDischargeDepth := 14) [State.busOff, hs]

@[simp] theorem State.busError_canonical (s : State) (te : Nat) (re : Nat) (hs : Canonical s) :
    Canonical (State.busError s te re) := by
  simp (maxDischargeDepth := 14) [State.busError, hs]

@[simp] theorem State.persistPack_canonical (s : State) (hs : Canonical s) : Canonical (State.persistPack s) := by
  simp (maxDischargeDepth := 14) [State.persistPack, hs]

@[simp] theorem State.afeSample_canonical (s : State) (rsp : List (List Octet)) (dt : Nat) (hs : Canonical s) :
    Canonical (State.afeSample s rsp dt) := by
  simp (maxDischargeDepth := 14) [State.afeSample, hs]

@[simp] theorem State.memberBeat_canonical (s : State) (node : Nat) (epoch : Nat) (tier : Nat) (flags : Octet) (hs : Canonical s) :
    Canonical (State.memberBeat s node epoch tier flags) := by
  simp (maxDischargeDepth := 14) [State.memberBeat, hs]

@[simp] theorem State.vehicleBeat_canonical (s : State) (epoch : Nat) (tier : Nat) (level : Nat) (hs : Canonical s) :
    Canonical (State.vehicleBeat s epoch tier level) := by
  simp (maxDischargeDepth := 14) [State.vehicleBeat, hs]

@[simp] theorem State.takeOffer_canonical (s : State) (node : Nat) (number : Nat) (params : FleetParams) (hs : Canonical s) :
    Canonical (State.takeOffer s node number params) := by
  unfold State.takeOffer
  dsimp only
  (repeat' split) <;> simp (maxDischargeDepth := 14) (contextual := true) [canonical_foldl, hs]

@[simp] theorem State.setCore_canonical (s : State) (i : Fin 4) (c : CoreState) (hs : Canonical s) :
    Canonical (State.setCore s i c) := by
  simp (maxDischargeDepth := 14) [State.setCore, hs]

@[simp] theorem State.trace_canonical (s : State) (i : Fin 4) (kind : Nat) (payload : List Octet) (hs : Canonical s) :
    Canonical (State.trace s i kind payload) := by
  simp (maxDischargeDepth := 14) [State.trace, hs]

@[simp] theorem State.traceDrain_canonical (s : State) (hs : Canonical s) : Canonical (State.traceDrain s) := by
  unfold State.traceDrain
  dsimp only
  (repeat' split) <;> simp (maxDischargeDepth := 14) [hs]

@[simp] theorem State.putTileOctets_canonical (s : State) (a : Nat) (os : List Octet) (hs : Canonical s) :
    Canonical (State.putTileOctets s a os) := by
  simp (maxDischargeDepth := 14) [State.putTileOctets, hs]

@[simp] theorem State.vectorPerform_canonical (s : State) (i : Fin 4) (d : Dispatch) (hs : Canonical s) :
    Canonical (State.vectorPerform s i d).1 := by
  simp (maxDischargeDepth := 14) [State.vectorPerform, hs]

@[simp] theorem State.cryptoPerform_canonical (s : State) (i : Fin 4) (d : Dispatch) (hs : Canonical s) :
    Canonical (State.cryptoPerform s i d).1 := by
  unfold State.cryptoPerform
  dsimp only
  (repeat' split) <;> simp (maxDischargeDepth := 14) [hs]

@[simp] theorem State.copPerform_canonical (s : State) (i : Fin 4) (d : Dispatch) (hs : Canonical s) :
    Canonical (State.copPerform s i d).1 := by
  simp (maxDischargeDepth := 14) [State.copPerform, hs]

@[simp] theorem State.retarget_canonical (s : State) (hs : Canonical s) : Canonical (State.retarget s) := by
  simp (maxDischargeDepth := 14) [State.retarget, hs]

@[simp] theorem State.opreqWrite_canonical (s : State) (i : Fin 4) (v : Word) (hs : Canonical s) :
    Canonical (State.opreqWrite s i v) := by
  simp (maxDischargeDepth := 14) [State.opreqWrite, hs]

@[simp] theorem State.setWdt_canonical (s : State) (i : Fin 4) (w : CoreWdt) (hs : Canonical s) :
    Canonical (State.setWdt s i w) := by
  simp (maxDischargeDepth := 14) [State.setWdt, hs]

@[simp] theorem State.wdtWrite_canonical (s : State) (i : Fin 4) (v : Word) (hs : Canonical s) :
    Canonical (State.wdtWrite s i v) := by
  simp (maxDischargeDepth := 14) [State.wdtWrite, hs]

@[simp] theorem State.loadTiles_canonical (s : State) (ws : List Word) (hs : Canonical s) :
    Canonical (State.loadTiles s ws) := by
  unfold State.loadTiles
  dsimp only
  refine ⟨?_, hs.2⟩
  have key : SramForm ((imageSections ws).foldl (fun m x =>
      if x.kind = 1 || x.kind = 2 then memSetList 0 x.load x.contents m
      else if x.kind = 3 then memClear x.load (x.load + x.len) m
      else m) (memClear 0x110000 0x200000 s.mem.sram)) := by
    refine form_foldl _ (fun m x h => ?_) _ _ (sramForm_clear _ _ hs.1)
    split
    · exact sramForm_set _ _ h
    · split
      · exact sramForm_clear _ _ h
      · exact h
  dsimp only
  split
  · exact key
  · exact sramForm_set _ _ key

@[simp] theorem State.takeRoutes_canonical (s : State) (i : Fin 4) (e : EntryNo) (hs : Canonical s) :
    Canonical (State.takeRoutes s i e) := by
  simp (maxDischargeDepth := 14) [State.takeRoutes, hs]

@[simp] theorem State.finishReleased_canonical (s : State) (i : Fin 4) (hs : Canonical s) :
    Canonical (State.finishReleased s i) := by
  unfold State.finishReleased
  refine canonical_foldl _ (fun s x h => ?_) _ _ hs
  split
  · exact State.copPerform_canonical _ _ _ h
  · exact h

@[simp] theorem State.startCore_canonical (s : State) (ws : List Word) (i : Fin 4) (e : EntryNo) (hs : Canonical s) :
    Canonical (State.startCore s ws i e) := by
  simp (maxDischargeDepth := 14) [State.startCore, hs]

@[simp] theorem State.startPrograms_canonical (s : State) (bad : Bool) (hs : Canonical s) :
    Canonical (State.startPrograms s bad) := by
  unfold State.startPrograms
  dsimp only
  (repeat' split) <;> simp (maxDischargeDepth := 14) (contextual := true) [canonical_foldl, hs]

@[simp] theorem Memory.flushCache_canonical (m : Memory) (c : CacheId) (hm : SramForm m.sram) :
    SramForm (Memory.flushCache m c).sram := by
  simp (maxDischargeDepth := 14) (contextual := true) [memory_foldl, Memory.flushCache, hm]

@[simp] theorem State.dmaResetCore_canonical (s : State) (i : Fin 4) (hs : Canonical s) :
    Canonical (State.dmaResetCore s i) := by
  simp (maxDischargeDepth := 14) [State.dmaResetCore, hs]

@[simp] theorem State.stopCore_canonical (s0 : State) (i : Fin 4) (run : RunState) (hs0 : Canonical s0) :
    Canonical (State.stopCore s0 i run) := by
  unfold State.stopCore
  dsimp only
  (repeat' split) <;> simp (maxDischargeDepth := 14) [hs0]

@[simp] theorem State.stopAll_canonical (s : State) (hs : Canonical s) : Canonical (State.stopAll s) := by
  simp (maxDischargeDepth := 14) (contextual := true) [canonical_foldl, apply_ite, State.stopAll, hs]

@[simp] theorem State.coreReset_canonical (s : State) (i : Fin 4) (cause : Nat) (hs : Canonical s) :
    Canonical (State.coreReset s i cause) := by
  unfold State.coreReset
  dsimp only
  (repeat' split) <;> simp (maxDischargeDepth := 14) [hs]

@[simp] theorem State.setPresence_canonical (s : State) (p : Presence) (hs : Canonical s) :
    Canonical (State.setPresence s p) := by
  simp (maxDischargeDepth := 14) [State.setPresence, hs]

@[simp] theorem State.applyVehicle_canonical (s : State) (hs : Canonical s) : Canonical (State.applyVehicle s) := by
  simp (maxDischargeDepth := 14) [State.applyVehicle, hs]

@[simp] theorem State.applyFleet_canonical (s : State) (hs : Canonical s) : Canonical (State.applyFleet s) := by
  simp (maxDischargeDepth := 14) [State.applyFleet, hs]

@[simp] theorem State.applyDomain_canonical (s : State) (d : EdDomain) (hs : Canonical s) :
    Canonical (State.applyDomain s d) := by
  unfold State.applyDomain
  (repeat' split) <;> simp (maxDischargeDepth := 14) [hs]

@[simp] theorem State.applyDomains_canonical (s : State) (l : List EdDomain) (hs : Canonical s) :
    Canonical (State.applyDomains s l) := by
  simp (maxDischargeDepth := 14) (contextual := true) [canonical_foldl, State.applyDomains, hs]

@[simp] theorem State.restartPrograms_canonical (s : State) (bad : Bool) (hs : Canonical s) :
    Canonical (State.restartPrograms s bad) := by
  simp (maxDischargeDepth := 14) [State.restartPrograms, hs]

@[simp] theorem State.rollBack_canonical (s : State) (m : BitVec 5) (program : Bool) (cause : Nat) (e : StoreEnv) (hs : Canonical s) :
    Canonical (State.rollBack s m program cause e).1 := by
  simp (maxDischargeDepth := 14) [State.rollBack, hs]

@[simp] theorem State.settleProbation_canonical (s : State) (e : StoreEnv) (hs : Canonical s) :
    Canonical (State.settleProbation s e) := by
  unfold State.settleProbation
  (repeat' split) <;> simp (maxDischargeDepth := 14) [hs]

@[simp] theorem State.failProbation_canonical (s : State) (cause : Nat) (e : StoreEnv) (hs : Canonical s) :
    Canonical (State.failProbation s cause e) := by
  unfold State.failProbation
  dsimp only
  (repeat' split) <;> simp (maxDischargeDepth := 14) [hs]

@[simp] theorem State.passProbation_canonical (s : State) (w : StoreWrite) (hs : Canonical s) :
    Canonical (State.passProbation s w).1 := by
  unfold State.passProbation
  dsimp only
  (repeat' split) <;> simp (maxDischargeDepth := 14) [hs]

@[simp] theorem State.rideCounted_canonical (s : State) (e : StoreEnv) (hs : Canonical s) :
    Canonical (State.rideCounted s e) := by
  unfold State.rideCounted
  dsimp only
  (repeat' split) <;> simp (maxDischargeDepth := 14) [hs]

@[simp] theorem State.rideEnded_canonical (s : State) (cause : Nat) (w : RingWrite) (e : StoreEnv) (hs : Canonical s) :
    Canonical (State.rideEnded s cause w e) := by
  unfold State.rideEnded
  split <;> rename_i heq <;> have h1 := canonical_of_fst heq (State.endRide_canonical _ _ _ hs)
  · exact h1
  · exact State.rideCounted_canonical _ _ h1

@[simp] theorem State.activateZheyr_canonical (s : State) (w : StoreWrite) (hs : Canonical s) :
    Canonical (State.activateZheyr s w) := by
  unfold State.activateZheyr
  dsimp only
  (repeat' split) <;> simp (maxDischargeDepth := 14) (contextual := true) [hs]

@[simp] theorem State.twinFound_canonical (s : State) (e : StoreEnv) (start : Bool) (d : EdDomain) (j : Fin 3) (known : Bool) (hs : Canonical s) :
    Canonical (State.twinFound s e start d j known) := by
  unfold State.twinFound
  dsimp only
  (repeat' split) <;> simp (maxDischargeDepth := 14) (contextual := true) [hs]

@[simp] theorem State.compareTwins_canonical (s : State) (e : StoreEnv) (start : Bool) (hs : Canonical s) :
    Canonical (State.compareTwins s e start) := by
  simp (maxDischargeDepth := 14) (contextual := true) [canonical_foldl, apply_ite, State.compareTwins, hs]

@[simp] theorem State.commit_canonical (s : State) (m : BitVec 5) (program : Bool) (zheyr : Bool) (e : StoreEnv) (hs : Canonical s) :
    Canonical (State.commit s m program zheyr e).1 := by
  unfold State.commit
  dsimp only
  (repeat' split) <;> simp (maxDischargeDepth := 14) (contextual := true) [canonical_foldl, hs]

@[simp] theorem State.dockCommit_canonical (s : State) (e : StoreEnv) (hs : Canonical s) :
    Canonical (State.dockCommit s e) := by
  simp (maxDischargeDepth := 14) [State.dockCommit, hs]

@[simp] theorem State.askCustody_canonical (s : State) (hs : Canonical s) : Canonical (State.askCustody s) := by
  simp (maxDischargeDepth := 14) [State.askCustody, hs]

@[simp] theorem State.recognise_canonical (s : State) (x : Sources) (e : StoreEnv) (hs : Canonical s) :
    Canonical (State.recognise s x e) := by
  simp (maxDischargeDepth := 14) [State.recognise, hs]

@[simp] theorem State.closeWindow_canonical (s : State) (cause : Nat) (hs : Canonical s) :
    Canonical (State.closeWindow s cause) := by
  simp (maxDischargeDepth := 14) [State.closeWindow, hs]

@[simp] theorem State.stage_canonical (s : State) (d : EdDomain) (ws : List Word) (w : StoreWrite) (hs : Canonical s) :
    Canonical (State.stage s d ws w).1 := by
  unfold State.stage
  (repeat' split) <;> simp (maxDischargeDepth := 14) [hs]

@[simp] theorem State.assemble_canonical (s : State) (cmd : Nat) (selector : Nat) (q : Part) (hs : Canonical s) :
    Canonical (State.assemble s cmd selector q).1 := by
  unfold State.assemble
  dsimp only
  (repeat' split) <;> simp (maxDischargeDepth := 14) [hs]

@[simp] theorem State.setPow_canonical (s : State) (p : Power) (hs : Canonical s) :
    Canonical (State.setPow s p) := by
  simp (maxDischargeDepth := 14) [State.setPow, hs]

@[simp] theorem State.setBoot_canonical (s : State) (b : Boot) (hs : Canonical s) :
    Canonical (State.setBoot s b) := by
  simp (maxDischargeDepth := 14) [State.setBoot, hs]

@[simp] theorem Flash.unpowered_canonical (f : Flash) (hf : CellForm f.cells) : CellForm (Flash.unpowered f).cells := by
  simp (maxDischargeDepth := 14) [Flash.unpowered, hf]

@[simp] theorem State.loseDomain_canonical (s : State) (cut : Vector PageCut 2) (hs : Canonical s) :
    Canonical (State.loseDomain s cut) := by
  unfold State.loseDomain
  dsimp only
  have h := State.flashLost_canonical _ 1 (cut.get 1) (State.flashLost_canonical _ 0 (cut.get 0) hs)
  exact ⟨rfl, Flash.unpowered_canonical _ h.2⟩

@[simp] theorem State.toAo_canonical (s : State) (cut : Vector PageCut 2) (hs : Canonical s) :
    Canonical (State.toAo s cut) := by
  simp (maxDischargeDepth := 14) [State.toAo, hs]

@[simp] theorem State.toAoUnready_canonical (s : State) (cut : Vector PageCut 2) (hs : Canonical s) :
    Canonical (State.toAoUnready s cut) := by
  simp (maxDischargeDepth := 14) [State.toAoUnready, hs]

@[simp] theorem State.lockOut_canonical (s : State) (hs : Canonical s) : Canonical (State.lockOut s) := by
  simp (maxDischargeDepth := 14) [State.lockOut, hs]

@[simp] theorem State.stopIssue_canonical (s : State) (hs : Canonical s) : Canonical (State.stopIssue s) := by
  simp (maxDischargeDepth := 14) [State.stopIssue, hs]

@[simp] theorem State.noteMismatch_canonical (s : State) (cause : SupplyCause) (hs : Canonical s) :
    Canonical (State.noteMismatch s cause) := by
  simp (maxDischargeDepth := 14) [State.noteMismatch, hs]

@[simp] theorem State.pwrFail_canonical (s : State) (cause : SupplyCause) (hs : Canonical s) :
    Canonical (State.pwrFail s cause) := by
  unfold State.pwrFail
  dsimp only
  (repeat' split) <;> simp (maxDischargeDepth := 14) [hs]

@[simp] theorem State.holdComplete_canonical (s : State) (hs : Canonical s) : Canonical (State.holdComplete s) := by
  unfold State.holdComplete
  dsimp only
  (repeat' split) <;> simp (maxDischargeDepth := 14) [hs]

@[simp] theorem State.vcoreFault_canonical (s : State) (f : VcoreFault) (cut : Vector PageCut 2) (hs : Canonical s) :
    Canonical (State.vcoreFault s f cut) := by
  simp (maxDischargeDepth := 14) [State.vcoreFault, hs]

@[simp] theorem State.ioBor_canonical (s : State) (cut : Vector PageCut 2) (hs : Canonical s) :
    Canonical (State.ioBor s cut) := by
  unfold State.ioBor
  dsimp only
  (repeat' split) <;> simp (maxDischargeDepth := 14) [hs]

@[simp] theorem State.supplyTrips_canonical (s : State) (c : SupplyCause) (hs : Canonical s) :
    Canonical (State.supplyTrips s c) := by
  simp (maxDischargeDepth := 14) [State.supplyTrips, hs]

@[simp] theorem State.cutShort_canonical (s : State) (hs : Canonical s) : Canonical (State.cutShort s) := by
  unfold State.cutShort
  dsimp only
  (repeat' split) <;> simp (maxDischargeDepth := 14) [hs]

@[simp] theorem State.setUnit_canonical (s : State) (u : UnitId) (r : UnitResult) (hs : Canonical s) :
    Canonical (State.setUnit s u r) := by
  simp (maxDischargeDepth := 14) [State.setUnit, hs]

@[simp] theorem State.beaconFailure_canonical (s : State) (hs : Canonical s) : Canonical (State.beaconFailure s) := by
  simp (maxDischargeDepth := 14) [State.beaconFailure, hs]

@[simp] theorem State.tierSessions_canonical (s : State) (hs : Canonical s) : Canonical (State.tierSessions s) := by
  simp (maxDischargeDepth := 14) [State.tierSessions, hs]

@[simp] theorem State.detachUsb_canonical (s : State) (hs : Canonical s) : Canonical (State.detachUsb s) := by
  simp (maxDischargeDepth := 14) [State.detachUsb, hs]

@[simp] theorem State.fallTo_canonical (s : State) (t : Tier) (newly : List UnitId) (hs : Canonical s) :
    Canonical (State.fallTo s t newly) := by
  unfold State.fallTo
  dsimp only
  (repeat' split) <;> simp (maxDischargeDepth := 14) [hs]

@[simp] theorem State.failUnits_canonical (s : State) (l : List UnitId) (hs : Canonical s) :
    Canonical (State.failUnits s l) := by
  unfold State.failUnits
  extract_lets newly s0 s1 s2 s3 t
  have h0 : Canonical s0 := canonical_foldl _ (fun s x h => by simp [h]) _ _ hs
  clear_value s0
  have h1 : Canonical s1 := by
    simp only [s1]
    split
    · exact State.detachUsb_canonical _ h0
    · exact h0
  clear_value s1
  have h2 : Canonical s2 := canonical_foldl _ (fun s x h => by split <;> simp [h]) _ _ h1
  clear_value s2
  have h3 : Canonical s3 := by
    simp only [s3]
    (repeat' split) <;> simp (maxDischargeDepth := 14) [h2]
  clear_value s3
  (repeat' split) <;> simp [hs, h1, h3]

@[simp] theorem State.snapshot_canonical (s : State) (hs : Canonical s) : Canonical (State.snapshot s) := by
  simp (maxDischargeDepth := 14) [State.snapshot, hs]

@[simp] theorem State.decideTier_canonical (s : State) (fails : List UnitId) (e : StoreEnv) (hs : Canonical s) :
    Canonical (State.decideTier s fails e) := by
  simp (maxDischargeDepth := 14) [State.decideTier, hs]

@[simp] theorem State.queueErases_canonical (s : State) (keep : List (Fin 4)) (hs : Canonical s) :
    Canonical (State.queueErases s keep) := by
  simp (maxDischargeDepth := 14) (contextual := true) [canonical_foldl, State.queueErases, hs]

@[simp] theorem State.replayTail_canonical (s : State) (t : LedgerTail) (hs : Canonical s) :
    Canonical (State.replayTail s t) := by
  unfold State.replayTail
  split <;> rename_i heq <;> have h1 := canonical_of_fst heq (State.ringWrite_canonical _ _ _ hs)
  · exact h1
  · exact State.setLed_canonical _ _ h1

@[simp] theorem State.replayImage_canonical (s : State) (k : Fin 4) (i : HoldImage) (h : HoldFound) (hs : Canonical s) :
    Canonical (State.replayImage s k i h) := by
  simp (maxDischargeDepth := 14) (contextual := true) [canonical_foldl, apply_ite, State.replayImage, hs]

@[simp] theorem State.replayAll_canonical (s : State) (f : FlashFacts) (stop : Bool) (hs : Canonical s) :
    Canonical (State.replayAll s f stop).1 := by
  unfold State.replayAll
  extract_lets l found x0 s0 stale s1 s2 x1 s3 x2 s4
  have h1 : Canonical s1 := State.queueErases_canonical _ _ (canonical_foldl _ (fun s x h => by simp [h]) _ _ hs)
  clear_value s1
  have h2 : Canonical s2 := canonical_foldl _ (fun s x h => by simp [h]) _ _ h1
  clear_value s2
  have h3 : Canonical s3 := by
    simp only [s3]
    split
    · exact State.raise_canonical _ _ _ h2
    · exact h2
  clear_value s3
  have h4 : Canonical s4 := by
    simp only [s4]
    split
    · exact State.raise_canonical _ _ _ (State.setPow_canonical _ _ h3)
    · exact h3
  split
  · exact h4
  · exact State.holdConfirmed_canonical _ h4

@[simp] theorem State.restoreTime_canonical (s : State) (f : FlashFacts) (image : Option HoldImage) (hs : Canonical s) :
    Canonical (State.restoreTime s f image) := by
  unfold State.restoreTime
  dsimp only
  (repeat' split) <;> simp (maxDischargeDepth := 14) [hs]

@[simp] theorem State.resumeSetback_canonical (s : State) (hs : Canonical s) : Canonical (State.resumeSetback s) := by
  unfold State.resumeSetback
  dsimp only
  (repeat' split) <;> simp (maxDischargeDepth := 14) [hs]

@[simp] theorem State.comparePeriods_canonical (s : State) (f : FlashFacts) (unread : List (Nat × Nat)) (hs : Canonical s) :
    Canonical (State.comparePeriods s f unread) := by
  exact State.requeueLedger_canonical _ (canonical_foldl _ (fun s x h => State.comparePeriod_canonical _ _ _ _ h) _ _ hs)

@[simp] theorem State.beacon_canonical (s : State) (kind : Nat) (replayed : Bool) (hs : Canonical s) :
    Canonical (State.beacon s kind replayed) := by
  simp (maxDischargeDepth := 14) [State.beacon, hs]

@[simp] theorem State.zheyrBegins_canonical (s : State) (kind : Nat) (set : Fin 2) (e : StartEnv) (hs : Canonical s) :
    Canonical (State.zheyrBegins s kind set e) := by
  simp (maxDischargeDepth := 14) [State.zheyrBegins, hs]

@[simp] theorem State.closeAtStart_canonical (s : State) (kind : Nat) (image : Option HoldImage) (hs : Canonical s) :
    Canonical (State.closeAtStart s kind image) := by
  simp (maxDischargeDepth := 14) [State.closeAtStart, hs]

@[simp] theorem State.repair_canonical (s : State) (kind : Nat) (image : Option HoldImage) (tailKept : Bool) (e : StartEnv) (hs : Canonical s) :
    Canonical (State.repair s kind image tailKept e) := by
  simp (maxDischargeDepth := 14) [State.repair, hs]

@[simp] theorem State.zheyr_canonical (s : State) (kind : Nat) (set : Fin 2) (tailKept : Bool) (e : StartEnv) (hs : Canonical s) :
    Canonical (State.zheyr s kind set tailKept e) := by
  unfold State.zheyr
  extract_lets s1
  have h1 : Canonical s1 := State.zheyrBegins_canonical _ _ _ _ hs
  clear_value s1
  split
  · exact State.supplyTrips_canonical _ _ h1
  · have h2 := State.replayAll_canonical s1 e.flash (e.breaksAt 7 7).isSome h1
    split
    rename_i s2 image heq
    have h2 : Canonical s2 := canonical_of_fst heq h2
    split
    · exact State.supplyTrips_canonical _ _ h2
    · extract_lets s3
      have h3 : Canonical s3 := State.repair_canonical _ _ _ _ _ h2
      clear_value s3
      split
      · exact State.supplyTrips_canonical _ _ h3
      · exact h3
      · split
        · exact State.beaconFailure_canonical _ h3
        · exact State.beacon_canonical _ _ _ h3

@[simp] theorem State.settleSwap_canonical (s : State) (hs : Canonical s) : Canonical (State.settleSwap s) := by
  simp (maxDischargeDepth := 14) [State.settleSwap, hs]

@[simp] theorem State.bootRom_canonical (s : State) (kind : Nat) (tailKept : Bool) (e : StartEnv) (hs : Canonical s) :
    Canonical (State.bootRom s kind tailKept e) := by
  unfold State.bootRom
  dsimp only
  (repeat' split) <;> simp (maxDischargeDepth := 14) [hs]

@[simp] theorem State.start_canonical (s : State) (e : StartEnv) (hs : Canonical s) :
    Canonical (State.start s e) := by
  simp (maxDischargeDepth := 14) [State.start, hs]

@[simp] theorem State.wakeRequest_canonical (s : State) (e : StartEnv) (hs : Canonical s) :
    Canonical (State.wakeRequest s e) := by
  unfold State.wakeRequest
  dsimp only
  (repeat' split) <;> simp (maxDischargeDepth := 14) [hs]

@[simp] theorem State.v33Rises_canonical (s : State) (e : StartEnv) (hs : Canonical s) :
    Canonical (State.v33Rises s e) := by
  simp (maxDischargeDepth := 14) [State.v33Rises, hs]

@[simp] theorem State.warmReset_canonical (s0 : State) (e : StartEnv) (hs0 : Canonical s0) :
    Canonical (State.warmReset s0 e) := by
  unfold State.warmReset
  split
  · exact hs0
  · extract_lets s tail entries area ledgerOk journalOk seq s1 cur b x1 x2 x3 x4 x5 x6 x7 x8 s2 s3
    have h1 : Canonical s1 := State.loseDomain_canonical _ _ (State.setLatch_canonical _ _ hs0)
    clear_value s1
    have h2 : Canonical s2 := ⟨sramForm_set _ _ h1.1, h1.2⟩
    clear_value s2
    have h3 : Canonical s3 := by
      simp only [s3]
      split
      · exact h2
      · exact State.raise_canonical _ _ _ h2
    exact State.bootRom_canonical _ _ _ _ h3

@[simp] theorem State.lfxFails_canonical (s : State) (hs : Canonical s) : Canonical (State.lfxFails s) := by
  simp (maxDischargeDepth := 14) [State.lfxFails, hs]

@[simp] theorem State.lfxRecovers_canonical (s : State) (hs : Canonical s) : Canonical (State.lfxRecovers s) := by
  simp (maxDischargeDepth := 14) [State.lfxRecovers, hs]

@[simp] theorem State.lfoFails_canonical (s : State) (f : OscFault) (hs : Canonical s) :
    Canonical (State.lfoFails s f) := by
  simp (maxDischargeDepth := 14) [State.lfoFails, hs]

@[simp] theorem State.lfoRecovers_canonical (s : State) (hs : Canonical s) : Canonical (State.lfoRecovers s) := by
  simp (maxDischargeDepth := 14) [State.lfoRecovers, hs]

@[simp] theorem State.oscStops_canonical (s : State) (lfx : Bool) (hs : Canonical s) :
    Canonical (State.oscStops s lfx) := by
  simp (maxDischargeDepth := 14) [State.oscStops, hs]

@[simp] theorem State.lfxWindow_canonical (s0 : State) (edges : Nat) (hs0 : Canonical s0) :
    Canonical (State.lfxWindow s0 edges) := by
  unfold State.lfxWindow
  dsimp only
  (repeat' split) <;> simp (maxDischargeDepth := 14) (contextual := true) [hs0]

@[simp] theorem State.lfoCount_canonical (s : State) (off : Nat) (hs : Canonical s) :
    Canonical (State.lfoCount s off) := by
  simp (maxDischargeDepth := 14) [State.lfoCount, hs]

@[simp] theorem State.setClk_canonical (s : State) (c : Clocks) (hs : Canonical s) :
    Canonical (State.setClk s c) := by
  simp (maxDischargeDepth := 14) [State.setClk, hs]

@[simp] theorem State.pllLocks_canonical (s : State) (hs : Canonical s) : Canonical (State.pllLocks s) := by
  simp (maxDischargeDepth := 14) [State.pllLocks, hs]

@[simp] theorem State.pllLost_canonical (s : State) (hs : Canonical s) : Canonical (State.pllLost s) := by
  simp (maxDischargeDepth := 14) [State.pllLost, hs]

@[simp] theorem State.relockEnds_canonical (s : State) (hs : Canonical s) : Canonical (State.relockEnds s) := by
  simp (maxDischargeDepth := 14) [State.relockEnds, hs]

@[simp] theorem State.hfxFails_canonical (s : State) (hs : Canonical s) : Canonical (State.hfxFails s) := by
  simp (maxDischargeDepth := 14) [State.hfxFails, hs]

@[simp] theorem State.domainStops_canonical (s : State) (d : ClockDomain) (also : List UnitId) (hs : Canonical s) :
    Canonical (State.domainStops s d also) := by
  simp (maxDischargeDepth := 14) [State.domainStops, hs]

@[simp] theorem State.fclkStops_canonical (s : State) (cut : Vector PageCut 2) (hs : Canonical s) :
    Canonical (State.fclkStops s cut) := by
  simp (maxDischargeDepth := 14) [State.fclkStops, hs]

@[simp] theorem State.sampleTj_canonical (s : State) (t : Word) (hs : Canonical s) :
    Canonical (State.sampleTj s t) := by
  simp (maxDischargeDepth := 14) [State.sampleTj, hs]

@[simp] theorem State.stewardExpires_canonical (s0 : State) (e : StartEnv) (hs0 : Canonical s0) :
    Canonical (State.stewardExpires s0 e) := by
  simp (maxDischargeDepth := 14) [State.stewardExpires, hs0]

@[simp] theorem State.coreExpires_canonical (s : State) (i : Fin 4) (cause : Nat) (e : StoreEnv) (hs : Canonical s) :
    Canonical (State.coreExpires s i cause e) := by
  simp (maxDischargeDepth := 14) [State.coreExpires, hs]

@[simp] theorem State.wdKick_canonical (s : State) (i : Fin 4) (v : Word) (e : StoreEnv) (hs : Canonical s) :
    Canonical (State.wdKick s i v e) := by
  simp (maxDischargeDepth := 14) [State.wdKick, hs]

@[simp] theorem wakeAfter_canonical (e : StartEnv) (x : State × Bool) (hx : Canonical x.1) :
    Canonical (wakeAfter e x) := by
  simp (maxDischargeDepth := 14) [wakeAfter, hx]

@[simp] theorem State.presenceEvent_canonical (s : State) (x : Sources) (bit : Nat) (e : StartEnv) (hs : Canonical s) :
    Canonical (State.presenceEvent s x bit e) := by
  simp (maxDischargeDepth := 14) [State.presenceEvent, hs]

@[simp] theorem State.trip_canonical (s : State) (n : Fin 5) (e : StoreEnv) (hs : Canonical s) :
    Canonical (State.trip s n e) := by
  simp (maxDischargeDepth := 14) [State.trip, hs]

@[simp] theorem State.setHost_canonical (s : State) (h : HostPort) (hs : Canonical s) :
    Canonical (State.setHost s h) := by
  simp (maxDischargeDepth := 14) [State.setHost, hs]

@[simp] theorem State.discard_canonical (s : State) (t : Transport) (hs : Canonical s) :
    Canonical (State.discard s t) := by
  simp (maxDischargeDepth := 14) [State.discard, hs]

@[simp] theorem State.corrupt_canonical (s : State) (t : Transport) (hs : Canonical s) :
    Canonical (State.corrupt s t) := by
  simp (maxDischargeDepth := 14) [State.corrupt, hs]

@[simp] theorem State.frameIn_canonical (s : State) (t : Transport) (os : List Octet) (hs : Canonical s) :
    Canonical (State.frameIn s t os) := by
  unfold State.frameIn
  (repeat' split) <;> simp (maxDischargeDepth := 14) [hs]

@[simp] theorem State.spi_canonical (s : State) (used : Fin 3) (f : State → State) (hs : Canonical s) (hf : ∀ s, Canonical s → Canonical (f s)) :
    Canonical (State.spi s used f) := by
  unfold State.spi
  split
  · exact hs
  · split
    · exact hs
    · exact hf _ hs

@[simp] theorem State.discardWrite_canonical (s : State) (hs : Canonical s) : Canonical (State.discardWrite s) := by
  simp (maxDischargeDepth := 14) [State.discardWrite, hs]

@[simp] theorem State.spiWrite_canonical (s : State) (os : List Octet) (hs : Canonical s) :
    Canonical (State.spiWrite s os) := by
  simp (maxDischargeDepth := 14) [State.spiWrite, hs]

@[simp] theorem State.spiRead_canonical (s : State) (n : Nat) (hs : Canonical s) : Canonical (State.spiRead s n) := by
  unfold State.spiRead
  dsimp only
  (repeat' split) <;> simp (maxDischargeDepth := 14) [hs]

@[simp] theorem State.spiReread_canonical (s : State) (n : Nat) (hs : Canonical s) : Canonical (State.spiReread s n) := by
  simp (maxDischargeDepth := 14) [State.spiReread, hs]

@[simp] theorem State.spiStatus_canonical (s : State) (hs : Canonical s) : Canonical (State.spiStatus s) := by
  simp (maxDischargeDepth := 14) [State.spiStatus, hs]

@[simp] theorem State.transaction_canonical (s : State) (used : Fin 3) (op : Octet) (os : List Octet) (n : Nat) (hs : Canonical s) :
    Canonical (State.transaction s used op os n) := by
  unfold State.transaction
  (repeat' split) <;> simp_all (maxDischargeDepth := 14) [-State.transaction_canonical]

@[simp] theorem State.uartReject_canonical (s : State) (hs : Canonical s) : Canonical (State.uartReject s) := by
  simp (maxDischargeDepth := 14) [State.uartReject, hs]

@[simp] theorem State.uartTake_canonical (s : State) (os : List Octet) (hs : Canonical s) :
    Canonical (State.uartTake s os) := by
  simp (maxDischargeDepth := 14) [State.uartTake, hs]

@[simp] theorem State.huntMark_canonical (x0 : Nat) (x1 : List Octet) (x2 : State) (hx2 : Canonical x2) :
    Canonical (State.huntMark x0 x1 x2) := by
  induction x1 generalizing x0 x2 with
  | nil => cases x0 <;> exact hx2
  | cons o r ih =>
    cases x0 with
    | succ n => exact ih _ _ hx2
    | zero =>
      unfold State.huntMark
      dsimp only
      (repeat' split) <;> first
        | exact ih _ _ hx2
        | exact hx2
        | exact ih _ _ (State.uartReject_canonical _ hx2)
        | exact ih _ _ (State.uartTake_canonical _ _ hx2)

@[simp] theorem State.appDeliver_canonical (s : State) (t : Transport) (c : Fin 4) (r : Request) (flags : Octet) (hs : Canonical s) :
    Canonical (State.appDeliver s t c r flags) := by
  unfold State.appDeliver
  dsimp only
  (repeat' split) <;> simp (maxDischargeDepth := 14) [hs]

@[simp] theorem State.appEnd_canonical (s : State) (c : Fin 4) (core : Fin 4) (stat : Nat) (payload : List Octet) (hs : Canonical s) :
    Canonical (State.appEnd s c core stat payload) := by
  unfold State.appEnd
  dsimp only
  (repeat' split) <;> simp (maxDischargeDepth := 14) [hs]

@[simp] theorem State.strayDone_canonical (s : State) (core : Fin 4) (chan : Nat) (hs : Canonical s) :
    Canonical (State.strayDone s core chan) := by
  simp (maxDischargeDepth := 14) [State.strayDone, hs]

@[simp] theorem State.mbxDone_canonical (s : State) (core : Fin 4) (v : Word) (hs : Canonical s) :
    Canonical (State.mbxDone s core v) := by
  unfold State.mbxDone
  dsimp only
  (repeat' split) <;> simp (maxDischargeDepth := 14) [hs]

@[simp] theorem State.mbxEvent_canonical (s : State) (core : Fin 4) (v : Word) (hs : Canonical s) :
    Canonical (State.mbxEvent s core v) := by
  simp (maxDischargeDepth := 14) [State.mbxEvent, hs]

@[simp] theorem State.setJou_canonical (s : State) (j : Journal) (hs : Canonical s) :
    Canonical (State.setJou s j) := by
  simp (maxDischargeDepth := 14) [State.setJou, hs]

@[simp] theorem State.journalRead_canonical (s : State) (p : List Octet) (hs : Canonical s) :
    Canonical (State.journalRead s p).1 := by
  simp (maxDischargeDepth := 14) [State.journalRead, hs]

@[simp] theorem State.mountAnswers_canonical (s : State) (hs : Canonical s) : Canonical (State.mountAnswers s) := by
  simp (maxDischargeDepth := 14) [State.mountAnswers, hs]

@[simp] theorem State.journalAnswers_canonical (s : State) (hs : Canonical s) : Canonical (State.journalAnswers s) := by
  unfold State.journalAnswers
  extract_lets met x0 s0
  have h0 : Canonical s0 := by
    simp only [s0]
    (repeat' split) <;> simp [hs]
  clear_value s0
  have h1 := canonical_foldl _ (fun s x h => State.mountAnswers_canonical s h) ([0, 1] : List (Fin 2)) s0 h0
  split
  · exact h0
  · exact h0
  all_goals exact h1

@[simp] theorem State.blockRetired_canonical (s : State) (b : Nat) (cause : Nat) (hs : Canonical s) :
    Canonical (State.blockRetired s b cause) := by
  simp (maxDischargeDepth := 14) [State.blockRetired, hs]

@[simp] theorem State.nandEnds_canonical (s : State) (t : Fin 2) (fail : Bool) (hs : Canonical s) :
    Canonical (State.nandEnds s t fail) := by
  unfold State.nandEnds
  dsimp only
  (repeat' split) <;> simp (maxDischargeDepth := 14) [hs]

@[simp] theorem State.journalReady_canonical (s : State) (hs : Canonical s) : Canonical (State.journalReady s) := by
  simp (maxDischargeDepth := 14) [State.journalReady, hs]

@[simp] theorem State.finishWrites_canonical (s : State) (nandFail : Vector Bool 2) (hs : Canonical s) :
    Canonical (State.finishWrites s nandFail) := by
  unfold State.finishWrites
  refine canonical_foldl _ (fun s x h => ?_) _ _ (canonical_foldl _ (fun s x h => by simp [h]) _ _ hs)
  split <;> simp [h]

@[simp] theorem State.powerDown_canonical (s : State) (nandFail : Vector Bool 2) (hs : Canonical s) :
    Canonical (State.powerDown s nandFail) := by
  simp (maxDischargeDepth := 14) [State.powerDown, hs]

@[simp] theorem State.restoreDomains_canonical (s : State) (passed : List UnitId) (hs : Canonical s) :
    Canonical (State.restoreDomains s passed) := by
  unfold State.restoreDomains
  dsimp only
  (repeat' split) <;> simp (maxDischargeDepth := 14) (contextual := true) [canonical_foldl, hs]

@[simp] theorem State.retest_canonical (s : State) (failing : List UnitId) (e : StoreEnv) (hs : Canonical s) :
    Canonical (State.retest s failing e).1 := by
  unfold State.retest
  extract_lets old todo passed s1 r1 passed2 s2 flash x1 s3 best t up new x2 s4 s5 s6
  split
  · exact hs
  · have h1 : Canonical s1 := by
      simp only [s1]
      split <;> simp [hs]
    clear_value s1
    have hr : Canonical r1 := State.restoreDomains_canonical _ _ h1
    clear_value r1
    have h2 : Canonical s2 := canonical_foldl _ (fun s x h => by simp [h]) _ _ hr
    clear_value s2
    have h3 : Canonical s3 := State.setBoot_canonical _ _ h2
    clear_value s3
    have h4 : Canonical s4 := by
      simp only [s4]
      split <;> simp [h3]
    clear_value s4
    have h5 : Canonical s5 := State.raise_canonical _ _ _ h4
    clear_value s5
    show Canonical s6
    simp only [s6]
    split <;> simp (maxDischargeDepth := 14) [h5]

@[simp] theorem State.provision_canonical (s : State) (p : List Octet) (hs : Canonical s) :
    Canonical (State.provision s p).1 := by
  simp (maxDischargeDepth := 14) [State.provision, hs]

@[simp] theorem State.replaceKey_canonical (s : State) (old : Option (List Octet)) (p : List Octet) (put : Keys → List Octet → Keys) (hs : Canonical s) :
    Canonical (State.replaceKey s old p put).1 := by
  unfold State.replaceKey
  dsimp only
  (repeat' split) <;> simp (maxDischargeDepth := 14) [hs]

@[simp] theorem State.keysCommand_canonical (s : State) (q : CmdReq) (op : Nat) (run : State → State × Reply) (hs : Canonical s) (hrun : ∀ s, Canonical s → Canonical (run s).1) :
    Canonical (State.keysCommand s q op run) := by
  unfold State.keysCommand
  dsimp only
  split
  · exact hs
  · refine State.command_canonical _ _ _ _ hs (fun s h => ?_)
    split
    · exact h
    · split
      · exact h
      · exact hrun _ h

@[simp] theorem State.setLifecycle_canonical (s : State) (l : Lifecycle) (hs : Canonical s) :
    Canonical (State.setLifecycle s l) := by
  simp (maxDischargeDepth := 14) [State.setLifecycle, hs]

@[simp] theorem State.endSessions_canonical (s : State) (hs : Canonical s) : Canonical (State.endSessions s) := by
  simp (maxDischargeDepth := 14) [State.endSessions, hs]

@[simp] theorem State.toReturned_canonical (s : State) (w : RingWrite) (e : StoreEnv) (hs : Canonical s) :
    Canonical (State.toReturned s w e).1 := by
  simp (maxDischargeDepth := 14) [State.toReturned, hs]

@[simp] theorem State.toProvisioned_canonical (s : State) (hs : Canonical s) : Canonical (State.toProvisioned s).1 := by
  simp (maxDischargeDepth := 14) [State.toProvisioned, hs]

@[simp] theorem State.ledgerCommand_canonical (s : State) (cmd : Nat) (q : CmdReq) (run : State → State × Reply) (hs : Canonical s) (hrun : ∀ s, Canonical s → Canonical (run s).1) :
    Canonical (State.ledgerCommand s cmd q run) := by
  unfold State.ledgerCommand
  exact State.command_canonical _ _ _ _ hs (fun s h => hrun _ (State.closureCheck_canonical _ h))

@[simp] theorem State.timeAccepted_canonical (s : State) (cls : Nat) (hs : Canonical s) :
    Canonical (State.timeAccepted s cls) := by
  simp (maxDischargeDepth := 14) [State.timeAccepted, hs]

@[simp] theorem State.setTime_canonical (s : State) (w : RingWrite) (seconds : Nat) (fraction : Nat) (cls : Nat) (hs : Canonical s) :
    Canonical (State.setTime s w seconds fraction cls).1 := by
  unfold State.setTime
  split
  · exact hs
  · split
    · exact hs
    · extract_lets c new old s1 s2
      split
      · exact hs
      · split
        · exact State.timeAccepted_canonical _ _ (State.setTail_canonical _ _ hs)
        · split
          · exact State.timeAccepted_canonical _ _ (State.closureCheckWith_canonical _ _ (State.stepWall_canonical _ _ _ _ _ hs))
          · split
            · exact hs
            · split <;> rename_i heq <;> have h1 := canonical_of_fst heq (State.setBack_canonical _ _ _ _ _ hs)
              · exact h1
              · exact State.timeAccepted_canonical _ _ (State.closureCheck_canonical _ h1)

@[simp] theorem State.openRide_canonical (s : State) (w : RingWrite) (hs : Canonical s) :
    Canonical (State.openRide s w).1 := by
  unfold State.openRide
  extract_lets n slow x0 r0 r x1 x2 s1
  have h1 : Canonical s1 := State.setTail_canonical _ _ (State.setLed_canonical _ _ hs)
  clear_value s1
  split <;> rename_i heq <;> have h2 := canonical_of_fst heq (State.tailWritten_canonical _ _ h1)
  · exact State.setTail_canonical _ _ (State.setLed_canonical _ _ h2)
  · simp (maxDischargeDepth := 14) [h2]

@[simp] theorem State.putImage_canonical (s : State) (kind : Nat) (offset : Nat) (ws : List Word) (hs : Canonical s) :
    Canonical (State.putImage s kind offset ws) := by
  exact State.unbuffer_canonical _ _ ⟨hs.1, cellForm_foldl _ (fun _ _ h => cellForm_memSet _ _ h) _ _ hs.2⟩

@[simp] theorem State.discardImage_canonical (s : State) (kind : Nat) (hs : Canonical s) :
    Canonical (State.discardImage s kind) := by
  simp (maxDischargeDepth := 14) [State.discardImage, hs]

@[simp] theorem State.receive_canonical (s : State) (kind : Fin 2) (r : Option ImageWrite) (hs : Canonical s) :
    Canonical (State.receive s kind r) := by
  simp (maxDischargeDepth := 14) [State.receive, hs]

@[simp] theorem State.dropAssembly_canonical (s : State) (cmd : Nat) (selector : Nat) (hs : Canonical s) :
    Canonical (State.dropAssembly s cmd selector) := by
  simp (maxDischargeDepth := 14) [State.dropAssembly, hs]

@[simp] theorem State.stageImage_canonical (s : State) (kind : Fin 2) (ws : List Word) (hs : Canonical s) :
    Canonical (State.stageImage s kind ws).1 := by
  unfold State.stageImage
  dsimp only
  (repeat' split) <;> simp (maxDischargeDepth := 14) [hs]

@[simp] theorem State.grtRead_canonical (s : State) (i : Fin 4) (off : Nat) (hs : Canonical s) :
    Canonical (State.grtRead s i off).2 := by
  unfold State.grtRead
  dsimp only
  (repeat' split) <;> simp (maxDischargeDepth := 14) [hs]

@[simp] theorem orZero_canonical (s : State) (x1 : Option (Word × State)) (hs : Canonical s) (hx1 : ∀ r, x1 = some r → Canonical r.2) :
    Canonical (orZero s x1).2 := by
  cases x1 with
  | none => exact hs
  | some r => exact hx1 r rfl

@[simp] theorem State.ioRead_canonical (s : State) (i : Fin 4) (addr : Nat) (e : AccessEnv) (hs : Canonical s) :
    Canonical (State.ioRead s i addr e).2 := by
  unfold State.ioRead
  dsimp only
  split
  · simp [hs]
  · exact hs
  · simp [hs]
  · refine orZero_canonical _ _ (by split <;> simp [hs]) (fun res h => State.pwmRead_canonical _ _ _ (by split <;> simp [hs]) _ h)
  · exact orZero_canonical _ _ hs (fun res h => State.adcRead_canonical _ _ _ hs _ h)
  · exact orZero_canonical _ _ (by simp [hs]) (fun res h => State.tcapRead_canonical _ _ _ (by simp [hs]) _ h)
  · exact hs
  · simp [hs]
  · exact hs
  · exact hs
  · exact hs
  · exact hs
  · exact hs
  · split <;> simp [hs]
  · exact hs

@[simp] theorem State.ringDoorbells_canonical (s : State) (i : Fin 4) (v : Word) (hs : Canonical s) :
    Canonical (State.ringDoorbells s i v) := by
  simp (maxDischargeDepth := 14) [State.ringDoorbells, hs]

@[simp] theorem State.grtWrite_canonical (s : State) (i : Fin 4) (off : Nat) (v : Word) (hs : Canonical s) :
    Canonical (State.grtWrite s i off v) := by
  unfold State.grtWrite
  dsimp only
  (repeat' split) <;> simp (maxDischargeDepth := 14) [hs]

@[simp] theorem State.pmuWrite_canonical (s : State) (i : Fin 4) (off : Nat) (v : Word) (e : StoreEnv) (hs : Canonical s) :
    Canonical (State.pmuWrite s i off v e) := by
  unfold State.pmuWrite
  dsimp only
  (repeat' split) <;> simp (maxDischargeDepth := 14) [hs]

@[simp] theorem State.fctlOut_canonical (s : State) (r : Fin 5) (off : Nat) (v : Word) (early : Bool) (hs : Canonical s) :
    Canonical (State.fctlOut s r off v early) := by
  unfold State.fctlOut
  dsimp only
  (repeat' split) <;> simp (maxDischargeDepth := 14) [hs]

@[simp] theorem State.flashStore_canonical (s : State) (r : Fin 5) (a : Nat) (v : Word) (early : Bool) (hs : Canonical s) :
    Canonical (State.flashStore s r a v early) := by
  simp (maxDischargeDepth := 14) [State.flashStore, hs]

@[simp] theorem State.blockWrite_canonical (s : State) (o : Fin 5) (who : Nat) (addr : Nat) (v : Word) (e : AccessEnv) (hs : Canonical s) :
    Canonical (State.blockWrite s o who addr v e) := by
  unfold State.blockWrite
  dsimp only
  split
  · simp [hs]
  · cases e1 : State.pwmWrite s (addr % 256) v with
    | none => exact hs
    | some r => exact State.pwmWrite_canonical _ _ _ hs _ e1
  · cases e1 : State.adcWrite s (addr % 256) v with
    | none => exact hs
    | some r => exact State.adcWrite_canonical _ _ _ hs _ e1
  · cases e1 : State.tcapWrite (s.tickTs e.dt) (addr % 256) v with
    | none => simp [hs]
    | some r => exact State.tcapWrite_canonical _ _ _ (by simp [hs]) _ e1
  · cases e1 : State.tslWrite s who (addr % 256) v with
    | none => exact hs
    | some r => exact State.tslWrite_canonical _ _ _ _ hs _ e1
  all_goals simp [hs]

@[simp] theorem State.ioWrite_canonical (s : State) (i : Fin 4) (addr : Nat) (v : Word) (e : AccessEnv) (hs : Canonical s) :
    Canonical (State.ioWrite s i addr v e) := by
  unfold State.ioWrite
  dsimp only
  (repeat' split) <;> simp (maxDischargeDepth := 14) [hs]

@[simp] theorem State.stewardWrite_canonical (s : State) (addr : Nat) (v : Word) (e : AccessEnv) (hs : Canonical s) :
    Canonical (State.stewardWrite s addr v e) := by
  unfold State.stewardWrite
  dsimp only
  (repeat' split) <;> simp (maxDischargeDepth := 14) [hs]

@[simp] theorem State.admitOps_canonical (s : State) (p : Coproc) (hs : Canonical s) :
    Canonical (State.admitOps s p) := by
  simp (maxDischargeDepth := 14) [State.admitOps, hs]

@[simp] theorem State.copDispatch_canonical (s : State) (p : Coproc) (i : Fin 4) (tag : Nat) (ct : Bool) (hs : Canonical s) :
    Canonical (State.copDispatch s p i tag ct) := by
  simp (maxDischargeDepth := 14) [State.copDispatch, hs]

@[simp] theorem State.mapEntry_canonical (s : State) (i : Fin 4) (tag : Nat) (f : Entry → Entry) (hs : Canonical s) :
    Canonical (State.mapEntry s i tag f) := by
  simp (maxDischargeDepth := 14) [State.mapEntry, hs]

@[simp] theorem State.launchLoad_canonical (s : State) (i : Fin 4) (tag : Nat) (ec : BitVec 2) (p : LoadPart) (hs : Canonical s) :
    Canonical (State.launchLoad s i tag ec p) := by
  unfold State.launchLoad
  split
  · exact hs
  · split
    · simp [hs]
    · split
      all_goals (rename_i heq; have hh := State.flashDirect_canonical s (coreOwner i) p.addr p.n ec hs; rw [heq] at hh; simp [hh])
    · simp (maxDischargeDepth := 14) [hs]
    · exact hs

@[simp] theorem State.collect_canonical (s : State) (i : Fin 4) (hs : Canonical s) : Canonical (State.collect s i) := by
  simp (maxDischargeDepth := 14) (contextual := true) [canonical_foldl, apply_ite, State.collect, hs]

@[simp] theorem State.pollAll_canonical (s : State) (i : Fin 4) (hs : Canonical s) : Canonical (State.pollAll s i) := by
  simp (maxDischargeDepth := 14) [State.pollAll, hs]

@[simp] theorem State.resolve_canonical (s : State) (i : Fin 4) (e : Entry) (b : Branch) (hs : Canonical s) :
    Canonical (State.resolve s i e b) := by
  simp (maxDischargeDepth := 14) [State.resolve, hs]

@[simp] theorem State.complete_canonical (s : State) (i : Fin 4) (e : Entry) (hs : Canonical s) :
    Canonical (State.complete s i e) := by
  unfold State.complete
  dsimp only
  (repeat' split) <;> simp (maxDischargeDepth := 14) [hs]

@[simp] theorem Memory.writeBack_canonical (m : Memory) (i : Fin 4) (a : Nat) (drop : Bool) (hm : SramForm m.sram) :
    SramForm (Memory.writeBack m i a drop).sram := by
  unfold Memory.writeBack
  dsimp only
  (repeat' split) <;> simp (maxDischargeDepth := 14) [hm]

@[simp] theorem State.icacheInv_canonical (s : State) (i : Fin 4) (line : Option Nat) (hs : Canonical s) :
    Canonical (State.icacheInv s i line) := by
  simp (maxDischargeDepth := 14) [State.icacheInv, hs]

@[simp] theorem State.cmo_canonical (s : State) (i : Fin 4) (fn : Nat) (a : Nat) (hs : Canonical s) :
    Canonical (State.cmo s i fn a) := by
  unfold State.cmo
  (repeat' split) <;> simp (maxDischargeDepth := 14) [hs]

@[simp] theorem State.storeWords_canonical (s : State) (i : Fin 4) (a : Nat) (ws : List Word) (hs : Canonical s) :
    Canonical (State.storeWords s i a ws) := by
  unfold State.storeWords
  dsimp only
  (repeat' split) <;> simp (maxDischargeDepth := 14) (contextual := true) [canonical_foldl, hs]

@[simp] theorem State.runDispatch_canonical (s : State) (i : Fin 4) (tag : Nat) (d : Dispatch) (e : AccessEnv) (hs : Canonical s) :
    Canonical (State.runDispatch s i tag d e) := by
  simp (maxDischargeDepth := 14) [State.runDispatch, hs]

@[simp] theorem State.release_canonical (s0 : State) (i : Fin 4) (e : Entry) (hs0 : Canonical s0) :
    Canonical (State.release s0 i e) := by
  unfold State.release
  dsimp only
  (repeat' split) <;> simp (maxDischargeDepth := 14) [hs0]

@[simp] theorem State.dispatchPure_canonical (s : State) (i : Fin 4) (e : Entry) (hs : Canonical s) :
    Canonical (State.dispatchPure s i e) := by
  unfold State.dispatchPure
  (repeat' split) <;> simp (maxDischargeDepth := 14) [hs]

@[simp] theorem State.issue_canonical (s : State) (i : Fin 4) (hs : Canonical s) : Canonical (State.issue s i) := by
  simp (maxDischargeDepth := 14) (contextual := true) [canonical_foldl, State.issue, hs]

theorem State.advance_canonical (s0 : State) (i : Fin 4) (hs0 : Canonical s0) :
    ∀ res, State.advance s0 i = some res → Canonical res := by
  unfold State.advance
  dsimp only
  (repeat' split) <;> simp (maxDischargeDepth := 14) [hs0]

@[simp] theorem State.settleFor_canonical (x0 : Nat) (x1 : Fin 4) (x2 : State) (hx2 : Canonical x2) :
    Canonical (State.settleFor x0 x1 x2) := by
  induction x0 generalizing x2 with
  | zero => exact hx2
  | succ n ih =>
    unfold State.settleFor
    split
    · simp (maxDischargeDepth := 14) [hx2]
    · rename_i s1 heq
      exact ih _ (State.advance_canonical _ _ hx2 _ heq)

@[simp] theorem State.settle_canonical (s : State) (i : Fin 4) (hs : Canonical s) : Canonical (State.settle s i) := by
  simp (maxDischargeDepth := 14) [State.settle, hs]

@[simp] theorem State.squash_canonical (s : State) (i : Fin 4) (bundle : Nat) (hs : Canonical s) :
    Canonical (State.squash s i bundle) := by
  simp (maxDischargeDepth := 14) [State.squash, hs]

@[simp] theorem State.enterVector_canonical (s : State) (i : Fin 4) (epc : Pair) (len : Nat) (x : Cause) (syl : Option Pair) (hs : Canonical s) :
    Canonical (State.enterVector s i epc len x syl) := by
  simp (maxDischargeDepth := 14) [State.enterVector, hs]

@[simp] theorem State.enterTrap_canonical (s : State) (i : Fin 4) (pc : Pair) (len : Nat) (x : Cause) (hs : Canonical s) :
    Canonical (State.enterTrap s i pc len x) := by
  unfold State.enterTrap
  dsimp only
  (repeat' split) <;> simp (maxDischargeDepth := 14) [hs]

@[simp] theorem State.takeTrap_canonical (s : State) (i : Fin 4) (hs : Canonical s) : Canonical (State.takeTrap s i) := by
  unfold State.takeTrap
  dsimp only
  (repeat' split) <;> simp (maxDischargeDepth := 14) [hs]

@[simp] theorem State.enterInterrupt_canonical (s : State) (i : Fin 4) (hs : Canonical s) :
    Canonical (State.enterInterrupt s i) := by
  unfold State.enterInterrupt
  (repeat' split) <;> simp (maxDischargeDepth := 14) [hs]

@[simp] theorem State.operate_canonical (s : State) (i : Fin 4) (stop : Bool) (sl : Slot) (x : Option (Fin 8 × BitVec 17)) (hs : Canonical s) :
    Canonical (State.operate s i stop sl x) := by
  simp (maxDischargeDepth := 14) [State.operate, hs]

@[simp] theorem State.deliver_canonical (s : State) (d : Delivery) (y : Syl) (e : AccessEnv) (hs : Canonical s) :
    Canonical (State.deliver s d y e) := by
  simp (maxDischargeDepth := 14) [State.deliver, hs]

@[simp] theorem State.fetchLine_canonical (s : State) (i : Fin 4) (n : Nat) (hs : Canonical s) :
    Canonical (State.fetchLine s i n).2 := by
  unfold State.fetchLine
  dsimp only
  (repeat' split) <;> simp (maxDischargeDepth := 14) [hs]

@[simp] theorem State.fetchSyl_canonical (s : State) (i : Fin 4) (a : Pair) (hs : Canonical s) :
    Canonical (State.fetchSyl s i a).2 := by
  unfold State.fetchSyl
  dsimp only
  split
  · exact hs
  · split
    · exact hs
    · split
      · exact hs
      · split
        all_goals (rename_i heq; exact (congrArg (fun p => Canonical p.2) heq).mp (State.fetchLine_canonical _ _ _ hs))

@[simp] theorem State.fetchFrom_canonical (i : Fin 4) (x1 : Nat) (x2 : Pair) (x3 : Fetched) (x4 : State) (hx4 : Canonical x4) :
    Canonical (State.fetchFrom i x1 x2 x3 x4).2 := by
  induction x1 generalizing x2 x3 x4 with
  | zero => exact hx4
  | succ n ih =>
    unfold State.fetchFrom
    split
    · rename_i heq
      exact (congrArg (fun p => Canonical p.2) heq).mp (State.fetchSyl_canonical _ _ _ hx4)
    · rename_i heq
      have hh := (congrArg (fun p => Canonical p.2) heq).mp (State.fetchSyl_canonical _ _ _ hx4)
      dsimp only
      split
      · exact hh
      · exact ih _ _ _ hh

@[simp] theorem State.fetchBundle_canonical (s : State) (i : Fin 4) (e : AccessEnv) (hs : Canonical s) :
    Canonical (State.fetchBundle s i e) := by
  unfold State.fetchBundle
  dsimp only
  (repeat' split) <;> simp (maxDischargeDepth := 14) [hs]

@[simp] theorem State.fetchCause_canonical (s : State) (i : Fin 4) (hs : Canonical s) :
    Canonical (State.fetchCause s i) := by
  simp (maxDischargeDepth := 14) [State.fetchCause, hs]

@[simp] theorem State.freeTag_canonical (s : State) (i : Fin 4) (tag : Nat) (hs : Canonical s) :
    Canonical (State.freeTag s i tag) := by
  simp (maxDischargeDepth := 14) [State.freeTag, hs]

@[simp] theorem State.settleAll_canonical (s : State) (hs : Canonical s) : Canonical (State.settleAll s) := by
  simp (maxDischargeDepth := 14) [State.settleAll, hs]

@[simp] theorem State.copLeaves_canonical (s : State) (o : CopOp) (hs : Canonical s) :
    Canonical (State.copLeaves s o) := by
  simp (maxDischargeDepth := 14) [State.copLeaves, hs]

@[simp] theorem State.coherent_canonical (s : State) (c : CacheId) (line : Nat) (k : MsgClass) (hs : Canonical s) :
    Canonical (State.coherent s c line k) := by
  unfold State.coherent
  dsimp only
  (repeat' split) <;> simp (maxDischargeDepth := 14) [hs]

@[simp] theorem State.markLine_canonical (s : State) (line : Nat) (hs : Canonical s) :
    Canonical (State.markLine s line) := by
  simp (maxDischargeDepth := 14) [State.markLine, hs]

@[simp] theorem State.tileFails_canonical (s : State) (line : Nat) (hs : Canonical s) :
    Canonical (State.tileFails s line) := by
  simp (maxDischargeDepth := 14) [State.tileFails, hs]

@[simp] theorem State.homeMeets_canonical (s : State) (line : Nat) (x2 : HomeFault) (hs : Canonical s) :
    Canonical (State.homeMeets s line x2) := by
  unfold State.homeMeets
  (repeat' split) <;> simp (maxDischargeDepth := 14) [hs]

@[simp] theorem State.refuseLine_canonical (s : State) (c : CacheId) (line : Nat) (hs : Canonical s) :
    Canonical (State.refuseLine s c line) := by
  unfold State.refuseLine
  split
  · exact hs
  · rename_i x m heq
    have hm : SramForm m.sram := Memory.pop_canonical _ _ _ _ hs.1 _ heq
    extract_lets waits s1
    have h1 : Canonical s1 := ⟨Memory.dropLine_canonical _ _ _ hm, hs.2⟩
    clear_value s1
    split
    · exact h1
    · refine State.settle_canonical _ _ (canonical_foldl _ (fun s x h => ?_) _ _ h1)
      split
      · exact State.mapEntry_canonical _ _ _ _ h
      · exact h

@[simp] theorem State.cacheFails_canonical (s : State) (i : Fin 4) (hs : Canonical s) :
    Canonical (State.cacheFails s i) := by
  simp (maxDischargeDepth := 14) [State.cacheFails, hs]

@[simp] theorem State.setDbg_canonical (s : State) (d : Debug) (hs : Canonical s) :
    Canonical (State.setDbg s d) := by
  simp (maxDischargeDepth := 14) [State.setDbg, hs]

@[simp] theorem State.tap_canonical (s : State) (x : TapInstr) (f : Debug → Debug) (hs : Canonical s) :
    Canonical (State.tap s x f) := by
  simp (maxDischargeDepth := 14) [State.tap, hs]

@[simp] theorem State.debug_canonical (s : State) (x : TapInstr) (f : State → State) (hs : Canonical s) (hf : ∀ s, Canonical s → Canonical (f s)) :
    Canonical (State.debug s x f) := by
  unfold State.debug
  split
  · exact hs
  · split
    · exact hf _ hs
    · exact hs

@[simp] theorem State.captureCorectl_canonical (s : State) (hs : Canonical s) : Canonical (State.captureCorectl s) := by
  simp (maxDischargeDepth := 14) [State.captureCorectl, hs]

@[simp] theorem State.haltCore_canonical (s : State) (i : Fin 4) (hs : Canonical s) : Canonical (State.haltCore s i) := by
  unfold State.haltCore
  dsimp only
  (repeat' split) <;> simp (maxDischargeDepth := 14) [hs]

@[simp] theorem State.resumeCore_canonical (s : State) (i : Fin 4) (hs : Canonical s) :
    Canonical (State.resumeCore s i) := by
  simp (maxDischargeDepth := 14) [State.resumeCore, hs]

@[simp] theorem State.stepCore_canonical (s : State) (i : Fin 4) (e : AccessEnv) (hs : Canonical s) :
    Canonical (State.stepCore s i e) := by
  unfold State.stepCore
  dsimp only
  (repeat' split) <;> simp (maxDischargeDepth := 14) [hs]

@[simp] theorem State.portTrap_canonical (s : State) (i : Fin 4) (vector : Nat) (sub : Nat) (addr : Nat) (hs : Canonical s) :
    Canonical (State.portTrap s i vector sub addr) := by
  simp (maxDischargeDepth := 14) [State.portTrap, hs]

@[simp] theorem State.portAccess_canonical (s : State) (r : Requester) (addr : Nat) (act : State → State) (hs : Canonical s) (hact : ∀ s, Canonical s → Canonical (act s)) :
    Canonical (State.portAccess s r addr act) := by
  unfold State.portAccess
  (repeat' split) <;> simp (maxDischargeDepth := 14) [hs, hact]

@[simp] theorem State.portCommand_canonical (s : State) (addr : Nat) (act : State → State) (hs : Canonical s) (hact : ∀ s, Canonical s → Canonical (act s)) :
    Canonical (State.portCommand s addr act) := by
  simp (maxDischargeDepth := 14) [State.portCommand, hs, hact]

@[simp] theorem State.windowStore_canonical (s : State) (r : Requester) (a : Pair) (act : State → State) (hs : Canonical s) (hact : ∀ s, Canonical s → Canonical (act s)) :
    Canonical (State.windowStore s r a act) := by
  unfold State.windowStore
  (repeat' split) <;> simp_all (maxDischargeDepth := 14) [-State.windowStore_canonical]

end Sys2Proof.Machine
end

