-- ==== Sys2Proof/Laws/CanonicalCommands.lean ====
section
/-! SUPPORT. Every command keeps the canonical form of the shared SRAM and of the flash cells: one lemma per meaning, named after it. -/
namespace Sys2Proof.Machine

/-- A next state has the canonical form; a fault or a refusal says nothing. -/
def Keeps (o : Host.Outcome State Fault Refusal) : Prop := ∀ t, o = .next t → Canonical t

@[simp] theorem keeps_next (s : State) : Keeps (.next s) ↔ Canonical s := ⟨fun h => h _ rfl, fun h _ e => by cases e; exact h⟩
@[simp] theorem keeps_fault (f : Fault) : Keeps (.fault f) := fun _ e => nomatch e
@[simp] theorem keeps_refused (f : Refusal) : Keeps (.refused f) := fun _ e => nomatch e

theorem execFlashCommandStart_keeps (bank : Fin 2) (s : State) (hs : Canonical s) :
    Keeps (execFlashCommandStart bank s) := by
  unfold execFlashCommandStart
  simp (maxDischargeDepth := 14) [hs]

theorem execProgramPulsesDone_keeps (bank : Fin 2) (readBack : Bool) (s : State) (hs : Canonical s) :
    Keeps (execProgramPulsesDone bank readBack s) := by
  unfold execProgramPulsesDone
  refine (keeps_next _).2 ?_
  (repeat' split) <;> first
    | exact hs
    | exact State.programDone_canonical _ _ hs
    | exact State.holdPage_canonical _ _ _ (State.programDone_canonical _ _ hs)
    | exact State.holdAssemble_canonical _ _ hs

theorem execEraseStepDone_keeps (bank : Fin 2) (verified : Bool) (blankOk : Bool) (s : State) (hs : Canonical s) :
    Keeps (execEraseStepDone bank verified blankOk s) := by
  unfold execEraseStepDone
  refine (keeps_next _).2 ?_
  have h := State.eraseStep_canonical _ bank verified hs
  split
  all_goals (rename_i heq; rw [heq] at h; simp [h])

theorem execSuspendDeferralExpiry_keeps (bank : Fin 2) (s : State) (hs : Canonical s) :
    Keeps (execSuspendDeferralExpiry bank s) := by
  unfold execSuspendDeferralExpiry
  dsimp only
  (repeat' split) <;> simp (maxDischargeDepth := 14) [hs]

theorem execPwmUpdateEvent_keeps (peak : Bool) (dt : Nat) (s : State) (hs : Canonical s) :
    Keeps (execPwmUpdateEvent peak dt s) := by
  unfold execPwmUpdateEvent
  simp (maxDischargeDepth := 14) [hs]

theorem execPwmAdcTrigger_keeps (s : State) (hs : Canonical s) : Keeps (execPwmAdcTrigger s) := by
  unfold execPwmAdcTrigger
  refine (keeps_next _).2 ?_
  dsimp only
  (repeat' split) <;> first | exact hs | exact State.setAdc_canonical _ _ hs

theorem execComparatorInactive_keeps (n : Fin 4) (s : State) (hs : Canonical s) : Keeps (execComparatorInactive n s) := by
  unfold execComparatorInactive
  exact (keeps_next _).2 hs

theorem execFaultNRelease_keeps (s : State) (hs : Canonical s) : Keeps (execFaultNRelease s) := by
  unfold execFaultNRelease
  exact (keeps_next _).2 hs

theorem execRearmExpiry_keeps (s : State) (hs : Canonical s) : Keeps (execRearmExpiry s) := by
  unfold execRearmExpiry
  exact (keeps_next _).2 hs

theorem execLockExpiry_keeps (s : State) (hs : Canonical s) : Keeps (execLockExpiry s) := by
  unfold execLockExpiry
  exact (keeps_next _).2 hs

theorem execLowSideDeadTime_keeps (s : State) (hs : Canonical s) : Keeps (execLowSideDeadTime s) := by
  unfold execLowSideDeadTime
  simp (maxDischargeDepth := 14) [hs]

theorem execDwellExpiry_keeps (s : State) (hs : Canonical s) : Keeps (execDwellExpiry s) := by
  unfold execDwellExpiry
  refine (keeps_next _).2 ?_
  have h := hs
  try dsimp only
  (repeat' split) <;> first | exact h | simp (maxDischargeDepth := 14) [h]

theorem execMclkLoss_keeps (s : State) (hs : Canonical s) : Keeps (execMclkLoss s) := by
  unfold execMclkLoss
  simp (maxDischargeDepth := 14) [hs]

theorem execKeyColumnFall_keeps (s : State) (hs : Canonical s) : Keeps (execKeyColumnFall s) := by
  unfold execKeyColumnFall
  simp (maxDischargeDepth := 14) [hs]

theorem execKeyHoldLimit_keeps (n : Fin 16) (s : State) (hs : Canonical s) : Keeps (execKeyHoldLimit n s) := by
  unfold execKeyHoldLimit
  simp (maxDischargeDepth := 14) [hs]

theorem execLcdFrameStart_keeps (s : State) (hs : Canonical s) : Keeps (execLcdFrameStart s) := by
  unfold execLcdFrameStart
  simp (maxDischargeDepth := 14) [hs]

theorem execLcdCommit_keeps (s : State) (hs : Canonical s) : Keeps (execLcdCommit s) := by
  unfold execLcdCommit
  exact (keeps_next _).2 hs

theorem execCelSealWrite_keeps (n : Fin 2) (v : Word) (s : State) (hs : Canonical s) :
    Keeps (execCelSealWrite n v s) := by
  unfold execCelSealWrite
  simp (maxDischargeDepth := 14) [hs]

theorem execCelWakeRead_keeps (s : State) (hs : Canonical s) : Keeps (execCelWakeRead s) := by
  unfold execCelWakeRead
  exact (keeps_next _).2 (afterRead_canonical _ _ hs (fun res h => State.celStewardRead_canonical _ _ _ hs _ h))

theorem execCelSopenRead_keeps (s : State) (hs : Canonical s) : Keeps (execCelSopenRead s) := by
  unfold execCelSopenRead
  exact (keeps_next _).2 (afterRead_canonical _ _ hs (fun res h => State.celStewardRead_canonical _ _ _ hs _ h))

theorem execCelShkRead_keeps (s : State) (hs : Canonical s) : Keeps (execCelShkRead s) := by
  unfold execCelShkRead
  exact (keeps_next _).2 (afterRead_canonical _ _ hs (fun res h => State.celStewardRead_canonical _ _ _ hs _ h))

theorem execCelTimeWrite_keeps (wall : Bool) (i : Fin 7) (v : Word) (s : State) (hs : Canonical s) :
    Keeps (execCelTimeWrite wall i v s) := by
  unfold execCelTimeWrite
  simp (maxDischargeDepth := 14) [hs]

theorem execCelTimeRead_keeps (wall : Bool) (s : State) (hs : Canonical s) : Keeps (execCelTimeRead wall s) := by
  unfold execCelTimeRead
  exact (keeps_next _).2 (afterRead_canonical _ _ hs (fun res h => State.celStewardRead_canonical _ _ _ hs _ h))

theorem execTimeBaseEdge_keeps (s : State) (hs : Canonical s) : Keeps (execTimeBaseEdge s) := by
  unfold execTimeBaseEdge
  simp (maxDischargeDepth := 14) [hs]

theorem execDmaLineDone_keeps (ch : Fin 32) (ec : BitVec 2) (tileErr : Bool) (s : State) (hs : Canonical s) :
    Keeps (execDmaLineDone ch ec tileErr s) := by
  unfold execDmaLineDone
  simp (maxDischargeDepth := 14) [hs]

theorem execCanbFrameReceived_keeps (f : CanFrame) (s : State) (hs : Canonical s) :
    Keeps (execCanbFrameReceived f s) := by
  unfold execCanbFrameReceived
  simp (maxDischargeDepth := 14) (contextual := true) [hs]

theorem execCanbFrameSent_keeps (buf : Fin 3) (sent : Bool) (lec : BitVec 3) (s : State) (hs : Canonical s) :
    Keeps (execCanbFrameSent buf sent lec s) := by
  unfold execCanbFrameSent
  simp (maxDischargeDepth := 14) (contextual := true) [hs]

theorem execCanbBusOff_keeps (s : State) (hs : Canonical s) : Keeps (execCanbBusOff s) := by
  unfold execCanbBusOff
  simp (maxDischargeDepth := 14) (contextual := true) [hs]

theorem execI2cTransferDone_keeps (res : Fin 8) (n : Nat) (got : List Octet) (s : State) (hs : Canonical s) :
    Keeps (execI2cTransferDone res n got s) := by
  unfold execI2cTransferDone
  simp (maxDischargeDepth := 14) (contextual := true) [hs]

theorem execI2cHoldTimeout_keeps (s : State) (hs : Canonical s) : Keeps (execI2cHoldTimeout s) := by
  unfold execI2cHoldTimeout
  simp (maxDischargeDepth := 14) (contextual := true) [hs]

theorem execI2cStretchTimeout_keeps (s : State) (hs : Canonical s) : Keeps (execI2cStretchTimeout s) := by
  unfold execI2cStretchTimeout
  simp (maxDischargeDepth := 14) (contextual := true) [apply_ite, hs]

theorem execSspiDone_keeps (got : List Octet) (s : State) (hs : Canonical s) : Keeps (execSspiDone got s) := by
  unfold execSspiDone
  simp (maxDischargeDepth := 14) (contextual := true) [hs]

theorem execGnssOctetReceived_keeps (o : Octet) (ferr : Bool) (s : State) (hs : Canonical s) :
    Keeps (execGnssOctetReceived o ferr s) := by
  unfold execGnssOctetReceived
  simp (maxDischargeDepth := 14) (contextual := true) [hs]

theorem execGnssPpsEdge_keeps (dt : Nat) (s : State) (hs : Canonical s) : Keeps (execGnssPpsEdge dt s) := by
  unfold execGnssPpsEdge
  simp (maxDischargeDepth := 14) (contextual := true) [hs]

theorem execGpioInputEdge_keeps (n : Fin 40) (level : Bool) (s : State) (hs : Canonical s) :
    Keeps (execGpioInputEdge n level s) := by
  unfold execGpioInputEdge
  simp (maxDischargeDepth := 14) (contextual := true) [hs]

theorem execGpioPwmPeriodEnd_keeps (s : State) (hs : Canonical s) : Keeps (execGpioPwmPeriodEnd s) := by
  unfold execGpioPwmPeriodEnd
  simp (maxDischargeDepth := 14) (contextual := true) [hs]

theorem execFilteredEdge_keeps (dt : Nat) (e : CapEdge) (s : State) (hs : Canonical s) :
    Keeps (execFilteredEdge dt e s) := by
  unfold execFilteredEdge
  refine (keeps_next _).2 ?_
  have h := State.tickTs_canonical _ dt hs
  split
  · exact State.live_canonical _ _ _ _ h (fun s h => State.ppsEdge_canonical _ h)
  all_goals exact State.live_canonical _ _ _ _ h (fun s h => State.capEdge_canonical _ _ h)

theorem execAdcEntryComplete_keeps (codeA : Word) (codeB : Word) (s : State) (hs : Canonical s) :
    Keeps (execAdcEntryComplete codeA codeB s) := by
  unfold execAdcEntryComplete
  simp (maxDischargeDepth := 14) (contextual := true) [hs]

theorem execAnnounce_keeps (fs : List CanFrame) (s : State) (hs : Canonical s) : Keeps (execAnnounce fs s) := by
  unfold execAnnounce
  simp (maxDischargeDepth := 14) (contextual := true) [hs]

theorem execAnnounceTimer_keeps (s : State) (hs : Canonical s) : Keeps (execAnnounceTimer s) := by
  unfold execAnnounceTimer
  simp (maxDischargeDepth := 14) [hs]

theorem execJoinReq_keeps (fs : List CanFrame) (s : State) (hs : Canonical s) : Keeps (execJoinReq fs s) := by
  unfold execJoinReq
  simp (maxDischargeDepth := 14) (contextual := true) [hs]

theorem execJoinChal_keeps (fs : List CanFrame) (s : State) (hs : Canonical s) : Keeps (execJoinChal fs s) := by
  unfold execJoinChal
  simp (maxDischargeDepth := 14) (contextual := true) [hs]

theorem execJoinProof_keeps (fs : List CanFrame) (s : State) (hs : Canonical s) :
    Keeps (execJoinProof fs s) := by
  unfold execJoinProof
  simp (maxDischargeDepth := 14) (contextual := true) [hs]

theorem execJoinResult_keeps (fs : List CanFrame) (s : State) (hs : Canonical s) :
    Keeps (execJoinResult fs s) := by
  unfold execJoinResult
  simp (maxDischargeDepth := 14) (contextual := true) [canonical_foldl, hs]

theorem execJoinTimeout_keeps (s : State) (hs : Canonical s) : Keeps (execJoinTimeout s) := by
  unfold execJoinTimeout
  simp (maxDischargeDepth := 14) [hs]

theorem execProofTimeout_keeps (s : State) (hs : Canonical s) : Keeps (execProofTimeout s) := by
  unfold execProofTimeout
  simp (maxDischargeDepth := 14) [hs]

theorem execBackoffExpiry_keeps (s : State) (hs : Canonical s) : Keeps (execBackoffExpiry s) := by
  unfold execBackoffExpiry
  simp (maxDischargeDepth := 14) [hs]

theorem execLeave_keeps (fs : List CanFrame) (s : State) (hs : Canonical s) : Keeps (execLeave fs s) := by
  unfold execLeave
  simp (maxDischargeDepth := 14) (contextual := true) [apply_ite, hs]

theorem execRekey_keeps (fs : List CanFrame) (s : State) (hs : Canonical s) : Keeps (execRekey fs s) := by
  unfold execRekey
  simp (maxDischargeDepth := 14) (contextual := true) [hs]

theorem execKeyAgeRekey_keeps (node : Nat) (s : State) (hs : Canonical s) : Keeps (execKeyAgeRekey node s) := by
  unfold execKeyAgeRekey
  dsimp only
  (repeat' split) <;> simp (maxDischargeDepth := 14) [hs]

theorem execRekeyTimeout_keeps (node : Nat) (s : State) (hs : Canonical s) : Keeps (execRekeyTimeout node s) := by
  unfold execRekeyTimeout
  exact (keeps_next _).2 hs

theorem execRekeyRetry_keeps (node : Nat) (s : State) (hs : Canonical s) : Keeps (execRekeyRetry node s) := by
  unfold execRekeyRetry
  dsimp only
  (repeat' split) <;> simp (maxDischargeDepth := 14) [hs]

theorem execPrevGenerationExpiry_keeps (node : Nat) (s : State) (hs : Canonical s) :
    Keeps (execPrevGenerationExpiry node s) := by
  unfold execPrevGenerationExpiry
  simp (maxDischargeDepth := 14) [hs]

theorem execHeartbeat_keeps (fs : List CanFrame) (s : State) (hs : Canonical s) :
    Keeps (execHeartbeat fs s) := by
  unfold execHeartbeat
  simp (maxDischargeDepth := 14) (contextual := true) [apply_ite, hs]

theorem execHeartbeatTimer_keeps (s : State) (hs : Canonical s) : Keeps (execHeartbeatTimer s) := by
  unfold execHeartbeatTimer
  simp (maxDischargeDepth := 14) [hs]

theorem execRoster_keeps (fs : List CanFrame) (s : State) (hs : Canonical s) : Keeps (execRoster fs s) := by
  unfold execRoster
  simp (maxDischargeDepth := 14) (contextual := true) [hs]

theorem execEnergyReport_keeps (fs : List CanFrame) (s : State) (hs : Canonical s) :
    Keeps (execEnergyReport fs s) := by
  unfold execEnergyReport
  simp (maxDischargeDepth := 14) (contextual := true) [hs]

theorem execEnergyReportTimer_keeps (s : State) (hs : Canonical s) : Keeps (execEnergyReportTimer s) := by
  unfold execEnergyReportTimer
  simp (maxDischargeDepth := 14) [hs]

theorem execReportReq_keeps (fs : List CanFrame) (s : State) (hs : Canonical s) :
    Keeps (execReportReq fs s) := by
  unfold execReportReq
  simp (maxDischargeDepth := 14) (contextual := true) [hs]

theorem execTimeOffer_keeps (fs : List CanFrame) (dt : Nat) (s : State) (hs : Canonical s) :
    Keeps (execTimeOffer fs dt s) := by
  unfold execTimeOffer
  simp (maxDischargeDepth := 14) (contextual := true) [hs]

theorem execTimeOfferTimer_keeps (s : State) (hs : Canonical s) : Keeps (execTimeOfferTimer s) := by
  unfold execTimeOfferTimer
  simp (maxDischargeDepth := 14) [hs]

theorem execOfferWithdraw_keeps (s : State) (hs : Canonical s) : Keeps (execOfferWithdraw s) := by
  unfold execOfferWithdraw
  simp (maxDischargeDepth := 14) [hs]

theorem execConfigOffer_keeps (fs : List CanFrame) (s : State) (hs : Canonical s) :
    Keeps (execConfigOffer fs s) := by
  unfold execConfigOffer
  simp (maxDischargeDepth := 14) (contextual := true) [hs]

theorem execConfigMerged_keeps (fs : List CanFrame) (s : State) (hs : Canonical s) :
    Keeps (execConfigMerged fs s) := by
  unfold execConfigMerged
  simp (maxDischargeDepth := 14) (contextual := true) [hs]

theorem execDockState_keeps (fs : List CanFrame) (s : State) (hs : Canonical s) :
    Keeps (execDockState fs s) := by
  unfold execDockState
  simp (maxDischargeDepth := 14) (contextual := true) [hs]

theorem execDockStateTimer_keeps (chargerOn : Bool) (chargerFault : Bool) (s : State) (hs : Canonical s) :
    Keeps (execDockStateTimer chargerOn chargerFault s) := by
  unfold execDockStateTimer
  simp (maxDischargeDepth := 14) [hs]

theorem execChargeReport_keeps (fs : List CanFrame) (s : State) (hs : Canonical s) :
    Keeps (execChargeReport fs s) := by
  unfold execChargeReport
  simp (maxDischargeDepth := 14) (contextual := true) [hs]

theorem execRelayResult_keeps (fs : List CanFrame) (s : State) (hs : Canonical s) :
    Keeps (execRelayResult fs s) := by
  unfold execRelayResult
  refine (keeps_next _).2 (State.onSecured_canonical _ _ _ _ _ hs (fun s n l h => ?_))
  split
  · exact h
  · split
    · exact State.finish_canonical _ _ _ (State.setCon_canonical _ _ h)
    · exact h

theorem execRelayTimeout_keeps (s : State) (hs : Canonical s) : Keeps (execRelayTimeout s) := by
  unfold execRelayTimeout
  simp (maxDischargeDepth := 14) [hs]

theorem execMemberSilenceTimeout_keeps (node : Nat) (s : State) (hs : Canonical s) :
    Keeps (execMemberSilenceTimeout node s) := by
  unfold execMemberSilenceTimeout
  simp (maxDischargeDepth := 14) [hs]

theorem execVehicleSilenceTimeout_keeps (s : State) (hs : Canonical s) : Keeps (execVehicleSilenceTimeout s) := by
  unfold execVehicleSilenceTimeout
  simp (maxDischargeDepth := 14) [hs]

theorem execFragmentTimeout_keeps (sender : Nat) (s : State) (hs : Canonical s) :
    Keeps (execFragmentTimeout sender s) := by
  unfold execFragmentTimeout
  simp (maxDischargeDepth := 14) [hs]

theorem execCanAFrameIgnored_keeps (f : CanFrame) (s : State) (hs : Canonical s) :
    Keeps (execCanAFrameIgnored f s) := by
  unfold execCanAFrameIgnored
  simp (maxDischargeDepth := 14) [hs]

theorem execConcordUnknownType_keeps (f : CanFrame) (s : State) (hs : Canonical s) :
    Keeps (execConcordUnknownType f s) := by
  unfold execConcordUnknownType
  simp (maxDischargeDepth := 14) [hs]

theorem execCanABusError_keeps (txErrors : Nat) (rxErrors : Nat) (s : State) (hs : Canonical s) :
    Keeps (execCanABusError txErrors rxErrors s) := by
  unfold execCanABusError
  simp (maxDischargeDepth := 14) [hs]

theorem execBusOffRecovery_keeps (s : State) (hs : Canonical s) : Keeps (execBusOffRecovery s) := by
  unfold execBusOffRecovery
  simp (maxDischargeDepth := 14) [hs]

theorem execRateFallbackEnd_keeps (s : State) (hs : Canonical s) : Keeps (execRateFallbackEnd s) := by
  unfold execRateFallbackEnd
  simp (maxDischargeDepth := 14) [hs]

theorem execRestrictedModeTimeout_keeps (s : State) (hs : Canonical s) : Keeps (execRestrictedModeTimeout s) := by
  unfold execRestrictedModeTimeout
  exact (keeps_next _).2 hs

theorem execTwoVehiclesHeard_keeps (fs : List CanFrame) (s : State) (hs : Canonical s) :
    Keeps (execTwoVehiclesHeard fs s) := by
  unfold execTwoVehiclesHeard
  simp (maxDischargeDepth := 14) (contextual := true) [hs]

theorem execAfeSample_keeps (rsp : List (List Octet)) (dt : Nat) (s : State) (hs : Canonical s) :
    Keeps (execAfeSample rsp dt s) := by
  unfold execAfeSample
  simp (maxDischargeDepth := 14) [hs]

theorem execPackCounterPersist_keeps (s : State) (hs : Canonical s) : Keeps (execPackCounterPersist s) := by
  unfold execPackCounterPersist
  simp (maxDischargeDepth := 14) [hs]

theorem execAlwaysOnRise_keeps (s : State) (hs : Canonical s) : Keeps (execAlwaysOnRise s) := by
  unfold execAlwaysOnRise
  simp (maxDischargeDepth := 14) [hs]

theorem execAlwaysOnFall_keeps (cut : Vector PageCut 2) (s : State) (hs : Canonical s) :
    Keeps (execAlwaysOnFall cut s) := by
  unfold execAlwaysOnFall
  simp (maxDischargeDepth := 14) [hs]

theorem execAoLowTrip_keeps (low : Bool) (s : State) (hs : Canonical s) : Keeps (execAoLowTrip low s) := by
  unfold execAoLowTrip
  simp (maxDischargeDepth := 14) [hs]

theorem execPwrFailTrip_keeps (analog : Bool) (s : State) (hs : Canonical s) : Keeps (execPwrFailTrip analog s) := by
  unfold execPwrFailTrip
  simp (maxDischargeDepth := 14) [hs]

theorem execPfiNFall_keeps (s : State) (hs : Canonical s) : Keeps (execPfiNFall s) := by
  unfold execPfiNFall
  simp (maxDischargeDepth := 14) [hs]

theorem execBLowTrip_keeps (s : State) (hs : Canonical s) : Keeps (execBLowTrip s) := by
  unfold execBLowTrip
  simp (maxDischargeDepth := 14) [hs]

theorem execIoBorTrip_keeps (cut : Vector PageCut 2) (s : State) (hs : Canonical s) :
    Keeps (execIoBorTrip cut s) := by
  unfold execIoBorTrip
  simp (maxDischargeDepth := 14) [hs]

theorem execCLowTrip_keeps (s : State) (hs : Canonical s) : Keeps (execCLowTrip s) := by
  unfold execCLowTrip
  dsimp only
  (repeat' split) <;> simp (maxDischargeDepth := 14) [hs]

theorem execCLowClear_keeps (s : State) (hs : Canonical s) : Keeps (execCLowClear s) := by
  unfold execCLowClear
  simp (maxDischargeDepth := 14) [hs]

theorem execVcoreFault_keeps (f : VcoreFault) (cut : Vector PageCut 2) (s : State) (hs : Canonical s) :
    Keeps (execVcoreFault f cut s) := by
  unfold execVcoreFault
  simp (maxDischargeDepth := 14) [hs]

theorem execV33Good_keeps (e : StartEnv) (s : State) (hs : Canonical s) : Keeps (execV33Good e s) := by
  unfold execV33Good
  simp (maxDischargeDepth := 14) [hs]

theorem execRetryTimerExpiry_keeps (e : StartEnv) (s : State) (hs : Canonical s) :
    Keeps (execRetryTimerExpiry e s) := by
  unfold execRetryTimerExpiry
  simp (maxDischargeDepth := 14) [hs]

theorem execFaultCountClear_keeps (s : State) (hs : Canonical s) : Keeps (execFaultCountClear s) := by
  unfold execFaultCountClear
  exact (keeps_next _).2 hs

theorem execHoldupSequenceComplete_keeps (s : State) (hs : Canonical s) : Keeps (execHoldupSequenceComplete s) := by
  unfold execHoldupSequenceComplete
  simp (maxDischargeDepth := 14) [hs]

theorem execTierDecision_keeps (failed : List UnitId) (e : StoreEnv) (s : State) (hs : Canonical s) :
    Keeps (execTierDecision failed e s) := by
  unfold execTierDecision
  simp (maxDischargeDepth := 14) [hs]

theorem execSelftestTimeout_keeps (unended : List UnitId) (e : StoreEnv) (s : State) (hs : Canonical s) :
    Keeps (execSelftestTimeout unended e s) := by
  unfold execSelftestTimeout
  simp (maxDischargeDepth := 14) [hs]

theorem execKnownAnswerRetest_keeps (failed : List UnitId) (s : State) (hs : Canonical s) :
    Keeps (execKnownAnswerRetest failed s) := by
  unfold execKnownAnswerRetest
  simp (maxDischargeDepth := 14) [hs]

theorem execPllLock_keeps (s : State) (hs : Canonical s) : Keeps (execPllLock s) := by
  unfold execPllLock
  simp (maxDischargeDepth := 14) [hs]

theorem execPllLockLoss_keeps (s : State) (hs : Canonical s) : Keeps (execPllLockLoss s) := by
  unfold execPllLockLoss
  simp (maxDischargeDepth := 14) [hs]

theorem execPllRelockTimeout_keeps (s : State) (hs : Canonical s) : Keeps (execPllRelockTimeout s) := by
  unfold execPllRelockTimeout
  simp (maxDischargeDepth := 14) [hs]

theorem execHfxStartTimeout_keeps (s : State) (hs : Canonical s) : Keeps (execHfxStartTimeout s) := by
  unfold execHfxStartTimeout
  simp (maxDischargeDepth := 14) [hs]

theorem execDomainClockStopped_keeps (d : ClockDomain) (also : List UnitId) (s : State) (hs : Canonical s) :
    Keeps (execDomainClockStopped d also s) := by
  unfold execDomainClockStopped
  simp (maxDischargeDepth := 14) [hs]

theorem execFclkStopped_keeps (cut : Vector PageCut 2) (s : State) (hs : Canonical s) :
    Keeps (execFclkStopped cut s) := by
  unfold execFclkStopped
  simp (maxDischargeDepth := 14) [hs]

theorem execOscActivityTimeout_keeps (lfx : Bool) (s : State) (hs : Canonical s) :
    Keeps (execOscActivityTimeout lfx s) := by
  unfold execOscActivityTimeout
  simp (maxDischargeDepth := 14) [hs]

theorem execLfxCheckWindow_keeps (edges : Nat) (s : State) (hs : Canonical s) : Keeps (execLfxCheckWindow edges s) := by
  unfold execLfxCheckWindow
  simp (maxDischargeDepth := 14) [hs]

theorem execLfoCountCheck_keeps (off : Nat) (s : State) (hs : Canonical s) : Keeps (execLfoCountCheck off s) := by
  unfold execLfoCountCheck
  simp (maxDischargeDepth := 14) [hs]

theorem execStewardWatchdogExpiry_keeps (e : StartEnv) (s : State) (hs : Canonical s) :
    Keeps (execStewardWatchdogExpiry e s) := by
  unfold execStewardWatchdogExpiry
  simp (maxDischargeDepth := 14) [hs]

theorem execCoreWatchdogExpiry_keeps (i : Fin 4) (e : StoreEnv) (s : State) (hs : Canonical s) :
    Keeps (execCoreWatchdogExpiry i e s) := by
  unfold execCoreWatchdogExpiry
  simp (maxDischargeDepth := 14) [hs]

theorem execVcoreSettled_keeps (s : State) (hs : Canonical s) : Keeps (execVcoreSettled s) := by
  unfold execVcoreSettled
  simp (maxDischargeDepth := 14) [hs]

theorem execTjSample_keeps (t : Word) (s : State) (hs : Canonical s) : Keeps (execTjSample t s) := by
  unfold execTjSample
  simp (maxDischargeDepth := 14) [hs]

theorem execLedgerTailTimer_keeps (w : RingWrite) (s : State) (hs : Canonical s) :
    Keeps (execLedgerTailTimer w s) := by
  unfold execLedgerTailTimer
  simp (maxDischargeDepth := 14) [hs]

theorem execTeaselRailLoss_keeps (s : State) (hs : Canonical s) : Keeps (execTeaselRailLoss s) := by
  unfold execTeaselRailLoss
  exact (keeps_next _).2 hs

theorem execTeaselRailReturn_keeps (s : State) (hs : Canonical s) : Keeps (execTeaselRailReturn s) := by
  unfold execTeaselRailReturn
  simp (maxDischargeDepth := 14) [hs]

theorem execSupplyMonitorRise_keeps (x : SupplyCause) (s : State) (hs : Canonical s) :
    Keeps (execSupplyMonitorRise x s) := by
  unfold execSupplyMonitorRise
  simp (maxDischargeDepth := 14) [hs]

theorem execAlwaysOnSourceSwitch_keeps (vddioA : Bool) (s : State) (hs : Canonical s) :
    Keeps (execAlwaysOnSourceSwitch vddioA s) := by
  unfold execAlwaysOnSourceSwitch
  exact (keeps_next _).2 hs

theorem execKeyScan_keeps (r : Vector KeyReading 16) (e : StartEnv) (s : State) (hs : Canonical s) :
    Keeps (execKeyScan r e s) := by
  unfold execKeyScan
  refine (keeps_next _).2 ?_
  split
  · exact hs
  · split <;> rename_i heq <;> have h := canonical_of_fst heq (State.keyScan_canonical _ r hs)
    · exact State.wakeRequest_canonical _ _ (State.wakeBit_canonical _ _ h)
    · exact h

theorem execSealMeasure_keeps (n : Fin 2) (bin : BitVec 4) (e : StartEnv) (s : State) (hs : Canonical s) :
    Keeps (execSealMeasure n bin e s) := by
  unfold execSealMeasure
  simp (maxDischargeDepth := 14) [hs]

theorem execShockDetect_keeps (e : StartEnv) (s : State) (hs : Canonical s) : Keeps (execShockDetect e s) := by
  unfold execShockDetect
  simp (maxDischargeDepth := 14) [hs]

theorem execHostWakeEdge_keeps (hrxd : Bool) (e : StartEnv) (s : State) (hs : Canonical s) :
    Keeps (execHostWakeEdge hrxd e s) := by
  unfold execHostWakeEdge
  simp (maxDischargeDepth := 14) [hs]

theorem execServiceNFall_keeps (low : Bool) (s : State) (hs : Canonical s) : Keeps (execServiceNFall low s) := by
  unfold execServiceNFall
  exact (keeps_next _).2 hs

theorem execServicePressRecognised_keeps (jumper : Bool) (e : StartEnv) (s : State) (hs : Canonical s) :
    Keeps (execServicePressRecognised jumper e s) := by
  unfold execServicePressRecognised
  simp (maxDischargeDepth := 14) [hs]

theorem execJmpPresFall_keeps (low : Bool) (s : State) (hs : Canonical s) : Keeps (execJmpPresFall low s) := by
  unfold execJmpPresFall
  exact (keeps_next _).2 hs

theorem execJumperRecognised_keeps (e : StartEnv) (s : State) (hs : Canonical s) :
    Keeps (execJumperRecognised e s) := by
  unfold execJumperRecognised
  simp (maxDischargeDepth := 14) [hs]

theorem execDockGateEnd_keeps (edges : Nat) (e : StartEnv) (s : State) (hs : Canonical s) :
    Keeps (execDockGateEnd edges e s) := by
  unfold execDockGateEnd
  simp (maxDischargeDepth := 14) [hs]

theorem execPresenceWindowExpiry_keeps (s : State) (hs : Canonical s) : Keeps (execPresenceWindowExpiry s) := by
  unfold execPresenceWindowExpiry
  simp (maxDischargeDepth := 14) [hs]

theorem execServicePeriodExpiry_keeps (s : State) (hs : Canonical s) : Keeps (execServicePeriodExpiry s) := by
  unfold execServicePeriodExpiry
  exact (keeps_next _).2 hs

theorem execStuckButtonTimeout_keeps (s : State) (hs : Canonical s) : Keeps (execStuckButtonTimeout s) := by
  unfold execStuckButtonTimeout
  simp (maxDischargeDepth := 14) [hs]

theorem execDockRejectTimeout_keeps (s : State) (hs : Canonical s) : Keeps (execDockRejectTimeout s) := by
  unfold execDockRejectTimeout
  simp (maxDischargeDepth := 14) [hs]

theorem execComparatorActive_keeps (n : Fin 4) (e : StoreEnv) (s : State) (hs : Canonical s) :
    Keeps (execComparatorActive n e s) := by
  unfold execComparatorActive
  simp (maxDischargeDepth := 14) [hs]

theorem execFaultNActive_keeps (e : StoreEnv) (s : State) (hs : Canonical s) :
    Keeps (execFaultNActive e s) := by
  unfold execFaultNActive
  simp (maxDischargeDepth := 14) [hs]

theorem execProbationExpiry_keeps (w : StoreWrite) (s : State) (hs : Canonical s) :
    Keeps (execProbationExpiry w s) := by
  unfold execProbationExpiry
  simp (maxDischargeDepth := 14) [hs]

theorem execScrubTimer_keeps (e : StoreEnv) (s : State) (hs : Canonical s) : Keeps (execScrubTimer e s) := by
  unfold execScrubTimer
  simp (maxDischargeDepth := 14) [hs]

theorem execClosureCheck_keeps (w : RingWrite) (s : State) (hs : Canonical s) :
    Keeps (execClosureCheck w s) := by
  unfold execClosureCheck
  simp (maxDischargeDepth := 14) [hs]

theorem execClass4Decay_keeps (s : State) (hs : Canonical s) : Keeps (execClass4Decay s) := by
  unfold execClass4Decay
  simp (maxDischargeDepth := 14) [hs]

theorem execMaxRideDuration_keeps (w : RingWrite) (e : StoreEnv) (s : State) (hs : Canonical s) :
    Keeps (execMaxRideDuration w e s) := by
  unfold execMaxRideDuration
  refine (keeps_next _).2 ?_
  have h := hs
  try dsimp only
  (repeat' split) <;> first | exact h | simp (maxDischargeDepth := 14) [h]

theorem execStageRelay_keeps (fs : List CanFrame) (w : StoreWrite) (s : State) (hs : Canonical s) :
    Keeps (execStageRelay fs w s) := by
  unfold execStageRelay
  refine (keeps_next _).2 (State.cutShort_canonical _ (State.onSecured_canonical _ _ _ _ _ hs (fun s n l h => ?_)))
  dsimp only
  refine State.sendSecured_canonical _ _ _ _ ?_
  split
  · exact h
  · exact State.stage_canonical _ _ _ _ h

theorem execSpiWrite_keeps (used : Fin 3) (os : List Octet) (s : State) (hs : Canonical s) :
    Keeps (execSpiWrite used os s) := by
  unfold execSpiWrite
  simp (maxDischargeDepth := 14) [hs]

theorem execSpiRead_keeps (used : Fin 3) (n : Nat) (s : State) (hs : Canonical s) : Keeps (execSpiRead used n s) := by
  unfold execSpiRead
  refine (keeps_next _).2 (State.spi_canonical _ _ _ hs (fun s h => ?_))
  try dsimp only
  (repeat' split) <;> first | exact h | simp (maxDischargeDepth := 14) [h]

theorem execSpiReread_keeps (used : Fin 3) (n : Nat) (s : State) (hs : Canonical s) : Keeps (execSpiReread used n s) := by
  unfold execSpiReread
  simp (maxDischargeDepth := 14) [hs]

theorem execSpiStatus_keeps (used : Fin 3) (s : State) (hs : Canonical s) : Keeps (execSpiStatus used s) := by
  unfold execSpiStatus
  simp (maxDischargeDepth := 14) [hs]

theorem execSpiBadOpcode_keeps (used : Fin 3) (op : Octet) (s : State) (hs : Canonical s) :
    Keeps (execSpiBadOpcode used op s) := by
  unfold execSpiBadOpcode
  simp (maxDischargeDepth := 14) [hs]

theorem execHcsTimeout_keeps (write : Bool) (s : State) (hs : Canonical s) : Keeps (execHcsTimeout write s) := by
  unfold execHcsTimeout
  simp (maxDischargeDepth := 14) [hs]

theorem execUartFrame_keeps (used : Fin 3) (os : List Octet) (s : State) (hs : Canonical s) :
    Keeps (execUartFrame used os s) := by
  unfold execUartFrame
  simp (maxDischargeDepth := 14) [hs]

theorem execUartGapTimeout_keeps (s : State) (hs : Canonical s) : Keeps (execUartGapTimeout s) := by
  unfold execUartGapTimeout
  simp (maxDischargeDepth := 14) [hs]

theorem execHctsChange_keeps (high : Bool) (sent : Nat) (s : State) (hs : Canonical s) :
    Keeps (execHctsChange high sent s) := by
  unfold execHctsChange
  dsimp only
  (repeat' split) <;> simp (maxDischargeDepth := 14) [hs]

theorem execUartRateApply_keeps (s : State) (hs : Canonical s) : Keeps (execUartRateApply s) := by
  unfold execUartRateApply
  dsimp only
  (repeat' split) <;> simp (maxDischargeDepth := 14) [hs]

theorem execUartRateRevert_keeps (s : State) (hs : Canonical s) : Keeps (execUartRateRevert s) := by
  unfold execUartRateRevert
  simp (maxDischargeDepth := 14) [hs]

theorem execUartFrameSent_keeps (s : State) (hs : Canonical s) : Keeps (execUartFrameSent s) := by
  unfold execUartFrameSent
  dsimp only
  (repeat' split) <;> simp (maxDischargeDepth := 14) [hs]

theorem execUsbFrame_keeps (used : Fin 3) (os : List Octet) (s : State) (hs : Canonical s) :
    Keeps (execUsbFrame used os s) := by
  unfold execUsbFrame
  simp (maxDischargeDepth := 14) [hs]

theorem execUsbInTransfer_keeps (s : State) (hs : Canonical s) : Keeps (execUsbInTransfer s) := by
  unfold execUsbInTransfer
  dsimp only
  (repeat' split) <;> simp (maxDischargeDepth := 14) [hs]

theorem execUsbVbusChange_keeps (present : Bool) (s : State) (hs : Canonical s) :
    Keeps (execUsbVbusChange present s) := by
  unfold execUsbVbusChange
  exact (keeps_next _).2 hs

theorem execUsbConfiguration_keeps (on : Bool) (s : State) (hs : Canonical s) : Keeps (execUsbConfiguration on s) := by
  unfold execUsbConfiguration
  exact (keeps_next _).2 hs

theorem execDuplicateRequest_keeps (c : Fin 7) (cmd : Nat) (flags : Octet) (q : CmdReq) (s : State) (hs : Canonical s) :
    Keeps (execDuplicateRequest c cmd flags q s) := by
  unfold execDuplicateRequest
  refine (keeps_next _).2 ?_
  have h := hs
  try dsimp only
  (repeat' split) <;> first | exact h | simp (maxDischargeDepth := 14) [h]

theorem execInterimDue_keeps (t : Transport) (c : Fin 7) (ms : Nat) (s : State) (hs : Canonical s) :
    Keeps (execInterimDue t c ms s) := by
  unfold execInterimDue
  simp (maxDischargeDepth := 14) [hs]

theorem execBusOffRecoveryDone_keeps (canB : Bool) (s : State) (hs : Canonical s) :
    Keeps (execBusOffRecoveryDone canB s) := by
  unfold execBusOffRecoveryDone
  simp (maxDischargeDepth := 14) [hs]

theorem execAppRequest_keeps (c : Fin 4) (cmd : Nat) (flags : Octet) (q : CmdReq) (s : State) (hs : Canonical s) :
    Keeps (execAppRequest c cmd flags q s) := by
  unfold execAppRequest
  refine (keeps_next _).2 ?_
  dsimp only
  split
  · exact hs
  · split
    · exact State.appDeliver_canonical _ _ _ _ _ hs
    · split
      all_goals (rename_i heq; have h := (congrArg (fun p => Canonical p.1) heq).mp (State.arrive_canonical _ _ _ hs); simp [h])

theorem execAppResponseTimeout_keeps (c : Fin 4) (s : State) (hs : Canonical s) : Keeps (execAppResponseTimeout c s) := by
  unfold execAppResponseTimeout
  refine (keeps_next _).2 ?_
  have h := hs
  try dsimp only
  (repeat' split) <;> first | exact h | simp (maxDischargeDepth := 14) [h]

theorem execNandReady_keeps (target : Fin 2) (fail : Bool) (s : State) (hs : Canonical s) :
    Keeps (execNandReady target fail s) := by
  unfold execNandReady
  simp (maxDischargeDepth := 14) [hs]

theorem execNandTimeout_keeps (target : Fin 2) (s : State) (hs : Canonical s) : Keeps (execNandTimeout target s) := by
  unfold execNandTimeout
  dsimp only
  (repeat' split) <;> simp (maxDischargeDepth := 14) [hs]

theorem execJournalPageTimer_keeps (s : State) (hs : Canonical s) : Keeps (execJournalPageTimer s) := by
  unfold execJournalPageTimer
  simp (maxDischargeDepth := 14) [hs]

theorem execSnapshotTimer_keeps (s : State) (hs : Canonical s) : Keeps (execSnapshotTimer s) := by
  unfold execSnapshotTimer
  simp (maxDischargeDepth := 14) [hs]

theorem execPatrolRead_keeps (block : Nat) (page : Nat) (sectors : List Nat) (lost : List Nat) (unknown : Option Nat) (s : State) (hs : Canonical s) :
    Keeps (execPatrolRead block page sectors lost unknown s) := by
  unfold execPatrolRead
  dsimp only
  (repeat' split) <;> simp (maxDischargeDepth := 14) (contextual := true) [hs]

theorem execJournalMountComplete_keeps (f : MountFound) (s : State) (hs : Canonical s) :
    Keeps (execJournalMountComplete f s) := by
  unfold execJournalMountComplete
  dsimp only
  (repeat' split) <;> simp (maxDischargeDepth := 14) (contextual := true) [hs]

theorem execJournalStatus_keeps (q : CmdReq) (s : State) (hs : Canonical s) :
    Keeps (execJournalStatus q s) := by
  unfold execJournalStatus
  simp (maxDischargeDepth := 14) [hs]

theorem execJournalRead_keeps (q : CmdReq) (s : State) (hs : Canonical s) : Keeps (execJournalRead q s) := by
  unfold execJournalRead
  simp (maxDischargeDepth := 14) (contextual := true) [apply_ite, hs]

theorem execNote_keeps (q : CmdReq) (s : State) (hs : Canonical s) : Keeps (execNote q s) := by
  unfold execNote
  simp (maxDischargeDepth := 14) (contextual := true) [apply_ite, hs]

theorem execAdopt_keeps (q : CmdReq) (s : State) (hs : Canonical s) : Keeps (execAdopt q s) := by
  unfold execAdopt
  simp (maxDischargeDepth := 14) (contextual := true) [apply_ite, hs]

theorem execFlush_keeps (q : CmdReq) (s : State) (hs : Canonical s) : Keeps (execFlush q s) := by
  unfold execFlush
  refine (keeps_next _).2 (State.command_canonical _ _ _ _ hs (fun s h => ?_))
  try dsimp only
  (repeat' split) <;> first | exact h | simp (maxDischargeDepth := 14) [h]

theorem execIdentity_keeps (q : CmdReq) (s : State) (hs : Canonical s) : Keeps (execIdentity q s) := by
  unfold execIdentity
  simp (maxDischargeDepth := 14) [hs]

theorem execStatus_keeps (q : CmdReq) (s : State) (hs : Canonical s) : Keeps (execStatus q s) := by
  unfold execStatus
  simp (maxDischargeDepth := 14) [hs]

theorem execOppoint_keeps (q : CmdReq) (s : State) (hs : Canonical s) : Keeps (execOppoint q s) := by
  unfold execOppoint
  simp (maxDischargeDepth := 14) (contextual := true) [apply_ite, hs]

theorem execRate_keeps (q : CmdReq) (s : State) (hs : Canonical s) : Keeps (execRate q s) := by
  unfold execRate
  simp (maxDischargeDepth := 14) (contextual := true) [apply_ite, hs]

theorem execEvmask_keeps (q : CmdReq) (s : State) (hs : Canonical s) : Keeps (execEvmask q s) := by
  unfold execEvmask
  simp (maxDischargeDepth := 14) (contextual := true) [apply_ite, hs]

theorem execReset_keeps (q : CmdReq) (nandFail : Vector Bool 2) (e : StartEnv) (s : State) (hs : Canonical s) :
    Keeps (execReset q nandFail e s) := by
  unfold execReset
  simp (maxDischargeDepth := 14) (contextual := true) [apply_ite, hs]

theorem execRelease_keeps (q : CmdReq) (nandFail : Vector Bool 2) (s : State) (hs : Canonical s) :
    Keeps (execRelease q nandFail s) := by
  unfold execRelease
  simp (maxDischargeDepth := 14) (contextual := true) [apply_ite, hs]

theorem execMotorStatus_keeps (q : CmdReq) (s : State) (hs : Canonical s) : Keeps (execMotorStatus q s) := by
  unfold execMotorStatus
  simp (maxDischargeDepth := 14) [hs]

theorem execTeaselClear_keeps (q : CmdReq) (s : State) (hs : Canonical s) : Keeps (execTeaselClear q s) := by
  unfold execTeaselClear
  simp (maxDischargeDepth := 14) (contextual := true) [apply_ite, hs]

theorem execTeaselTrip_keeps (q : CmdReq) (s : State) (hs : Canonical s) : Keeps (execTeaselTrip q s) := by
  unfold execTeaselTrip
  simp (maxDischargeDepth := 14) (contextual := true) [hs]

theorem execCelStatus_keeps (q : CmdReq) (s : State) (hs : Canonical s) : Keeps (execCelStatus q s) := by
  unfold execCelStatus
  simp (maxDischargeDepth := 14) [hs]

theorem execDisplayRead_keeps (q : CmdReq) (s : State) (hs : Canonical s) : Keeps (execDisplayRead q s) := by
  unfold execDisplayRead
  simp (maxDischargeDepth := 14) [hs]

theorem execShockHold_keeps (q : CmdReq) (s : State) (hs : Canonical s) : Keeps (execShockHold q s) := by
  unfold execShockHold
  simp (maxDischargeDepth := 14) (contextual := true) [apply_ite, hs]

theorem execKeyWake_keeps (q : CmdReq) (s : State) (hs : Canonical s) : Keeps (execKeyWake q s) := by
  unfold execKeyWake
  simp (maxDischargeDepth := 14) (contextual := true) [hs]

theorem execCoreStatus_keeps (q : CmdReq) (s : State) (hs : Canonical s) : Keeps (execCoreStatus q s) := by
  unfold execCoreStatus
  simp (maxDischargeDepth := 14) [hs]

theorem execCoreReset_keeps (q : CmdReq) (s : State) (hs : Canonical s) : Keeps (execCoreReset q s) := by
  unfold execCoreReset
  dsimp only
  (repeat' split) <;> simp (maxDischargeDepth := 14) (contextual := true) [hs]

theorem execSelftestRead_keeps (q : CmdReq) (s : State) (hs : Canonical s) : Keeps (execSelftestRead q s) := by
  unfold execSelftestRead
  simp (maxDischargeDepth := 14) (contextual := true) [hs]

theorem execSelftestRun_keeps (q : CmdReq) (failing : List UnitId) (e : StoreEnv) (s : State) (hs : Canonical s) :
    Keeps (execSelftestRun q failing e s) := by
  unfold execSelftestRun
  simp (maxDischargeDepth := 14) (contextual := true) [apply_ite, hs]

theorem execBeaconRecord_keeps (q : CmdReq) (s : State) (hs : Canonical s) : Keeps (execBeaconRecord q s) := by
  unfold execBeaconRecord
  simp (maxDischargeDepth := 14) [hs]

theorem execStageEdition_keeps (q : CmdReq) (w : StoreWrite) (s : State) (hs : Canonical s) :
    Keeps (execStageEdition q w s) := by
  unfold execStageEdition
  refine (keeps_next _).2 (State.cutShort_canonical _ (State.command_canonical _ _ _ _ hs (fun s h => ?_)))
  try dsimp only
  split
  · exact h
  · exact h
  · split <;> rename_i heq <;> have h1 := canonical_of_fst heq (State.assemble_canonical _ _ _ _ h)
    · exact h1
    · exact h1
    · exact State.stage_canonical _ _ _ _ h1

theorem execDiscardStaged_keeps (q : CmdReq) (w : StoreWrite) (s : State) (hs : Canonical s) :
    Keeps (execDiscardStaged q w s) := by
  unfold execDiscardStaged
  refine (keeps_next _).2 (State.cutShort_canonical _ (State.command_canonical _ _ _ _ hs (fun s h => ?_)))
  try dsimp only
  (repeat' split) <;> first | exact h | simp (maxDischargeDepth := 14) [h]

theorem execSlots_keeps (q : CmdReq) (s : State) (hs : Canonical s) : Keeps (execSlots q s) := by
  unfold execSlots
  simp (maxDischargeDepth := 14) [hs]

theorem execCommit_keeps (q : CmdReq) (e : StoreEnv) (s : State) (hs : Canonical s) :
    Keeps (execCommit q e s) := by
  unfold execCommit
  refine (keeps_next _).2 (State.cutShort_canonical _ (State.command_canonical _ _ _ _ hs (fun s h => ?_)))
  dsimp only
  (repeat' split) <;> first | exact h | exact State.commit_canonical _ _ _ _ _ h

theorem execRollback_keeps (q : CmdReq) (e : StoreEnv) (s : State) (hs : Canonical s) :
    Keeps (execRollback q e s) := by
  unfold execRollback
  dsimp only
  (repeat' split) <;> simp (maxDischargeDepth := 14) (contextual := true) [hs]

theorem execAccept_keeps (q : CmdReq) (w : StoreWrite) (s : State) (hs : Canonical s) :
    Keeps (execAccept q w s) := by
  unfold execAccept
  refine (keeps_next _).2 (State.cutShort_canonical _ (State.command_canonical _ _ _ _ hs (fun s h => ?_)))
  try dsimp only
  (repeat' split) <;> first | exact h | simp (maxDischargeDepth := 14) [h]

theorem execConfirmPrevious_keeps (q : CmdReq) (w : StoreWrite) (s : State) (hs : Canonical s) :
    Keeps (execConfirmPrevious q w s) := by
  unfold execConfirmPrevious
  dsimp only
  (repeat' split) <;> simp (maxDischargeDepth := 14) (contextual := true) [hs]

theorem execWindowClose_keeps (q : CmdReq) (s : State) (hs : Canonical s) : Keeps (execWindowClose q s) := by
  unfold execWindowClose
  simp (maxDischargeDepth := 14) (contextual := true) [hs]

theorem execKeysProvision_keeps (q : CmdReq) (s : State) (hs : Canonical s) :
    Keeps (execKeysProvision q s) := by
  unfold execKeysProvision
  simp (maxDischargeDepth := 14) (contextual := true) [hs]

theorem execKeysReplaceConfig_keeps (q : CmdReq) (s : State) (hs : Canonical s) :
    Keeps (execKeysReplaceConfig q s) := by
  unfold execKeysReplaceConfig
  simp (maxDischargeDepth := 14) (contextual := true) [hs]

theorem execKeysReplaceImage_keeps (q : CmdReq) (s : State) (hs : Canonical s) :
    Keeps (execKeysReplaceImage q s) := by
  unfold execKeysReplaceImage
  simp (maxDischargeDepth := 14) (contextual := true) [hs]

theorem execLifecycle_keeps (q : CmdReq) (w : RingWrite) (e : StoreEnv) (s : State) (hs : Canonical s) :
    Keeps (execLifecycle q w e s) := by
  unfold execLifecycle
  refine (keeps_next _).2 (State.cutShort_canonical _ (State.command_canonical _ _ _ _ hs (fun s h => ?_)))
  dsimp only
  split
  · exact h
  · split
    · exact h
    · split
      · split
        · exact State.setLifecycle_canonical _ _ (State.setBoot_canonical _ _ h)
        · split
          · exact State.toReturned_canonical _ _ _ h
          · exact h
      · split
        · exact State.toProvisioned_canonical _ h
        · exact State.toProvisioned_canonical _ h
        · exact State.setLifecycle_canonical _ _ h
        · exact State.toReturned_canonical _ _ _ h
        · exact h

theorem execDebugUnlock_keeps (q : CmdReq) (s : State) (hs : Canonical s) : Keeps (execDebugUnlock q s) := by
  unfold execDebugUnlock
  dsimp only
  (repeat' split) <;> simp (maxDischargeDepth := 14) (contextual := true) [hs]

theorem execReadKeys_keeps (q : CmdReq) (s : State) (hs : Canonical s) : Keeps (execReadKeys q s) := by
  unfold execReadKeys
  simp (maxDischargeDepth := 14) [hs]

theorem execSetTime_keeps (q : CmdReq) (dt : Nat) (w : RingWrite) (s : State) (hs : Canonical s) :
    Keeps (execSetTime q dt w s) := by
  unfold execSetTime
  simp (maxDischargeDepth := 14) (contextual := true) [hs]

theorem execRideOpen_keeps (q : CmdReq) (w : RingWrite) (s : State) (hs : Canonical s) :
    Keeps (execRideOpen q w s) := by
  unfold execRideOpen
  refine (keeps_next _).2 (State.cutShort_canonical _ (State.ledgerCommand_canonical _ _ _ _ hs (fun s h => ?_)))
  split
  · split
    · exact State.raise_canonical _ _ _ h
    · exact h
  · split <;> rename_i heq <;> exact canonical_of_fst heq (State.openRide_canonical _ _ h)

theorem execRideClose_keeps (q : CmdReq) (w : RingWrite) (e : StoreEnv) (s : State) (hs : Canonical s) :
    Keeps (execRideClose q w e s) := by
  unfold execRideClose
  refine (keeps_next _).2 (State.cutShort_canonical _ (State.ledgerCommand_canonical _ _ _ _ hs (fun s h => ?_)))
  split
  · exact h
  · split <;> rename_i heq <;> have h1 := canonical_of_fst heq (State.endRide_canonical _ _ _ (State.quiet_canonical _ h))
    · exact h1
    · exact State.rideCounted_canonical _ _ h1

theorem execRideStatus_keeps (q : CmdReq) (s : State) (hs : Canonical s) : Keeps (execRideStatus q s) := by
  unfold execRideStatus
  refine (keeps_next _).2 (State.ledgerCommand_canonical _ _ _ _ hs (fun s h => ?_))
  try dsimp only
  (repeat' split) <;> first | exact h | simp (maxDischargeDepth := 14) [h]

theorem execRideRead_keeps (q : CmdReq) (f : FlashFacts) (s : State) (hs : Canonical s) :
    Keeps (execRideRead q f s) := by
  unfold execRideRead
  refine (keeps_next _).2 (State.ledgerCommand_canonical _ _ _ _ hs (fun s h => ?_))
  try dsimp only
  (repeat' split) <;> first | exact h | simp (maxDischargeDepth := 14) [h]

theorem execPeriodRead_keeps (q : CmdReq) (f : FlashFacts) (s : State) (hs : Canonical s) :
    Keeps (execPeriodRead q f s) := by
  unfold execPeriodRead
  refine (keeps_next _).2 (State.ledgerCommand_canonical _ _ _ _ hs (fun s h => ?_))
  dsimp only
  split
  · exact h
  · split
    · exact h
    · split <;> rename_i heq <;> exact canonical_of_fst heq (State.readPeriod_canonical _ _ _ _ (State.streamRead_canonical _ _ _ h))

theorem execAck_keeps (q : CmdReq) (s : State) (hs : Canonical s) : Keeps (execAck q s) := by
  unfold execAck
  dsimp only
  (repeat' split) <;> simp (maxDischargeDepth := 14) (contextual := true) [hs]

theorem execEpoch_keeps (q : CmdReq) (w : RingWrite) (s : State) (hs : Canonical s) :
    Keeps (execEpoch q w s) := by
  unfold execEpoch
  refine (keeps_next _).2 (State.cutShort_canonical _ (State.ledgerCommand_canonical _ _ _ _ hs (fun s h => ?_)))
  (repeat' split) <;> first
    | exact h
    | (rename_i heq; exact canonical_of_fst heq (State.setEpoch_canonical _ _ h))

theorem execKeyExport_keeps (q : CmdReq) (s : State) (hs : Canonical s) : Keeps (execKeyExport q s) := by
  unfold execKeyExport
  refine (keeps_next _).2 (State.ledgerCommand_canonical _ _ _ _ hs (fun s h => ?_))
  try dsimp only
  (repeat' split) <;> first | exact h | simp (maxDischargeDepth := 14) [h]

theorem execLedgerStatus_keeps (q : CmdReq) (s : State) (hs : Canonical s) : Keeps (execLedgerStatus q s) := by
  unfold execLedgerStatus
  simp (maxDischargeDepth := 14) [hs]

theorem execConcordStatus_keeps (q : CmdReq) (s : State) (hs : Canonical s) :
    Keeps (execConcordStatus q s) := by
  unfold execConcordStatus
  simp (maxDischargeDepth := 14) [hs]

theorem execPresence_keeps (q : CmdReq) (s : State) (hs : Canonical s) : Keeps (execPresence q s) := by
  unfold execPresence
  dsimp only
  (repeat' split) <;> simp (maxDischargeDepth := 14) (contextual := true) [hs]

theorem execRelay_keeps (q : CmdReq) (s : State) (hs : Canonical s) : Keeps (execRelay q s) := by
  unfold execRelay
  refine (keeps_next _).2 (State.command_canonical _ _ _ _ hs (fun s h => ?_))
  try dsimp only
  split
  · split <;> rename_i heq <;> have h1 := canonical_of_fst heq (State.assemble_canonical _ _ _ _ h)
    · exact h1
    · exact h1
    · split
      · exact h
      · split
        · exact h1
        · exact State.setCon_canonical _ _ (State.sendSecured_canonical _ _ _ _ (State.quiet_canonical _ h1))
  · exact h

theorem execImageBegin_keeps (q : CmdReq) (w : StoreWrite) (eraseOk : Bool) (s : State) (hs : Canonical s) :
    Keeps (execImageBegin q w eraseOk s) := by
  unfold execImageBegin
  refine (keeps_next _).2 (State.cutShort_canonical _ (State.command_canonical _ _ _ _ hs (fun s h => ?_)))
  extract_lets total onTrial
  clear_value onTrial
  split
  · exact h
  · rename_i kind _
    dsimp only
    split
    · exact h
    · split
      · exact h
      · have h1 : Canonical (if kind = 0 && s.cus.imagePrevious = some s.cus.stageSlot then s.writeMap w (fun c => { c with imagePrevious := none })
            else (s, true)).1 := by split <;> simp [h]
        generalize (if kind = 0 && s.cus.imagePrevious = some s.cus.stageSlot then s.writeMap w (fun c => { c with imagePrevious := none })
            else (s, true)) = p at h1 ⊢
        split
        · exact h1
        · split
          · simp [h1]
          · refine State.receive_canonical _ _ _ (canonical_foldl _ (fun s x h => by simp [h]) _ _ ?_)
            simp [h1]

theorem execImageData_keeps (q : CmdReq) (progOk : Bool) (s : State) (hs : Canonical s) :
    Keeps (execImageData q progOk s) := by
  unfold execImageData
  refine (keeps_next _).2 (State.command_canonical _ _ _ _ hs (fun s h => ?_))
  try dsimp only
  split
  · exact h
  · exact h
  · split
    · exact h
    · split
      · exact h
      · split
        all_goals (rename_i heq; have h1 := (congrArg (fun p => Canonical p.1) heq).mp (State.assemble_canonical _ _ _ _ h); first | exact h1 | ((repeat' split) <;> simp (maxDischargeDepth := 14) [h1]))

theorem execImageEnd_keeps (q : CmdReq) (s : State) (hs : Canonical s) : Keeps (execImageEnd q s) := by
  unfold execImageEnd
  refine (keeps_next _).2 (State.command_canonical _ _ _ _ hs (fun s h => ?_))
  try dsimp only
  split
  · exact h
  · split
    · exact h
    · split <;> simp [h]

theorem execImageStatus_keeps (q : CmdReq) (s : State) (hs : Canonical s) : Keeps (execImageStatus q s) := by
  unfold execImageStatus
  simp (maxDischargeDepth := 14) [hs]

theorem execFlashInfo_keeps (q : CmdReq) (s : State) (hs : Canonical s) : Keeps (execFlashInfo q s) := by
  unfold execFlashInfo
  dsimp only
  (repeat' split) <;> simp (maxDischargeDepth := 14) [hs]

theorem execOpAdd_keeps (d : Delivery) (rd : Fin 32) (ra : Fin 32) (rb : Fin 32) (s : State) (hs : Canonical s) :
    Keeps (execOpAdd d rd ra rb s) := by
  unfold execOpAdd
  simp (maxDischargeDepth := 14) [hs]

theorem execOpAdc_keeps (d : Delivery) (rd : Fin 32) (ra : Fin 32) (rb : Fin 32) (s : State) (hs : Canonical s) :
    Keeps (execOpAdc d rd ra rb s) := by
  unfold execOpAdc
  simp (maxDischargeDepth := 14) [hs]

theorem execOpSub_keeps (d : Delivery) (rd : Fin 32) (ra : Fin 32) (rb : Fin 32) (s : State) (hs : Canonical s) :
    Keeps (execOpSub d rd ra rb s) := by
  unfold execOpSub
  simp (maxDischargeDepth := 14) [hs]

theorem execOpSbc_keeps (d : Delivery) (rd : Fin 32) (ra : Fin 32) (rb : Fin 32) (s : State) (hs : Canonical s) :
    Keeps (execOpSbc d rd ra rb s) := by
  unfold execOpSbc
  simp (maxDischargeDepth := 14) [hs]

theorem execOpAnd_keeps (d : Delivery) (rd : Fin 32) (ra : Fin 32) (rb : Fin 32) (s : State) (hs : Canonical s) :
    Keeps (execOpAnd d rd ra rb s) := by
  unfold execOpAnd
  simp (maxDischargeDepth := 14) [hs]

theorem execOpOr_keeps (d : Delivery) (rd : Fin 32) (ra : Fin 32) (rb : Fin 32) (s : State) (hs : Canonical s) :
    Keeps (execOpOr d rd ra rb s) := by
  unfold execOpOr
  simp (maxDischargeDepth := 14) [hs]

theorem execOpXor_keeps (d : Delivery) (rd : Fin 32) (ra : Fin 32) (rb : Fin 32) (s : State) (hs : Canonical s) :
    Keeps (execOpXor d rd ra rb s) := by
  unfold execOpXor
  simp (maxDischargeDepth := 14) [hs]

theorem execOpAndn_keeps (d : Delivery) (rd : Fin 32) (ra : Fin 32) (rb : Fin 32) (s : State) (hs : Canonical s) :
    Keeps (execOpAndn d rd ra rb s) := by
  unfold execOpAndn
  simp (maxDischargeDepth := 14) [hs]

theorem execOpShl_keeps (d : Delivery) (rd : Fin 32) (ra : Fin 32) (rb : Fin 32) (s : State) (hs : Canonical s) :
    Keeps (execOpShl d rd ra rb s) := by
  unfold execOpShl
  simp (maxDischargeDepth := 14) [hs]

theorem execOpShr_keeps (d : Delivery) (rd : Fin 32) (ra : Fin 32) (rb : Fin 32) (s : State) (hs : Canonical s) :
    Keeps (execOpShr d rd ra rb s) := by
  unfold execOpShr
  simp (maxDischargeDepth := 14) [hs]

theorem execOpSar_keeps (d : Delivery) (rd : Fin 32) (ra : Fin 32) (rb : Fin 32) (s : State) (hs : Canonical s) :
    Keeps (execOpSar d rd ra rb s) := by
  unfold execOpSar
  simp (maxDischargeDepth := 14) [hs]

theorem execOpCmp_keeps (d : Delivery) (rd : Fin 32) (ra : Fin 32) (rb : Fin 32) (s : State) (hs : Canonical s) :
    Keeps (execOpCmp d rd ra rb s) := by
  unfold execOpCmp
  simp (maxDischargeDepth := 14) [hs]

theorem execOpAddp_keeps (d : Delivery) (rd : Fin 32) (ra : Fin 32) (rb : Fin 32) (s : State) (hs : Canonical s) :
    Keeps (execOpAddp d rd ra rb s) := by
  unfold execOpAddp
  simp (maxDischargeDepth := 14) [hs]

theorem execOpSubp_keeps (d : Delivery) (rd : Fin 32) (ra : Fin 32) (rb : Fin 32) (s : State) (hs : Canonical s) :
    Keeps (execOpSubp d rd ra rb s) := by
  unfold execOpSubp
  simp (maxDischargeDepth := 14) [hs]

theorem execOpMfs_keeps (d : Delivery) (rd : Fin 32) (ra : Fin 32) (rb : Fin 32) (s : State) (hs : Canonical s) :
    Keeps (execOpMfs d rd ra rb s) := by
  unfold execOpMfs
  simp (maxDischargeDepth := 14) [hs]

theorem execOpMts_keeps (d : Delivery) (rd : Fin 32) (ra : Fin 32) (rb : Fin 32) (s : State) (hs : Canonical s) :
    Keeps (execOpMts d rd ra rb s) := by
  unfold execOpMts
  simp (maxDischargeDepth := 14) [hs]

theorem execOpLdi_keeps (d : Delivery) (rd : Fin 32) (imm : Word) (s : State) (hs : Canonical s) :
    Keeps (execOpLdi d rd imm s) := by
  unfold execOpLdi
  simp (maxDischargeDepth := 14) [hs]

theorem execOpAddi_keeps (d : Delivery) (rd : Fin 32) (imm : Word) (s : State) (hs : Canonical s) :
    Keeps (execOpAddi d rd imm s) := by
  unfold execOpAddi
  simp (maxDischargeDepth := 14) [hs]

theorem execOpAndi_keeps (d : Delivery) (rd : Fin 32) (imm : Word) (s : State) (hs : Canonical s) :
    Keeps (execOpAndi d rd imm s) := by
  unfold execOpAndi
  simp (maxDischargeDepth := 14) [hs]

theorem execOpCmpi_keeps (d : Delivery) (rd : Fin 32) (imm : Word) (s : State) (hs : Canonical s) :
    Keeps (execOpCmpi d rd imm s) := by
  unfold execOpCmpi
  simp (maxDischargeDepth := 14) [hs]

theorem execOpMuls_keeps (d : Delivery) (rd : Fin 32) (ra : Fin 32) (rb : Fin 32) (s : State) (hs : Canonical s) :
    Keeps (execOpMuls d rd ra rb s) := by
  unfold execOpMuls
  simp (maxDischargeDepth := 14) [hs]

theorem execOpMulu_keeps (d : Delivery) (rd : Fin 32) (ra : Fin 32) (rb : Fin 32) (s : State) (hs : Canonical s) :
    Keeps (execOpMulu d rd ra rb s) := by
  unfold execOpMulu
  simp (maxDischargeDepth := 14) [hs]

theorem execOpMull_keeps (d : Delivery) (rd : Fin 32) (ra : Fin 32) (rb : Fin 32) (s : State) (hs : Canonical s) :
    Keeps (execOpMull d rd ra rb s) := by
  unfold execOpMull
  simp (maxDischargeDepth := 14) [hs]

theorem execOpMacs_keeps (d : Delivery) (rd : Fin 32) (ra : Fin 32) (rb : Fin 32) (s : State) (hs : Canonical s) :
    Keeps (execOpMacs d rd ra rb s) := by
  unfold execOpMacs
  simp (maxDischargeDepth := 14) [hs]

theorem execOpMacu_keeps (d : Delivery) (rd : Fin 32) (ra : Fin 32) (rb : Fin 32) (s : State) (hs : Canonical s) :
    Keeps (execOpMacu d rd ra rb s) := by
  unfold execOpMacu
  simp (maxDischargeDepth := 14) [hs]

theorem execOpMsus_keeps (d : Delivery) (rd : Fin 32) (ra : Fin 32) (rb : Fin 32) (s : State) (hs : Canonical s) :
    Keeps (execOpMsus d rd ra rb s) := by
  unfold execOpMsus
  simp (maxDischargeDepth := 14) [hs]

theorem execOpDivs_keeps (d : Delivery) (rd : Fin 32) (ra : Fin 32) (rb : Fin 32) (s : State) (hs : Canonical s) :
    Keeps (execOpDivs d rd ra rb s) := by
  unfold execOpDivs
  simp (maxDischargeDepth := 14) [hs]

theorem execOpDivu_keeps (d : Delivery) (rd : Fin 32) (ra : Fin 32) (rb : Fin 32) (s : State) (hs : Canonical s) :
    Keeps (execOpDivu d rd ra rb s) := by
  unfold execOpDivu
  simp (maxDischargeDepth := 14) [hs]

theorem execOpRems_keeps (d : Delivery) (rd : Fin 32) (ra : Fin 32) (rb : Fin 32) (s : State) (hs : Canonical s) :
    Keeps (execOpRems d rd ra rb s) := by
  unfold execOpRems
  simp (maxDischargeDepth := 14) [hs]

theorem execOpRemu_keeps (d : Delivery) (rd : Fin 32) (ra : Fin 32) (rb : Fin 32) (s : State) (hs : Canonical s) :
    Keeps (execOpRemu d rd ra rb s) := by
  unfold execOpRemu
  simp (maxDischargeDepth := 14) [hs]

theorem execOpDivps_keeps (d : Delivery) (rd : Fin 32) (ra : Fin 32) (rb : Fin 32) (s : State) (hs : Canonical s) :
    Keeps (execOpDivps d rd ra rb s) := by
  unfold execOpDivps
  simp (maxDischargeDepth := 14) [hs]

theorem execOpDivpu_keeps (d : Delivery) (rd : Fin 32) (ra : Fin 32) (rb : Fin 32) (s : State) (hs : Canonical s) :
    Keeps (execOpDivpu d rd ra rb s) := by
  unfold execOpDivpu
  simp (maxDischargeDepth := 14) [hs]

theorem execOpAccrd_keeps (d : Delivery) (rd : Fin 32) (ra : Fin 32) (rb : Fin 32) (s : State) (hs : Canonical s) :
    Keeps (execOpAccrd d rd ra rb s) := by
  unfold execOpAccrd
  simp (maxDischargeDepth := 14) [hs]

theorem execOpAccw_keeps (d : Delivery) (rd : Fin 32) (ra : Fin 32) (rb : Fin 32) (s : State) (hs : Canonical s) :
    Keeps (execOpAccw d rd ra rb s) := by
  unfold execOpAccw
  simp (maxDischargeDepth := 14) [hs]

theorem execOpAcch_keeps (d : Delivery) (rd : Fin 32) (ra : Fin 32) (rb : Fin 32) (s : State) (hs : Canonical s) :
    Keeps (execOpAcch d rd ra rb s) := by
  unfold execOpAcch
  simp (maxDischargeDepth := 14) [hs]

theorem execOpAccz_keeps (d : Delivery) (rd : Fin 32) (ra : Fin 32) (rb : Fin 32) (s : State) (hs : Canonical s) :
    Keeps (execOpAccz d rd ra rb s) := by
  unfold execOpAccz
  simp (maxDischargeDepth := 14) [hs]

theorem execOpMuli_keeps (d : Delivery) (rd : Fin 32) (imm : Word) (s : State) (hs : Canonical s) :
    Keeps (execOpMuli d rd imm s) := by
  unfold execOpMuli
  simp (maxDischargeDepth := 14) [hs]

theorem execOpMaci_keeps (d : Delivery) (rd : Fin 32) (imm : Word) (s : State) (hs : Canonical s) :
    Keeps (execOpMaci d rd imm s) := by
  unfold execOpMaci
  simp (maxDischargeDepth := 14) [hs]

theorem execOpLdw_keeps (d : Delivery) (rd : Fin 32) (pb : Fin 16) (disp : BitVec 7) (e : AccessEnv) (s : State) (hs : Canonical s) :
    Keeps (execOpLdw d rd pb disp e s) := by
  unfold execOpLdw
  simp (maxDischargeDepth := 14) [hs]

theorem execOpLdp_keeps (d : Delivery) (rd : Fin 32) (pb : Fin 16) (disp : BitVec 7) (e : AccessEnv) (s : State) (hs : Canonical s) :
    Keeps (execOpLdp d rd pb disp e s) := by
  unfold execOpLdp
  simp (maxDischargeDepth := 14) [hs]

theorem execOpStw_keeps (d : Delivery) (rd : Fin 32) (pb : Fin 16) (disp : BitVec 7) (s : State) (hs : Canonical s) :
    Keeps (execOpStw d rd pb disp s) := by
  unfold execOpStw
  simp (maxDischargeDepth := 14) [hs]

theorem execOpStp_keeps (d : Delivery) (rd : Fin 32) (pb : Fin 16) (disp : BitVec 7) (s : State) (hs : Canonical s) :
    Keeps (execOpStp d rd pb disp s) := by
  unfold execOpStp
  simp (maxDischargeDepth := 14) [hs]

theorem execOpLdwi_keeps (d : Delivery) (rd : Fin 32) (pb : Fin 16) (disp : BitVec 7) (e : AccessEnv) (s : State) (hs : Canonical s) :
    Keeps (execOpLdwi d rd pb disp e s) := by
  unfold execOpLdwi
  simp (maxDischargeDepth := 14) [hs]

theorem execOpStwi_keeps (d : Delivery) (rd : Fin 32) (pb : Fin 16) (disp : BitVec 7) (s : State) (hs : Canonical s) :
    Keeps (execOpStwi d rd pb disp s) := by
  unfold execOpStwi
  simp (maxDischargeDepth := 14) [hs]

theorem execOpMacp_keeps (d : Delivery) (rd : Fin 32) (pb : Fin 16) (disp : BitVec 7) (e : AccessEnv) (s : State) (hs : Canonical s) :
    Keeps (execOpMacp d rd pb disp e s) := by
  unfold execOpMacp
  simp (maxDischargeDepth := 14) [hs]

theorem execOpFence_keeps (d : Delivery) (pb : Fin 16) (disp : BitVec 7) (s : State) (hs : Canonical s) :
    Keeps (execOpFence d pb disp s) := by
  unfold execOpFence
  simp (maxDischargeDepth := 14) [hs]

theorem execOpIcinv_keeps (d : Delivery) (pb : Fin 16) (disp : BitVec 7) (s : State) (hs : Canonical s) :
    Keeps (execOpIcinv d pb disp s) := by
  unfold execOpIcinv
  simp (maxDischargeDepth := 14) [hs]

theorem execOpIcinva_keeps (d : Delivery) (pb : Fin 16) (disp : BitVec 7) (s : State) (hs : Canonical s) :
    Keeps (execOpIcinva d pb disp s) := by
  unfold execOpIcinva
  simp (maxDischargeDepth := 14) [hs]

theorem execOpDcwb_keeps (d : Delivery) (pb : Fin 16) (disp : BitVec 7) (s : State) (hs : Canonical s) :
    Keeps (execOpDcwb d pb disp s) := by
  unfold execOpDcwb
  simp (maxDischargeDepth := 14) [hs]

theorem execOpDcwbi_keeps (d : Delivery) (pb : Fin 16) (disp : BitVec 7) (s : State) (hs : Canonical s) :
    Keeps (execOpDcwbi d pb disp s) := by
  unfold execOpDcwbi
  simp (maxDischargeDepth := 14) [hs]

theorem execOpIn_keeps (d : Delivery) (rd : Fin 32) (addr : Word) (e : AccessEnv) (s : State) (hs : Canonical s) :
    Keeps (execOpIn d rd addr e s) := by
  unfold execOpIn
  simp (maxDischargeDepth := 14) [hs]

theorem execOpOut_keeps (d : Delivery) (rd : Fin 32) (addr : Word) (e : AccessEnv) (s : State) (hs : Canonical s) :
    Keeps (execOpOut d rd addr e s) := by
  unfold execOpOut
  simp (maxDischargeDepth := 14) [hs]

theorem execOpBr_keeps (d : Delivery) (sel : Fin 16) (disp : Word) (s : State) (hs : Canonical s) :
    Keeps (execOpBr d sel disp s) := by
  unfold execOpBr
  simp (maxDischargeDepth := 14) [hs]

theorem execOpBc_keeps (d : Delivery) (sel : Fin 16) (disp : Word) (s : State) (hs : Canonical s) :
    Keeps (execOpBc d sel disp s) := by
  unfold execOpBc
  simp (maxDischargeDepth := 14) [hs]

theorem execOpDbnz_keeps (d : Delivery) (sel : Fin 16) (disp : Word) (s : State) (hs : Canonical s) :
    Keeps (execOpDbnz d sel disp s) := by
  unfold execOpDbnz
  simp (maxDischargeDepth := 14) [hs]

theorem execOpCall_keeps (d : Delivery) (sel : Fin 16) (disp : Word) (s : State) (hs : Canonical s) :
    Keeps (execOpCall d sel disp s) := by
  unfold execOpCall
  simp (maxDischargeDepth := 14) [hs]

theorem execOpJr_keeps (d : Delivery) (sel : Fin 16) (disp : Word) (s : State) (hs : Canonical s) :
    Keeps (execOpJr d sel disp s) := by
  unfold execOpJr
  simp (maxDischargeDepth := 14) [hs]

theorem execOpBcr_keeps (d : Delivery) (sel : Fin 16) (disp : Word) (s : State) (hs : Canonical s) :
    Keeps (execOpBcr d sel disp s) := by
  unfold execOpBcr
  simp (maxDischargeDepth := 14) [hs]

theorem execOpCallr_keeps (d : Delivery) (sel : Fin 16) (disp : Word) (s : State) (hs : Canonical s) :
    Keeps (execOpCallr d sel disp s) := by
  unfold execOpCallr
  simp (maxDischargeDepth := 14) [hs]

theorem execOpRet_keeps (d : Delivery) (sel : Fin 16) (disp : Word) (s : State) (hs : Canonical s) :
    Keeps (execOpRet d sel disp s) := by
  unfold execOpRet
  simp (maxDischargeDepth := 14) [hs]

theorem execOpKset_keeps (d : Delivery) (sel : Fin 16) (disp : Word) (s : State) (hs : Canonical s) :
    Keeps (execOpKset d sel disp s) := by
  unfold execOpKset
  simp (maxDischargeDepth := 14) [hs]

theorem execOpKget_keeps (d : Delivery) (sel : Fin 16) (disp : Word) (s : State) (hs : Canonical s) :
    Keeps (execOpKget d sel disp s) := by
  unfold execOpKget
  simp (maxDischargeDepth := 14) [hs]

theorem execOpWait_keeps (d : Delivery) (sel : Fin 16) (disp : Word) (s : State) (hs : Canonical s) :
    Keeps (execOpWait d sel disp s) := by
  unfold execOpWait
  simp (maxDischargeDepth := 14) [hs]

theorem execOpBrk_keeps (d : Delivery) (sel : Fin 16) (disp : Word) (s : State) (hs : Canonical s) :
    Keeps (execOpBrk d sel disp s) := by
  unfold execOpBrk
  simp (maxDischargeDepth := 14) [hs]

theorem execOpTrap_keeps (d : Delivery) (sel : Fin 16) (disp : Word) (s : State) (hs : Canonical s) :
    Keeps (execOpTrap d sel disp s) := by
  unfold execOpTrap
  simp (maxDischargeDepth := 14) [hs]

theorem execOpDstat_keeps (d : Delivery) (pd : Fin 16) (pa : Fin 16) (pb : Fin 16) (s : State) (hs : Canonical s) :
    Keeps (execOpDstat d pd pa pb s) := by
  unfold execOpDstat
  simp (maxDischargeDepth := 14) [hs]

theorem execOpDset_keeps (d : Delivery) (pd : Fin 16) (pa : Fin 16) (pb : Fin 16) (s : State) (hs : Canonical s) :
    Keeps (execOpDset d pd pa pb s) := by
  unfold execOpDset
  simp (maxDischargeDepth := 14) [hs]

theorem execOpDadds_keeps (d : Delivery) (pd : Fin 16) (pa : Fin 16) (pb : Fin 16) (s : State) (hs : Canonical s) :
    Keeps (execOpDadds d pd pa pb s) := by
  unfold execOpDadds
  simp (maxDischargeDepth := 14) [hs]

theorem execOpDsubs_keeps (d : Delivery) (pd : Fin 16) (pa : Fin 16) (pb : Fin 16) (s : State) (hs : Canonical s) :
    Keeps (execOpDsubs d pd pa pb s) := by
  unfold execOpDsubs
  simp (maxDischargeDepth := 14) [hs]

theorem execOpDmuls_keeps (d : Delivery) (pd : Fin 16) (pa : Fin 16) (pb : Fin 16) (s : State) (hs : Canonical s) :
    Keeps (execOpDmuls d pd pa pb s) := by
  unfold execOpDmuls
  simp (maxDischargeDepth := 14) [hs]

theorem execOpDdivs_keeps (d : Delivery) (pd : Fin 16) (pa : Fin 16) (pb : Fin 16) (s : State) (hs : Canonical s) :
    Keeps (execOpDdivs d pd pa pb s) := by
  unfold execOpDdivs
  simp (maxDischargeDepth := 14) [hs]

theorem execOpDcmps_keeps (d : Delivery) (pd : Fin 16) (pa : Fin 16) (pb : Fin 16) (s : State) (hs : Canonical s) :
    Keeps (execOpDcmps d pd pa pb s) := by
  unfold execOpDcmps
  simp (maxDischargeDepth := 14) [hs]

theorem execOpDrnds_keeps (d : Delivery) (pd : Fin 16) (pa : Fin 16) (pb : Fin 16) (s : State) (hs : Canonical s) :
    Keeps (execOpDrnds d pd pa pb s) := by
  unfold execOpDrnds
  simp (maxDischargeDepth := 14) [hs]

theorem execOpDnegs_keeps (d : Delivery) (pd : Fin 16) (pa : Fin 16) (pb : Fin 16) (s : State) (hs : Canonical s) :
    Keeps (execOpDnegs d pd pa pb s) := by
  unfold execOpDnegs
  simp (maxDischargeDepth := 14) [hs]

theorem execOpDabss_keeps (d : Delivery) (pd : Fin 16) (pa : Fin 16) (pb : Fin 16) (s : State) (hs : Canonical s) :
    Keeps (execOpDabss d pd pa pb s) := by
  unfold execOpDabss
  simp (maxDischargeDepth := 14) [hs]

theorem execOpDaddl_keeps (d : Delivery) (pd : Fin 16) (pa : Fin 16) (pb : Fin 16) (s : State) (hs : Canonical s) :
    Keeps (execOpDaddl d pd pa pb s) := by
  unfold execOpDaddl
  simp (maxDischargeDepth := 14) [hs]

theorem execOpDsubl_keeps (d : Delivery) (pd : Fin 16) (pa : Fin 16) (pb : Fin 16) (s : State) (hs : Canonical s) :
    Keeps (execOpDsubl d pd pa pb s) := by
  unfold execOpDsubl
  simp (maxDischargeDepth := 14) [hs]

theorem execOpDmull_keeps (d : Delivery) (pd : Fin 16) (pa : Fin 16) (pb : Fin 16) (s : State) (hs : Canonical s) :
    Keeps (execOpDmull d pd pa pb s) := by
  unfold execOpDmull
  simp (maxDischargeDepth := 14) [hs]

theorem execOpDdivl_keeps (d : Delivery) (pd : Fin 16) (pa : Fin 16) (pb : Fin 16) (s : State) (hs : Canonical s) :
    Keeps (execOpDdivl d pd pa pb s) := by
  unfold execOpDdivl
  simp (maxDischargeDepth := 14) [hs]

theorem execOpDcmpl_keeps (d : Delivery) (pd : Fin 16) (pa : Fin 16) (pb : Fin 16) (s : State) (hs : Canonical s) :
    Keeps (execOpDcmpl d pd pa pb s) := by
  unfold execOpDcmpl
  simp (maxDischargeDepth := 14) [hs]

theorem execOpDrndl_keeps (d : Delivery) (pd : Fin 16) (pa : Fin 16) (pb : Fin 16) (s : State) (hs : Canonical s) :
    Keeps (execOpDrndl d pd pa pb s) := by
  unfold execOpDrndl
  simp (maxDischargeDepth := 14) [hs]

theorem execOpDnegl_keeps (d : Delivery) (pd : Fin 16) (pa : Fin 16) (pb : Fin 16) (s : State) (hs : Canonical s) :
    Keeps (execOpDnegl d pd pa pb s) := by
  unfold execOpDnegl
  simp (maxDischargeDepth := 14) [hs]

theorem execOpDabsl_keeps (d : Delivery) (pd : Fin 16) (pa : Fin 16) (pb : Fin 16) (s : State) (hs : Canonical s) :
    Keeps (execOpDabsl d pd pa pb s) := by
  unfold execOpDabsl
  simp (maxDischargeDepth := 14) [hs]

theorem execOpDwiden_keeps (d : Delivery) (pd : Fin 16) (pa : Fin 16) (pb : Fin 16) (s : State) (hs : Canonical s) :
    Keeps (execOpDwiden d pd pa pb s) := by
  unfold execOpDwiden
  simp (maxDischargeDepth := 14) [hs]

theorem execOpDnarrow_keeps (d : Delivery) (pd : Fin 16) (pa : Fin 16) (pb : Fin 16) (s : State) (hs : Canonical s) :
    Keeps (execOpDnarrow d pd pa pb s) := by
  unfold execOpDnarrow
  simp (maxDischargeDepth := 14) [hs]

theorem execOpDfromb_keeps (d : Delivery) (pd : Fin 16) (pa : Fin 16) (pb : Fin 16) (s : State) (hs : Canonical s) :
    Keeps (execOpDfromb d pd pa pb s) := by
  unfold execOpDfromb
  simp (maxDischargeDepth := 14) [hs]

theorem execOpDtob_keeps (d : Delivery) (pd : Fin 16) (pa : Fin 16) (pb : Fin 16) (s : State) (hs : Canonical s) :
    Keeps (execOpDtob d pd pa pb s) := by
  unfold execOpDtob
  simp (maxDischargeDepth := 14) [hs]

theorem execOpDnan_keeps (d : Delivery) (pd : Fin 16) (pa : Fin 16) (pb : Fin 16) (s : State) (hs : Canonical s) :
    Keeps (execOpDnan d pd pa pb s) := by
  unfold execOpDnan
  simp (maxDischargeDepth := 14) [hs]

theorem execOpDcls_keeps (d : Delivery) (pd : Fin 16) (pa : Fin 16) (pb : Fin 16) (s : State) (hs : Canonical s) :
    Keeps (execOpDcls d pd pa pb s) := by
  unfold execOpDcls
  simp (maxDischargeDepth := 14) [hs]

theorem execOpClarke_keeps (d : Delivery) (pd : Fin 16) (pa : Fin 16) (pb : Fin 16) (s : State) (hs : Canonical s) :
    Keeps (execOpClarke d pd pa pb s) := by
  unfold execOpClarke
  simp (maxDischargeDepth := 14) [hs]

theorem execOpSincos_keeps (d : Delivery) (pd : Fin 16) (pa : Fin 16) (pb : Fin 16) (s : State) (hs : Canonical s) :
    Keeps (execOpSincos d pd pa pb s) := by
  unfold execOpSincos
  simp (maxDischargeDepth := 14) [hs]

theorem execOpPark_keeps (d : Delivery) (pd : Fin 16) (pa : Fin 16) (pb : Fin 16) (s : State) (hs : Canonical s) :
    Keeps (execOpPark d pd pa pb s) := by
  unfold execOpPark
  simp (maxDischargeDepth := 14) [hs]

theorem execOpIpark_keeps (d : Delivery) (pd : Fin 16) (pa : Fin 16) (pb : Fin 16) (s : State) (hs : Canonical s) :
    Keeps (execOpIpark d pd pa pb s) := by
  unfold execOpIpark
  simp (maxDischargeDepth := 14) [hs]

theorem execOpPiset_keeps (d : Delivery) (pd : Fin 16) (pa : Fin 16) (pb : Fin 16) (s : State) (hs : Canonical s) :
    Keeps (execOpPiset d pd pa pb s) := by
  unfold execOpPiset
  simp (maxDischargeDepth := 14) [hs]

theorem execOpPirst_keeps (d : Delivery) (pd : Fin 16) (pa : Fin 16) (pb : Fin 16) (s : State) (hs : Canonical s) :
    Keeps (execOpPirst d pd pa pb s) := by
  unfold execOpPirst
  simp (maxDischargeDepth := 14) [hs]

theorem execOpPistep_keeps (d : Delivery) (pd : Fin 16) (pa : Fin 16) (pb : Fin 16) (s : State) (hs : Canonical s) :
    Keeps (execOpPistep d pd pa pb s) := by
  unfold execOpPistep
  simp (maxDischargeDepth := 14) [hs]

theorem execOpCstat_keeps (d : Delivery) (pd : Fin 16) (pa : Fin 16) (pb : Fin 16) (s : State) (hs : Canonical s) :
    Keeps (execOpCstat d pd pa pb s) := by
  unfold execOpCstat
  simp (maxDischargeDepth := 14) [hs]

theorem execOpRng_keeps (d : Delivery) (pd : Fin 16) (pa : Fin 16) (pb : Fin 16) (e : AccessEnv) (s : State) (hs : Canonical s) :
    Keeps (execOpRng d pd pa pb e s) := by
  unfold execOpRng
  simp (maxDischargeDepth := 14) [hs]

theorem execOpKeyld_keeps (d : Delivery) (pd : Fin 16) (pa : Fin 16) (pb : Fin 16) (s : State) (hs : Canonical s) :
    Keeps (execOpKeyld d pd pa pb s) := by
  unfold execOpKeyld
  simp (maxDischargeDepth := 14) [hs]

theorem execOpIvld_keeps (d : Delivery) (pd : Fin 16) (pa : Fin 16) (pb : Fin 16) (s : State) (hs : Canonical s) :
    Keeps (execOpIvld d pd pa pb s) := by
  unfold execOpIvld
  simp (maxDischargeDepth := 14) [hs]

theorem execOpAese_keeps (d : Delivery) (pd : Fin 16) (pa : Fin 16) (pb : Fin 16) (s : State) (hs : Canonical s) :
    Keeps (execOpAese d pd pa pb s) := by
  unfold execOpAese
  simp (maxDischargeDepth := 14) [hs]

theorem execOpAesd_keeps (d : Delivery) (pd : Fin 16) (pa : Fin 16) (pb : Fin 16) (s : State) (hs : Canonical s) :
    Keeps (execOpAesd d pd pa pb s) := by
  unfold execOpAesd
  simp (maxDischargeDepth := 14) [hs]

theorem execOpCbce_keeps (d : Delivery) (pd : Fin 16) (pa : Fin 16) (pb : Fin 16) (s : State) (hs : Canonical s) :
    Keeps (execOpCbce d pd pa pb s) := by
  unfold execOpCbce
  simp (maxDischargeDepth := 14) [hs]

theorem execOpCbcd_keeps (d : Delivery) (pd : Fin 16) (pa : Fin 16) (pb : Fin 16) (s : State) (hs : Canonical s) :
    Keeps (execOpCbcd d pd pa pb s) := by
  unfold execOpCbcd
  simp (maxDischargeDepth := 14) [hs]

theorem execOpCtr_keeps (d : Delivery) (pd : Fin 16) (pa : Fin 16) (pb : Fin 16) (s : State) (hs : Canonical s) :
    Keeps (execOpCtr d pd pa pb s) := by
  unfold execOpCtr
  simp (maxDischargeDepth := 14) [hs]

theorem execOpGcma_keeps (d : Delivery) (pd : Fin 16) (pa : Fin 16) (pb : Fin 16) (s : State) (hs : Canonical s) :
    Keeps (execOpGcma d pd pa pb s) := by
  unfold execOpGcma
  simp (maxDischargeDepth := 14) [hs]

theorem execOpGcme_keeps (d : Delivery) (pd : Fin 16) (pa : Fin 16) (pb : Fin 16) (s : State) (hs : Canonical s) :
    Keeps (execOpGcme d pd pa pb s) := by
  unfold execOpGcme
  simp (maxDischargeDepth := 14) [hs]

theorem execOpGcmd_keeps (d : Delivery) (pd : Fin 16) (pa : Fin 16) (pb : Fin 16) (s : State) (hs : Canonical s) :
    Keeps (execOpGcmd d pd pa pb s) := by
  unfold execOpGcmd
  simp (maxDischargeDepth := 14) [hs]

theorem execOpGcmt_keeps (d : Delivery) (pd : Fin 16) (pa : Fin 16) (pb : Fin 16) (s : State) (hs : Canonical s) :
    Keeps (execOpGcmt d pd pa pb s) := by
  unfold execOpGcmt
  simp (maxDischargeDepth := 14) [hs]

theorem execOpCmac_keeps (d : Delivery) (pd : Fin 16) (pa : Fin 16) (pb : Fin 16) (s : State) (hs : Canonical s) :
    Keeps (execOpCmac d pd pa pb s) := by
  unfold execOpCmac
  simp (maxDischargeDepth := 14) [hs]

theorem execOpShai_keeps (d : Delivery) (pd : Fin 16) (pa : Fin 16) (pb : Fin 16) (s : State) (hs : Canonical s) :
    Keeps (execOpShai d pd pa pb s) := by
  unfold execOpShai
  simp (maxDischargeDepth := 14) [hs]

theorem execOpShau_keeps (d : Delivery) (pd : Fin 16) (pa : Fin 16) (pb : Fin 16) (s : State) (hs : Canonical s) :
    Keeps (execOpShau d pd pa pb s) := by
  unfold execOpShau
  simp (maxDischargeDepth := 14) [hs]

theorem execOpShaf_keeps (d : Delivery) (pd : Fin 16) (pa : Fin 16) (pb : Fin 16) (s : State) (hs : Canonical s) :
    Keeps (execOpShaf d pd pa pb s) := by
  unfold execOpShaf
  simp (maxDischargeDepth := 14) [hs]

theorem execOpEcver_keeps (d : Delivery) (pd : Fin 16) (pa : Fin 16) (pb : Fin 16) (s : State) (hs : Canonical s) :
    Keeps (execOpEcver d pd pa pb s) := by
  unfold execOpEcver
  simp (maxDischargeDepth := 14) [hs]

theorem execOpEcgen_keeps (d : Delivery) (pd : Fin 16) (pa : Fin 16) (pb : Fin 16) (s : State) (hs : Canonical s) :
    Keeps (execOpEcgen d pd pa pb s) := by
  unfold execOpEcgen
  simp (maxDischargeDepth := 14) [hs]

theorem execOpEcdh_keeps (d : Delivery) (pd : Fin 16) (pa : Fin 16) (pb : Fin 16) (s : State) (hs : Canonical s) :
    Keeps (execOpEcdh d pd pa pb s) := by
  unfold execOpEcdh
  simp (maxDischargeDepth := 14) [hs]

theorem execWaitResume_keeps (core : Fin 4) (s : State) (hs : Canonical s) : Keeps (execWaitResume core s) := by
  unfold execWaitResume
  simp (maxDischargeDepth := 14) [hs]

theorem execResultComplete_keeps (core : Fin 4) (tag : Nat) (s : State) (hs : Canonical s) :
    Keeps (execResultComplete core tag s) := by
  unfold execResultComplete
  simp (maxDischargeDepth := 14) [hs]

theorem execBranchMispredict_keeps (core : Fin 4) (s : State) (hs : Canonical s) :
    Keeps (execBranchMispredict core s) := by
  unfold execBranchMispredict
  dsimp only
  (repeat' split) <;> simp (maxDischargeDepth := 14) [hs]

theorem execTrapEntry_keeps (core : Fin 4) (fetch : Bool) (s : State) (hs : Canonical s) :
    Keeps (execTrapEntry core fetch s) := by
  unfold execTrapEntry
  simp (maxDischargeDepth := 14) [hs]

theorem execInterruptEntry_keeps (core : Fin 4) (s : State) (hs : Canonical s) : Keeps (execInterruptEntry core s) := by
  unfold execInterruptEntry
  simp (maxDischargeDepth := 14) [hs]

theorem execCancelToken_keeps (cop : Coproc) (core : Fin 4) (tag : Nat) (abort : Bool) (s : State) (hs : Canonical s) :
    Keeps (execCancelToken cop core tag abort s) := by
  unfold execCancelToken
  dsimp only
  (repeat' split) <;> simp (maxDischargeDepth := 14) [hs]

theorem execCoproResultReturn_keeps (cop : Coproc) (core : Fin 4) (tag : Nat) (failed : Bool) (took : Bool) (s : State) (hs : Canonical s) :
    Keeps (execCoproResultReturn cop core tag failed took s) := by
  unfold execCoproResultReturn
  dsimp only
  (repeat' split) <;> simp (maxDischargeDepth := 14) [hs]

theorem execCoherenceRequest_keeps (c : CacheId) (line : Nat) (f : HomeFault) (s : State) (hs : Canonical s) :
    Keeps (execCoherenceRequest c line f s) := by
  unfold execCoherenceRequest
  refine (keeps_next _).2 ?_
  split
  · exact State.refuseLine_canonical _ _ _ (State.tileFails_canonical _ _ hs)
  all_goals exact State.coherent_canonical _ _ _ _ (State.homeMeets_canonical _ _ _ hs)

theorem execEvictionNotice_keeps (c : CacheId) (line : Nat) (f : HomeFault) (s : State) (hs : Canonical s) :
    Keeps (execEvictionNotice c line f s) := by
  unfold execEvictionNotice
  simp (maxDischargeDepth := 14) [hs]

theorem execSnoopAtCache_keeps (c : CacheId) (line : Nat) (fails : Bool) (s : State) (hs : Canonical s) :
    Keeps (execSnoopAtCache c line fails s) := by
  unfold execSnoopAtCache
  refine (keeps_next _).2 ?_
  split
  · exact State.cacheFails_canonical _ _ hs
  · exact State.coherent_canonical _ _ _ _ hs

theorem execSnoopResponse_keeps (c : CacheId) (line : Nat) (s : State) (hs : Canonical s) :
    Keeps (execSnoopResponse c line s) := by
  unfold execSnoopResponse
  simp (maxDischargeDepth := 14) [hs]

theorem execLineGrant_keeps (c : CacheId) (line : Nat) (s : State) (hs : Canonical s) :
    Keeps (execLineGrant c line s) := by
  unfold execLineGrant
  simp (maxDischargeDepth := 14) [hs]

theorem execCoherenceDone_keeps (c : CacheId) (line : Nat) (s : State) (hs : Canonical s) :
    Keeps (execCoherenceDone c line s) := by
  unfold execCoherenceDone
  simp (maxDischargeDepth := 14) [hs]

theorem execPutAck_keeps (c : CacheId) (line : Nat) (s : State) (hs : Canonical s) :
    Keeps (execPutAck c line s) := by
  unfold execPutAck
  simp (maxDischargeDepth := 14) [hs]

theorem execAgentLineAccess_keeps (a : Agent) (line : Nat) (offset : Fin 16) (len : Nat) (put : Option (List Word)) (f : HomeFault) (s : State) (hs : Canonical s) :
    Keeps (execAgentLineAccess a line offset len put f s) := by
  unfold execAgentLineAccess
  simp (maxDischargeDepth := 14) [hs]

theorem execTapExtest_keeps (levels : List Bool) (update : Option (List Bool)) (s : State) (hs : Canonical s) :
    Keeps (execTapExtest levels update s) := by
  unfold execTapExtest
  simp (maxDischargeDepth := 14) [hs]

theorem execTapIdcode_keeps (s : State) (hs : Canonical s) : Keeps (execTapIdcode s) := by
  unfold execTapIdcode
  simp (maxDischargeDepth := 14) [hs]

theorem execTapSamplePreload_keeps (levels : List Bool) (update : Option (List Bool)) (s : State) (hs : Canonical s) :
    Keeps (execTapSamplePreload levels update s) := by
  unfold execTapSamplePreload
  simp (maxDischargeDepth := 14) [hs]

theorem execTapClamp_keeps (s : State) (hs : Canonical s) : Keeps (execTapClamp s) := by
  unfold execTapClamp
  simp (maxDischargeDepth := 14) [hs]

theorem execTapHighz_keeps (s : State) (hs : Canonical s) : Keeps (execTapHighz s) := by
  unfold execTapHighz
  simp (maxDischargeDepth := 14) [hs]

theorem execTapBypass_keeps (s : State) (hs : Canonical s) : Keeps (execTapBypass s) := by
  unfold execTapBypass
  simp (maxDischargeDepth := 14) [hs]

theorem execDbgstat_keeps (s : State) (hs : Canonical s) : Keeps (execDbgstat s) := by
  unfold execDbgstat
  simp (maxDischargeDepth := 14) [hs]

theorem execCoreHalt_keeps (cores : BitVec 4) (s : State) (hs : Canonical s) : Keeps (execCoreHalt cores s) := by
  unfold execCoreHalt
  simp (maxDischargeDepth := 14) (contextual := true) [canonical_foldl, hs]

theorem execCoreResume_keeps (cores : BitVec 4) (s : State) (hs : Canonical s) : Keeps (execCoreResume cores s) := by
  unfold execCoreResume
  simp (maxDischargeDepth := 14) (contextual := true) [canonical_foldl, hs]

theorem execCoreSingleStep_keeps (cores : BitVec 4) (e : AccessEnv) (s : State) (hs : Canonical s) :
    Keeps (execCoreSingleStep cores e s) := by
  unfold execCoreSingleStep
  simp (maxDischargeDepth := 14) (contextual := true) [canonical_foldl, hs]

theorem execCoreregAccess_keeps (core : Fin 4) (sel : BitVec 7) (write : Bool) (v : Pair) (s : State) (hs : Canonical s) :
    Keeps (execCoreregAccess core sel write v s) := by
  unfold execCoreregAccess
  refine (keeps_next _).2 (State.debug_canonical _ _ _ hs (fun s h => ?_))
  try dsimp only
  (repeat' split) <;> first | exact h | simp (maxDischargeDepth := 14) [h]

theorem execMemaddrUpdate_keeps (addr : Pair) (core : Fin 4) (inc : Bool) (s : State) (hs : Canonical s) :
    Keeps (execMemaddrUpdate addr core inc s) := by
  unfold execMemaddrUpdate
  simp (maxDischargeDepth := 14) (contextual := true) [hs]

theorem execMemdataCapture_keeps (ec : BitVec 2) (s : State) (hs : Canonical s) : Keeps (execMemdataCapture ec s) := by
  unfold execMemdataCapture
  refine (keeps_next _).2 (State.debug_canonical _ _ _ hs (fun s h => ?_))
  try dsimp only
  (repeat' split) <;> first | exact h | simp (maxDischargeDepth := 14) [h]

theorem execMemdataWrite_keeps (write : Bool) (v : Pair) (s : State) (hs : Canonical s) :
    Keeps (execMemdataWrite write v s) := by
  unfold execMemdataWrite
  refine (keeps_next _).2 (State.debug_canonical _ _ _ hs (fun s h => ?_))
  try dsimp only
  (repeat' split) <;> first | exact h | simp (maxDischargeDepth := 14) [h]

theorem execJreset_keeps (e : StartEnv) (s : State) (hs : Canonical s) : Keeps (execJreset e s) := by
  unfold execJreset
  simp (maxDischargeDepth := 14) (contextual := true) [hs]

theorem execTracectlUpdate_keeps (v : Word) (s : State) (hs : Canonical s) :
    Keeps (execTracectlUpdate v s) := by
  unfold execTracectlUpdate
  simp (maxDischargeDepth := 14) (contextual := true) [canonical_foldl, apply_ite, hs]

theorem execPmuOpreqWrite_keeps (i : Fin 4) (v : Word) (s : State) (hs : Canonical s) :
    Keeps (execPmuOpreqWrite i v s) := by
  unfold execPmuOpreqWrite
  simp (maxDischargeDepth := 14) (contextual := true) [hs]

theorem execPmuWdtWrite_keeps (i : Fin 4) (v : Word) (s : State) (hs : Canonical s) :
    Keeps (execPmuWdtWrite i v s) := by
  unfold execPmuWdtWrite
  simp (maxDischargeDepth := 14) (contextual := true) [hs]

theorem execPmuWdkickWrite_keeps (i : Fin 4) (v : Word) (e : StoreEnv) (s : State) (hs : Canonical s) :
    Keeps (execPmuWdkickWrite i v e s) := by
  unfold execPmuWdkickWrite
  simp (maxDischargeDepth := 14) (contextual := true) [hs]

theorem execFctlKeyaWrite_keeps (r : Fin 5) (v : Word) (s : State) (hs : Canonical s) :
    Keeps (execFctlKeyaWrite r v s) := by
  unfold execFctlKeyaWrite
  simp (maxDischargeDepth := 14) (contextual := true) [hs]

theorem execFctlKeybWrite_keeps (r : Fin 5) (v : Word) (s : State) (hs : Canonical s) :
    Keeps (execFctlKeybWrite r v s) := by
  unfold execFctlKeybWrite
  simp (maxDischargeDepth := 14) (contextual := true) [hs]

theorem execFctlCmdWrite_keeps (r : Fin 5) (v : Word) (s : State) (hs : Canonical s) :
    Keeps (execFctlCmdWrite r v s) := by
  unfold execFctlCmdWrite
  simp (maxDischargeDepth := 14) (contextual := true) [hs]

theorem execFctlAddrWrite_keeps (r : Fin 5) (high : Bool) (v : Word) (s : State) (hs : Canonical s) :
    Keeps (execFctlAddrWrite r high v s) := by
  unfold execFctlAddrWrite
  simp (maxDischargeDepth := 14) (contextual := true) [hs]

theorem execFctlDataWrite_keeps (r : Fin 5) (v : Word) (s : State) (hs : Canonical s) :
    Keeps (execFctlDataWrite r v s) := by
  unfold execFctlDataWrite
  simp (maxDischargeDepth := 14) (contextual := true) [hs]

theorem execFctlDataRead_keeps (r : Fin 5) (s : State) (hs : Canonical s) : Keeps (execFctlDataRead r s) := by
  unfold execFctlDataRead
  simp (maxDischargeDepth := 14) (contextual := true) [hs]

theorem execFctlEcntRead_keeps (r : Fin 5) (s : State) (hs : Canonical s) : Keeps (execFctlEcntRead r s) := by
  unfold execFctlEcntRead
  simp (maxDischargeDepth := 14) (contextual := true) [hs]

theorem execFctlEaddr0Read_keeps (r : Fin 5) (s : State) (hs : Canonical s) : Keeps (execFctlEaddr0Read r s) := by
  unfold execFctlEaddr0Read
  simp (maxDischargeDepth := 14) (contextual := true) [hs]

theorem execFctlEcthWrite_keeps (r : Fin 5) (v : Word) (s : State) (hs : Canonical s) :
    Keeps (execFctlEcthWrite r v s) := by
  unfold execFctlEcthWrite
  simp (maxDischargeDepth := 14) (contextual := true) [hs]

theorem execSequenceModeStore_keeps (r : Fin 5) (a : Pair) (v : Word) (s : State) (hs : Canonical s) :
    Keeps (execSequenceModeStore r a v s) := by
  unfold execSequenceModeStore
  simp (maxDischargeDepth := 14) (contextual := true) [hs]

theorem execFctlProgram_keeps (r : Fin 5) (a : Pair) (data : List Word) (s : State) (hs : Canonical s) :
    Keeps (execFctlProgram r a data s) := by
  unfold execFctlProgram
  refine (keeps_next _).2 (State.portCommand_canonical _ _ _ hs (fun s h => ?_))
  exact State.flashProgram_canonical _ _ _ _ h

theorem execFctlErase_keeps (r : Fin 5) (a : Pair) (s : State) (hs : Canonical s) :
    Keeps (execFctlErase r a s) := by
  unfold execFctlErase
  simp (maxDischargeDepth := 14) (contextual := true) [hs]

theorem execFctlSuspend_keeps (r : Fin 5) (a : Pair) (early : Bool) (s : State) (hs : Canonical s) :
    Keeps (execFctlSuspend r a early s) := by
  unfold execFctlSuspend
  simp (maxDischargeDepth := 14) (contextual := true) [hs]

theorem execFctlResume_keeps (r : Fin 5) (a : Pair) (s : State) (hs : Canonical s) :
    Keeps (execFctlResume r a s) := by
  unfold execFctlResume
  simp (maxDischargeDepth := 14) (contextual := true) [hs]

theorem execFctlInfo_keeps (r : Fin 5) (a : Pair) (s : State) (hs : Canonical s) :
    Keeps (execFctlInfo r a s) := by
  unfold execFctlInfo
  simp (maxDischargeDepth := 14) (contextual := true) [hs]

theorem execFctlAbandon_keeps (r : Fin 5) (s : State) (hs : Canonical s) : Keeps (execFctlAbandon r s) := by
  unfold execFctlAbandon
  simp (maxDischargeDepth := 14) (contextual := true) [hs]

theorem execPwmCtlWrite_keeps (v : Word) (s : State) (hs : Canonical s) : Keeps (execPwmCtlWrite v s) := by
  unfold execPwmCtlWrite
  simp (maxDischargeDepth := 14) (contextual := true) [hs]

theorem execPwmWord0Write_keeps (i : Fin 5) (v : Word) (s : State) (hs : Canonical s) :
    Keeps (execPwmWord0Write i v s) := by
  unfold execPwmWord0Write
  simp (maxDischargeDepth := 14) (contextual := true) [hs]

theorem execPwmWord1Write_keeps (i : Fin 5) (v : Word) (s : State) (hs : Canonical s) :
    Keeps (execPwmWord1Write i v s) := by
  unfold execPwmWord1Write
  simp (maxDischargeDepth := 14) (contextual := true) [hs]

theorem execPwmCnt0Read_keeps (r : Requester) (cnt : BitVec 14) (s : State) (hs : Canonical s) :
    Keeps (execPwmCnt0Read r cnt s) := by
  unfold execPwmCnt0Read
  refine (keeps_next _).2 (State.portAccess_canonical _ _ _ _ hs (fun s h => ?_))
  have h1 : Canonical (s.setPwm (s.pwm.counted cnt)) := State.setPwm_canonical _ _ h
  exact afterRead_canonical _ _ h1 (fun res e => State.pwmRead_canonical _ _ _ h1 _ e)

theorem execPwmChopsRead_keeps (r : Requester) (s : State) (hs : Canonical s) :
    Keeps (execPwmChopsRead r s) := by
  unfold execPwmChopsRead
  refine (keeps_next _).2 (State.portAccess_canonical _ _ _ _ hs (fun s h => ?_))
  exact afterRead_canonical _ _ h (fun res e => State.pwmRead_canonical _ _ _ h _ e)

theorem execAdcSwtrgWrite_keeps (v : Word) (s : State) (hs : Canonical s) : Keeps (execAdcSwtrgWrite v s) := by
  unfold execAdcSwtrgWrite
  refine (keeps_next _).2 (State.portCommand_canonical _ _ _ hs (fun s h => ?_))
  split
  · exact State.setAdc_canonical _ _ h
  · exact h

theorem execAdcCtlWrite_keeps (v : Word) (s : State) (hs : Canonical s) : Keeps (execAdcCtlWrite v s) := by
  unfold execAdcCtlWrite
  simp (maxDischargeDepth := 14) (contextual := true) [hs]

theorem execAdcFifotRead_keeps (r : Requester) (s : State) (hs : Canonical s) :
    Keeps (execAdcFifotRead r s) := by
  unfold execAdcFifotRead
  simp (maxDischargeDepth := 14) (contextual := true) [hs]

theorem execTcapNow0Read_keeps (r : Requester) (dt : Nat) (s : State) (hs : Canonical s) :
    Keeps (execTcapNow0Read r dt s) := by
  unfold execTcapNow0Read
  refine (keeps_next _).2 (State.portAccess_canonical _ _ _ _ hs (fun s h => ?_))
  have h1 : Canonical (s.tickTs dt) := State.tickTs_canonical _ _ h
  exact afterRead_canonical _ _ h1 (fun res e => State.tcapRead_canonical _ _ _ h1 _ e)

theorem execTcapEv0Read_keeps (r : Requester) (s : State) (hs : Canonical s) : Keeps (execTcapEv0Read r s) := by
  unfold execTcapEv0Read
  refine (keeps_next _).2 (State.portAccess_canonical _ _ _ _ hs (fun s h => ?_))
  exact afterRead_canonical _ _ h (fun res e => State.tcapRead_canonical _ _ _ h _ e)

theorem execTcapWcnt0Read_keeps (r : Requester) (s : State) (hs : Canonical s) :
    Keeps (execTcapWcnt0Read r s) := by
  unfold execTcapWcnt0Read
  refine (keeps_next _).2 (State.portAccess_canonical _ _ _ _ hs (fun s h => ?_))
  exact afterRead_canonical _ _ h (fun res e => State.tcapRead_canonical _ _ _ h _ e)

theorem execTcapWper0Read_keeps (r : Requester) (dt : Nat) (s : State) (hs : Canonical s) :
    Keeps (execTcapWper0Read r dt s) := by
  unfold execTcapWper0Read
  refine (keeps_next _).2 (State.portAccess_canonical _ _ _ _ hs (fun s h => ?_))
  have h1 : Canonical (s.tickTs dt) := State.tickTs_canonical _ _ h
  exact afterRead_canonical _ _ h1 (fun res e => State.tcapRead_canonical _ _ _ h1 _ e)

theorem execTcapHper0Read_keeps (r : Requester) (dt : Nat) (s : State) (hs : Canonical s) :
    Keeps (execTcapHper0Read r dt s) := by
  unfold execTcapHper0Read
  refine (keeps_next _).2 (State.portAccess_canonical _ _ _ _ hs (fun s h => ?_))
  have h1 : Canonical (s.tickTs dt) := State.tickTs_canonical _ _ h
  exact afterRead_canonical _ _ h1 (fun res e => State.tcapRead_canonical _ _ _ h1 _ e)

theorem execTcapHerrRead_keeps (r : Requester) (s : State) (hs : Canonical s) :
    Keeps (execTcapHerrRead r s) := by
  unfold execTcapHerrRead
  refine (keeps_next _).2 (State.portAccess_canonical _ _ _ _ hs (fun s h => ?_))
  exact afterRead_canonical _ _ h (fun res e => State.tcapRead_canonical _ _ _ h _ e)

theorem execTslClrClear_keeps (core : Fin 4) (s : State) (hs : Canonical s) : Keeps (execTslClrClear core s) := by
  unfold execTslClrClear
  simp (maxDischargeDepth := 14) (contextual := true) [hs]

theorem execTslSoftwareTrip_keeps (s : State) (hs : Canonical s) : Keeps (execTslSoftwareTrip s) := by
  unfold execTslSoftwareTrip
  simp (maxDischargeDepth := 14) (contextual := true) [hs]

theorem execTslBadKey_keeps (s : State) (hs : Canonical s) : Keeps (execTslBadKey s) := by
  unfold execTslBadKey
  simp (maxDischargeDepth := 14) (contextual := true) [hs]

theorem execCelKeyRead_keeps (r : Requester) (s : State) (hs : Canonical s) : Keeps (execCelKeyRead r s) := by
  unfold execCelKeyRead
  simp (maxDischargeDepth := 14) (contextual := true) [hs]

theorem execCelKdown0Read_keeps (r : Requester) (s : State) (hs : Canonical s) :
    Keeps (execCelKdown0Read r s) := by
  unfold execCelKdown0Read
  simp (maxDischargeDepth := 14) (contextual := true) [hs]

theorem execCanbCtlWrite_keeps (v : Word) (s : State) (hs : Canonical s) : Keeps (execCanbCtlWrite v s) := by
  unfold execCanbCtlWrite
  simp (maxDischargeDepth := 14) (contextual := true) [hs]

theorem execCanbTxdataWrite_keeps (v : Word) (s : State) (hs : Canonical s) :
    Keeps (execCanbTxdataWrite v s) := by
  unfold execCanbTxdataWrite
  simp (maxDischargeDepth := 14) (contextual := true) [hs]

theorem execCanbTxqCommit_keeps (buf : Fin 3) (s : State) (hs : Canonical s) : Keeps (execCanbTxqCommit buf s) := by
  unfold execCanbTxqCommit
  simp (maxDischargeDepth := 14) (contextual := true) [hs]

theorem execCanbTxqDiscard_keeps (s : State) (hs : Canonical s) : Keeps (execCanbTxqDiscard s) := by
  unfold execCanbTxqDiscard
  simp (maxDischargeDepth := 14) (contextual := true) [hs]

theorem execCanbTxabtWrite_keeps (m : BitVec 3) (onBus : Option (Fin 3)) (s : State) (hs : Canonical s) :
    Keeps (execCanbTxabtWrite m onBus s) := by
  unfold execCanbTxabtWrite
  simp (maxDischargeDepth := 14) (contextual := true) [hs]

theorem execCanbRxpopWrite_keeps (s : State) (hs : Canonical s) : Keeps (execCanbRxpopWrite s) := by
  unfold execCanbRxpopWrite
  simp (maxDischargeDepth := 14) (contextual := true) [hs]

theorem execI2cTransferStop_keeps (s : State) (hs : Canonical s) : Keeps (execI2cTransferStop s) := by
  unfold execI2cTransferStop
  simp (maxDischargeDepth := 14) (contextual := true) [hs]

theorem execI2cTransferHold_keeps (s : State) (hs : Canonical s) : Keeps (execI2cTransferHold s) := by
  unfold execI2cTransferHold
  simp (maxDischargeDepth := 14) (contextual := true) [hs]

theorem execI2cTxdWrite_keeps (v : Word) (s : State) (hs : Canonical s) : Keeps (execI2cTxdWrite v s) := by
  unfold execI2cTxdWrite
  simp (maxDischargeDepth := 14) (contextual := true) [hs]

theorem execI2cRxdRead_keeps (s : State) (hs : Canonical s) : Keeps (execI2cRxdRead s) := by
  unfold execI2cRxdRead
  simp (maxDischargeDepth := 14) (contextual := true) [hs]

theorem execSspiGo_keeps (s : State) (hs : Canonical s) : Keeps (execSspiGo s) := by
  unfold execSspiGo
  simp (maxDischargeDepth := 14) (contextual := true) [hs]

theorem execSspiTxdWrite_keeps (v : Word) (s : State) (hs : Canonical s) : Keeps (execSspiTxdWrite v s) := by
  unfold execSspiTxdWrite
  simp (maxDischargeDepth := 14) (contextual := true) [hs]

theorem execSspiRxdRead_keeps (s : State) (hs : Canonical s) : Keeps (execSspiRxdRead s) := by
  unfold execSspiRxdRead
  simp (maxDischargeDepth := 14) (contextual := true) [hs]

theorem execGnssTxdWrite_keeps (left : Nat) (v : Word) (s : State) (hs : Canonical s) :
    Keeps (execGnssTxdWrite left v s) := by
  unfold execGnssTxdWrite
  simp (maxDischargeDepth := 14) (contextual := true) [hs]

theorem execGnssRxdRead_keeps (r : Requester) (s : State) (hs : Canonical s) : Keeps (execGnssRxdRead r s) := by
  unfold execGnssRxdRead
  simp (maxDischargeDepth := 14) (contextual := true) [hs]

theorem execGnssPps0Read_keeps (r : Requester) (s : State) (hs : Canonical s) :
    Keeps (execGnssPps0Read r s) := by
  unfold execGnssPps0Read
  simp (maxDischargeDepth := 14) (contextual := true) [hs]

theorem execGpioPwmWord1Write_keeps (n : Fin 9) (v : Word) (s : State) (hs : Canonical s) :
    Keeps (execGpioPwmWord1Write n v s) := by
  unfold execGpioPwmWord1Write
  simp (maxDischargeDepth := 14) (contextual := true) [hs]

theorem execDmaGo_keeps (ch : Fin 32) (v : Word) (s : State) (hs : Canonical s) : Keeps (execDmaGo ch v s) := by
  unfold execDmaGo
  simp (maxDischargeDepth := 14) (contextual := true) [hs]

theorem execDmaRem0Read_keeps (ch : Fin 32) (s : State) (hs : Canonical s) : Keeps (execDmaRem0Read ch s) := by
  unfold execDmaRem0Read
  simp (maxDischargeDepth := 14) (contextual := true) [hs]

theorem execGrtDbellWrite_keeps (core : Fin 4) (v : Word) (s : State) (hs : Canonical s) :
    Keeps (execGrtDbellWrite core v s) := by
  unfold execGrtDbellWrite
  exact (keeps_next _).2 hs

theorem execGrtDbsrcRead_keeps (core : Fin 4) (s : State) (hs : Canonical s) : Keeps (execGrtDbsrcRead core s) := by
  unfold execGrtDbsrcRead
  exact (keeps_next _).2 hs

theorem execGrtMbxdoneWrite_keeps (core : Fin 4) (v : Word) (s : State) (hs : Canonical s) :
    Keeps (execGrtMbxdoneWrite core v s) := by
  unfold execGrtMbxdoneWrite
  simp (maxDischargeDepth := 14) (contextual := true) [hs]

theorem execGrtMbxevtWrite_keeps (core : Fin 4) (v : Word) (s : State) (hs : Canonical s) :
    Keeps (execGrtMbxevtWrite core v s) := by
  unfold execGrtMbxevtWrite
  simp (maxDischargeDepth := 14) (contextual := true) [hs]

theorem execRegisterWrite_keeps (r : Requester) (addr : Word) (v : Word) (e : AccessEnv) (s : State) (hs : Canonical s) :
    Keeps (execRegisterWrite r addr v e s) := by
  unfold execRegisterWrite
  refine (keeps_next _).2 (State.portAccess_canonical _ _ _ _ hs (fun s h => ?_))
  split
  · exact State.ioWrite_canonical _ _ _ _ _ h
  · exact State.stewardWrite_canonical _ _ _ _ h
  · exact h

end Sys2Proof.Machine
end

