-- ==== Sys2Proof/Laws/Core.lean ====
section
/-! SUPPORT. Laws of the cores: the record of a core, and a bundle of one syllable on a core that stands ready. -/
namespace Sys2Proof.Machine

@[simp] theorem State.core_setCore (s : State) (i : Fin 4) (c : CoreState) : (s.setCore i c).core.get i = c :=
  Vector.getElem_set_self (xs := s.core) i.isLt

@[simp] theorem State.setCore_setCore (s : State) (i : Fin 4) (c d : CoreState) : (s.setCore i c).setCore i d = s.setCore i d := by
  simp [State.setCore]

@[simp] theorem State.setCore_core (s : State) (i : Fin 4) : s.setCore i (s.core.get i) = s := by
  simp [State.setCore, Vector.get]

/-- The syllable's work that the generic laws speak of: register writes and nothing else. -/
def Work.only (l : List RegWrite) (canTrap serial : Bool) : Work := { Work.writing l with canTrap := canTrap, serial := serial }

theorem leaveFlags_zero (l : List RegWrite) : leaveFlags 0#12 l = l := by
  induction l with
  | nil => rfl
  | cons w r ih =>
    simp only [leaveFlags, List.map_cons] at ih ⊢
    rw [ih]
    cases w with
    | flags m v k => exact congrArg (fun x => RegWrite.flags x v k :: r) (BitVec.and_allOnes (x := m))
    | _ => rfl

/-- A core that stands ready, as an issuing bundle of one syllable sees it. -/
def State.issuing (s : State) (i : Fin 4) (sl : Slot) : Issuing :=
  { s := s.setCore i { s.core.get i with gather := [sl], closed := true }, i := i,
    c := { s.core.get i with gather := [sl], closed := true }, pc := (s.core.get i).pc, len := 1, flPending := false }

theorem pollAll_empty (s : State) (i : Fin 4) (hw : (s.core.get i).window = [])
    (hl : s.mem.loaded.filter (fun x => x.cache = .core i) = []) : s.pollAll i = s := by
  have hc : s.collect i = s := by simp [State.collect, hl]
  have : s.setCore i { s.core.get i with window := (s.core.get i).window.map Entry.poll } = s := by
    rw [hw]; simp only [List.map_nil]; rw [← hw]; exact State.setCore_core s i
  simpa [State.pollAll, hc] using this

theorem testConditions_empty (c : CoreState) (hw : c.window = []) : c.testConditions = c := by
  simp [CoreState.testConditions, hw]; rw [← hw]

/-- With an empty window the core can only issue. -/
theorem advance_empty (s : State) (i : Fin 4) (hw : (s.core.get i).window = [])
    (hl : s.mem.loaded.filter (fun x => x.cache = .core i) = []) :
    s.advance i = if s.canIssue i then some (s.issue i) else none := by
  simp [State.advance, pollAll_empty s i hw hl, testConditions_empty _ hw, CoreState.completable, CoreState.resolvable, hw]

theorem settled_empty (s : State) (i : Fin 4) (hw : (s.core.get i).window = [])
    (hl : s.mem.loaded.filter (fun x => x.cache = .core i) = []) :
    (let s1 := s.pollAll i; (s1.setCore i (s1.core.get i).testConditions).pollAll i) = s := by
  simp [pollAll_empty s i hw hl, testConditions_empty _ hw]

/-- A core with an empty window and nothing closed can do nothing. -/
theorem settleFor_idle (s : State) (i : Fin 4) (n : Nat) (hw : (s.core.get i).window = [])
    (hl : s.mem.loaded.filter (fun x => x.cache = .core i) = []) (hc : (s.core.get i).closed = false) :
    State.settleFor n i s = s := by
  cases n with
  | zero => rfl
  | succ n =>
    have hn : s.canIssue i = false := by simp [State.canIssue, hc]
    simp only [State.settleFor, advance_empty s i hw hl, hn]
    exact settled_empty s i hw hl


/-- One syllable on a core that stands ready: its bundle closes. -/
theorem operate_closes (s : State) (i : Fin 4) (sl : Slot) (hr : Ready s i) (hu : sl.syl.unit < 6)
    (hd : repeats (bundleDests [sl]) = false) (hx : xAlone [sl] = false) :
    s.operate i true sl none =
      ((s.setCore i { s.core.get i with gather := [sl], closed := true }).settle i).takeTrap i := by
  have h6 : ¬ (6 ≤ sl.syl.unit) := by omega
  obtain ⟨h1, h2, h3, h4, h7, h8, h9, h10, h11, h12, h13⟩ := hr
  have hf0 : fetchable (s.core.get i).pc.toNat = true := by simp [fetchable]; omega
  have hf1 : fetchable ((s.core.get i).pc.toNat + 1) = true := by simp [fetchable]; omega
  have hr2 : List.range 2 = [0, 1] := by decide
  have h10' : (s.core.get i).pc[0] = false := by simpa using h10
  have hb : bundleCause (s.core.get i).pc [sl] true = none := by
    simp [bundleCause, h10', hr2, hf0, hf1, unitsRise, hd, hx, h6]
  simp [State.operate, h1, h2, h3, h4, h7, CoreState.push, CoreState.bundle, CoreState.closeBundle, hb]

/-- The window entry of a lone syllable that only writes registers. -/
def loneEntry (c : CoreState) (sl : Slot) (w : Work) : Entry :=
  { tag := c.nextTag, bundle := c.nextBundle, pc := c.pc, len := 1, unit := sl.syl.unit, syl := encodeSyl sl.syl true,
    dests := sl.syl.allDests false, writes := w.writes, returned := false, late := sl.late, canTrap := w.canTrap, serial := w.serial,
    cause := none, effect := w.effect, branch := none, loads := w.loads, loadKind := w.loadKind, cop := sl.syl.coproc }

theorem longOf_lone (sl : Slot) (hx : ∀ t v, sl.syl ≠ .x t v) : longOf [sl] sl.syl = none := by
  have : xGiven [sl] sl.syl.unit = none := by
    simp only [xGiven, List.findSome?_cons, List.findSome?_nil]
  cases h : sl.syl.immWidth <;> simp [longOf, this, h]

theorem xAlone_lone (sl : Slot) (hx : ∀ t v, sl.syl ≠ .x t v) : xAlone [sl] = false := by
  simp only [xAlone, List.any_cons, List.any_nil, Bool.or_false]

/-- A core whose closed bundle is one syllable and whose window is empty. -/
structure Closed (s : State) (i : Fin 4) (sl : Slot) : Prop where
  run : (s.core.get i).run = .running
  gather : (s.core.get i).gather = [sl]
  gatherX : (s.core.get i).gatherX = []
  closed : (s.core.get i).closed = true
  noTrap : (s.core.get i).preTrap = none
  window : (s.core.get i).window = []
  tags : (s.core.get i).staleTags.length ≤ 58
  loads : s.mem.loaded.filter (fun x => x.cache = .core i) = []

theorem canIssue_lone (s : State) (i : Fin 4) (sl : Slot) (hr : Closed s i sl) (hx : ∀ t v, sl.syl ≠ .x t v)
    (hu : sl.syl.unit ≠ 4) (hc : s.copAccepts i (s.core.get i) sl.syl = true) : s.canIssue i = true := by
  obtain ⟨h1, h2, h3, h4, h7, h8, h9, h13⟩ := hr
  simp [State.canIssue, CoreState.bundle, h1, h2, h3, h4, h7, h8, hu, CoreState.pendingRegs, CoreState.loadsClear, hc, longOf_lone sl hx]
  omega

theorem entries_lone (f : Issuing) (sl : Slot) (tag bundle : Nat) (hx : ∀ t v, sl.syl ≠ .x t v) (w : Work)
    (hf : f.eval sl none = w) (hn : w.cause = none) (hb : w.branch = none) (hl : f.len = 1)
    (hc : f.c.nextTag = tag) (hd : f.c.nextBundle = bundle) (hp : f.c.pc = f.pc) :
    f.entries [sl] tag bundle = [loneEntry f.c sl w] := by
  have he : f.entry [sl] tag bundle 0 sl = some (loneEntry f.c sl w) := by
    unfold Issuing.entry
    rw [longOf_lone sl hx]
    cases h : sl.syl <;> simp_all [loneEntry]
  have hz : leaveFlags 0 (loneEntry f.c sl w).writes = (loneEntry f.c sl w).writes := leaveFlags_zero _
  simp only [Issuing.entries, List.zipIdx_cons, List.zipIdx_nil, List.filterMap_cons, List.filterMap_nil, Nat.add_zero, he, sortFlags, hz]

/-- A core one bundle further on, its bundle taken up. -/
def CoreState.emptied (c : CoreState) : CoreState := { c.stepped with gather := [], gatherX := [], closed := false }

/-- A core once its lone syllable has issued. -/
def issuedCore (c : CoreState) (sl : Slot) (w : Work) : CoreState :=
  { c with window := [loneEntry c sl w], nextTag := c.nextTag + 1, nextBundle := c.nextBundle + 1, pc := c.pc + 2, gather := [],
           gatherX := [], closed := false }

theorem issue_lone (s : State) (i : Fin 4) (sl : Slot) (w : Work) (hr : Closed s i sl) (hx : ∀ t v, sl.syl ≠ .x t v)
    (hl : sl.late = false)
    (hf : Issuing.eval { s := s, i := i, c := s.core.get i, pc := (s.core.get i).pc, len := 1, flPending := false } sl none = w)
    (h1 : w.cause = none) (h2 : w.branch = none) (h4 : w.loads = []) :
    s.issue i = s.setCore i (issuedCore (s.core.get i) sl w) := by
  obtain ⟨r1, r2, r3, r4, r7, r8, r9, r13⟩ := hr
  have he := entries_lone { s := s, i := i, c := s.core.get i, pc := (s.core.get i).pc, len := 1, flPending := false } sl
    (s.core.get i).nextTag (s.core.get i).nextBundle hx w hf h1 h2 rfl rfl rfl rfl
  have hp : ((s.core.get i).pendingRegs.contains Reg.fl) = false := by simp [CoreState.pendingRegs, r8]
  have hd (s' : State) (e : Entry) (h : e.late = false) : s'.dispatchPure i e = s' := by
    simp only [State.dispatchPure, h, Bool.false_and]
    cases e.cop <;> cases e.effect <;> rfl
  have hpc : nextPc { s := s, i := i, c := s.core.get i, pc := (s.core.get i).pc, len := 1, flPending := false }
      [loneEntry (s.core.get i) sl w] = (s.core.get i).pc + 2 := by
    simp [nextPc, loneEntry]
  have hl2 : (loneEntry (s.core.get i) sl w).late = false := hl
  have hl3 : (loneEntry (s.core.get i) sl w).loads = [] := h4
  simp only [State.issue, CoreState.bundle, r2, r3, List.map_nil, List.append_nil, List.length_singleton, hp, he, r8, List.nil_append,
    List.foldl_cons, List.foldl_nil, hd _ _ hl2, hl3, hpc, issuedCore]

/-- The only entry of a window, once it can return, completes. -/
theorem advance_lone (s : State) (i : Fin 4) (e : Entry) (hw : (s.core.get i).window = [e])
    (hld : s.mem.loaded.filter (fun x => x.cache = .core i) = []) (h0 : e.returned = false) (hl : e.late = false)
    (h1 : e.cause = none) (h2 : e.branch = none) (h3 : e.effect = none) (h4 : e.loads = []) (h5 : e.loadKind = .none) :
    s.advance i = some (State.complete (s.setCore i { s.core.get i with window := [{ e with returned := true }] }) i
      { e with returned := true }) := by
  have hp : e.poll = { e with returned := true } := by
    simp [Entry.poll, h0, hl, h2, h3, h4, Entry.loadWrites, h5]
  have hq : Entry.poll { e with returned := true } = { e with returned := true } := by simp [Entry.poll]
  have hc (s' : State) (h : s'.mem.loaded = s.mem.loaded) : s'.collect i = s' := by simp [State.collect, h, hld]
  have p1 : s.pollAll i = s.setCore i { s.core.get i with window := [{ e with returned := true }] } := by
    simp [State.pollAll, hc s rfl, hw, hp]
  have t1 (c : CoreState) (h : c.window = [{ e with returned := true }]) : c.testConditions = c := by
    cases c; simp_all [CoreState.testConditions]
  have p2 (c : CoreState) (h : c.window = [{ e with returned := true }]) : (s.setCore i c).pollAll i = s.setCore i c := by
    have h' : (s.setCore i c).mem.loaded = s.mem.loaded := rfl
    simp only [State.pollAll, hc _ h', State.core_setCore, h, List.map_cons, List.map_nil, hq, State.setCore_setCore]
    cases c; simp_all
  have hcl : CoreState.completable { s.core.get i with window := [{ e with returned := true }] } = some { e with returned := true } := by
    simp [CoreState.completable, h1, Entry.openBranch, h2, CoreState.clear, Entry.blocks]
  simp only [State.advance, p1, State.core_setCore]
  rw [t1 _ rfl, State.setCore_setCore, p2 _ rfl]
  simp only [State.core_setCore, hcl]

theorem write_window (w : RegWrite) (c : CoreState) : (c.write w).window = c.window ∧ (c.write w).closed = c.closed ∧
    (c.write w).run = c.run ∧ (c.write w).preTrap = c.preTrap := by
  cases w with
  | special n v => simp only [CoreState.write, CoreState.setSpecial]; split <;> exact ⟨rfl, rfl, rfl, rfl⟩
  | _ => exact ⟨rfl, rfl, rfl, rfl⟩

theorem writes_window (l : List RegWrite) (c : CoreState) : (l.foldl CoreState.write c).window = c.window ∧
    (l.foldl CoreState.write c).closed = c.closed ∧ (l.foldl CoreState.write c).run = c.run ∧
    (l.foldl CoreState.write c).preTrap = c.preTrap := by
  induction l generalizing c with
  | nil => exact ⟨rfl, rfl, rfl, rfl⟩
  | cons w r ih =>
    obtain ⟨a, b, d, e⟩ := ih (c.write w)
    obtain ⟨a', b', d', e'⟩ := write_window w c
    exact ⟨a.trans a', b.trans b', d.trans d', e.trans e'⟩

theorem settleFor_some (n : Nat) (i : Fin 4) (s t : State) (h : s.advance i = some t) :
    State.settleFor (n + 1) i s = State.settleFor n i t := by
  rw [State.settleFor, h]

/-- A closed lone syllable that only writes registers issues and completes within the step. -/
theorem settle_lone (s : State) (i : Fin 4) (sl : Slot) (w : Work) (hr : Closed s i sl) (hx : ∀ t v, sl.syl ≠ .x t v)
    (hu : sl.syl.unit ≠ 4) (hc : s.copAccepts i (s.core.get i) sl.syl = true) (hl : sl.late = false)
    (hf : Issuing.eval { s := s, i := i, c := s.core.get i, pc := (s.core.get i).pc, len := 1, flPending := false } sl none = w)
    (h1 : w.cause = none) (h2 : w.branch = none) (h3 : w.effect = none) (h4 : w.loads = []) (h5 : w.loadKind = .none)
    (h6 : w.writes.contains .ret = false) :
    s.settle i = s.setCore i (w.writes.foldl CoreState.write
      (s.core.get i).emptied) := by
  have hi := canIssue_lone s i sl hr hx hu hc
  have hiss := issue_lone s i sl w hr hx hl hf h1 h2 h4
  obtain ⟨r1, r2, r3, r4, r7, r8, r9, r13⟩ := hr
  have a1 : s.advance i = some (s.setCore i (issuedCore (s.core.get i) sl w)) := by
    rw [advance_empty s i r8 r13, hi, ← hiss]; rfl
  have a2 := advance_lone (s.setCore i (issuedCore (s.core.get i) sl w)) i (loneEntry (s.core.get i) sl w)
    (by rw [State.core_setCore]; rfl) r13 rfl hl rfl rfl h3 h4 h5
  have h6' : ({ loneEntry (s.core.get i) sl w with returned := true } : Entry).writes.contains .ret = false := h6
  have a3 : State.complete ((s.setCore i (issuedCore (s.core.get i) sl w)).setCore i
      { (s.setCore i (issuedCore (s.core.get i) sl w)).core.get i with
        window := [{ loneEntry (s.core.get i) sl w with returned := true }] }) i
      { loneEntry (s.core.get i) sl w with returned := true } =
      s.setCore i (w.writes.foldl CoreState.write (s.core.get i).emptied) := by
    simp only [State.complete, h6', State.core_setCore, State.setCore_setCore]
    simp [loneEntry, issuedCore, CoreState.emptied, CoreState.stepped, r8]
  obtain ⟨q1, q2, -, -⟩ := writes_window w.writes (s.core.get i).emptied
  rw [State.settle, settleFor_some 255 i s _ a1, settleFor_some 254 i _ _ a2, a3]
  apply settleFor_idle
  · rw [State.core_setCore, q1]; exact r8
  · exact r13
  · rw [State.core_setCore, q2]; rfl

/-- A core with its lone syllable gathered and its bundle closed. -/
def closedCore (c : CoreState) (sl : Slot) : CoreState := { c with gather := [sl], closed := true }

/-- A lone syllable that only writes registers, on a core that stands ready: the whole effect of the command that delivers it. -/
theorem operate_lone (s : State) (i : Fin 4) (sl : Slot) (w : Work) (hr : Ready s i) (hu : sl.syl.unit < 6)
    (hx : ∀ t v, sl.syl ≠ .x t v) (hu4 : sl.syl.unit ≠ 4) (hd : repeats (bundleDests [sl]) = false)
    (hc : (s.setCore i (closedCore (s.core.get i) sl)).copAccepts i (closedCore (s.core.get i) sl) sl.syl = true)
    (hl : sl.late = false)
    (hf : Issuing.eval { s := s.setCore i (closedCore (s.core.get i) sl), i := i, c := closedCore (s.core.get i) sl,
                         pc := (s.core.get i).pc, len := 1, flPending := false } sl none = w)
    (h1 : w.cause = none) (h2 : w.branch = none) (h3 : w.effect = none) (h4 : w.loads = []) (h5 : w.loadKind = .none)
    (h6 : w.writes.contains .ret = false) :
    s.operate i true sl none = s.setCore i (w.writes.foldl CoreState.write (s.core.get i).stepped) := by
  rw [operate_closes s i sl hr hu hd (xAlone_lone sl hx)]
  obtain ⟨k1, k2, k3, k4, k7, k8, k9, k10, k11, k12, k13⟩ := hr
  have hcl : Closed (s.setCore i (closedCore (s.core.get i) sl)) i sl := by
    constructor <;> first | (rw [State.core_setCore]; first | rfl | assumption) | assumption
  have hs := settle_lone (s.setCore i (closedCore (s.core.get i) sl)) i sl w hcl hx hu4
    (by rw [State.core_setCore]; exact hc) hl (by rw [State.core_setCore]; exact hf) h1 h2 h3 h4 h5 h6
  have he : (closedCore (s.core.get i) sl).emptied =
      (s.core.get i).stepped := by
    simp only [closedCore, CoreState.emptied, CoreState.stepped, k2, k3, k4]
  rw [State.core_setCore, State.setCore_setCore, he] at hs
  show (State.settle (s.setCore i (closedCore (s.core.get i) sl)) i).takeTrap i = _
  rw [hs]
  obtain ⟨q1, q2, q3, q4⟩ := writes_window w.writes (s.core.get i).stepped
  have w1 : (w.writes.foldl CoreState.write (s.core.get i).stepped).window = [] := q1.trans k8
  have w4 : (w.writes.foldl CoreState.write (s.core.get i).stepped).preTrap = none := q4.trans k7
  simp only [State.takeTrap, State.core_setCore, CoreState.headTrap, w1, w4]
  split <;> rfl

end Sys2Proof.Machine
end

