-- ==== Sys2Proof/Laws/Frames.lean ====
section
/-! SUPPORT. The frames of Concord: a MAC has sixteen octets and verifies in the frame that bears it, and the frames that a sender forms of
a body give that body to their receiver (R420 to R423, R435, R436). -/
namespace Sys2Proof.Machine

/-! Octets -/

@[simp] theorem leOctets_length (n x : Nat) : (leOctets n x).length = n := by
  induction n generalizing x with
  | zero => rfl
  | succ n ih => simp [leOctets, ih]

theorem leNat_leOctets (n x : Nat) : leNat (leOctets n x) = x % 256 ^ n := by
  induction n generalizing x with
  | zero => simp [leOctets, leNat, Nat.mod_one]
  | succ n ih =>
    simp only [leOctets, leNat, ih, BitVec.toNat_ofNat]
    rw [show (256 : Nat) ^ (n + 1) = 256 * 256 ^ n by rw [Nat.pow_succ, Nat.mul_comm], Nat.mod_mul]

/-- A field that stands after other octets reads as the number written there. -/
theorem fieldNat_append (a b : List Octet) (n x : Nat) : fieldNat (a ++ (leOctets n x ++ b)) a.length n = x % 256 ^ n := by
  simp [fieldNat, leNat_leOctets]

@[simp] theorem octetAt_cons_zero (o : Octet) (l : List Octet) : octetAt (o :: l) 0 = o := rfl
@[simp] theorem octetAt_cons_succ (o : Octet) (l : List Octet) (i : Nat) : octetAt (o :: l) (i + 1) = octetAt l i := rfl

/-! AES-CMAC -/

theorem xorOctets_length (a b : List Octet) : (xorOctets a b).length = min a.length b.length := by simp [xorOctets]

theorem keyWords_length (nk n i : Nat) (rcon : Octet) (l : List (List Octet)) : (keyWords nk n i rcon l).length = l.length + n := by
  induction n generalizing i rcon l with
  | zero => rfl
  | succ n ih => rw [keyWords, ih]; simp; omega

/-- The words of a key schedule have four octets. -/
theorem keyWords_word (nk : Nat) (hnk : 1 ≤ nk) (n i : Nat) (rcon : Octet) (l : List (List Octet)) (hl : ∀ w ∈ l, w.length = 4) (hn : nk ≤ l.length) :
    ∀ w ∈ keyWords nk n i rcon l, w.length = 4 := by
  induction n generalizing i rcon l with
  | zero => exact hl
  | succ n ih =>
    rw [keyWords]
    refine ih _ _ _ ?_ (by simp; omega)
    intro w hw
    rcases List.mem_cons.mp hw with rfl | hw
    · have hprev : (l.headD []).length = 4 := by
        rcases l with _ | ⟨a, r⟩
        · simp at hn; omega
        · exact hl a (List.mem_cons_self ..)
      have hold : (l.getD (nk - 1) []).length = 4 := by
        have h : nk - 1 < l.length := by omega
        rw [List.getD_eq_getElem?_getD, List.getElem?_eq_getElem h]
        exact hl _ (List.getElem_mem h)
      rw [xorOctets_length, hold]
      split
      · split
        · rename_i a r he
          rw [he] at hprev
          simp [xorOctets_length] at hprev ⊢; omega
        · rename_i he
          rw [he] at hprev; simp at hprev
      · rw [List.headD_eq_head?_getD] at hprev; split <;> simp [hprev]
    · exact hl w hw

theorem pieces_four (key : List Octet) (h : key.length = 16) : (pieces 4 4 key).length = 4 ∧ ∀ w ∈ pieces 4 4 key, w.length = 4 := by
  match key, h with
  | [a, b, c, d, e, f, g, i, j, k, l, m, n, o, p, q], _ => exact ⟨rfl, by simp [pieces]⟩

/-- The round keys of a key of sixteen octets are eleven, of sixteen octets each. -/
theorem roundKeys_form (key : List Octet) (h : key.length = 16) : (roundKeys key).length = 11 ∧ ∀ k ∈ roundKeys key, k.length = 16 := by
  obtain ⟨h4, hw⟩ := pieces_four key h
  unfold roundKeys
  simp only [h]
  refine ⟨by simp, fun k hk => ?_⟩
  obtain ⟨r, hr, rfl⟩ := List.mem_map.mp hk
  have hr : r < 11 := by simpa using hr
  have hlen : (keyWords 4 40 4 1 (pieces 4 4 key).reverse).length = 44 := by rw [keyWords_length]; simp [h4]
  have hall := keyWords_word 4 (by omega) 40 4 1 (pieces 4 4 key).reverse (fun w hw' => hw w (List.mem_reverse.mp hw')) (by simp [h4])
  rw [List.length_flatten]
  have hmap : ((((keyWords 4 40 4 1 (pieces 4 4 key).reverse).reverse).drop (4 * r)).take 4).map List.length = List.replicate 4 4 := by
    rw [List.eq_replicate_iff]
    refine ⟨by simp only [List.length_map, List.length_take, List.length_drop, List.length_reverse, hlen]; omega, fun b hb => ?_⟩
    obtain ⟨w, hw', rfl⟩ := List.mem_map.mp hb
    exact hall w (List.mem_reverse.mp (List.mem_of_mem_drop (List.mem_of_mem_take hw')))
  rw [show (4 * (16 / 4 + 7) - 16 / 4) = 40 from rfl]
  simp only [show (16 / 4 : Nat) = 4 from rfl]
  rw [hmap]; rfl

theorem aesRounds_length (ks : List (List Octet)) (x : List Octet) (hne : ks ≠ []) (h : ∀ k ∈ ks, k.length = 16) : (aesRounds ks x).length = 16 := by
  induction ks generalizing x with
  | nil => exact absurd rfl hne
  | cons k ks ih =>
    cases ks with
    | nil => simp [aesRounds, xorOctets_length, shiftRows, h k (List.mem_cons_self ..)]
    | cons k2 ks => exact ih _ (by simp) (fun q hq => h q (List.mem_cons_of_mem _ hq))

theorem aesEnc_length (key block : List Octet) (h : key.length = 16) : (aesEnc key block).length = 16 := by
  obtain ⟨hl, hk⟩ := roundKeys_form key h
  unfold aesEnc
  rcases hr : roundKeys key with _ | ⟨k, _ | ⟨k2, ks⟩⟩
  · simp [hr] at hl
  · simp [hr] at hl
  · exact aesRounds_length _ _ (by simp) (fun q hq => hk q (by rw [hr]; exact List.mem_cons_of_mem _ hq))

/-- A CMAC under a key of sixteen octets has sixteen octets. -/
theorem cmac_length (key msg : List Octet) (h : key.length = 16) : (cmac key msg).length = 16 := by
  unfold cmac
  simp only [List.foldl_append, List.foldl_cons, List.foldl_nil]
  exact aesEnc_length key _ h

theorem frameMac_length (key : List Octet) (id : BitVec 29) (o : List Octet) (h : key.length = 16) : (frameMac key id o).length = 8 := by
  simp [frameMac, cmac_length key _ h]

/-! Fragments -/

theorem fragOctet_fields : ∀ (i : Fin 64) (g l : Bool),
    (fragOctet i.val g l &&& 0x3F).toNat = i.val ∧ (fragOctet i.val g l).getLsbD 6 = g ∧ (fragOctet i.val g l).getLsbD 7 = l := by decide

theorem fillTo_eq (n : Nat) (c : List Octet) : fillTo n c = c ++ List.replicate (n - c.length) 0xCC := rfl

/-- What a frame of an unsecured message carries (R420, R422): its part of the body, and the filling after it where it is shorter than a
full frame. -/
theorem plainFragment_frame (i tr len : Nat) (last : Bool) (chunk : List Octet) (hi : i < 64) (hlen : len < 65536) (hc : chunk.length ≤ if i = 0 then 60 else 62) :
    ∃ k, (chunk.length = (if i = 0 then 60 else 62) → k = 0) ∧
      plainFragment (fillTo (fdLength ([fragOctet i false last, BitVec.ofNat 8 tr] ++ (if i = 0 then leOctets 2 len else []) ++ chunk).length)
        ([fragOctet i false last, BitVec.ofNat 8 tr] ++ (if i = 0 then leOctets 2 len else []) ++ chunk)) =
      { index := i, last := last, gen := false, ctr := tr % 256, len := if i = 0 then len else 0, content := chunk ++ List.replicate k 0xCC } := by
  obtain ⟨h1, h2, h3⟩ := fragOctet_fields ⟨i, hi⟩ false last
  simp only at h1 h2 h3
  by_cases h0 : i = 0
  · subst h0
    refine ⟨fdLength (4 + chunk.length) - (4 + chunk.length), fun h => ?_, ?_⟩
    · simp only [if_true] at h; rw [h]; decide
    · have hf : fieldNat ([fragOctet 0 false last, BitVec.ofNat 8 tr] ++ (leOctets 2 len ++ (chunk ++ List.replicate (fdLength (4 + chunk.length) - (4 + chunk.length)) 0xCC))) 2 2
          = len := by
        rw [show (2 : Nat) = [fragOctet 0 false last, BitVec.ofNat 8 tr].length from rfl, fieldNat_append]; simp; omega
      have hd : ∀ o : Octet, ∀ p : Octet, (o :: p :: (leOctets 2 len ++ (chunk ++ List.replicate (fdLength (4 + chunk.length) - (4 + chunk.length)) 0xCC))).drop 4 =
          chunk ++ List.replicate (fdLength (4 + chunk.length) - (4 + chunk.length)) 0xCC := fun o p => rfl
      have hn : ([fragOctet 0 false last, BitVec.ofNat 8 tr] ++ (if (0 : Nat) = 0 then leOctets 2 len else []) ++ chunk).length = 4 + chunk.length := by
        simp; omega
      rw [fillTo_eq, hn]
      simp only [if_true, List.append_assoc, plainFragment]
      simp only [List.cons_append, List.nil_append] at hf hd ⊢
      simp only [octetAt_cons_zero, octetAt_cons_succ, h1, h2, h3, hf, hd, if_true, BitVec.toNat_ofNat]
  · refine ⟨fdLength (2 + chunk.length) - (2 + chunk.length), fun h => ?_, ?_⟩
    · simp only [if_neg h0] at h; rw [h]; decide
    · have hn : ([fragOctet i false last, BitVec.ofNat 8 tr] ++ (if i = 0 then leOctets 2 len else []) ++ chunk).length = 2 + chunk.length := by
        simp [h0]; omega
      rw [fillTo_eq, hn]
      simp only [if_neg h0, List.append_nil, plainFragment]
      simp only [List.cons_append, List.nil_append]
      simp only [octetAt_cons_zero, octetAt_cons_succ, h1, h2, h3, if_neg h0, BitVec.toNat_ofNat]
      rfl

theorem fdLength_ge : ∀ n : Fin 65, n.val ≤ fdLength n.val := by decide

/-- The octets of a secured frame before its MAC (R421, R422). -/
def securedOctets (i ctr len : Nat) (gen last : Bool) (chunk : List Octet) : List Octet :=
  let content := [fragOctet i gen last] ++ leOctets 4 ctr ++ (if i = 0 then leOctets 2 len else []) ++ chunk
  fillTo (fdLength (content.length + 8) - 8) content

/-- What a frame of a secured message carries (R421, R422): its part of the body, and the filling after it where it is shorter than a full
frame. -/
theorem securedFragment_frame (i ctr len : Nat) (gen last : Bool) (chunk mac : List Octet) (hi : i < 64) (hlen : len < 65536) (hctr : ctr < 0x100000000)
    (hc : chunk.length ≤ if i = 0 then 49 else 51) (hm : mac.length = 8) :
    ∃ k, (chunk.length = (if i = 0 then 49 else 51) → k = 0) ∧
      securedFragment (securedOctets i ctr len gen last chunk ++ mac) =
      { index := i, last := last, gen := gen, ctr := ctr, len := if i = 0 then len else 0, content := chunk ++ List.replicate k 0xCC } := by
  obtain ⟨h1, h2, h3⟩ := fragOctet_fields ⟨i, hi⟩ gen last
  simp only at h1 h2 h3
  have htake : ∀ o : List Octet, (o ++ mac).take ((o ++ mac).length - 8) = o := fun o => by
    rw [List.length_append, hm, Nat.add_sub_cancel, List.take_left']; rfl
  by_cases h0 : i = 0
  · subst h0
    refine ⟨fdLength (7 + chunk.length + 8) - 8 - (7 + chunk.length), fun h => ?_, ?_⟩
    · simp only [if_true] at h; rw [h]; decide
    · have hn : ([fragOctet 0 gen last] ++ leOctets 4 ctr ++ (if (0 : Nat) = 0 then leOctets 2 len else []) ++ chunk).length = 7 + chunk.length := by simp; omega
      have hs : securedOctets 0 ctr len gen last chunk = ([fragOctet 0 gen last] ++ leOctets 4 ctr ++ (if (0 : Nat) = 0 then leOctets 2 len else []) ++ chunk) ++
          List.replicate (fdLength (7 + chunk.length + 8) - 8 - (7 + chunk.length)) 0xCC := by
        unfold securedOctets; dsimp only; rw [fillTo_eq, hn]
      simp only [securedFragment, htake]
      rw [hs]
      generalize fdLength (7 + chunk.length + 8) - 8 - (7 + chunk.length) = k
      have hf1 : fieldNat ([fragOctet 0 gen last] ++ (leOctets 4 ctr ++ (leOctets 2 len ++ (chunk ++ (List.replicate k 0xCC ++ mac))))) 1 4 = ctr := by
        rw [show (1 : Nat) = [fragOctet 0 gen last].length from rfl, fieldNat_append]; simp; omega
      have hf2 : fieldNat (([fragOctet 0 gen last] ++ leOctets 4 ctr) ++ (leOctets 2 len ++ (chunk ++ (List.replicate k 0xCC ++ mac)))) 5 2 = len := by
        rw [show (5 : Nat) = ([fragOctet 0 gen last] ++ leOctets 4 ctr).length from by simp, fieldNat_append]; simp; omega
      simp only [if_true, List.append_assoc] at hf1 hf2 ⊢
      simp only [List.cons_append, List.nil_append] at hf1 hf2 ⊢
      simp only [octetAt_cons_zero, h1, h2, h3, hf1, hf2, if_true]
      rfl
  · refine ⟨fdLength (5 + chunk.length + 8) - 8 - (5 + chunk.length), fun h => ?_, ?_⟩
    · simp only [if_neg h0] at h; rw [h]; decide
    · have hn : ([fragOctet i gen last] ++ leOctets 4 ctr ++ (if i = 0 then leOctets 2 len else []) ++ chunk).length = 5 + chunk.length := by simp [h0]; omega
      have hs : securedOctets i ctr len gen last chunk = ([fragOctet i gen last] ++ leOctets 4 ctr ++ (if (i : Nat) = 0 then leOctets 2 len else []) ++ chunk) ++
          List.replicate (fdLength (5 + chunk.length + 8) - 8 - (5 + chunk.length)) 0xCC := by
        unfold securedOctets; dsimp only; rw [fillTo_eq, hn]
      simp only [securedFragment, htake]
      rw [hs]
      generalize fdLength (5 + chunk.length + 8) - 8 - (5 + chunk.length) = k
      have hf1 : fieldNat ([fragOctet i gen last] ++ (leOctets 4 ctr ++ (chunk ++ (List.replicate k 0xCC ++ mac)))) 1 4 = ctr := by
        rw [show (1 : Nat) = [fragOctet i gen last].length from rfl, fieldNat_append]; simp; omega
      simp only [if_neg h0, List.append_nil, List.append_assoc] at hf1 ⊢
      simp only [List.cons_append, List.nil_append] at hf1 ⊢
      simp only [octetAt_cons_zero, h1, h2, h3, hf1, if_neg h0]
      rfl

theorem securedOctets_length (i ctr len : Nat) (gen last : Bool) (chunk : List Octet) :
    5 ≤ (securedOctets i ctr len gen last chunk).length := by
  simp only [securedOctets, fillTo_eq, List.length_append, leOctets_length, List.length_cons, List.length_nil]
  omega

/-- The MAC that a sender sets verifies under its key (R435). -/
theorem macVerifies_frame (key : List Octet) (f : CanFrame) (o : List Octet) (hk : key.length = 16) (ho : 5 ≤ o.length)
    (hf : f.data = o ++ frameMac key f.id o) : macVerifies key f = true := by
  have hm := frameMac_length key f.id o hk
  unfold macVerifies
  simp only [hf, List.length_append, hm, Nat.add_sub_cancel, List.take_left', List.drop_left', Bool.and_eq_true, decide_eq_true_eq, and_true]
  omega

/-! A message put together -/

/-- A sender's message of fragments stands at this partial one. -/
def State.awaiting (s : State) (p : Partial) : State :=
  s.setCon { s.con with partials := p :: s.con.partials.filter (fun q => q.sender ≠ p.sender) }

/-- No message of a sender's is under way. -/
def State.freed (s : State) (sender : Nat) : State := s.setCon { s.con with partials := s.con.partials.filter (fun q => q.sender ≠ sender) }

/-- A message that was under way is broken off and counted. -/
def State.brokenOff (s : State) (sender : Nat) : State :=
  if (s.con.partials.find? (fun q => q.sender = sender)).isSome then s.discardFrame else s

theorem State.brokenOff_partials (s : State) (sender : Nat) : (s.brokenOff sender).con.partials = s.con.partials := by
  unfold State.brokenOff; split <;> rfl

/-- A first fragment that is a whole message. -/
theorem State.takeFragment_single (s : State) (f : CanFrame) (x : Fragment) (act : State → Nat → List Octet → State) (h0 : x.index = 0) (hl : x.last = true)
    (hlen : (x.content.take x.len).length = x.len) :
    s.takeFragment f x act = act ((s.brokenOff (senderOf f)).freed (senderOf f)) (concordSrc f) (x.content.take x.len) := by
  simp only [State.takeFragment, joinFragment, h0, hl, if_true, List.nil_append, List.length_nil, Nat.sub_zero, hlen, decide_true, Bool.true_and]
  rfl

/-- A first fragment of several. -/
theorem State.takeFragment_first (s : State) (f : CanFrame) (x : Fragment) (act : State → Nat → List Octet → State) (h0 : x.index = 0) (hl : x.last = false)
    (hlen : (x.content.take x.len).length < x.len) :
    s.takeFragment f x act = (s.brokenOff (senderOf f)).awaiting
      { sender := senderOf f, type := concordType f, index := 1, gen := x.gen, ctr := x.ctr, len := x.len, got := x.content.take x.len } := by
  have h1 : ¬ x.len ≤ (x.content.take x.len).length := by omega
  simp only [State.takeFragment, joinFragment, h0, hl, if_true, List.nil_append, List.length_nil, Nat.sub_zero, decide_true, Bool.true_and, h1, decide_false,
    Bool.false_or, Bool.false_eq_true, if_false, Nat.reduceLeDiff, Nat.zero_add]
  rfl

theorem State.awaiting_find (s : State) (p : Partial) : (s.awaiting p).con.partials.find? (fun q => q.sender = p.sender) = some p := by
  simp [State.awaiting, State.setCon]

theorem State.awaiting_rest (s : State) (p : Partial) :
    (s.awaiting p).con.partials.filter (fun q => q.sender ≠ p.sender) = s.con.partials.filter (fun q => q.sender ≠ p.sender) := by
  simp [State.awaiting, State.setCon]

/-- The last fragment of several. -/
theorem State.takeFragment_last (s : State) (p : Partial) (f : CanFrame) (x : Fragment) (act : State → Nat → List Octet → State) (hi : x.index = p.index)
    (h0 : p.index ≠ 0) (hl : x.last = true) (hs : senderOf f = p.sender) (ht : concordType f = p.type) (hc : x.ctr = p.ctr) (hg : x.gen = p.gen)
    (hlen : (p.got ++ x.content.take (p.len - p.got.length)).length = p.len) :
    (s.awaiting p).takeFragment f x act = act (s.freed p.sender) (concordSrc f) (p.got ++ x.content.take (p.len - p.got.length)) := by
  have hx : x.index ≠ 0 := by omega
  simp only [State.takeFragment, joinFragment, hs, s.awaiting_find p, s.awaiting_rest p, hx, if_false, decide_false, Bool.false_and, Bool.false_eq_true]
  simp only [Option.filter, ht, hc, hg, hi, decide_true, beq_self_eq_true, Bool.and_self, if_true, hl, hlen]
  rfl

/-- A fragment between the first and the last. -/
theorem State.takeFragment_next (s : State) (p : Partial) (f : CanFrame) (x : Fragment) (act : State → Nat → List Octet → State) (hi : x.index = p.index)
    (h0 : p.index ≠ 0) (h63 : p.index < 63) (hl : x.last = false) (hs : senderOf f = p.sender) (ht : concordType f = p.type) (hc : x.ctr = p.ctr) (hg : x.gen = p.gen)
    (hlen : (p.got ++ x.content.take (p.len - p.got.length)).length < p.len) :
    (s.awaiting p).takeFragment f x act =
      s.awaiting { p with index := p.index + 1, got := p.got ++ x.content.take (p.len - p.got.length) } := by
  have hx : x.index ≠ 0 := by omega
  have h1 : ¬ p.len ≤ (p.got ++ x.content.take (p.len - p.got.length)).length := by omega
  have h2 : ¬ 63 ≤ p.index := by omega
  simp only [State.takeFragment, joinFragment, hs, s.awaiting_find p, s.awaiting_rest p, hx, if_false, decide_false, Bool.false_and, Bool.false_eq_true]
  simp only [Option.filter, ht, hc, hg, hi, decide_true, beq_self_eq_true, Bool.and_self, if_true, hl, Bool.false_eq_true, if_false, h1, h2, decide_false, Bool.or_self]
  rfl

/-- The later fragments of a body, taken one by one, make it whole. -/
theorem State.takeFragments {m : Nat} (R : State → CanFrame → State) (mk : Nat → Bool → List Octet → CanFrame) (frag : CanFrame → Fragment)
    (act : State → Nat → List Octet → State) (s : State) (sender type src ctr : Nat) (gen : Bool) (body : List Octet)
    (hR : ∀ (p : Partial) (i : Nat) (last : Bool) (chunk : List Octet), 1 ≤ i → i < 64 → chunk.length ≤ m →
      R (s.awaiting p) (mk i last chunk) = (s.awaiting p).takeFragment (mk i last chunk) (frag (mk i last chunk)) act)
    (hfrag : ∀ (i : Nat) (last : Bool) (chunk : List Octet), 1 ≤ i → i < 64 → chunk.length ≤ m → ∃ k, (chunk.length = m → k = 0) ∧
      frag (mk i last chunk) = { index := i, last := last, gen := gen, ctr := ctr, len := 0, content := chunk ++ List.replicate k 0xCC })
    (hsend : ∀ i last chunk, senderOf (mk i last chunk) = sender ∧ concordType (mk i last chunk) = type ∧ concordSrc (mk i last chunk) = src) :
    ∀ (fuel : Nat) (rest got : List Octet) (i total : Nat), body = got ++ rest → 1 ≤ i → 1 ≤ fuel → rest.length ≤ fuel * m →
      total = i + (fragments m m fuel rest).length → total ≤ 64 →
      (((fragments m m fuel rest).zipIdx i).map (fun q => mk q.2 (decide (q.2 + 1 = total)) q.1)).foldl R
        (s.awaiting { sender := sender, type := type, index := i, gen := gen, ctr := ctr, len := body.length, got := got }) = act (s.freed sender) src body := by
  intro fuel
  induction fuel with
  | zero => intro rest got i total _ _ h; omega
  | succ fuel ih =>
    intro rest got i total hb hi _ hrl ht h64
    rw [fragments] at ht ⊢
    by_cases hle : rest.length ≤ m
    · rw [if_pos hle] at ht ⊢
      simp only [List.length_cons, List.length_nil] at ht
      obtain ⟨k, _, hk⟩ := hfrag i true rest hi (by omega) hle
      obtain ⟨h1, h2, h3⟩ := hsend i true rest
      have hcon : (rest ++ List.replicate k 0xCC).take (body.length - got.length) = rest := by
        rw [hb, List.length_append, Nat.add_sub_cancel_left, List.take_left']; rfl
      simp only [List.zipIdx_cons, List.zipIdx_nil, List.map_cons, List.map_nil, List.foldl_cons, List.foldl_nil, ht, decide_true]
      rw [hR _ i true rest hi (by omega) hle, hk,
        State.takeFragment_last s _ _ _ act rfl (by simp; omega) rfl h1 h2 rfl rfl (by simp only [hcon]; rw [hb])]
      simp only [hcon, h3, ← hb]
    · rw [if_neg hle] at ht ⊢
      simp only [List.length_cons] at ht
      have hf1 : 1 ≤ fuel := by
        rcases fuel with _ | n
        · simp at hrl; omega
        · omega
      have hne : (fragments m m fuel (rest.drop m)).length ≥ 1 := by
        rcases fuel with _ | n
        · omega
        · rw [fragments]; split <;> simp
      have hkl : (rest.take m).length = m := by rw [List.length_take]; omega
      obtain ⟨k, hk0, hk⟩ := hfrag i false (rest.take m) hi (by omega) (by omega)
      obtain ⟨h1, h2, h3⟩ := hsend i false (rest.take m)
      have hk0 := hk0 hkl
      subst hk0
      have hcon : (rest.take m ++ List.replicate 0 0xCC).take (body.length - got.length) = rest.take m := by
        rw [hb, List.length_append, Nat.add_sub_cancel_left, List.replicate_zero, List.append_nil, List.take_of_length_le (by omega)]
      have hl : ¬ (i + 1 = total) := by omega
      have hbl : body.length = got.length + rest.length := by rw [hb, List.length_append]
      simp only [List.zipIdx_cons, List.map_cons, List.foldl_cons, hl, decide_false]
      rw [hR _ i false _ hi (by omega) (by omega), hk,
        State.takeFragment_next s _ _ _ act rfl (by simp; omega) (by simp; omega) rfl h1 h2 rfl rfl
          (by simp only [hcon, List.length_append, hkl]; omega)]
      simp only [hcon]
      exact ih (rest.drop m) (got ++ rest.take m) (i + 1) total (by rw [hb, List.append_assoc, List.take_append_drop]) (by omega) hf1
        (by rw [List.length_drop]; rw [Nat.succ_mul] at hrl; omega) (by omega) h64

/-- A body of at most n octets and 63 times m more comes in at most 64 fragments. -/
theorem fragments_length (m : Nat) : ∀ (fuel : Nat) (rest : List Octet) (q : Nat), rest.length ≤ q * m → 1 ≤ q → (fragments m m fuel rest).length ≤ q := by
  intro fuel
  induction fuel with
  | zero => intro rest q _ hq; simp [fragments]
  | succ fuel ih =>
    intro rest q h hq
    rw [fragments]
    split
    · simpa using hq
    · rename_i hle
      rcases q with _ | _ | q
      · omega
      · simp at h; omega
      · have := ih (rest.drop m) (q + 1) (by rw [List.length_drop]; rw [Nat.succ_mul] at h; omega) (by omega)
        simpa using this

/-- The fragments of a body, from the first on, taken one by one, make it whole. -/
theorem State.takeMessage {n m : Nat} (R : State → CanFrame → State) (mk : Nat → Bool → List Octet → CanFrame) (frag : CanFrame → Fragment)
    (act : State → Nat → List Octet → State) (s0 h : State) (sender type src ctr : Nat) (gen : Bool) (body : List Octet)
    (hlen : body.length ≤ n + 63 * m)
    (hR0 : ∀ (last : Bool) (chunk : List Octet), chunk.length ≤ n → R s0 (mk 0 last chunk) = h.takeFragment (mk 0 last chunk) (frag (mk 0 last chunk)) act)
    (hR : ∀ (p : Partial) (i : Nat) (last : Bool) (chunk : List Octet), 1 ≤ i → i < 64 → chunk.length ≤ m →
      R ((h.brokenOff sender).awaiting p) (mk i last chunk) = ((h.brokenOff sender).awaiting p).takeFragment (mk i last chunk) (frag (mk i last chunk)) act)
    (hfrag0 : ∀ (last : Bool) (chunk : List Octet), chunk.length ≤ n → ∃ k, (chunk.length = n → k = 0) ∧
      frag (mk 0 last chunk) = { index := 0, last := last, gen := gen, ctr := ctr, len := body.length, content := chunk ++ List.replicate k 0xCC })
    (hfrag : ∀ (i : Nat) (last : Bool) (chunk : List Octet), 1 ≤ i → i < 64 → chunk.length ≤ m → ∃ k, (chunk.length = m → k = 0) ∧
      frag (mk i last chunk) = { index := i, last := last, gen := gen, ctr := ctr, len := 0, content := chunk ++ List.replicate k 0xCC })
    (hsend : ∀ i last chunk, senderOf (mk i last chunk) = sender ∧ concordType (mk i last chunk) = type ∧ concordSrc (mk i last chunk) = src) :
    (fragments n m 65 body).length ≤ 64 ∧
      ((fragments n m 65 body).zipIdx.map (fun q => mk q.2 (decide (q.2 + 1 = (fragments n m 65 body).length)) q.1)).foldl R s0 =
        act ((h.brokenOff sender).freed sender) src body := by
  rw [fragments]
  by_cases hle : body.length ≤ n
  · rw [if_pos hle]
    obtain ⟨k, _, hk⟩ := hfrag0 true body hle
    obtain ⟨h1, h2, h3⟩ := hsend 0 true body
    have hcon : (body ++ List.replicate k 0xCC).take body.length = body := by rw [List.take_left']; rfl
    refine ⟨by simp, ?_⟩
    simp only [List.zipIdx_cons, List.zipIdx_nil, List.map_cons, List.map_nil, List.foldl_cons, List.foldl_nil, List.length_cons, List.length_nil, decide_true]
    rw [hR0 true body hle, hk, State.takeFragment_single h _ _ act rfl rfl (by simp only [hcon])]
    simp only [hcon, h1, h3]
  · rw [if_neg hle]
    have hrest : (body.drop n).length ≤ 63 * m := by rw [List.length_drop]; omega
    have h63 := fragments_length m 64 (body.drop n) 63 hrest (by omega)
    have hkl : (body.take n).length = n := by rw [List.length_take]; omega
    obtain ⟨k, hk0, hk⟩ := hfrag0 false (body.take n) (by omega)
    obtain ⟨h1, h2, h3⟩ := hsend 0 false (body.take n)
    have hk0 := hk0 hkl
    subst hk0
    have hcon : (body.take n ++ List.replicate 0 0xCC).take body.length = body.take n := by
      rw [List.replicate_zero, List.append_nil, List.take_of_length_le (by omega)]
    have hne : (fragments m m 64 (body.drop n)).length ≥ 1 := by rw [fragments]; split <;> simp
    refine ⟨by simp only [List.length_cons]; omega, ?_⟩
    have hl : ¬ (0 + 1 = (body.take n :: fragments m m 64 (body.drop n)).length) := by simp only [List.length_cons]; omega
    simp only [List.zipIdx_cons, List.map_cons, List.foldl_cons, hl, decide_false]
    rw [hR0 false _ (by omega), hk, State.takeFragment_first h _ _ act rfl rfl (by simp only [hcon, hkl]; omega)]
    simp only [hcon, h1, h2]
    exact State.takeFragments R mk frag act (h.brokenOff sender) sender type src ctr gen body hR hfrag hsend 64 (body.drop n) (body.take n) 1 _
      (List.take_append_drop n body).symm (Nat.le_refl 1) (by omega) (by omega) (by simp only [List.length_cons]; omega) (by simp only [List.length_cons]; omega)

/-! Messages that arrive -/

theorem concordPri_le (type : Nat) : concordPri type ≤ 7 := by unfold concordPri; (repeat' split) <;> omega

theorem concordId_toNat (type src dst tie : Nat) (ht : type < 32) (hs : src < 8) (hd : dst < 8) :
    (concordId type src dst tie).toNat = 0xB * 2 ^ 25 + concordPri type * 2 ^ 22 + type * 2 ^ 17 + src * 2 ^ 14 + dst * 2 ^ 11 + tie % 2048 := by
  have hp := concordPri_le type
  rw [concordId, BitVec.toNat_ofNat, Nat.mod_eq_of_lt]; omega

/-- The fields of a frame whose identifier is of Table Concord-2. -/
theorem concordId_fields (type src dst tie : Nat) (ht : type < 32) (hs : src < 8) (hd : dst < 8) (f : CanFrame) (hf : f.id = concordId type src dst tie) :
    f.id.toNat / 2 ^ 25 = 0xB ∧ concordType f = type ∧ concordSrc f = src ∧ concordDst f = dst ∧ concordTie f = tie % 2048 := by
  have hp := concordPri_le type
  unfold concordType concordSrc concordDst concordTie
  rw [hf, concordId_toNat type src dst tie ht hs hd]
  refine ⟨?_, ?_, ?_, ?_, ?_⟩ <;> omega

/-- The nodes and the tie of a frame for this device (R415 to R419). -/
structure Arrives (s : State) (type src dst tie : Nat) : Prop where
  live : s.canLive = true
  type_lt : type < 32
  src_lt : src < 8
  dst_lt : dst < 8
  src_plan : src ≠ 4 ∧ src ≠ 5
  dst_plan : dst ≠ 4 ∧ dst ≠ 5
  agree : nodesAgree type src dst = true
  mine : dst = 7 ∨ (dst = s.ownNode ∧ (dst ≠ 6 ∨ tie % 2048 = ownTie))

/-- A frame that arrives is handed on (R415, R418, R419). -/
theorem State.onFrame_arrives {s : State} {type src dst tie : Nat} (h : Arrives s type src dst tie) (brs : Bool) (data : List Octet) (take : State → State) :
    s.onFrame type (dataFrame (concordId type src dst tie) brs data) take = take s.heardFrame := by
  obtain ⟨h1, h2, h3, h4, h5⟩ := concordId_fields type src dst tie h.type_lt h.src_lt h.dst_lt (dataFrame (concordId type src dst tie) brs data) rfl
  have hin : inPlan (dataFrame (concordId type src dst tie) brs data) = true := by
    have := h.src_plan; have := h.dst_plan
    simp only [inPlan, h1, h3, h4]; simp [dataFrame, *]
  have had : s.heardFrame.addressed (dataFrame (concordId type src dst tie) brs data) = true := by
    unfold State.addressed
    rw [h4, h5]
    rcases h.mine with h7 | ⟨h8, h9⟩
    · simp [h7]
    · have : dst = s.heardFrame.ownNode := h8
      rcases h9 with h9 | h9 <;> simp [← this, h9]
  simp only [State.onFrame, h.live, Bool.not_true, Bool.false_eq_true, if_false, hin, h2, h3, h4, h.agree, had, ne_eq, not_true_eq_false]

theorem Arrives.congr {s t : State} {type src dst tie : Nat} (h : Arrives s type src dst tie) (hl : t.canLive = s.canLive) (ho : t.ownNode = s.ownNode) :
    Arrives t type src dst tie :=
  { h with live := by rw [hl]; exact h.live, mine := by rw [ho]; exact h.mine }

/-- The state in which a message of a sender does its work: what it breaks off is counted, and nothing of that sender is under way. -/
def State.received (s : State) (sender : Nat) : State := (s.quiet.heardFrame.brokenOff sender).freed sender

theorem State.brokenOff_con (s : State) (sender : Nat) : s.brokenOff sender = s ∨ s.brokenOff sender = s.discardFrame := by
  unfold State.brokenOff; split
  · exact Or.inr rfl
  · exact Or.inl rfl

theorem State.heardFrame_awaiting (s : State) (sender : Nat) (p : Partial) :
    ((s.heardFrame.brokenOff sender).awaiting p).heardFrame = (s.heardFrame.brokenOff sender).awaiting p := by
  rcases s.heardFrame.brokenOff_con sender with e | e <;> rw [e] <;> rfl

theorem Arrives.setCon {s : State} {type src dst tie : Nat} (h : Arrives s type src dst tie) (c : Concord) (hb : c.busOff = s.con.busOff)
    (hp : c.phase = s.con.phase) (hn : c.node = s.con.node) : Arrives (s.setCon c) type src dst tie := by
  refine h.congr ?_ ?_
  · unfold State.canLive State.setCon; dsimp only; rw [hb]
  · unfold State.ownNode State.setCon; dsimp only; rw [hp, hn]

theorem State.brokenOff_keeps (s : State) (sender : Nat) : (s.brokenOff sender).con.busOff = s.con.busOff ∧ (s.brokenOff sender).con.phase = s.con.phase ∧
    (s.brokenOff sender).con.node = s.con.node := by
  rcases s.brokenOff_con sender with e | e <;> rw [e] <;> exact ⟨rfl, rfl, rfl⟩

theorem Arrives.brokenOff {s : State} {type src dst tie : Nat} (h : Arrives s type src dst tie) (sender : Nat) :
    Arrives (s.brokenOff sender) type src dst tie := by
  rcases s.brokenOff_con sender with e | e <;> rw [e]
  · exact h
  · exact h.setCon _ rfl rfl rfl

theorem Arrives.awaiting {s : State} {type src dst tie : Nat} (h : Arrives s type src dst tie) (sender : Nat) (p : Partial) :
    Arrives ((s.brokenOff sender).awaiting p) type src dst tie := (h.brokenOff sender).setCon _ rfl rfl rfl

/-- The octets of an unsecured frame (R420, R422). -/
def plainOctets (i tr len : Nat) (last : Bool) (chunk : List Octet) : List Octet :=
  fillTo (fdLength ([fragOctet i false last, BitVec.ofNat 8 tr] ++ (if i = 0 then leOctets 2 len else []) ++ chunk).length)
    ([fragOctet i false last, BitVec.ofNat 8 tr] ++ (if i = 0 then leOctets 2 len else []) ++ chunk)

theorem plainFrames_eq (id : BitVec 29) (brs : Bool) (tr : Nat) (body : List Octet) : plainFrames id brs tr body =
    (fragments 60 62 65 body).zipIdx.map (fun q => dataFrame id brs (plainOctets q.2 tr body.length (decide (q.2 + 1 = (fragments 60 62 65 body).length)) q.1)) := rfl

theorem concord_sends (type src dst tie : Nat) (ht : type < 32) (hs : src < 8) (hd : dst < 8) (brs : Bool) (data : List Octet) :
    senderOf (dataFrame (concordId type src dst tie) brs data) = src * 2048 + tie % 2048 ∧
      concordType (dataFrame (concordId type src dst tie) brs data) = type ∧ concordSrc (dataFrame (concordId type src dst tie) brs data) = src := by
  obtain ⟨_, h2, h3, _, h5⟩ := concordId_fields type src dst tie ht hs hd (dataFrame (concordId type src dst tie) brs data) rfl
  exact ⟨by unfold senderOf; rw [h3, h5], h2, h3⟩

/-- The frames that a sender forms of an unsecured body of up to 3 966 octets give that body to their receiver (R420 to R423). -/
theorem State.onPlain_frames {s : State} {type src dst tie : Nat} (h : Arrives s type src dst tie) (brs : Bool) (tr : Nat) (body : List Octet)
    (hlen : body.length ≤ 3966) (ok : Nat → Bool) (act : State → Nat → List Octet → State) :
    s.onPlain type (plainFrames (concordId type src dst tie) brs tr body) ok act =
      (if ok body.length then act (s.received (src * 2048 + tie % 2048)) src body else (s.received (src * 2048 + tie % 2048)).discardFrame) := by
  have hq : Arrives s.quiet type src dst tie := h.setCon _ rfl rfl rfl
  rw [State.onPlain, plainFrames_eq]
  refine (State.takeMessage (n := 60) (m := 62) _ (fun i last chunk => dataFrame (concordId type src dst tie) brs (plainOctets i tr body.length last chunk))
    (fun f => plainFragment f.data) (fun s src b => if ok b.length then act s src b else s.discardFrame) s.quiet s.quiet.heardFrame
    (src * 2048 + tie % 2048) type src (tr % 256) false body (by omega) ?_ ?_ ?_ ?_ (fun i last chunk => concord_sends type src dst tie h.type_lt h.src_lt h.dst_lt brs _)).2
  · intro last chunk _
    exact State.onFrame_arrives hq brs _ _
  · intro p i last chunk _ _ _
    have hh : Arrives s.quiet.heardFrame type src dst tie := hq.setCon _ rfl rfl rfl
    refine (State.onFrame_arrives (hh.awaiting _ p) brs _ _).trans ?_
    rw [State.heardFrame_awaiting]
  · intro last chunk hc
    obtain ⟨k, hk, he⟩ := plainFragment_frame 0 tr body.length last chunk (by omega) (by omega) (by rw [if_pos rfl]; exact hc)
    rw [if_pos rfl] at hk
    exact ⟨k, hk, he.trans (by rw [if_pos rfl])⟩
  · intro i last chunk h1 h2 hc
    have h0 : i ≠ 0 := by omega
    obtain ⟨k, hk, he⟩ := plainFragment_frame i tr body.length last chunk h2 (by omega) (by rw [if_neg h0]; exact hc)
    rw [if_neg h0] at hk
    exact ⟨k, hk, he.trans (by rw [if_neg h0])⟩

/-! Secured messages that arrive -/

theorem State.member_mapMember (s : State) (n : Nat) (f : Session → Session) :
    (s.mapMember n (fun m => { m with session := f m.session })).member n = (s.member n).map (fun m => { m with session := f m.session }) := by
  simp only [State.member, State.mapMember, State.setCon]
  induction s.con.members with
  | nil => rfl
  | cons a l ih =>
    by_cases h : a.node = n
    · simp [h]
    · simp [h, ih]

/-- The session with a node after it is changed. -/
theorem State.sessionWith_mapSession (s : State) (n : Nat) (f : Session → Session) : (s.mapSession n f).sessionWith n = (s.sessionWith n).map f := by
  by_cases hv : s.boot.role = .vehicle
  · have h2 : (s.mapSession n f).boot.role = .vehicle := by unfold State.mapSession; rw [if_pos hv]; exact hv
    unfold State.sessionWith
    rw [if_pos hv, if_pos h2]
    unfold State.mapSession
    rw [if_pos hv, s.member_mapMember n f]
    cases s.member n <;> rfl
  · have h2 : ¬ (s.mapSession n f).boot.role = .vehicle := by unfold State.mapSession; rw [if_neg hv]; exact hv
    unfold State.sessionWith
    rw [if_neg hv, if_neg h2]
    unfold State.mapSession
    rw [if_neg hv]
    split <;> rfl

theorem State.mapSession_shape (s : State) (n : Nat) (f : Session → Session) :
    (s.mapSession n f).canLive = s.canLive ∧ (s.mapSession n f).ownNode = s.ownNode ∧ (s.mapSession n f).boot = s.boot ∧
      (s.mapSession n f).con.phase = s.con.phase ∧ (s.mapSession n f).con.restricted = s.con.restricted := by
  unfold State.mapSession; split <;> exact ⟨rfl, rfl, rfl, rfl, rfl⟩

theorem halfKey_length (b : Bool) (keys : List Octet) (h : keys.length = 32) : (halfKey b keys).length = 16 := by
  cases b <;> simp [halfKey, h]

theorem Session.rxKey_own (x : Session) (v : Bool) : x.rxKey v x.gen = some (halfKey (!v) x.keys) := by simp [Session.rxKey]

/-- A frame of a secured message as its sender forms it. -/
def securedOne (id : BitVec 29) (brs : Bool) (key : List Octet) (gen : Bool) (ctr len i : Nat) (last : Bool) (chunk : List Octet) : CanFrame :=
  dataFrame id brs (securedOctets i ctr len gen last chunk ++ frameMac key id (securedOctets i ctr len gen last chunk))

theorem securedFrames_eq (id : BitVec 29) (brs : Bool) (key : List Octet) (gen : Bool) (ctr : Nat) (body : List Octet) : securedFrames id brs key gen ctr body =
    (fragments 49 51 65 body).zipIdx.map (fun q => securedOne id brs key gen ctr body.length q.2 (decide (q.2 + 1 = (fragments 49 51 65 body).length)) q.1) := rfl

theorem securedOne_verifies (id : BitVec 29) (brs : Bool) (key : List Octet) (gen : Bool) (ctr len i : Nat) (last : Bool) (chunk : List Octet) (hk : key.length = 16) :
    macVerifies key (securedOne id brs key gen ctr len i last chunk) = true :=
  macVerifies_frame key _ _ hk (securedOctets_length i ctr len gen last chunk) rfl

theorem securedOne_fragment (id : BitVec 29) (brs : Bool) (key : List Octet) (gen : Bool) (ctr len i : Nat) (last : Bool) (chunk : List Octet) (hk : key.length = 16)
    (hi : i < 64) (hlen : len < 65536) (hctr : ctr < 0x100000000) (hc : chunk.length ≤ if i = 0 then 49 else 51) :
    ∃ k, (chunk.length = (if i = 0 then 49 else 51) → k = 0) ∧ securedFragment (securedOne id brs key gen ctr len i last chunk).data =
      { index := i, last := last, gen := gen, ctr := ctr, len := if i = 0 then len else 0, content := chunk ++ List.replicate k 0xCC } :=
  securedFragment_frame i ctr len gen last chunk _ hi hlen hctr hc (frameMac_length key id _ hk)

/-- The state in which a secured message does its work: its counter is the highest accepted. -/
def State.secured (s : State) (src : Nat) (gen : Bool) (ctr sender : Nat) : State :=
  ((s.quiet.heardFrame.mapSession src (fun z => z.raise gen ctr)).brokenOff sender).freed sender

/-- A first frame of a session whose counter is above the highest is taken. -/
theorem State.securedFrame_first (s : State) (x : Session) (f : CanFrame) (failed : State) (act : State → Nat → List Octet → State) (ctr : Nat)
    (hi : (securedFragment f.data).index = 0) (hg : (securedFragment f.data).gen = x.gen) (hc : (securedFragment f.data).ctr = ctr) (hr : x.rx < ctr)
    (hv : macVerifies (halfKey (!decide (s.boot.role = .vehicle)) x.keys) f = true) :
    s.securedFrame x f failed act = (s.mapSession (concordSrc f) (fun z => z.raise x.gen ctr)).takeFragment f (securedFragment f.data) act := by
  have hf : x.fresher x.gen ctr = true := by simp [Session.fresher, hr]
  simp only [State.securedFrame, hg, x.rxKey_own, hv, hi, hc, hf, Bool.not_true, Bool.false_eq_true, if_false, ne_eq, not_true_eq_false, if_true]

/-- A later frame of a session is taken. -/
theorem State.securedFrame_later (s : State) (x : Session) (f : CanFrame) (failed : State) (act : State → Nat → List Octet → State)
    (hi : (securedFragment f.data).index ≠ 0) (hg : (securedFragment f.data).gen = x.gen)
    (hv : macVerifies (halfKey (!decide (s.boot.role = .vehicle)) x.keys) f = true) :
    s.securedFrame x f failed act = s.takeFragment f (securedFragment f.data) act := by
  simp only [State.securedFrame, hg, x.rxKey_own, hv, Bool.not_true, Bool.false_eq_true, if_false, ne_eq, hi, not_false_eq_true, if_true]

/-- The frames that a sender forms of a secured body of up to 3 262 octets, under the keys of its session and with a counter above the highest
accepted, give that body to their receiver (R420 to R423, R435, R436). -/
theorem State.onSecured_frames {s : State} {type src dst tie : Nat} (h : Arrives s type src dst tie) (x : Session) (hx : s.sessionWith src = some x)
    (hm : s.boot.role = .vehicle ∨ s.con.phase = .member) (hk : x.keys.length = 32) (brs : Bool) (ctr : Nat) (hr : x.rx < ctr) (hctr : ctr < 0x100000000)
    (body : List Octet) (hlen : body.length ≤ 3262) (ok : Nat → Bool) (act : State → Nat → List Octet → State) :
    s.onSecured type (securedFrames (concordId type src dst tie) brs (halfKey (!decide (s.boot.role = .vehicle)) x.keys) x.gen ctr body) ok act =
      (if ok body.length then act (s.secured src x.gen ctr (src * 2048 + tie % 2048)) src body
       else (s.secured src x.gen ctr (src * 2048 + tie % 2048)).discardFrame) := by
  have hq : Arrives s.quiet type src dst tie := h.setCon _ rfl rfl rfl
  have hk16 := halfKey_length (!decide (s.boot.role = .vehicle)) x.keys hk
  have hnm : ∀ t : State, t.boot = s.boot → t.con.phase = s.con.phase → (decide (t.boot.role ≠ .vehicle) && decide (t.con.phase ≠ .member)) = false := by
    intro t ht hp; rw [ht, hp]; rcases hm with e | e <;> simp [e]
  have hshape := s.quiet.heardFrame.mapSession_shape src (fun z => z.raise x.gen ctr)
  have hbase : Arrives (s.quiet.heardFrame.mapSession src (fun z => z.raise x.gen ctr)) type src dst tie := h.congr hshape.1 hshape.2.1
  have hsess : (s.quiet.heardFrame.mapSession src (fun z => z.raise x.gen ctr)).sessionWith src = some (x.raise x.gen ctr) := by
    rw [State.sessionWith_mapSession]; exact congrArg (Option.map _) hx
  generalize hb : s.quiet.heardFrame.mapSession src (fun z => z.raise x.gen ctr) = b at hbase hsess hshape
  have hheard : ∀ p, ((b.brokenOff (src * 2048 + tie % 2048)).awaiting p).heardFrame = (b.brokenOff (src * 2048 + tie % 2048)).awaiting p := by
    intro p
    have hbh : b.heardFrame = b := by
      have : b.con.restricted = false := hshape.2.2.2.2
      unfold State.heardFrame State.setCon
      rw [← this]
    rcases b.brokenOff_con (src * 2048 + tie % 2048) with e | e <;> rw [e]
    · exact congrArg (fun y : State => y.awaiting p) hbh
    · exact congrArg (fun y : State => y.discardFrame.awaiting p) hbh
  have hsec : s.secured src x.gen ctr (src * 2048 + tie % 2048) = (b.brokenOff (src * 2048 + tie % 2048)).freed (src * 2048 + tie % 2048) := by
    unfold State.secured; rw [hb]
  rw [State.onSecured, securedFrames_eq, hsec]
  refine (State.takeMessage (n := 49) (m := 51) _
    (fun i last chunk => securedOne (concordId type src dst tie) brs (halfKey (!decide (s.boot.role = .vehicle)) x.keys) x.gen ctr body.length i last chunk)
    (fun f => securedFragment f.data) (fun s src b => if ok b.length then act s src b else s.discardFrame) s.quiet b
    (src * 2048 + tie % 2048) type src ctr x.gen body (by omega) ?_ ?_ ?_ ?_ (fun i last chunk => concord_sends type src dst tie h.type_lt h.src_lt h.dst_lt brs _)).2
  · intro last chunk hc
    obtain ⟨k, _, hfr⟩ := securedOne_fragment (concordId type src dst tie) brs _ x.gen ctr body.length 0 last chunk hk16 (by omega) (by omega) hctr hc
    have hsrc : concordSrc (securedOne (concordId type src dst tie) brs (halfKey (!decide (s.boot.role = .vehicle)) x.keys) x.gen ctr body.length 0 last chunk) = src :=
      (concord_sends type src dst tie h.type_lt h.src_lt h.dst_lt brs _).2.2
    refine (State.onFrame_arrives hq brs _ _).trans ?_
    rw [hsrc]
    have hx' : s.quiet.heardFrame.sessionWith src = some x := hx
    simp only [hx', hnm s.quiet.heardFrame rfl rfl, Bool.false_eq_true, if_false]
    refine (State.securedFrame_first s.quiet.heardFrame x
      (securedOne (concordId type src dst tie) brs (halfKey (!decide (s.boot.role = .vehicle)) x.keys) x.gen ctr body.length 0 last chunk) _ _ ctr
      (congrArg Fragment.index hfr) (congrArg Fragment.gen hfr) (congrArg Fragment.ctr hfr) hr
      (securedOne_verifies _ brs _ x.gen ctr body.length 0 last chunk hk16)).trans ?_
    rw [hsrc, hb]
  · intro p i last chunk h1 h2 hc
    have h0 : i ≠ 0 := by omega
    obtain ⟨k, _, hfr⟩ := securedOne_fragment (concordId type src dst tie) brs _ x.gen ctr body.length i last chunk hk16 h2 (by omega) hctr (by rw [if_neg h0]; exact hc)
    have hsrc : concordSrc (securedOne (concordId type src dst tie) brs (halfKey (!decide (s.boot.role = .vehicle)) x.keys) x.gen ctr body.length i last chunk) = src :=
      (concord_sends type src dst tie h.type_lt h.src_lt h.dst_lt brs _).2.2
    have har : Arrives ((b.brokenOff (src * 2048 + tie % 2048)).awaiting p) type src dst tie := hbase.awaiting _ p
    have hsw : ((b.brokenOff (src * 2048 + tie % 2048)).awaiting p).sessionWith src = some (x.raise x.gen ctr) := by
      rcases b.brokenOff_con (src * 2048 + tie % 2048) with e | e <;> rw [e] <;> exact hsess
    have hboot : ((b.brokenOff (src * 2048 + tie % 2048)).awaiting p).boot = s.boot := by
      rcases b.brokenOff_con (src * 2048 + tie % 2048) with e | e <;> rw [e] <;> exact hshape.2.2.1
    have hphase : ((b.brokenOff (src * 2048 + tie % 2048)).awaiting p).con.phase = s.con.phase := by
      rcases b.brokenOff_con (src * 2048 + tie % 2048) with e | e <;> rw [e] <;> exact hshape.2.2.2.1
    have hraise : (x.raise x.gen ctr).keys = x.keys ∧ (x.raise x.gen ctr).gen = x.gen := by simp [Session.raise]
    refine (State.onFrame_arrives har brs _ _).trans ?_
    rw [hheard p, hsrc]
    simp only [hsw, hnm _ hboot hphase, Bool.false_eq_true, if_false]
    exact State.securedFrame_later _ (x.raise x.gen ctr) _ _ _ (by
        have : (securedFragment (securedOne (concordId type src dst tie) brs (halfKey (!decide (s.boot.role = .vehicle)) x.keys) x.gen ctr body.length i last chunk).data).index = i :=
          congrArg Fragment.index hfr
        exact fun e => h0 (this.symm.trans e))
      (by rw [hraise.2]; exact congrArg Fragment.gen hfr)
      (by rw [hraise.1, hboot]; exact securedOne_verifies _ brs _ x.gen ctr body.length i last chunk hk16)
  · intro last chunk hc
    exact securedOne_fragment _ brs _ x.gen ctr body.length 0 last chunk hk16 (by omega) (by omega) hctr hc
  · intro i last chunk h1 h2 hc
    have h0 : i ≠ 0 := by omega
    obtain ⟨k, hk, he⟩ := securedOne_fragment (concordId type src dst tie) brs _ x.gen ctr body.length i last chunk hk16 h2 (by omega) hctr (by rw [if_neg h0]; exact hc)
    rw [if_neg h0] at hk
    exact ⟨k, hk, he.trans (by rw [if_neg h0])⟩

end Sys2Proof.Machine
end

