-- ==== Sys2Proof/Laws/Mailbox.lean ====
section
/-! SUPPORT. The mailboxes and events: what a request that its channel takes up runs, and what an event changes. -/
namespace Sys2Proof.Machine

/-- A request taken up by its idle channel: executing, not begun. -/
def State.taken (s : State) (cmd : Nat) (q : CmdReq) : State :=
  s.setPort q.transport (·.setChan (cmdChannel cmd)
    { phase := .executing, begun := false, last := some ⟨q.seq, cmd, q.payload⟩, flags := 0, cache := none, interim := none })

@[simp] theorem State.port_setPort (s : State) (t : Transport) (f : Port → Port) : (s.setPort t f).port t = f (s.port t) :=
  Vector.getElem_set_self (xs := s.host.ports) t.slot.isLt

/-- A taken request's channel holds it. -/
@[simp] theorem State.taken_chan (s : State) (cmd : Nat) (q : CmdReq) :
    ((s.taken cmd q).port q.transport).chans.get (cmdChannel cmd) =
      { phase := .executing, begun := false, last := some ⟨q.seq, cmd, q.payload⟩, flags := 0, cache := none, interim := none } := by
  rw [State.taken, State.port_setPort]
  exact Vector.getElem_set_self (xs := (s.port q.transport).chans) (cmdChannel cmd).isLt

/-- A request that its channel takes up runs its command, and its reply is given on that channel (Table Host-8, R921). -/
theorem State.command_of_accepts {s : State} {cmd : Nat} {q : CmdReq} (run : State → State × Reply) (h : s.accepts cmd q = true) :
    s.command cmd q run = (run (s.taken cmd q)).1.reply q.transport (cmdChannel cmd) (run (s.taken cmd q)).2 := by
  unfold State.accepts at h
  cases hi : cmdInfo cmd with
  | none => simp [hi] at h
  | some i =>
    simp only [hi, Bool.and_eq_true, Bool.or_eq_true, decide_eq_true_eq] at h
    obtain ⟨hup, ⟨⟨⟨⟨hlen, hrole⟩, ht⟩, hlow⟩, hch⟩⟩ := h
    have hlt : (channelOf i.chan).val = i.chan ∧ i.chan < 7 := by
      have : i.chan < 7 := by
        revert hi; unfold cmdInfo; dsimp only
        split <;> intro hi <;> first | (cases hi; decide) | (exact absurd hi (by simp))
      exact ⟨by simp [channelOf, this], this⟩
    have hc : cmdChannel cmd = channelOf i.chan := by simp [cmdChannel, hi]
    have hf : (⟨i.chan, hlt.2⟩ : Fin 7) = channelOf i.chan := Fin.ext hlt.1.symm
    have hrt : s.roleTier cmd = none := by
      have : ¬ s.boot.tier.toNat < i.low.toNat := by omega
      have h2 : s.boot.role ∈ i.roles := by simpa using hrole
      simp [State.roleTier, hi, h2, this]
    have hrt2 : (s.taken cmd q).roleTier cmd = none := hrt
    have hr : s.r271 { chan := i.chan, dir := false, reserved := false, seq := q.seq, cmd := cmd, flags := 0, payload := q.payload } = none := by
      simp [State.r271, hi, hlen, cmdExists, hrt]
    have harr : s.arrive q.transport { chan := i.chan, dir := false, reserved := false, seq := q.seq, cmd := cmd, flags := 0, payload := q.payload } =
        (s.taken cmd q, .run) := by
      unfold State.arrive
      simp only [hlt.2, dite_true, hr, hf, State.taken, hc]
      rcases hl : ((s.port q.transport).chans.get (channelOf i.chan)).last with _ | r
      · rfl
      · rcases hp : ((s.port q.transport).chans.get (channelOf i.chan)).phase <;> simp_all
    have hne : ¬ (((s.port q.transport).chans.get (channelOf i.chan)).phase = .executing ∧
        ((s.port q.transport).chans.get (channelOf i.chan)).last = some ⟨q.seq, cmd, q.payload⟩) := by
      rintro ⟨h1, h2⟩
      rcases hch with (h3 | h3) | h3
      · simp [h2] at h3
      · simp [h1] at h3
      · simp [h1] at h3
    unfold State.command
    simp only [hup, hi, harr, hrt2, hc]
    rw [if_neg (by simp), if_neg (by simp only [Bool.and_eq_true, decide_eq_true_eq]; exact fun h => hne ⟨h.1.1, h.2⟩)]

/-- An event changes the host side and the journal, and nothing else, at whatever time it is raised. -/
theorem State.raiseAt_frame (s : State) (t : Clock) (code : Nat) (data : List Octet) :
    { s.raiseAt t code data with host := s.host, jou := s.jou } = s := by
  unfold State.raiseAt State.journal State.pumpJournal; dsimp only; split <;> rfl

/-- An event changes the host side and the journal, and nothing else (R290, R894). -/
theorem State.raise_frame (s : State) (code : Nat) (data : List Octet) : { s.raise code data with host := s.host, jou := s.jou } = s := by
  unfold State.raise
  split
  · exact s.raiseAt_frame s.clock code data
  · rfl

/-- Events raised in order change the host side and the journal, and nothing else. -/
theorem State.raisePre_frame (l : List Event) (s : State) : { State.raisePre l s with host := s.host, jou := s.jou } = s := by
  induction l generalizing s with
  | nil => rfl
  | cons e r ih =>
    have h := ih (s.raiseAt { s.clock with era := e.era, seconds := e.seconds, fraction := e.fraction } e.code e.data)
    have h2 := s.raiseAt_frame { s.clock with era := e.era, seconds := e.seconds, fraction := e.fraction } e.code e.data
    rw [State.raisePre]
    calc _ = { { State.raisePre r (s.raiseAt { s.clock with era := e.era, seconds := e.seconds, fraction := e.fraction } e.code e.data) with
              host := (s.raiseAt { s.clock with era := e.era, seconds := e.seconds, fraction := e.fraction } e.code e.data).host,
              jou := (s.raiseAt { s.clock with era := e.era, seconds := e.seconds, fraction := e.fraction } e.code e.data).jou } with
              host := s.host, jou := s.jou } := rfl
      _ = _ := by rw [h, h2]

/-- A reply changes the host side, and the journal where a tier event waited for it alone (R296, Table Host-8). -/
theorem State.reply_frame (s : State) (t : Transport) (c : Fin 7) (r : Reply) : { s.reply t c r with host := s.host, jou := s.jou } = s := by
  have held (s2 : State) : { s2.tierReleased t c with host := s2.host, jou := s2.jou } = s2 := by
    unfold State.tierReleased
    exact congrArg (fun x : State => { x with host := s2.host, jou := s2.jou })
      (State.raisePre_frame _ { s2 with host := { s2.host with tierHeld := _ } })
  have port (f : Port → Port) : { (s.setPort t f).tierReleased t c with host := s.host, jou := s.jou } = s :=
    congrArg (fun x : State => { x with host := s.host, jou := s.jou }) (held (s.setPort t f))
  cases r with
  | final st p => unfold State.reply State.respond; dsimp only; split; · rfl
                  · exact port _
  | stream ps => unfold State.reply State.respondStream; dsimp only; split; · rfl
                 · exact port _
  | wait => rfl
  | later => rfl

/-- Where every tier event that waits also waits for another response, a reply changes the host side alone. -/
theorem State.reply_host (s : State) (t : Transport) (c : Fin 7) (r : Reply)
    (h : s.host.tierHeld.all (fun x => x.2.any (fun y => y ≠ (t, c))) = true) : { s.reply t c r with host := s.host } = s := by
  have held (s2 : State) (h2 : s2.host.tierHeld = s.host.tierHeld) : { s2.tierReleased t c with host := s2.host } = s2 := by
    unfold State.tierReleased
    have e : (s2.host.tierHeld.map (fun x => (x.1, x.2.filter (fun y => y ≠ (t, c))))).filter (fun x => x.2.isEmpty) = [] := by
      rw [h2, List.filter_eq_nil_iff]
      intro x hx
      obtain ⟨y, hy, rfl⟩ := List.mem_map.mp hx
      obtain ⟨z, hz, hzn⟩ := List.any_eq_true.mp (List.all_eq_true.mp h y hy)
      simp only [List.isEmpty_iff, List.filter_eq_nil_iff]
      exact fun hn => hn z hz (by simpa using hzn)
    simp only [e]; rfl
  cases r with
  | final st p => unfold State.reply State.respond; dsimp only; split; · rfl
                  · exact congrArg (fun x : State => { x with host := s.host }) (held (s.setPort t _) rfl)
  | stream ps => unfold State.reply State.respondStream; dsimp only; split; · rfl
                 · exact congrArg (fun x : State => { x with host := s.host }) (held (s.setPort t _) rfl)
  | wait => rfl
  | later => rfl

end Sys2Proof.Machine
end

