-- ==== Sys2Proof/Laws/Ports.lean ====
section
/-! SUPPORT. The register ports and the pins: what an access, a register command and a pin event do where the block answers and where it
does not. -/
namespace Sys2Proof.Machine

/-- A register command acts where its block answers (R33, R124). -/
theorem State.portCommand_serves {s : State} {addr : Nat} (act : State → State) (h : s.portServes addr = true) :
    s.portCommand addr act = act s := if_pos h

/-- A register command to a block that does not answer changes nothing. -/
theorem State.portCommand_absent {s : State} {addr : Nat} (act : State → State) (h : s.portServes addr = false) :
    s.portCommand addr act = s := if_neg (by simp [h])

/-- A requester's access acts where its port is open. -/
theorem State.portAccess_reaches {s : State} {r : Requester} {addr : Nat} (act : State → State) (h : s.reaches r addr) :
    s.portAccess r addr act = act s := by
  cases r with
  | core i =>
    have h : s.ioCause i addr = none := h
    simp [State.portAccess, h]
  | steward =>
    have h : s.portServes addr = true := h
    simp [State.portAccess, h]
  | dma =>
    have h : s.portServes addr = true := h
    simp [State.portAccess, h]

/-- A core's access that its grants or the block refuse takes the trap named (R46, R104). -/
theorem State.portAccess_trap {s : State} {i : Fin 4} {addr : Nat} {x : Nat × Nat} (act : State → State) (h : s.ioCause i addr = some x) :
    s.portAccess (.core i) addr act = s.portTrap i x.1 x.2 addr := by
  simp [State.portAccess, h]

/-- The Steward's access, and DMA's, to a block that does not answer changes nothing. -/
theorem State.portAccess_absent {s : State} {r : Requester} {addr : Nat} (act : State → State) (hr : ∀ i, r ≠ .core i)
    (h : s.portServes addr = false) : s.portAccess r addr act = s := by
  cases r with
  | core i => exact absurd rfl (hr i)
  | steward | dma => simp [State.portAccess, h]

/-- What a pin or an event does to a block reaches it while the block is on and its domain runs. -/
theorem State.live_on {s : State} {n off : Nat} (act : State → State) (h : s.blockLive n off = true) : s.live n off act = act s :=
  if_pos h

theorem State.live_off {s : State} {n off : Nat} (act : State → State) (h : s.blockLive n off = false) : s.live n off act = s :=
  if_neg (by simp [h])

/-- A row that no loss of power cut short ends as it stands. -/
theorem State.cutShort_whole {s : State} (h : s.cus.cut = none) : s.cutShort = s := by
  simp [State.cutShort, h]

end Sys2Proof.Machine
end

