-- ==== Sys2Proof/Laws/State.lean ====
section
/-! SUPPORT. What each record update of the state leaves and gives: one lemma for each field and update. -/
namespace Sys2Proof.Machine

@[simp] theorem State.setPow_pow (s : State) (x : Power) : (s.setPow x).pow = x := rfl
@[simp] theorem State.setPow_hold (s : State) (x : Power) : (s.setPow x).hold = s.hold := rfl
@[simp] theorem State.setPow_clk (s : State) (x : Power) : (s.setPow x).clk = s.clk := rfl
@[simp] theorem State.setPow_boot (s : State) (x : Power) : (s.setPow x).boot = s.boot := rfl
@[simp] theorem State.setPow_host (s : State) (x : Power) : (s.setPow x).host = s.host := rfl
@[simp] theorem State.setPow_cus (s : State) (x : Power) : (s.setPow x).cus = s.cus := rfl
@[simp] theorem State.setPow_led (s : State) (x : Power) : (s.setPow x).led = s.led := rfl
@[simp] theorem State.setPow_con (s : State) (x : Power) : (s.setPow x).con = s.con := rfl
@[simp] theorem State.setPow_mot (s : State) (x : Power) : (s.setPow x).mot = s.mot := rfl
@[simp] theorem State.setPow_cel (s : State) (x : Power) : (s.setPow x).cel = s.cel := rfl
@[simp] theorem State.setPow_core (s : State) (x : Power) : (s.setPow x).core = s.core := rfl
@[simp] theorem State.setPow_stewDec (s : State) (x : Power) : (s.setPow x).stewDec = s.stewDec := rfl
@[simp] theorem State.setPow_stewCrypto (s : State) (x : Power) : (s.setPow x).stewCrypto = s.stewCrypto := rfl
@[simp] theorem State.setPow_cop (s : State) (x : Power) : (s.setPow x).cop = s.cop := rfl
@[simp] theorem State.setPow_mem (s : State) (x : Power) : (s.setPow x).mem = s.mem := rfl
@[simp] theorem State.setPow_per (s : State) (x : Power) : (s.setPow x).per = s.per := rfl
@[simp] theorem State.setPow_fl (s : State) (x : Power) : (s.setPow x).fl = s.fl := rfl
@[simp] theorem State.setPow_img (s : State) (x : Power) : (s.setPow x).img = s.img := rfl
@[simp] theorem State.setPow_jou (s : State) (x : Power) : (s.setPow x).jou = s.jou := rfl
@[simp] theorem State.setPow_dbg (s : State) (x : Power) : (s.setPow x).dbg = s.dbg := rfl
@[simp] theorem State.setPow_free (s : State) (x : Power) : (s.setPow x).free = s.free := rfl
@[simp] theorem State.setPow_pending (s : State) (x : Power) : (s.setPow x).pending = s.pending := rfl

@[simp] theorem State.setClk_clk (s : State) (x : Clocks) : (s.setClk x).clk = x := rfl
@[simp] theorem State.setClk_pow (s : State) (x : Clocks) : (s.setClk x).pow = s.pow := rfl
@[simp] theorem State.setClk_hold (s : State) (x : Clocks) : (s.setClk x).hold = s.hold := rfl
@[simp] theorem State.setClk_boot (s : State) (x : Clocks) : (s.setClk x).boot = s.boot := rfl
@[simp] theorem State.setClk_host (s : State) (x : Clocks) : (s.setClk x).host = s.host := rfl
@[simp] theorem State.setClk_cus (s : State) (x : Clocks) : (s.setClk x).cus = s.cus := rfl
@[simp] theorem State.setClk_led (s : State) (x : Clocks) : (s.setClk x).led = s.led := rfl
@[simp] theorem State.setClk_con (s : State) (x : Clocks) : (s.setClk x).con = s.con := rfl
@[simp] theorem State.setClk_mot (s : State) (x : Clocks) : (s.setClk x).mot = s.mot := rfl
@[simp] theorem State.setClk_cel (s : State) (x : Clocks) : (s.setClk x).cel = s.cel := rfl
@[simp] theorem State.setClk_core (s : State) (x : Clocks) : (s.setClk x).core = s.core := rfl
@[simp] theorem State.setClk_stewDec (s : State) (x : Clocks) : (s.setClk x).stewDec = s.stewDec := rfl
@[simp] theorem State.setClk_stewCrypto (s : State) (x : Clocks) : (s.setClk x).stewCrypto = s.stewCrypto := rfl
@[simp] theorem State.setClk_cop (s : State) (x : Clocks) : (s.setClk x).cop = s.cop := rfl
@[simp] theorem State.setClk_mem (s : State) (x : Clocks) : (s.setClk x).mem = s.mem := rfl
@[simp] theorem State.setClk_per (s : State) (x : Clocks) : (s.setClk x).per = s.per := rfl
@[simp] theorem State.setClk_fl (s : State) (x : Clocks) : (s.setClk x).fl = s.fl := rfl
@[simp] theorem State.setClk_img (s : State) (x : Clocks) : (s.setClk x).img = s.img := rfl
@[simp] theorem State.setClk_jou (s : State) (x : Clocks) : (s.setClk x).jou = s.jou := rfl
@[simp] theorem State.setClk_dbg (s : State) (x : Clocks) : (s.setClk x).dbg = s.dbg := rfl
@[simp] theorem State.setClk_free (s : State) (x : Clocks) : (s.setClk x).free = s.free := rfl
@[simp] theorem State.setClk_pending (s : State) (x : Clocks) : (s.setClk x).pending = s.pending := rfl

@[simp] theorem State.setBoot_boot (s : State) (x : Boot) : (s.setBoot x).boot = x := rfl
@[simp] theorem State.setBoot_pow (s : State) (x : Boot) : (s.setBoot x).pow = s.pow := rfl
@[simp] theorem State.setBoot_hold (s : State) (x : Boot) : (s.setBoot x).hold = s.hold := rfl
@[simp] theorem State.setBoot_clk (s : State) (x : Boot) : (s.setBoot x).clk = s.clk := rfl
@[simp] theorem State.setBoot_host (s : State) (x : Boot) : (s.setBoot x).host = s.host := rfl
@[simp] theorem State.setBoot_cus (s : State) (x : Boot) : (s.setBoot x).cus = s.cus := rfl
@[simp] theorem State.setBoot_led (s : State) (x : Boot) : (s.setBoot x).led = s.led := rfl
@[simp] theorem State.setBoot_con (s : State) (x : Boot) : (s.setBoot x).con = s.con := rfl
@[simp] theorem State.setBoot_mot (s : State) (x : Boot) : (s.setBoot x).mot = s.mot := rfl
@[simp] theorem State.setBoot_cel (s : State) (x : Boot) : (s.setBoot x).cel = s.cel := rfl
@[simp] theorem State.setBoot_core (s : State) (x : Boot) : (s.setBoot x).core = s.core := rfl
@[simp] theorem State.setBoot_stewDec (s : State) (x : Boot) : (s.setBoot x).stewDec = s.stewDec := rfl
@[simp] theorem State.setBoot_stewCrypto (s : State) (x : Boot) : (s.setBoot x).stewCrypto = s.stewCrypto := rfl
@[simp] theorem State.setBoot_cop (s : State) (x : Boot) : (s.setBoot x).cop = s.cop := rfl
@[simp] theorem State.setBoot_mem (s : State) (x : Boot) : (s.setBoot x).mem = s.mem := rfl
@[simp] theorem State.setBoot_per (s : State) (x : Boot) : (s.setBoot x).per = s.per := rfl
@[simp] theorem State.setBoot_fl (s : State) (x : Boot) : (s.setBoot x).fl = s.fl := rfl
@[simp] theorem State.setBoot_img (s : State) (x : Boot) : (s.setBoot x).img = s.img := rfl
@[simp] theorem State.setBoot_jou (s : State) (x : Boot) : (s.setBoot x).jou = s.jou := rfl
@[simp] theorem State.setBoot_dbg (s : State) (x : Boot) : (s.setBoot x).dbg = s.dbg := rfl
@[simp] theorem State.setBoot_free (s : State) (x : Boot) : (s.setBoot x).free = s.free := rfl
@[simp] theorem State.setBoot_pending (s : State) (x : Boot) : (s.setBoot x).pending = s.pending := rfl

@[simp] theorem State.setHost_host (s : State) (x : HostPort) : (s.setHost x).host = x := rfl
@[simp] theorem State.setHost_pow (s : State) (x : HostPort) : (s.setHost x).pow = s.pow := rfl
@[simp] theorem State.setHost_hold (s : State) (x : HostPort) : (s.setHost x).hold = s.hold := rfl
@[simp] theorem State.setHost_clk (s : State) (x : HostPort) : (s.setHost x).clk = s.clk := rfl
@[simp] theorem State.setHost_boot (s : State) (x : HostPort) : (s.setHost x).boot = s.boot := rfl
@[simp] theorem State.setHost_cus (s : State) (x : HostPort) : (s.setHost x).cus = s.cus := rfl
@[simp] theorem State.setHost_led (s : State) (x : HostPort) : (s.setHost x).led = s.led := rfl
@[simp] theorem State.setHost_con (s : State) (x : HostPort) : (s.setHost x).con = s.con := rfl
@[simp] theorem State.setHost_mot (s : State) (x : HostPort) : (s.setHost x).mot = s.mot := rfl
@[simp] theorem State.setHost_cel (s : State) (x : HostPort) : (s.setHost x).cel = s.cel := rfl
@[simp] theorem State.setHost_core (s : State) (x : HostPort) : (s.setHost x).core = s.core := rfl
@[simp] theorem State.setHost_stewDec (s : State) (x : HostPort) : (s.setHost x).stewDec = s.stewDec := rfl
@[simp] theorem State.setHost_stewCrypto (s : State) (x : HostPort) : (s.setHost x).stewCrypto = s.stewCrypto := rfl
@[simp] theorem State.setHost_cop (s : State) (x : HostPort) : (s.setHost x).cop = s.cop := rfl
@[simp] theorem State.setHost_mem (s : State) (x : HostPort) : (s.setHost x).mem = s.mem := rfl
@[simp] theorem State.setHost_per (s : State) (x : HostPort) : (s.setHost x).per = s.per := rfl
@[simp] theorem State.setHost_fl (s : State) (x : HostPort) : (s.setHost x).fl = s.fl := rfl
@[simp] theorem State.setHost_img (s : State) (x : HostPort) : (s.setHost x).img = s.img := rfl
@[simp] theorem State.setHost_jou (s : State) (x : HostPort) : (s.setHost x).jou = s.jou := rfl
@[simp] theorem State.setHost_dbg (s : State) (x : HostPort) : (s.setHost x).dbg = s.dbg := rfl
@[simp] theorem State.setHost_free (s : State) (x : HostPort) : (s.setHost x).free = s.free := rfl
@[simp] theorem State.setHost_pending (s : State) (x : HostPort) : (s.setHost x).pending = s.pending := rfl

@[simp] theorem State.setCus_cus (s : State) (x : Custody) : (s.setCus x).cus = x := rfl
@[simp] theorem State.setCus_pow (s : State) (x : Custody) : (s.setCus x).pow = s.pow := rfl
@[simp] theorem State.setCus_hold (s : State) (x : Custody) : (s.setCus x).hold = s.hold := rfl
@[simp] theorem State.setCus_clk (s : State) (x : Custody) : (s.setCus x).clk = s.clk := rfl
@[simp] theorem State.setCus_boot (s : State) (x : Custody) : (s.setCus x).boot = s.boot := rfl
@[simp] theorem State.setCus_host (s : State) (x : Custody) : (s.setCus x).host = s.host := rfl
@[simp] theorem State.setCus_led (s : State) (x : Custody) : (s.setCus x).led = s.led := rfl
@[simp] theorem State.setCus_con (s : State) (x : Custody) : (s.setCus x).con = s.con := rfl
@[simp] theorem State.setCus_mot (s : State) (x : Custody) : (s.setCus x).mot = s.mot := rfl
@[simp] theorem State.setCus_cel (s : State) (x : Custody) : (s.setCus x).cel = s.cel := rfl
@[simp] theorem State.setCus_core (s : State) (x : Custody) : (s.setCus x).core = s.core := rfl
@[simp] theorem State.setCus_stewDec (s : State) (x : Custody) : (s.setCus x).stewDec = s.stewDec := rfl
@[simp] theorem State.setCus_stewCrypto (s : State) (x : Custody) : (s.setCus x).stewCrypto = s.stewCrypto := rfl
@[simp] theorem State.setCus_cop (s : State) (x : Custody) : (s.setCus x).cop = s.cop := rfl
@[simp] theorem State.setCus_mem (s : State) (x : Custody) : (s.setCus x).mem = s.mem := rfl
@[simp] theorem State.setCus_per (s : State) (x : Custody) : (s.setCus x).per = s.per := rfl
@[simp] theorem State.setCus_fl (s : State) (x : Custody) : (s.setCus x).fl = s.fl := rfl
@[simp] theorem State.setCus_img (s : State) (x : Custody) : (s.setCus x).img = s.img := rfl
@[simp] theorem State.setCus_jou (s : State) (x : Custody) : (s.setCus x).jou = s.jou := rfl
@[simp] theorem State.setCus_dbg (s : State) (x : Custody) : (s.setCus x).dbg = s.dbg := rfl
@[simp] theorem State.setCus_free (s : State) (x : Custody) : (s.setCus x).free = s.free := rfl
@[simp] theorem State.setCus_pending (s : State) (x : Custody) : (s.setCus x).pending = s.pending := rfl

@[simp] theorem State.setLed_led (s : State) (x : Ledger) : (s.setLed x).led = x := rfl
@[simp] theorem State.setLed_pow (s : State) (x : Ledger) : (s.setLed x).pow = s.pow := rfl
@[simp] theorem State.setLed_hold (s : State) (x : Ledger) : (s.setLed x).hold = s.hold := rfl
@[simp] theorem State.setLed_clk (s : State) (x : Ledger) : (s.setLed x).clk = s.clk := rfl
@[simp] theorem State.setLed_boot (s : State) (x : Ledger) : (s.setLed x).boot = s.boot := rfl
@[simp] theorem State.setLed_host (s : State) (x : Ledger) : (s.setLed x).host = s.host := rfl
@[simp] theorem State.setLed_cus (s : State) (x : Ledger) : (s.setLed x).cus = s.cus := rfl
@[simp] theorem State.setLed_con (s : State) (x : Ledger) : (s.setLed x).con = s.con := rfl
@[simp] theorem State.setLed_mot (s : State) (x : Ledger) : (s.setLed x).mot = s.mot := rfl
@[simp] theorem State.setLed_cel (s : State) (x : Ledger) : (s.setLed x).cel = s.cel := rfl
@[simp] theorem State.setLed_core (s : State) (x : Ledger) : (s.setLed x).core = s.core := rfl
@[simp] theorem State.setLed_stewDec (s : State) (x : Ledger) : (s.setLed x).stewDec = s.stewDec := rfl
@[simp] theorem State.setLed_stewCrypto (s : State) (x : Ledger) : (s.setLed x).stewCrypto = s.stewCrypto := rfl
@[simp] theorem State.setLed_cop (s : State) (x : Ledger) : (s.setLed x).cop = s.cop := rfl
@[simp] theorem State.setLed_mem (s : State) (x : Ledger) : (s.setLed x).mem = s.mem := rfl
@[simp] theorem State.setLed_per (s : State) (x : Ledger) : (s.setLed x).per = s.per := rfl
@[simp] theorem State.setLed_fl (s : State) (x : Ledger) : (s.setLed x).fl = s.fl := rfl
@[simp] theorem State.setLed_img (s : State) (x : Ledger) : (s.setLed x).img = s.img := rfl
@[simp] theorem State.setLed_jou (s : State) (x : Ledger) : (s.setLed x).jou = s.jou := rfl
@[simp] theorem State.setLed_dbg (s : State) (x : Ledger) : (s.setLed x).dbg = s.dbg := rfl
@[simp] theorem State.setLed_free (s : State) (x : Ledger) : (s.setLed x).free = s.free := rfl
@[simp] theorem State.setLed_pending (s : State) (x : Ledger) : (s.setLed x).pending = s.pending := rfl

@[simp] theorem State.setCon_con (s : State) (x : Concord) : (s.setCon x).con = x := rfl
@[simp] theorem State.setCon_pow (s : State) (x : Concord) : (s.setCon x).pow = s.pow := rfl
@[simp] theorem State.setCon_hold (s : State) (x : Concord) : (s.setCon x).hold = s.hold := rfl
@[simp] theorem State.setCon_clk (s : State) (x : Concord) : (s.setCon x).clk = s.clk := rfl
@[simp] theorem State.setCon_boot (s : State) (x : Concord) : (s.setCon x).boot = s.boot := rfl
@[simp] theorem State.setCon_host (s : State) (x : Concord) : (s.setCon x).host = s.host := rfl
@[simp] theorem State.setCon_cus (s : State) (x : Concord) : (s.setCon x).cus = s.cus := rfl
@[simp] theorem State.setCon_led (s : State) (x : Concord) : (s.setCon x).led = s.led := rfl
@[simp] theorem State.setCon_mot (s : State) (x : Concord) : (s.setCon x).mot = s.mot := rfl
@[simp] theorem State.setCon_cel (s : State) (x : Concord) : (s.setCon x).cel = s.cel := rfl
@[simp] theorem State.setCon_core (s : State) (x : Concord) : (s.setCon x).core = s.core := rfl
@[simp] theorem State.setCon_stewDec (s : State) (x : Concord) : (s.setCon x).stewDec = s.stewDec := rfl
@[simp] theorem State.setCon_stewCrypto (s : State) (x : Concord) : (s.setCon x).stewCrypto = s.stewCrypto := rfl
@[simp] theorem State.setCon_cop (s : State) (x : Concord) : (s.setCon x).cop = s.cop := rfl
@[simp] theorem State.setCon_mem (s : State) (x : Concord) : (s.setCon x).mem = s.mem := rfl
@[simp] theorem State.setCon_per (s : State) (x : Concord) : (s.setCon x).per = s.per := rfl
@[simp] theorem State.setCon_fl (s : State) (x : Concord) : (s.setCon x).fl = s.fl := rfl
@[simp] theorem State.setCon_img (s : State) (x : Concord) : (s.setCon x).img = s.img := rfl
@[simp] theorem State.setCon_jou (s : State) (x : Concord) : (s.setCon x).jou = s.jou := rfl
@[simp] theorem State.setCon_dbg (s : State) (x : Concord) : (s.setCon x).dbg = s.dbg := rfl
@[simp] theorem State.setCon_free (s : State) (x : Concord) : (s.setCon x).free = s.free := rfl
@[simp] theorem State.setCon_pending (s : State) (x : Concord) : (s.setCon x).pending = s.pending := rfl

@[simp] theorem State.setCel_cel (s : State) (x : Celandine) : (s.setCel x).cel = x := rfl
@[simp] theorem State.setCel_pow (s : State) (x : Celandine) : (s.setCel x).pow = s.pow := rfl
@[simp] theorem State.setCel_hold (s : State) (x : Celandine) : (s.setCel x).hold = s.hold := rfl
@[simp] theorem State.setCel_clk (s : State) (x : Celandine) : (s.setCel x).clk = s.clk := rfl
@[simp] theorem State.setCel_boot (s : State) (x : Celandine) : (s.setCel x).boot = s.boot := rfl
@[simp] theorem State.setCel_host (s : State) (x : Celandine) : (s.setCel x).host = s.host := rfl
@[simp] theorem State.setCel_cus (s : State) (x : Celandine) : (s.setCel x).cus = s.cus := rfl
@[simp] theorem State.setCel_led (s : State) (x : Celandine) : (s.setCel x).led = s.led := rfl
@[simp] theorem State.setCel_con (s : State) (x : Celandine) : (s.setCel x).con = s.con := rfl
@[simp] theorem State.setCel_mot (s : State) (x : Celandine) : (s.setCel x).mot = s.mot := rfl
@[simp] theorem State.setCel_core (s : State) (x : Celandine) : (s.setCel x).core = s.core := rfl
@[simp] theorem State.setCel_stewDec (s : State) (x : Celandine) : (s.setCel x).stewDec = s.stewDec := rfl
@[simp] theorem State.setCel_stewCrypto (s : State) (x : Celandine) : (s.setCel x).stewCrypto = s.stewCrypto := rfl
@[simp] theorem State.setCel_cop (s : State) (x : Celandine) : (s.setCel x).cop = s.cop := rfl
@[simp] theorem State.setCel_mem (s : State) (x : Celandine) : (s.setCel x).mem = s.mem := rfl
@[simp] theorem State.setCel_per (s : State) (x : Celandine) : (s.setCel x).per = s.per := rfl
@[simp] theorem State.setCel_fl (s : State) (x : Celandine) : (s.setCel x).fl = s.fl := rfl
@[simp] theorem State.setCel_img (s : State) (x : Celandine) : (s.setCel x).img = s.img := rfl
@[simp] theorem State.setCel_jou (s : State) (x : Celandine) : (s.setCel x).jou = s.jou := rfl
@[simp] theorem State.setCel_dbg (s : State) (x : Celandine) : (s.setCel x).dbg = s.dbg := rfl
@[simp] theorem State.setCel_free (s : State) (x : Celandine) : (s.setCel x).free = s.free := rfl
@[simp] theorem State.setCel_pending (s : State) (x : Celandine) : (s.setCel x).pending = s.pending := rfl

@[simp] theorem State.setPer_per (s : State) (x : Periph) : (s.setPer x).per = x := rfl
@[simp] theorem State.setPer_pow (s : State) (x : Periph) : (s.setPer x).pow = s.pow := rfl
@[simp] theorem State.setPer_hold (s : State) (x : Periph) : (s.setPer x).hold = s.hold := rfl
@[simp] theorem State.setPer_clk (s : State) (x : Periph) : (s.setPer x).clk = s.clk := rfl
@[simp] theorem State.setPer_boot (s : State) (x : Periph) : (s.setPer x).boot = s.boot := rfl
@[simp] theorem State.setPer_host (s : State) (x : Periph) : (s.setPer x).host = s.host := rfl
@[simp] theorem State.setPer_cus (s : State) (x : Periph) : (s.setPer x).cus = s.cus := rfl
@[simp] theorem State.setPer_led (s : State) (x : Periph) : (s.setPer x).led = s.led := rfl
@[simp] theorem State.setPer_con (s : State) (x : Periph) : (s.setPer x).con = s.con := rfl
@[simp] theorem State.setPer_mot (s : State) (x : Periph) : (s.setPer x).mot = s.mot := rfl
@[simp] theorem State.setPer_cel (s : State) (x : Periph) : (s.setPer x).cel = s.cel := rfl
@[simp] theorem State.setPer_core (s : State) (x : Periph) : (s.setPer x).core = s.core := rfl
@[simp] theorem State.setPer_stewDec (s : State) (x : Periph) : (s.setPer x).stewDec = s.stewDec := rfl
@[simp] theorem State.setPer_stewCrypto (s : State) (x : Periph) : (s.setPer x).stewCrypto = s.stewCrypto := rfl
@[simp] theorem State.setPer_cop (s : State) (x : Periph) : (s.setPer x).cop = s.cop := rfl
@[simp] theorem State.setPer_mem (s : State) (x : Periph) : (s.setPer x).mem = s.mem := rfl
@[simp] theorem State.setPer_fl (s : State) (x : Periph) : (s.setPer x).fl = s.fl := rfl
@[simp] theorem State.setPer_img (s : State) (x : Periph) : (s.setPer x).img = s.img := rfl
@[simp] theorem State.setPer_jou (s : State) (x : Periph) : (s.setPer x).jou = s.jou := rfl
@[simp] theorem State.setPer_dbg (s : State) (x : Periph) : (s.setPer x).dbg = s.dbg := rfl
@[simp] theorem State.setPer_free (s : State) (x : Periph) : (s.setPer x).free = s.free := rfl
@[simp] theorem State.setPer_pending (s : State) (x : Periph) : (s.setPer x).pending = s.pending := rfl

@[simp] theorem State.setJou_jou (s : State) (x : Journal) : (s.setJou x).jou = x := rfl
@[simp] theorem State.setJou_pow (s : State) (x : Journal) : (s.setJou x).pow = s.pow := rfl
@[simp] theorem State.setJou_hold (s : State) (x : Journal) : (s.setJou x).hold = s.hold := rfl
@[simp] theorem State.setJou_clk (s : State) (x : Journal) : (s.setJou x).clk = s.clk := rfl
@[simp] theorem State.setJou_boot (s : State) (x : Journal) : (s.setJou x).boot = s.boot := rfl
@[simp] theorem State.setJou_host (s : State) (x : Journal) : (s.setJou x).host = s.host := rfl
@[simp] theorem State.setJou_cus (s : State) (x : Journal) : (s.setJou x).cus = s.cus := rfl
@[simp] theorem State.setJou_led (s : State) (x : Journal) : (s.setJou x).led = s.led := rfl
@[simp] theorem State.setJou_con (s : State) (x : Journal) : (s.setJou x).con = s.con := rfl
@[simp] theorem State.setJou_mot (s : State) (x : Journal) : (s.setJou x).mot = s.mot := rfl
@[simp] theorem State.setJou_cel (s : State) (x : Journal) : (s.setJou x).cel = s.cel := rfl
@[simp] theorem State.setJou_core (s : State) (x : Journal) : (s.setJou x).core = s.core := rfl
@[simp] theorem State.setJou_stewDec (s : State) (x : Journal) : (s.setJou x).stewDec = s.stewDec := rfl
@[simp] theorem State.setJou_stewCrypto (s : State) (x : Journal) : (s.setJou x).stewCrypto = s.stewCrypto := rfl
@[simp] theorem State.setJou_cop (s : State) (x : Journal) : (s.setJou x).cop = s.cop := rfl
@[simp] theorem State.setJou_mem (s : State) (x : Journal) : (s.setJou x).mem = s.mem := rfl
@[simp] theorem State.setJou_per (s : State) (x : Journal) : (s.setJou x).per = s.per := rfl
@[simp] theorem State.setJou_fl (s : State) (x : Journal) : (s.setJou x).fl = s.fl := rfl
@[simp] theorem State.setJou_img (s : State) (x : Journal) : (s.setJou x).img = s.img := rfl
@[simp] theorem State.setJou_dbg (s : State) (x : Journal) : (s.setJou x).dbg = s.dbg := rfl
@[simp] theorem State.setJou_free (s : State) (x : Journal) : (s.setJou x).free = s.free := rfl
@[simp] theorem State.setJou_pending (s : State) (x : Journal) : (s.setJou x).pending = s.pending := rfl

@[simp] theorem State.setDbg_dbg (s : State) (x : Debug) : (s.setDbg x).dbg = x := rfl
@[simp] theorem State.setDbg_pow (s : State) (x : Debug) : (s.setDbg x).pow = s.pow := rfl
@[simp] theorem State.setDbg_hold (s : State) (x : Debug) : (s.setDbg x).hold = s.hold := rfl
@[simp] theorem State.setDbg_clk (s : State) (x : Debug) : (s.setDbg x).clk = s.clk := rfl
@[simp] theorem State.setDbg_boot (s : State) (x : Debug) : (s.setDbg x).boot = s.boot := rfl
@[simp] theorem State.setDbg_host (s : State) (x : Debug) : (s.setDbg x).host = s.host := rfl
@[simp] theorem State.setDbg_cus (s : State) (x : Debug) : (s.setDbg x).cus = s.cus := rfl
@[simp] theorem State.setDbg_led (s : State) (x : Debug) : (s.setDbg x).led = s.led := rfl
@[simp] theorem State.setDbg_con (s : State) (x : Debug) : (s.setDbg x).con = s.con := rfl
@[simp] theorem State.setDbg_mot (s : State) (x : Debug) : (s.setDbg x).mot = s.mot := rfl
@[simp] theorem State.setDbg_cel (s : State) (x : Debug) : (s.setDbg x).cel = s.cel := rfl
@[simp] theorem State.setDbg_core (s : State) (x : Debug) : (s.setDbg x).core = s.core := rfl
@[simp] theorem State.setDbg_stewDec (s : State) (x : Debug) : (s.setDbg x).stewDec = s.stewDec := rfl
@[simp] theorem State.setDbg_stewCrypto (s : State) (x : Debug) : (s.setDbg x).stewCrypto = s.stewCrypto := rfl
@[simp] theorem State.setDbg_cop (s : State) (x : Debug) : (s.setDbg x).cop = s.cop := rfl
@[simp] theorem State.setDbg_mem (s : State) (x : Debug) : (s.setDbg x).mem = s.mem := rfl
@[simp] theorem State.setDbg_per (s : State) (x : Debug) : (s.setDbg x).per = s.per := rfl
@[simp] theorem State.setDbg_fl (s : State) (x : Debug) : (s.setDbg x).fl = s.fl := rfl
@[simp] theorem State.setDbg_img (s : State) (x : Debug) : (s.setDbg x).img = s.img := rfl
@[simp] theorem State.setDbg_jou (s : State) (x : Debug) : (s.setDbg x).jou = s.jou := rfl
@[simp] theorem State.setDbg_free (s : State) (x : Debug) : (s.setDbg x).free = s.free := rfl
@[simp] theorem State.setDbg_pending (s : State) (x : Debug) : (s.setDbg x).pending = s.pending := rfl

@[simp] theorem State.setPresence_presence (s : State) (x : Presence) : (s.setPresence x).cus.presence = x := rfl
@[simp] theorem State.setPresence_pow (s : State) (x : Presence) : (s.setPresence x).pow = s.pow := rfl
@[simp] theorem State.setPresence_hold (s : State) (x : Presence) : (s.setPresence x).hold = s.hold := rfl
@[simp] theorem State.setPresence_clk (s : State) (x : Presence) : (s.setPresence x).clk = s.clk := rfl
@[simp] theorem State.setPresence_boot (s : State) (x : Presence) : (s.setPresence x).boot = s.boot := rfl
@[simp] theorem State.setPresence_host (s : State) (x : Presence) : (s.setPresence x).host = s.host := rfl
@[simp] theorem State.setPresence_led (s : State) (x : Presence) : (s.setPresence x).led = s.led := rfl
@[simp] theorem State.setPresence_con (s : State) (x : Presence) : (s.setPresence x).con = s.con := rfl
@[simp] theorem State.setPresence_mot (s : State) (x : Presence) : (s.setPresence x).mot = s.mot := rfl
@[simp] theorem State.setPresence_cel (s : State) (x : Presence) : (s.setPresence x).cel = s.cel := rfl
@[simp] theorem State.setPresence_core (s : State) (x : Presence) : (s.setPresence x).core = s.core := rfl
@[simp] theorem State.setPresence_stewDec (s : State) (x : Presence) : (s.setPresence x).stewDec = s.stewDec := rfl
@[simp] theorem State.setPresence_stewCrypto (s : State) (x : Presence) : (s.setPresence x).stewCrypto = s.stewCrypto := rfl
@[simp] theorem State.setPresence_cop (s : State) (x : Presence) : (s.setPresence x).cop = s.cop := rfl
@[simp] theorem State.setPresence_mem (s : State) (x : Presence) : (s.setPresence x).mem = s.mem := rfl
@[simp] theorem State.setPresence_per (s : State) (x : Presence) : (s.setPresence x).per = s.per := rfl
@[simp] theorem State.setPresence_fl (s : State) (x : Presence) : (s.setPresence x).fl = s.fl := rfl
@[simp] theorem State.setPresence_img (s : State) (x : Presence) : (s.setPresence x).img = s.img := rfl
@[simp] theorem State.setPresence_jou (s : State) (x : Presence) : (s.setPresence x).jou = s.jou := rfl
@[simp] theorem State.setPresence_dbg (s : State) (x : Presence) : (s.setPresence x).dbg = s.dbg := rfl
@[simp] theorem State.setPresence_free (s : State) (x : Presence) : (s.setPresence x).free = s.free := rfl
@[simp] theorem State.setPresence_pending (s : State) (x : Presence) : (s.setPresence x).pending = s.pending := rfl

@[simp] theorem State.setTail_cur (s : State) (x : LedgerTail) : (s.setTail x).led.cur = x := rfl
@[simp] theorem State.setTail_pow (s : State) (x : LedgerTail) : (s.setTail x).pow = s.pow := rfl
@[simp] theorem State.setTail_hold (s : State) (x : LedgerTail) : (s.setTail x).hold = s.hold := rfl
@[simp] theorem State.setTail_clk (s : State) (x : LedgerTail) : (s.setTail x).clk = s.clk := rfl
@[simp] theorem State.setTail_boot (s : State) (x : LedgerTail) : (s.setTail x).boot = s.boot := rfl
@[simp] theorem State.setTail_host (s : State) (x : LedgerTail) : (s.setTail x).host = s.host := rfl
@[simp] theorem State.setTail_cus (s : State) (x : LedgerTail) : (s.setTail x).cus = s.cus := rfl
@[simp] theorem State.setTail_con (s : State) (x : LedgerTail) : (s.setTail x).con = s.con := rfl
@[simp] theorem State.setTail_mot (s : State) (x : LedgerTail) : (s.setTail x).mot = s.mot := rfl
@[simp] theorem State.setTail_cel (s : State) (x : LedgerTail) : (s.setTail x).cel = s.cel := rfl
@[simp] theorem State.setTail_core (s : State) (x : LedgerTail) : (s.setTail x).core = s.core := rfl
@[simp] theorem State.setTail_stewDec (s : State) (x : LedgerTail) : (s.setTail x).stewDec = s.stewDec := rfl
@[simp] theorem State.setTail_stewCrypto (s : State) (x : LedgerTail) : (s.setTail x).stewCrypto = s.stewCrypto := rfl
@[simp] theorem State.setTail_cop (s : State) (x : LedgerTail) : (s.setTail x).cop = s.cop := rfl
@[simp] theorem State.setTail_mem (s : State) (x : LedgerTail) : (s.setTail x).mem = s.mem := rfl
@[simp] theorem State.setTail_per (s : State) (x : LedgerTail) : (s.setTail x).per = s.per := rfl
@[simp] theorem State.setTail_fl (s : State) (x : LedgerTail) : (s.setTail x).fl = s.fl := rfl
@[simp] theorem State.setTail_img (s : State) (x : LedgerTail) : (s.setTail x).img = s.img := rfl
@[simp] theorem State.setTail_jou (s : State) (x : LedgerTail) : (s.setTail x).jou = s.jou := rfl
@[simp] theorem State.setTail_dbg (s : State) (x : LedgerTail) : (s.setTail x).dbg = s.dbg := rfl
@[simp] theorem State.setTail_free (s : State) (x : LedgerTail) : (s.setTail x).free = s.free := rfl
@[simp] theorem State.setTail_pending (s : State) (x : LedgerTail) : (s.setTail x).pending = s.pending := rfl

@[simp] theorem State.setPwm_pwm (s : State) (x : Pwm) : (s.setPwm x).mot.pwm = x := rfl
@[simp] theorem State.setPwm_adc (s : State) (x : Pwm) : (s.setPwm x).mot.adc = s.mot.adc := rfl
@[simp] theorem State.setPwm_tcap (s : State) (x : Pwm) : (s.setPwm x).mot.tcap = s.mot.tcap := rfl
@[simp] theorem State.setPwm_tsl (s : State) (x : Pwm) : (s.setPwm x).mot.tsl = s.mot.tsl := rfl
@[simp] theorem State.setPwm_mclk (s : State) (x : Pwm) : (s.setPwm x).mot.mclk = s.mot.mclk := rfl
@[simp] theorem State.setPwm_pow (s : State) (x : Pwm) : (s.setPwm x).pow = s.pow := rfl
@[simp] theorem State.setPwm_hold (s : State) (x : Pwm) : (s.setPwm x).hold = s.hold := rfl
@[simp] theorem State.setPwm_clk (s : State) (x : Pwm) : (s.setPwm x).clk = s.clk := rfl
@[simp] theorem State.setPwm_boot (s : State) (x : Pwm) : (s.setPwm x).boot = s.boot := rfl
@[simp] theorem State.setPwm_host (s : State) (x : Pwm) : (s.setPwm x).host = s.host := rfl
@[simp] theorem State.setPwm_cus (s : State) (x : Pwm) : (s.setPwm x).cus = s.cus := rfl
@[simp] theorem State.setPwm_led (s : State) (x : Pwm) : (s.setPwm x).led = s.led := rfl
@[simp] theorem State.setPwm_con (s : State) (x : Pwm) : (s.setPwm x).con = s.con := rfl
@[simp] theorem State.setPwm_cel (s : State) (x : Pwm) : (s.setPwm x).cel = s.cel := rfl
@[simp] theorem State.setPwm_core (s : State) (x : Pwm) : (s.setPwm x).core = s.core := rfl
@[simp] theorem State.setPwm_stewDec (s : State) (x : Pwm) : (s.setPwm x).stewDec = s.stewDec := rfl
@[simp] theorem State.setPwm_stewCrypto (s : State) (x : Pwm) : (s.setPwm x).stewCrypto = s.stewCrypto := rfl
@[simp] theorem State.setPwm_cop (s : State) (x : Pwm) : (s.setPwm x).cop = s.cop := rfl
@[simp] theorem State.setPwm_mem (s : State) (x : Pwm) : (s.setPwm x).mem = s.mem := rfl
@[simp] theorem State.setPwm_per (s : State) (x : Pwm) : (s.setPwm x).per = s.per := rfl
@[simp] theorem State.setPwm_fl (s : State) (x : Pwm) : (s.setPwm x).fl = s.fl := rfl
@[simp] theorem State.setPwm_img (s : State) (x : Pwm) : (s.setPwm x).img = s.img := rfl
@[simp] theorem State.setPwm_jou (s : State) (x : Pwm) : (s.setPwm x).jou = s.jou := rfl
@[simp] theorem State.setPwm_dbg (s : State) (x : Pwm) : (s.setPwm x).dbg = s.dbg := rfl
@[simp] theorem State.setPwm_free (s : State) (x : Pwm) : (s.setPwm x).free = s.free := rfl
@[simp] theorem State.setPwm_pending (s : State) (x : Pwm) : (s.setPwm x).pending = s.pending := rfl

@[simp] theorem State.setAdc_adc (s : State) (x : Adc) : (s.setAdc x).mot.adc = x := rfl
@[simp] theorem State.setAdc_pwm (s : State) (x : Adc) : (s.setAdc x).mot.pwm = s.mot.pwm := rfl
@[simp] theorem State.setAdc_tcap (s : State) (x : Adc) : (s.setAdc x).mot.tcap = s.mot.tcap := rfl
@[simp] theorem State.setAdc_tsl (s : State) (x : Adc) : (s.setAdc x).mot.tsl = s.mot.tsl := rfl
@[simp] theorem State.setAdc_mclk (s : State) (x : Adc) : (s.setAdc x).mot.mclk = s.mot.mclk := rfl
@[simp] theorem State.setAdc_pow (s : State) (x : Adc) : (s.setAdc x).pow = s.pow := rfl
@[simp] theorem State.setAdc_hold (s : State) (x : Adc) : (s.setAdc x).hold = s.hold := rfl
@[simp] theorem State.setAdc_clk (s : State) (x : Adc) : (s.setAdc x).clk = s.clk := rfl
@[simp] theorem State.setAdc_boot (s : State) (x : Adc) : (s.setAdc x).boot = s.boot := rfl
@[simp] theorem State.setAdc_host (s : State) (x : Adc) : (s.setAdc x).host = s.host := rfl
@[simp] theorem State.setAdc_cus (s : State) (x : Adc) : (s.setAdc x).cus = s.cus := rfl
@[simp] theorem State.setAdc_led (s : State) (x : Adc) : (s.setAdc x).led = s.led := rfl
@[simp] theorem State.setAdc_con (s : State) (x : Adc) : (s.setAdc x).con = s.con := rfl
@[simp] theorem State.setAdc_cel (s : State) (x : Adc) : (s.setAdc x).cel = s.cel := rfl
@[simp] theorem State.setAdc_core (s : State) (x : Adc) : (s.setAdc x).core = s.core := rfl
@[simp] theorem State.setAdc_stewDec (s : State) (x : Adc) : (s.setAdc x).stewDec = s.stewDec := rfl
@[simp] theorem State.setAdc_stewCrypto (s : State) (x : Adc) : (s.setAdc x).stewCrypto = s.stewCrypto := rfl
@[simp] theorem State.setAdc_cop (s : State) (x : Adc) : (s.setAdc x).cop = s.cop := rfl
@[simp] theorem State.setAdc_mem (s : State) (x : Adc) : (s.setAdc x).mem = s.mem := rfl
@[simp] theorem State.setAdc_per (s : State) (x : Adc) : (s.setAdc x).per = s.per := rfl
@[simp] theorem State.setAdc_fl (s : State) (x : Adc) : (s.setAdc x).fl = s.fl := rfl
@[simp] theorem State.setAdc_img (s : State) (x : Adc) : (s.setAdc x).img = s.img := rfl
@[simp] theorem State.setAdc_jou (s : State) (x : Adc) : (s.setAdc x).jou = s.jou := rfl
@[simp] theorem State.setAdc_dbg (s : State) (x : Adc) : (s.setAdc x).dbg = s.dbg := rfl
@[simp] theorem State.setAdc_free (s : State) (x : Adc) : (s.setAdc x).free = s.free := rfl
@[simp] theorem State.setAdc_pending (s : State) (x : Adc) : (s.setAdc x).pending = s.pending := rfl

@[simp] theorem State.setTcap_tcap (s : State) (x : Tcap) : (s.setTcap x).mot.tcap = x := rfl
@[simp] theorem State.setTcap_pwm (s : State) (x : Tcap) : (s.setTcap x).mot.pwm = s.mot.pwm := rfl
@[simp] theorem State.setTcap_adc (s : State) (x : Tcap) : (s.setTcap x).mot.adc = s.mot.adc := rfl
@[simp] theorem State.setTcap_tsl (s : State) (x : Tcap) : (s.setTcap x).mot.tsl = s.mot.tsl := rfl
@[simp] theorem State.setTcap_mclk (s : State) (x : Tcap) : (s.setTcap x).mot.mclk = s.mot.mclk := rfl
@[simp] theorem State.setTcap_pow (s : State) (x : Tcap) : (s.setTcap x).pow = s.pow := rfl
@[simp] theorem State.setTcap_hold (s : State) (x : Tcap) : (s.setTcap x).hold = s.hold := rfl
@[simp] theorem State.setTcap_clk (s : State) (x : Tcap) : (s.setTcap x).clk = s.clk := rfl
@[simp] theorem State.setTcap_boot (s : State) (x : Tcap) : (s.setTcap x).boot = s.boot := rfl
@[simp] theorem State.setTcap_host (s : State) (x : Tcap) : (s.setTcap x).host = s.host := rfl
@[simp] theorem State.setTcap_cus (s : State) (x : Tcap) : (s.setTcap x).cus = s.cus := rfl
@[simp] theorem State.setTcap_led (s : State) (x : Tcap) : (s.setTcap x).led = s.led := rfl
@[simp] theorem State.setTcap_con (s : State) (x : Tcap) : (s.setTcap x).con = s.con := rfl
@[simp] theorem State.setTcap_cel (s : State) (x : Tcap) : (s.setTcap x).cel = s.cel := rfl
@[simp] theorem State.setTcap_core (s : State) (x : Tcap) : (s.setTcap x).core = s.core := rfl
@[simp] theorem State.setTcap_stewDec (s : State) (x : Tcap) : (s.setTcap x).stewDec = s.stewDec := rfl
@[simp] theorem State.setTcap_stewCrypto (s : State) (x : Tcap) : (s.setTcap x).stewCrypto = s.stewCrypto := rfl
@[simp] theorem State.setTcap_cop (s : State) (x : Tcap) : (s.setTcap x).cop = s.cop := rfl
@[simp] theorem State.setTcap_mem (s : State) (x : Tcap) : (s.setTcap x).mem = s.mem := rfl
@[simp] theorem State.setTcap_per (s : State) (x : Tcap) : (s.setTcap x).per = s.per := rfl
@[simp] theorem State.setTcap_fl (s : State) (x : Tcap) : (s.setTcap x).fl = s.fl := rfl
@[simp] theorem State.setTcap_img (s : State) (x : Tcap) : (s.setTcap x).img = s.img := rfl
@[simp] theorem State.setTcap_jou (s : State) (x : Tcap) : (s.setTcap x).jou = s.jou := rfl
@[simp] theorem State.setTcap_dbg (s : State) (x : Tcap) : (s.setTcap x).dbg = s.dbg := rfl
@[simp] theorem State.setTcap_free (s : State) (x : Tcap) : (s.setTcap x).free = s.free := rfl
@[simp] theorem State.setTcap_pending (s : State) (x : Tcap) : (s.setTcap x).pending = s.pending := rfl

@[simp] theorem State.setTsl_tsl (s : State) (x : Teasel) : (s.setTsl x).mot.tsl = x := rfl
@[simp] theorem State.setTsl_pwm (s : State) (x : Teasel) : (s.setTsl x).mot.pwm = s.mot.pwm := rfl
@[simp] theorem State.setTsl_adc (s : State) (x : Teasel) : (s.setTsl x).mot.adc = s.mot.adc := rfl
@[simp] theorem State.setTsl_tcap (s : State) (x : Teasel) : (s.setTsl x).mot.tcap = s.mot.tcap := rfl
@[simp] theorem State.setTsl_mclk (s : State) (x : Teasel) : (s.setTsl x).mot.mclk = s.mot.mclk := rfl
@[simp] theorem State.setTsl_pow (s : State) (x : Teasel) : (s.setTsl x).pow = s.pow := rfl
@[simp] theorem State.setTsl_hold (s : State) (x : Teasel) : (s.setTsl x).hold = s.hold := rfl
@[simp] theorem State.setTsl_clk (s : State) (x : Teasel) : (s.setTsl x).clk = s.clk := rfl
@[simp] theorem State.setTsl_boot (s : State) (x : Teasel) : (s.setTsl x).boot = s.boot := rfl
@[simp] theorem State.setTsl_host (s : State) (x : Teasel) : (s.setTsl x).host = s.host := rfl
@[simp] theorem State.setTsl_cus (s : State) (x : Teasel) : (s.setTsl x).cus = s.cus := rfl
@[simp] theorem State.setTsl_led (s : State) (x : Teasel) : (s.setTsl x).led = s.led := rfl
@[simp] theorem State.setTsl_con (s : State) (x : Teasel) : (s.setTsl x).con = s.con := rfl
@[simp] theorem State.setTsl_cel (s : State) (x : Teasel) : (s.setTsl x).cel = s.cel := rfl
@[simp] theorem State.setTsl_core (s : State) (x : Teasel) : (s.setTsl x).core = s.core := rfl
@[simp] theorem State.setTsl_stewDec (s : State) (x : Teasel) : (s.setTsl x).stewDec = s.stewDec := rfl
@[simp] theorem State.setTsl_stewCrypto (s : State) (x : Teasel) : (s.setTsl x).stewCrypto = s.stewCrypto := rfl
@[simp] theorem State.setTsl_cop (s : State) (x : Teasel) : (s.setTsl x).cop = s.cop := rfl
@[simp] theorem State.setTsl_mem (s : State) (x : Teasel) : (s.setTsl x).mem = s.mem := rfl
@[simp] theorem State.setTsl_per (s : State) (x : Teasel) : (s.setTsl x).per = s.per := rfl
@[simp] theorem State.setTsl_fl (s : State) (x : Teasel) : (s.setTsl x).fl = s.fl := rfl
@[simp] theorem State.setTsl_img (s : State) (x : Teasel) : (s.setTsl x).img = s.img := rfl
@[simp] theorem State.setTsl_jou (s : State) (x : Teasel) : (s.setTsl x).jou = s.jou := rfl
@[simp] theorem State.setTsl_dbg (s : State) (x : Teasel) : (s.setTsl x).dbg = s.dbg := rfl
@[simp] theorem State.setTsl_free (s : State) (x : Teasel) : (s.setTsl x).free = s.free := rfl
@[simp] theorem State.setTsl_pending (s : State) (x : Teasel) : (s.setTsl x).pending = s.pending := rfl

/-! A core, a bank of flash, a set of FCTL_ registers, a unit -/

@[simp] theorem State.setCore_pow (s : State) (i : Fin 4) (x : CoreState) : (s.setCore i x).pow = s.pow := rfl
@[simp] theorem State.setCore_hold (s : State) (i : Fin 4) (x : CoreState) : (s.setCore i x).hold = s.hold := rfl
@[simp] theorem State.setCore_clk (s : State) (i : Fin 4) (x : CoreState) : (s.setCore i x).clk = s.clk := rfl
@[simp] theorem State.setCore_boot (s : State) (i : Fin 4) (x : CoreState) : (s.setCore i x).boot = s.boot := rfl
@[simp] theorem State.setCore_host (s : State) (i : Fin 4) (x : CoreState) : (s.setCore i x).host = s.host := rfl
@[simp] theorem State.setCore_cus (s : State) (i : Fin 4) (x : CoreState) : (s.setCore i x).cus = s.cus := rfl
@[simp] theorem State.setCore_led (s : State) (i : Fin 4) (x : CoreState) : (s.setCore i x).led = s.led := rfl
@[simp] theorem State.setCore_con (s : State) (i : Fin 4) (x : CoreState) : (s.setCore i x).con = s.con := rfl
@[simp] theorem State.setCore_mot (s : State) (i : Fin 4) (x : CoreState) : (s.setCore i x).mot = s.mot := rfl
@[simp] theorem State.setCore_cel (s : State) (i : Fin 4) (x : CoreState) : (s.setCore i x).cel = s.cel := rfl
@[simp] theorem State.setCore_stewDec (s : State) (i : Fin 4) (x : CoreState) : (s.setCore i x).stewDec = s.stewDec := rfl
@[simp] theorem State.setCore_stewCrypto (s : State) (i : Fin 4) (x : CoreState) : (s.setCore i x).stewCrypto = s.stewCrypto := rfl
@[simp] theorem State.setCore_cop (s : State) (i : Fin 4) (x : CoreState) : (s.setCore i x).cop = s.cop := rfl
@[simp] theorem State.setCore_mem (s : State) (i : Fin 4) (x : CoreState) : (s.setCore i x).mem = s.mem := rfl
@[simp] theorem State.setCore_per (s : State) (i : Fin 4) (x : CoreState) : (s.setCore i x).per = s.per := rfl
@[simp] theorem State.setCore_fl (s : State) (i : Fin 4) (x : CoreState) : (s.setCore i x).fl = s.fl := rfl
@[simp] theorem State.setCore_img (s : State) (i : Fin 4) (x : CoreState) : (s.setCore i x).img = s.img := rfl
@[simp] theorem State.setCore_jou (s : State) (i : Fin 4) (x : CoreState) : (s.setCore i x).jou = s.jou := rfl
@[simp] theorem State.setCore_dbg (s : State) (i : Fin 4) (x : CoreState) : (s.setCore i x).dbg = s.dbg := rfl
@[simp] theorem State.setCore_free (s : State) (i : Fin 4) (x : CoreState) : (s.setCore i x).free = s.free := rfl
@[simp] theorem State.setCore_pending (s : State) (i : Fin 4) (x : CoreState) : (s.setCore i x).pending = s.pending := rfl

@[simp] theorem State.setBank_pow (s : State) (b : Fin 2) (x : Bank) : (s.setBank b x).pow = s.pow := rfl
@[simp] theorem State.setFown_pow (s : State) (r : Fin 5) (x : FctlOwn) : (s.setFown r x).pow = s.pow := rfl
@[simp] theorem State.setBank_hold (s : State) (b : Fin 2) (x : Bank) : (s.setBank b x).hold = s.hold := rfl
@[simp] theorem State.setFown_hold (s : State) (r : Fin 5) (x : FctlOwn) : (s.setFown r x).hold = s.hold := rfl
@[simp] theorem State.setBank_clk (s : State) (b : Fin 2) (x : Bank) : (s.setBank b x).clk = s.clk := rfl
@[simp] theorem State.setFown_clk (s : State) (r : Fin 5) (x : FctlOwn) : (s.setFown r x).clk = s.clk := rfl
@[simp] theorem State.setBank_boot (s : State) (b : Fin 2) (x : Bank) : (s.setBank b x).boot = s.boot := rfl
@[simp] theorem State.setFown_boot (s : State) (r : Fin 5) (x : FctlOwn) : (s.setFown r x).boot = s.boot := rfl
@[simp] theorem State.setBank_host (s : State) (b : Fin 2) (x : Bank) : (s.setBank b x).host = s.host := rfl
@[simp] theorem State.setFown_host (s : State) (r : Fin 5) (x : FctlOwn) : (s.setFown r x).host = s.host := rfl
@[simp] theorem State.setBank_cus (s : State) (b : Fin 2) (x : Bank) : (s.setBank b x).cus = s.cus := rfl
@[simp] theorem State.setFown_cus (s : State) (r : Fin 5) (x : FctlOwn) : (s.setFown r x).cus = s.cus := rfl
@[simp] theorem State.setBank_led (s : State) (b : Fin 2) (x : Bank) : (s.setBank b x).led = s.led := rfl
@[simp] theorem State.setFown_led (s : State) (r : Fin 5) (x : FctlOwn) : (s.setFown r x).led = s.led := rfl
@[simp] theorem State.setBank_con (s : State) (b : Fin 2) (x : Bank) : (s.setBank b x).con = s.con := rfl
@[simp] theorem State.setFown_con (s : State) (r : Fin 5) (x : FctlOwn) : (s.setFown r x).con = s.con := rfl
@[simp] theorem State.setBank_mot (s : State) (b : Fin 2) (x : Bank) : (s.setBank b x).mot = s.mot := rfl
@[simp] theorem State.setFown_mot (s : State) (r : Fin 5) (x : FctlOwn) : (s.setFown r x).mot = s.mot := rfl
@[simp] theorem State.setBank_cel (s : State) (b : Fin 2) (x : Bank) : (s.setBank b x).cel = s.cel := rfl
@[simp] theorem State.setFown_cel (s : State) (r : Fin 5) (x : FctlOwn) : (s.setFown r x).cel = s.cel := rfl
@[simp] theorem State.setBank_core (s : State) (b : Fin 2) (x : Bank) : (s.setBank b x).core = s.core := rfl
@[simp] theorem State.setFown_core (s : State) (r : Fin 5) (x : FctlOwn) : (s.setFown r x).core = s.core := rfl
@[simp] theorem State.setBank_stewDec (s : State) (b : Fin 2) (x : Bank) : (s.setBank b x).stewDec = s.stewDec := rfl
@[simp] theorem State.setFown_stewDec (s : State) (r : Fin 5) (x : FctlOwn) : (s.setFown r x).stewDec = s.stewDec := rfl
@[simp] theorem State.setBank_stewCrypto (s : State) (b : Fin 2) (x : Bank) : (s.setBank b x).stewCrypto = s.stewCrypto := rfl
@[simp] theorem State.setFown_stewCrypto (s : State) (r : Fin 5) (x : FctlOwn) : (s.setFown r x).stewCrypto = s.stewCrypto := rfl
@[simp] theorem State.setBank_cop (s : State) (b : Fin 2) (x : Bank) : (s.setBank b x).cop = s.cop := rfl
@[simp] theorem State.setFown_cop (s : State) (r : Fin 5) (x : FctlOwn) : (s.setFown r x).cop = s.cop := rfl
@[simp] theorem State.setBank_mem (s : State) (b : Fin 2) (x : Bank) : (s.setBank b x).mem = s.mem := rfl
@[simp] theorem State.setFown_mem (s : State) (r : Fin 5) (x : FctlOwn) : (s.setFown r x).mem = s.mem := rfl
@[simp] theorem State.setBank_per (s : State) (b : Fin 2) (x : Bank) : (s.setBank b x).per = s.per := rfl
@[simp] theorem State.setFown_per (s : State) (r : Fin 5) (x : FctlOwn) : (s.setFown r x).per = s.per := rfl
@[simp] theorem State.setBank_img (s : State) (b : Fin 2) (x : Bank) : (s.setBank b x).img = s.img := rfl
@[simp] theorem State.setFown_img (s : State) (r : Fin 5) (x : FctlOwn) : (s.setFown r x).img = s.img := rfl
@[simp] theorem State.setBank_jou (s : State) (b : Fin 2) (x : Bank) : (s.setBank b x).jou = s.jou := rfl
@[simp] theorem State.setFown_jou (s : State) (r : Fin 5) (x : FctlOwn) : (s.setFown r x).jou = s.jou := rfl
@[simp] theorem State.setBank_dbg (s : State) (b : Fin 2) (x : Bank) : (s.setBank b x).dbg = s.dbg := rfl
@[simp] theorem State.setFown_dbg (s : State) (r : Fin 5) (x : FctlOwn) : (s.setFown r x).dbg = s.dbg := rfl
@[simp] theorem State.setBank_free (s : State) (b : Fin 2) (x : Bank) : (s.setBank b x).free = s.free := rfl
@[simp] theorem State.setFown_free (s : State) (r : Fin 5) (x : FctlOwn) : (s.setFown r x).free = s.free := rfl
@[simp] theorem State.setBank_pending (s : State) (b : Fin 2) (x : Bank) : (s.setBank b x).pending = s.pending := rfl
@[simp] theorem State.setFown_pending (s : State) (r : Fin 5) (x : FctlOwn) : (s.setFown r x).pending = s.pending := rfl

@[simp] theorem State.setUnit_pow (s : State) (u : UnitId) (x : UnitResult) : (s.setUnit u x).pow = s.pow := rfl
@[simp] theorem State.setUnit_hold (s : State) (u : UnitId) (x : UnitResult) : (s.setUnit u x).hold = s.hold := rfl
@[simp] theorem State.setUnit_clk (s : State) (u : UnitId) (x : UnitResult) : (s.setUnit u x).clk = s.clk := rfl
@[simp] theorem State.setUnit_host (s : State) (u : UnitId) (x : UnitResult) : (s.setUnit u x).host = s.host := rfl
@[simp] theorem State.setUnit_cus (s : State) (u : UnitId) (x : UnitResult) : (s.setUnit u x).cus = s.cus := rfl
@[simp] theorem State.setUnit_led (s : State) (u : UnitId) (x : UnitResult) : (s.setUnit u x).led = s.led := rfl
@[simp] theorem State.setUnit_con (s : State) (u : UnitId) (x : UnitResult) : (s.setUnit u x).con = s.con := rfl
@[simp] theorem State.setUnit_mot (s : State) (u : UnitId) (x : UnitResult) : (s.setUnit u x).mot = s.mot := rfl
@[simp] theorem State.setUnit_cel (s : State) (u : UnitId) (x : UnitResult) : (s.setUnit u x).cel = s.cel := rfl
@[simp] theorem State.setUnit_core (s : State) (u : UnitId) (x : UnitResult) : (s.setUnit u x).core = s.core := rfl
@[simp] theorem State.setUnit_stewDec (s : State) (u : UnitId) (x : UnitResult) : (s.setUnit u x).stewDec = s.stewDec := rfl
@[simp] theorem State.setUnit_stewCrypto (s : State) (u : UnitId) (x : UnitResult) : (s.setUnit u x).stewCrypto = s.stewCrypto := rfl
@[simp] theorem State.setUnit_cop (s : State) (u : UnitId) (x : UnitResult) : (s.setUnit u x).cop = s.cop := rfl
@[simp] theorem State.setUnit_mem (s : State) (u : UnitId) (x : UnitResult) : (s.setUnit u x).mem = s.mem := rfl
@[simp] theorem State.setUnit_per (s : State) (u : UnitId) (x : UnitResult) : (s.setUnit u x).per = s.per := rfl
@[simp] theorem State.setUnit_fl (s : State) (u : UnitId) (x : UnitResult) : (s.setUnit u x).fl = s.fl := rfl
@[simp] theorem State.setUnit_img (s : State) (u : UnitId) (x : UnitResult) : (s.setUnit u x).img = s.img := rfl
@[simp] theorem State.setUnit_jou (s : State) (u : UnitId) (x : UnitResult) : (s.setUnit u x).jou = s.jou := rfl
@[simp] theorem State.setUnit_dbg (s : State) (u : UnitId) (x : UnitResult) : (s.setUnit u x).dbg = s.dbg := rfl
@[simp] theorem State.setUnit_free (s : State) (u : UnitId) (x : UnitResult) : (s.setUnit u x).free = s.free := rfl
@[simp] theorem State.setUnit_pending (s : State) (u : UnitId) (x : UnitResult) : (s.setUnit u x).pending = s.pending := rfl

@[simp] theorem State.setPort_pow (s : State) (t : Transport) (f : Port → Port) : (s.setPort t f).pow = s.pow := rfl
@[simp] theorem State.setPort_hold (s : State) (t : Transport) (f : Port → Port) : (s.setPort t f).hold = s.hold := rfl
@[simp] theorem State.setPort_clk (s : State) (t : Transport) (f : Port → Port) : (s.setPort t f).clk = s.clk := rfl
@[simp] theorem State.setPort_boot (s : State) (t : Transport) (f : Port → Port) : (s.setPort t f).boot = s.boot := rfl
@[simp] theorem State.setPort_cus (s : State) (t : Transport) (f : Port → Port) : (s.setPort t f).cus = s.cus := rfl
@[simp] theorem State.setPort_led (s : State) (t : Transport) (f : Port → Port) : (s.setPort t f).led = s.led := rfl
@[simp] theorem State.setPort_con (s : State) (t : Transport) (f : Port → Port) : (s.setPort t f).con = s.con := rfl
@[simp] theorem State.setPort_mot (s : State) (t : Transport) (f : Port → Port) : (s.setPort t f).mot = s.mot := rfl
@[simp] theorem State.setPort_cel (s : State) (t : Transport) (f : Port → Port) : (s.setPort t f).cel = s.cel := rfl
@[simp] theorem State.setPort_core (s : State) (t : Transport) (f : Port → Port) : (s.setPort t f).core = s.core := rfl
@[simp] theorem State.setPort_stewDec (s : State) (t : Transport) (f : Port → Port) : (s.setPort t f).stewDec = s.stewDec := rfl
@[simp] theorem State.setPort_stewCrypto (s : State) (t : Transport) (f : Port → Port) : (s.setPort t f).stewCrypto = s.stewCrypto := rfl
@[simp] theorem State.setPort_cop (s : State) (t : Transport) (f : Port → Port) : (s.setPort t f).cop = s.cop := rfl
@[simp] theorem State.setPort_mem (s : State) (t : Transport) (f : Port → Port) : (s.setPort t f).mem = s.mem := rfl
@[simp] theorem State.setPort_per (s : State) (t : Transport) (f : Port → Port) : (s.setPort t f).per = s.per := rfl
@[simp] theorem State.setPort_fl (s : State) (t : Transport) (f : Port → Port) : (s.setPort t f).fl = s.fl := rfl
@[simp] theorem State.setPort_img (s : State) (t : Transport) (f : Port → Port) : (s.setPort t f).img = s.img := rfl
@[simp] theorem State.setPort_jou (s : State) (t : Transport) (f : Port → Port) : (s.setPort t f).jou = s.jou := rfl
@[simp] theorem State.setPort_dbg (s : State) (t : Transport) (f : Port → Port) : (s.setPort t f).dbg = s.dbg := rfl
@[simp] theorem State.setPort_free (s : State) (t : Transport) (f : Port → Port) : (s.setPort t f).free = s.free := rfl
@[simp] theorem State.setPort_pending (s : State) (t : Transport) (f : Port → Port) : (s.setPort t f).pending = s.pending := rfl

@[simp] theorem State.tickTs_pow (s : State) (n : Nat) : (s.tickTs n).pow = s.pow := by unfold State.tickTs; split <;> rfl
@[simp] theorem State.tickTs_hold (s : State) (n : Nat) : (s.tickTs n).hold = s.hold := by unfold State.tickTs; split <;> rfl
@[simp] theorem State.tickTs_boot (s : State) (n : Nat) : (s.tickTs n).boot = s.boot := by unfold State.tickTs; split <;> rfl
@[simp] theorem State.tickTs_host (s : State) (n : Nat) : (s.tickTs n).host = s.host := by unfold State.tickTs; split <;> rfl
@[simp] theorem State.tickTs_cus (s : State) (n : Nat) : (s.tickTs n).cus = s.cus := by unfold State.tickTs; split <;> rfl
@[simp] theorem State.tickTs_led (s : State) (n : Nat) : (s.tickTs n).led = s.led := by unfold State.tickTs; split <;> rfl
@[simp] theorem State.tickTs_con (s : State) (n : Nat) : (s.tickTs n).con = s.con := by unfold State.tickTs; split <;> rfl
@[simp] theorem State.tickTs_mot (s : State) (n : Nat) : (s.tickTs n).mot = s.mot := by unfold State.tickTs; split <;> rfl
@[simp] theorem State.tickTs_cel (s : State) (n : Nat) : (s.tickTs n).cel = s.cel := by unfold State.tickTs; split <;> rfl
@[simp] theorem State.tickTs_core (s : State) (n : Nat) : (s.tickTs n).core = s.core := by unfold State.tickTs; split <;> rfl
@[simp] theorem State.tickTs_stewDec (s : State) (n : Nat) : (s.tickTs n).stewDec = s.stewDec := by unfold State.tickTs; split <;> rfl
@[simp] theorem State.tickTs_stewCrypto (s : State) (n : Nat) : (s.tickTs n).stewCrypto = s.stewCrypto := by unfold State.tickTs; split <;> rfl
@[simp] theorem State.tickTs_cop (s : State) (n : Nat) : (s.tickTs n).cop = s.cop := by unfold State.tickTs; split <;> rfl
@[simp] theorem State.tickTs_mem (s : State) (n : Nat) : (s.tickTs n).mem = s.mem := by unfold State.tickTs; split <;> rfl
@[simp] theorem State.tickTs_per (s : State) (n : Nat) : (s.tickTs n).per = s.per := by unfold State.tickTs; split <;> rfl
@[simp] theorem State.tickTs_fl (s : State) (n : Nat) : (s.tickTs n).fl = s.fl := by unfold State.tickTs; split <;> rfl
@[simp] theorem State.tickTs_img (s : State) (n : Nat) : (s.tickTs n).img = s.img := by unfold State.tickTs; split <;> rfl
@[simp] theorem State.tickTs_jou (s : State) (n : Nat) : (s.tickTs n).jou = s.jou := by unfold State.tickTs; split <;> rfl
@[simp] theorem State.tickTs_dbg (s : State) (n : Nat) : (s.tickTs n).dbg = s.dbg := by unfold State.tickTs; split <;> rfl
@[simp] theorem State.tickTs_free (s : State) (n : Nat) : (s.tickTs n).free = s.free := by unfold State.tickTs; split <;> rfl
@[simp] theorem State.tickTs_pending (s : State) (n : Nat) : (s.tickTs n).pending = s.pending := by unfold State.tickTs; split <;> rfl

@[simp] theorem State.setHoldBlock_pow (s : State) (k : Fin 4) (x : HoldBlock) : (s.setHoldBlock k x).pow = s.pow := rfl
@[simp] theorem State.setHoldBlock_clk (s : State) (k : Fin 4) (x : HoldBlock) : (s.setHoldBlock k x).clk = s.clk := rfl
@[simp] theorem State.setHoldBlock_boot (s : State) (k : Fin 4) (x : HoldBlock) : (s.setHoldBlock k x).boot = s.boot := rfl
@[simp] theorem State.setHoldBlock_host (s : State) (k : Fin 4) (x : HoldBlock) : (s.setHoldBlock k x).host = s.host := rfl
@[simp] theorem State.setHoldBlock_cus (s : State) (k : Fin 4) (x : HoldBlock) : (s.setHoldBlock k x).cus = s.cus := rfl
@[simp] theorem State.setHoldBlock_led (s : State) (k : Fin 4) (x : HoldBlock) : (s.setHoldBlock k x).led = s.led := rfl
@[simp] theorem State.setHoldBlock_con (s : State) (k : Fin 4) (x : HoldBlock) : (s.setHoldBlock k x).con = s.con := rfl
@[simp] theorem State.setHoldBlock_mot (s : State) (k : Fin 4) (x : HoldBlock) : (s.setHoldBlock k x).mot = s.mot := rfl
@[simp] theorem State.setHoldBlock_cel (s : State) (k : Fin 4) (x : HoldBlock) : (s.setHoldBlock k x).cel = s.cel := rfl
@[simp] theorem State.setHoldBlock_core (s : State) (k : Fin 4) (x : HoldBlock) : (s.setHoldBlock k x).core = s.core := rfl
@[simp] theorem State.setHoldBlock_stewDec (s : State) (k : Fin 4) (x : HoldBlock) : (s.setHoldBlock k x).stewDec = s.stewDec := rfl
@[simp] theorem State.setHoldBlock_stewCrypto (s : State) (k : Fin 4) (x : HoldBlock) : (s.setHoldBlock k x).stewCrypto = s.stewCrypto := rfl
@[simp] theorem State.setHoldBlock_cop (s : State) (k : Fin 4) (x : HoldBlock) : (s.setHoldBlock k x).cop = s.cop := rfl
@[simp] theorem State.setHoldBlock_mem (s : State) (k : Fin 4) (x : HoldBlock) : (s.setHoldBlock k x).mem = s.mem := rfl
@[simp] theorem State.setHoldBlock_per (s : State) (k : Fin 4) (x : HoldBlock) : (s.setHoldBlock k x).per = s.per := rfl
@[simp] theorem State.setHoldBlock_fl (s : State) (k : Fin 4) (x : HoldBlock) : (s.setHoldBlock k x).fl = s.fl := rfl
@[simp] theorem State.setHoldBlock_img (s : State) (k : Fin 4) (x : HoldBlock) : (s.setHoldBlock k x).img = s.img := rfl
@[simp] theorem State.setHoldBlock_jou (s : State) (k : Fin 4) (x : HoldBlock) : (s.setHoldBlock k x).jou = s.jou := rfl
@[simp] theorem State.setHoldBlock_dbg (s : State) (k : Fin 4) (x : HoldBlock) : (s.setHoldBlock k x).dbg = s.dbg := rfl
@[simp] theorem State.setHoldBlock_free (s : State) (k : Fin 4) (x : HoldBlock) : (s.setHoldBlock k x).free = s.free := rfl
@[simp] theorem State.setHoldBlock_pending (s : State) (k : Fin 4) (x : HoldBlock) : (s.setHoldBlock k x).pending = s.pending := rfl

@[simp] theorem State.setWdt_pow (s : State) (i : Fin 4) (x : CoreWdt) : (s.setWdt i x).pow = s.pow := rfl
@[simp] theorem State.setWdt_hold (s : State) (i : Fin 4) (x : CoreWdt) : (s.setWdt i x).hold = s.hold := rfl
@[simp] theorem State.setWdt_clk (s : State) (i : Fin 4) (x : CoreWdt) : (s.setWdt i x).clk = s.clk := rfl
@[simp] theorem State.setWdt_host (s : State) (i : Fin 4) (x : CoreWdt) : (s.setWdt i x).host = s.host := rfl
@[simp] theorem State.setWdt_cus (s : State) (i : Fin 4) (x : CoreWdt) : (s.setWdt i x).cus = s.cus := rfl
@[simp] theorem State.setWdt_led (s : State) (i : Fin 4) (x : CoreWdt) : (s.setWdt i x).led = s.led := rfl
@[simp] theorem State.setWdt_con (s : State) (i : Fin 4) (x : CoreWdt) : (s.setWdt i x).con = s.con := rfl
@[simp] theorem State.setWdt_mot (s : State) (i : Fin 4) (x : CoreWdt) : (s.setWdt i x).mot = s.mot := rfl
@[simp] theorem State.setWdt_cel (s : State) (i : Fin 4) (x : CoreWdt) : (s.setWdt i x).cel = s.cel := rfl
@[simp] theorem State.setWdt_core (s : State) (i : Fin 4) (x : CoreWdt) : (s.setWdt i x).core = s.core := rfl
@[simp] theorem State.setWdt_stewDec (s : State) (i : Fin 4) (x : CoreWdt) : (s.setWdt i x).stewDec = s.stewDec := rfl
@[simp] theorem State.setWdt_stewCrypto (s : State) (i : Fin 4) (x : CoreWdt) : (s.setWdt i x).stewCrypto = s.stewCrypto := rfl
@[simp] theorem State.setWdt_cop (s : State) (i : Fin 4) (x : CoreWdt) : (s.setWdt i x).cop = s.cop := rfl
@[simp] theorem State.setWdt_mem (s : State) (i : Fin 4) (x : CoreWdt) : (s.setWdt i x).mem = s.mem := rfl
@[simp] theorem State.setWdt_per (s : State) (i : Fin 4) (x : CoreWdt) : (s.setWdt i x).per = s.per := rfl
@[simp] theorem State.setWdt_fl (s : State) (i : Fin 4) (x : CoreWdt) : (s.setWdt i x).fl = s.fl := rfl
@[simp] theorem State.setWdt_img (s : State) (i : Fin 4) (x : CoreWdt) : (s.setWdt i x).img = s.img := rfl
@[simp] theorem State.setWdt_jou (s : State) (i : Fin 4) (x : CoreWdt) : (s.setWdt i x).jou = s.jou := rfl
@[simp] theorem State.setWdt_dbg (s : State) (i : Fin 4) (x : CoreWdt) : (s.setWdt i x).dbg = s.dbg := rfl
@[simp] theorem State.setWdt_free (s : State) (i : Fin 4) (x : CoreWdt) : (s.setWdt i x).free = s.free := rfl
@[simp] theorem State.setWdt_pending (s : State) (i : Fin 4) (x : CoreWdt) : (s.setWdt i x).pending = s.pending := rfl

@[simp] theorem State.setDma_pow (s : State) (i : DmaIndex) (x : DmaChannel) : (s.setDma i x).pow = s.pow := rfl
@[simp] theorem State.setDma_hold (s : State) (i : DmaIndex) (x : DmaChannel) : (s.setDma i x).hold = s.hold := rfl
@[simp] theorem State.setDma_clk (s : State) (i : DmaIndex) (x : DmaChannel) : (s.setDma i x).clk = s.clk := rfl
@[simp] theorem State.setDma_boot (s : State) (i : DmaIndex) (x : DmaChannel) : (s.setDma i x).boot = s.boot := rfl
@[simp] theorem State.setDma_host (s : State) (i : DmaIndex) (x : DmaChannel) : (s.setDma i x).host = s.host := rfl
@[simp] theorem State.setDma_cus (s : State) (i : DmaIndex) (x : DmaChannel) : (s.setDma i x).cus = s.cus := rfl
@[simp] theorem State.setDma_led (s : State) (i : DmaIndex) (x : DmaChannel) : (s.setDma i x).led = s.led := rfl
@[simp] theorem State.setDma_con (s : State) (i : DmaIndex) (x : DmaChannel) : (s.setDma i x).con = s.con := rfl
@[simp] theorem State.setDma_mot (s : State) (i : DmaIndex) (x : DmaChannel) : (s.setDma i x).mot = s.mot := rfl
@[simp] theorem State.setDma_cel (s : State) (i : DmaIndex) (x : DmaChannel) : (s.setDma i x).cel = s.cel := rfl
@[simp] theorem State.setDma_core (s : State) (i : DmaIndex) (x : DmaChannel) : (s.setDma i x).core = s.core := rfl
@[simp] theorem State.setDma_stewDec (s : State) (i : DmaIndex) (x : DmaChannel) : (s.setDma i x).stewDec = s.stewDec := rfl
@[simp] theorem State.setDma_stewCrypto (s : State) (i : DmaIndex) (x : DmaChannel) : (s.setDma i x).stewCrypto = s.stewCrypto := rfl
@[simp] theorem State.setDma_cop (s : State) (i : DmaIndex) (x : DmaChannel) : (s.setDma i x).cop = s.cop := rfl
@[simp] theorem State.setDma_mem (s : State) (i : DmaIndex) (x : DmaChannel) : (s.setDma i x).mem = s.mem := rfl
@[simp] theorem State.setDma_fl (s : State) (i : DmaIndex) (x : DmaChannel) : (s.setDma i x).fl = s.fl := rfl
@[simp] theorem State.setDma_img (s : State) (i : DmaIndex) (x : DmaChannel) : (s.setDma i x).img = s.img := rfl
@[simp] theorem State.setDma_jou (s : State) (i : DmaIndex) (x : DmaChannel) : (s.setDma i x).jou = s.jou := rfl
@[simp] theorem State.setDma_dbg (s : State) (i : DmaIndex) (x : DmaChannel) : (s.setDma i x).dbg = s.dbg := rfl
@[simp] theorem State.setDma_free (s : State) (i : DmaIndex) (x : DmaChannel) : (s.setDma i x).free = s.free := rfl
@[simp] theorem State.setDma_pending (s : State) (i : DmaIndex) (x : DmaChannel) : (s.setDma i x).pending = s.pending := rfl

end Sys2Proof.Machine
end

