-- ==== Sys2Proof/WellFormed.lean ====
section
/-! DEFINITION. Well-formed commands: the bounds that the spec sets on operands and that their types do not already carry. -/
namespace Sys2Proof

/-- A request's payload holds at most 1 020 octets (R267). -/
def CmdReq.wf (q : CmdReq) : Bool := decide (q.payload.length ≤ 1020)

/-- A CAN frame holds at most 64 octets, a classic one at most 8 (R634). -/
def CanFrame.wf (f : CanFrame) : Bool := decide (f.data.length ≤ if f.fdf then 64 else 8)

/-- A line of shared SRAM: 16 words of tiles 0 to 15 (R767, R769). -/
def lineWf (line : Nat) : Bool := decide (0x10000 ≤ line) && decide (line < 0x20000)

/-- A scan of the boundary register moves a bit for each of its cells (R979). -/
def scanWf (levels : List Bool) (update : Option (List Bool)) : Bool :=
  decide (levels.length = Machine.boundaryLength) &&
    (match update with | none => true | some l => decide (l.length = Machine.boundaryLength))

/-- A set of units: none twice (R938). -/
def unitsWf (l : List UnitId) : Bool := decide l.Nodup

/-- A command whose operands keep those bounds. -/
def Instr.wf (i : Instr) : Bool :=
  match i with
  | .alwaysOnRise => true
  | .alwaysOnFall _ => true
  | .aoLowTrip _ => true
  | .pwrFailTrip _ => true
  | .pfiNFall => true
  | .bLowTrip => true
  | .ioBorTrip _ => true
  | .cLowTrip => true
  | .cLowClear => true
  | .vcoreFault _ _ => true
  | .v33Good _ => true
  | .retryTimerExpiry _ => true
  | .faultCountClear => true
  | .holdupSequenceComplete => true
  | .tierDecision failed _ => unitsWf failed
  | .selftestTimeout unended _ => unitsWf unended
  | .knownAnswerRetest failed => unitsWf failed
  | .pllLock => true
  | .pllLockLoss => true
  | .pllRelockTimeout => true
  | .hfxStartTimeout => true
  | .domainClockStopped _ also => unitsWf also
  | .fclkStopped _ => true
  | .oscActivityTimeout _ => true
  | .lfxCheckWindow _ => true
  | .lfoCountCheck _ => true
  | .stewardWatchdogExpiry _ => true
  | .coreWatchdogExpiry _ _ => true
  | .pmuOpreqWrite _ _ => true
  | .pmuWdtWrite _ _ => true
  | .pmuWdkickWrite _ _ _ => true
  | .vcoreSettled => true
  | .tjSample _ => true
  | .ledgerTailTimer _ => true
  | .spiWrite _ _ => true
  | .spiRead _ _ => true
  | .spiReread _ _ => true
  | .spiStatus _ => true
  | .spiBadOpcode _ _ => true
  | .hcsTimeout _ => true
  | .uartFrame _ _ => true
  | .uartGapTimeout => true
  | .hctsChange _ _ => true
  | .uartRateApply => true
  | .uartRateRevert => true
  | .usbFrame _ _ => true
  | .usbVbusChange _ => true
  | .duplicateRequest _ cmd _ q => decide (cmd < 65536) && q.wf
  | .interimDue _ _ ms => decide (ms < 2 ^ 24)
  | .appRequest _ cmd _ q => decide (0x8000 ≤ cmd) && decide (cmd < 65536) && q.wf
  | .grtMbxdoneWrite _ _ => true
  | .appResponseTimeout _ => true
  | .grtMbxevtWrite _ _ => true
  | .serviceNFall _ => true
  | .servicePressRecognised _ _ => true
  | .jmpPresFall _ => true
  | .jumperRecognised _ => true
  | .dockGateEnd _ _ => true
  | .presenceWindowExpiry => true
  | .servicePeriodExpiry => true
  | .stuckButtonTimeout => true
  | .dockRejectTimeout => true
  | .probationExpiry _ => true
  | .scrubTimer _ => true
  | .closureCheck _ => true
  | .class4Decay => true
  | .maxRideDuration _ _ => true
  | .announce fs => fs.all CanFrame.wf
  | .announceTimer => true
  | .joinReq fs => fs.all CanFrame.wf
  | .joinChal fs => fs.all CanFrame.wf
  | .joinProof fs => fs.all CanFrame.wf
  | .joinResult fs => fs.all CanFrame.wf
  | .joinTimeout => true
  | .proofTimeout => true
  | .backoffExpiry => true
  | .leave fs => fs.all CanFrame.wf
  | .rekey fs => fs.all CanFrame.wf
  | .keyAgeRekey node => decide (node ≤ 6)
  | .rekeyTimeout node => decide (node ≤ 6)
  | .rekeyRetry node => decide (node ≤ 6)
  | .prevGenerationExpiry node => decide (node ≤ 6)
  | .heartbeat fs => fs.all CanFrame.wf
  | .heartbeatTimer => true
  | .roster fs => fs.all CanFrame.wf
  | .energyReport fs => fs.all CanFrame.wf
  | .energyReportTimer => true
  | .reportReq fs => fs.all CanFrame.wf
  | .timeOffer fs _ => fs.all CanFrame.wf
  | .timeOfferTimer => true
  | .offerWithdraw => true
  | .configOffer fs => fs.all CanFrame.wf
  | .configMerged fs => fs.all CanFrame.wf
  | .dockState fs => fs.all CanFrame.wf
  | .dockStateTimer _ _ => true
  | .chargeReport fs => fs.all CanFrame.wf
  | .stageRelay fs _ => fs.all CanFrame.wf
  | .relayResult fs => fs.all CanFrame.wf
  | .relayTimeout => true
  | .memberSilenceTimeout node => decide (node ≤ 6)
  | .vehicleSilenceTimeout => true
  | .fragmentTimeout sender => decide (sender < 16384)
  | .canAFrameIgnored f => f.wf
  | .concordUnknownType f => f.wf
  | .canABusError _ _ => true
  | .busOffRecovery => true
  | .rateFallbackEnd => true
  | .restrictedModeTimeout => true
  | .twoVehiclesHeard fs => fs.all CanFrame.wf
  | .afeSample rsp _ => decide (rsp.length ≤ 6)
  | .packCounterPersist => true
  | .pwmUpdateEvent _ _ => true
  | .pwmAdcTrigger => true
  | .adcEntryComplete _ _ => true
  | .pwmCtlWrite _ => true
  | .pwmWord0Write _ _ => true
  | .pwmWord1Write _ _ => true
  | .adcSwtrgWrite _ => true
  | .adcCtlWrite _ => true
  | .adcFifotRead _ => true
  | .filteredEdge _ _ => true
  | .tcapEv0Read _ => true
  | .tcapNow0Read _ _ => true
  | .tcapWcnt0Read _ => true
  | .tcapWper0Read _ _ => true
  | .tcapHper0Read _ _ => true
  | .tcapHerrRead _ => true
  | .pwmCnt0Read _ _ => true
  | .pwmChopsRead _ => true
  | .comparatorActive _ _ => true
  | .comparatorInactive _ => true
  | .faultNActive _ => true
  | .faultNRelease => true
  | .tslClrClear _ => true
  | .tslSoftwareTrip => true
  | .tslBadKey => true
  | .rearmExpiry => true
  | .lockExpiry => true
  | .lowSideDeadTime => true
  | .dwellExpiry => true
  | .mclkLoss => true
  | .keyColumnFall => true
  | .keyScan _ _ => true
  | .keyHoldLimit _ => true
  | .celKeyRead _ => true
  | .celKdown0Read _ => true
  | .lcdFrameStart => true
  | .lcdCommit => true
  | .sealMeasure _ _ _ => true
  | .celSealWrite _ _ => true
  | .shockDetect _ => true
  | .hostWakeEdge _ _ => true
  | .celWakeRead => true
  | .celSopenRead => true
  | .celShkRead => true
  | .celTimeWrite _ _ _ => true
  | .celTimeRead _ => true
  | .registerWrite _ _ _ _ => true
  | .opAdd _ _ _ _ => true
  | .opAdc _ _ _ _ => true
  | .opSub _ _ _ _ => true
  | .opSbc _ _ _ _ => true
  | .opAnd _ _ _ _ => true
  | .opOr _ _ _ _ => true
  | .opXor _ _ _ _ => true
  | .opAndn _ _ _ _ => true
  | .opShl _ _ _ _ => true
  | .opShr _ _ _ _ => true
  | .opSar _ _ _ _ => true
  | .opCmp _ _ _ _ => true
  | .opAddp _ _ _ _ => true
  | .opSubp _ _ _ _ => true
  | .opMfs _ _ _ _ => true
  | .opMts _ _ _ _ => true
  | .opLdi _ _ _ => true
  | .opAddi _ _ _ => true
  | .opAndi _ _ _ => true
  | .opCmpi _ _ _ => true
  | .opMuls _ _ _ _ => true
  | .opMulu _ _ _ _ => true
  | .opMull _ _ _ _ => true
  | .opMacs _ _ _ _ => true
  | .opMacu _ _ _ _ => true
  | .opMsus _ _ _ _ => true
  | .opDivs _ _ _ _ => true
  | .opDivu _ _ _ _ => true
  | .opRems _ _ _ _ => true
  | .opRemu _ _ _ _ => true
  | .opDivps _ _ _ _ => true
  | .opDivpu _ _ _ _ => true
  | .opAccrd _ _ _ _ => true
  | .opAccw _ _ _ _ => true
  | .opAcch _ _ _ _ => true
  | .opAccz _ _ _ _ => true
  | .opMuli _ _ _ => true
  | .opMaci _ _ _ => true
  | .opLdw _ _ _ _ _ => true
  | .opLdp _ _ _ _ _ => true
  | .opStw _ _ _ _ => true
  | .opStp _ _ _ _ => true
  | .opLdwi _ _ _ _ _ => true
  | .opStwi _ _ _ _ => true
  | .opMacp _ _ _ _ _ => true
  | .opFence _ _ _ => true
  | .opIcinv _ _ _ => true
  | .opIcinva _ _ _ => true
  | .opDcwb _ _ _ => true
  | .opDcwbi _ _ _ => true
  | .opIn _ _ _ _ => true
  | .opOut _ _ _ _ => true
  | .opBr _ _ _ => true
  | .opBc _ _ _ => true
  | .opDbnz _ _ _ => true
  | .opCall _ _ _ => true
  | .opJr _ _ _ => true
  | .opBcr _ _ _ => true
  | .opCallr _ _ _ => true
  | .opRet _ _ _ => true
  | .opKset _ _ _ => true
  | .opKget _ _ _ => true
  | .opWait _ _ _ => true
  | .waitResume _ => true
  | .opBrk _ _ _ => true
  | .opTrap _ _ _ => true
  | .resultComplete _ _ => true
  | .branchMispredict _ => true
  | .trapEntry _ _ => true
  | .interruptEntry _ => true
  | .cancelToken _ _ _ _ => true
  | .coproResultReturn _ _ _ _ _ => true
  | .grtDbellWrite _ _ => true
  | .grtDbsrcRead _ => true
  | .opDstat _ _ _ _ => true
  | .opDset _ _ _ _ => true
  | .opDadds _ _ _ _ => true
  | .opDsubs _ _ _ _ => true
  | .opDmuls _ _ _ _ => true
  | .opDdivs _ _ _ _ => true
  | .opDcmps _ _ _ _ => true
  | .opDrnds _ _ _ _ => true
  | .opDnegs _ _ _ _ => true
  | .opDabss _ _ _ _ => true
  | .opDaddl _ _ _ _ => true
  | .opDsubl _ _ _ _ => true
  | .opDmull _ _ _ _ => true
  | .opDdivl _ _ _ _ => true
  | .opDcmpl _ _ _ _ => true
  | .opDrndl _ _ _ _ => true
  | .opDnegl _ _ _ _ => true
  | .opDabsl _ _ _ _ => true
  | .opDwiden _ _ _ _ => true
  | .opDnarrow _ _ _ _ => true
  | .opDfromb _ _ _ _ => true
  | .opDtob _ _ _ _ => true
  | .opDnan _ _ _ _ => true
  | .opDcls _ _ _ _ => true
  | .opClarke _ _ _ _ => true
  | .opSincos _ _ _ _ => true
  | .opPark _ _ _ _ => true
  | .opIpark _ _ _ _ => true
  | .opPiset _ _ _ _ => true
  | .opPirst _ _ _ _ => true
  | .opPistep _ _ _ _ => true
  | .opCstat _ _ _ _ => true
  | .opRng _ _ _ _ _ => true
  | .opKeyld _ _ _ _ => true
  | .opIvld _ _ _ _ => true
  | .opAese _ _ _ _ => true
  | .opAesd _ _ _ _ => true
  | .opCbce _ _ _ _ => true
  | .opCbcd _ _ _ _ => true
  | .opCtr _ _ _ _ => true
  | .opGcma _ _ _ _ => true
  | .opGcme _ _ _ _ => true
  | .opGcmd _ _ _ _ => true
  | .opGcmt _ _ _ _ => true
  | .opCmac _ _ _ _ => true
  | .opShai _ _ _ _ => true
  | .opShau _ _ _ _ => true
  | .opShaf _ _ _ _ => true
  | .opEcver _ _ _ _ => true
  | .opEcgen _ _ _ _ => true
  | .opEcdh _ _ _ _ => true
  | .dmaGo _ _ => true
  | .dmaLineDone _ _ _ => true
  | .dmaRem0Read _ => true
  | .canbCtlWrite _ => true
  | .canbTxdataWrite _ => true
  | .canbTxqCommit _ => true
  | .canbTxqDiscard => true
  | .canbTxabtWrite _ _ => true
  | .canbRxpopWrite => true
  | .canbFrameReceived f => f.wf
  | .canbFrameSent _ _ _ => true
  | .canbBusOff => true
  | .i2cTransferStop => true
  | .i2cTransferHold => true
  | .i2cTransferDone _ n got => decide (n ≤ 256) && decide (got.length ≤ 256)
  | .i2cHoldTimeout => true
  | .i2cStretchTimeout => true
  | .i2cTxdWrite _ => true
  | .i2cRxdRead => true
  | .sspiGo => true
  | .sspiDone got => decide (got.length ≤ 256)
  | .sspiTxdWrite _ => true
  | .sspiRxdRead => true
  | .gnssOctetReceived _ _ => true
  | .gnssPpsEdge _ => true
  | .gnssTxdWrite left _ => decide (left ≤ 64)
  | .gnssRxdRead _ => true
  | .gnssPps0Read _ => true
  | .gpioInputEdge _ _ => true
  | .gpioPwmPeriodEnd => true
  | .gpioPwmWord1Write _ _ => true
  | .fctlKeyaWrite _ _ => true
  | .fctlKeybWrite _ _ => true
  | .fctlCmdWrite _ _ => true
  | .fctlAddrWrite _ _ _ => true
  | .fctlDataWrite _ _ => true
  | .fctlDataRead _ => true
  | .fctlEcntRead _ => true
  | .fctlEaddr0Read _ => true
  | .fctlEcthWrite _ _ => true
  | .sequenceModeStore _ _ _ => true
  | .fctlProgram _ _ data => decide (data.length = 256)
  | .fctlErase _ _ => true
  | .fctlSuspend _ _ _ => true
  | .fctlResume _ _ => true
  | .fctlInfo _ _ => true
  | .fctlAbandon _ => true
  | .flashCommandStart _ => true
  | .programPulsesDone _ _ => true
  | .eraseStepDone _ _ _ => true
  | .suspendDeferralExpiry _ => true
  | .nandReady _ _ => true
  | .nandTimeout _ => true
  | .journalPageTimer => true
  | .snapshotTimer => true
  | .patrolRead _ _ sectors _ _ => decide (sectors.length ≤ 8)
  | .journalMountComplete _ => true
  | .identity q => q.wf
  | .status q => q.wf
  | .oppoint q => q.wf
  | .rate q => q.wf
  | .evmask q => q.wf
  | .reset q _ _ => q.wf
  | .release q _ => q.wf
  | .stageEdition q _ => q.wf
  | .discardStaged q _ => q.wf
  | .slots q => q.wf
  | .commit q _ => q.wf
  | .rollback q _ => q.wf
  | .accept q _ => q.wf
  | .confirmPrevious q _ => q.wf
  | .windowClose q => q.wf
  | .keysProvision q => q.wf
  | .keysReplaceConfig q => q.wf
  | .keysReplaceImage q => q.wf
  | .lifecycle q _ _ => q.wf
  | .debugUnlock q => q.wf
  | .readKeys q => q.wf
  | .setTime q _ _ => q.wf
  | .rideOpen q _ => q.wf
  | .rideClose q _ _ => q.wf
  | .rideStatus q => q.wf
  | .rideRead q _ => q.wf
  | .periodRead q _ => q.wf
  | .ack q => q.wf
  | .epoch q _ => q.wf
  | .keyExport q => q.wf
  | .ledgerStatus q => q.wf
  | .concordStatus q => q.wf
  | .presence q => q.wf
  | .relay q => q.wf
  | .motorStatus q => q.wf
  | .teaselClear q => q.wf
  | .teaselTrip q => q.wf
  | .imageBegin q _ _ => q.wf
  | .imageData q _ => q.wf
  | .imageEnd q => q.wf
  | .imageStatus q => q.wf
  | .flashInfo q => q.wf
  | .journalStatus q => q.wf
  | .journalRead q => q.wf
  | .note q => q.wf
  | .adopt q => q.wf
  | .flush q => q.wf
  | .celStatus q => q.wf
  | .displayRead q => q.wf
  | .shockHold q => q.wf
  | .keyWake q => q.wf
  | .coreStatus q => q.wf
  | .coreReset q => q.wf
  | .selftestRead q => q.wf
  | .selftestRun q failing _ => q.wf && unitsWf failing
  | .beaconRecord q => q.wf
  | .tapExtest levels update => scanWf levels update
  | .tapIdcode => true
  | .tapSamplePreload levels update => scanWf levels update
  | .tapClamp => true
  | .tapHighz => true
  | .tapBypass => true
  | .dbgstat => true
  | .coreHalt _ => true
  | .coreResume _ => true
  | .coreSingleStep _ _ => true
  | .coreregAccess _ _ _ _ => true
  | .memaddrUpdate _ _ _ => true
  | .memdataCapture _ => true
  | .memdataWrite _ _ => true
  | .jreset _ => true
  | .tracectlUpdate _ => true
  | .teaselRailLoss => true
  | .teaselRailReturn => true
  | .supplyMonitorRise _ => true
  | .alwaysOnSourceSwitch _ => true
  | .timeBaseEdge => true
  | .uartFrameSent => true
  | .usbInTransfer => true
  | .usbConfiguration _ => true
  | .busOffRecoveryDone _ => true
  | .coherenceRequest _ line _ => lineWf line
  | .evictionNotice _ line _ => lineWf line
  | .snoopAtCache _ line _ => lineWf line
  | .snoopResponse _ line => lineWf line
  | .lineGrant _ line => lineWf line
  | .coherenceDone _ line => lineWf line
  | .putAck _ line => lineWf line
  | .agentLineAccess _ line offset len put _ => lineWf line && decide (offset.val + len ≤ 16) && (match put with | none => true | some ws => decide (ws.length = len))

end Sys2Proof
end

