-- ==== Sys2Proof/Tests/Slice0.lean ====
section
/-! SUPPORT. Own tests: for every statement a named theorem with states and operands that meet its hypotheses, clause by clause; the
worked cases of the spec; and ill-formed commands that the check refuses. -/
namespace Sys2Proof.Tests
open Sys2Proof Sys2Proof.Machine
set_option Elab.async false

/-- The part in operation, tier 3, as a device of the given role, every unit passed, both transports open. -/
def tOn (r : Role) : State :=
  { State.reset with
    pow := { Power.reset with pm := .running, vddioAUp := true, vddaUp := true, vddioBUp := true, pfiHigh := true, ioUp := true, v33Good := true, teaselRail := true },
    boot := { Boot.reset with phase := .decided, role := r, tier := .t3, units := Vector.replicate 42 .passed },
    clk := { Clocks.reset with domains := Vector.replicate 14 .running, pllLocked := true },
    host := { HostPort.reset with enabled := true, admitting := true, vbus := true, usbConfigured := true },
    mot := { Motor.reset with mclk := true },
    cel := { Celandine.reset with lfxActive := true, lfxFailed := false } }

/-- Core 0 of that part runs from the first bundle of tile 1, with the registers given. -/
def tCore (c : CoreState) : State :=
  { tOn .vehicle with core := (tOn .vehicle).core.set 0 { c with run := .running, pc := 0x110000, tvb := 0x1FFF80 } }

/-- The registers of a core with its first pair at a, its second at b. -/
def tRegs (a b : Pair) : CoreState :=
  { CoreState.reset with w := ((((Vector.replicate 32 0).set 0 (loWord a)).set 1 (hiWord a)).set 2 (loWord b)).set 3 (hiWord b) }

/-- Ready, read off a state. -/
def readyB (s : State) (i : Fin 4) : Bool :=
  let c := s.core.get i
  decide (c.run = .running) && c.gather.isEmpty && c.gatherX.isEmpty && !c.closed && c.preTrap.isNone && c.window.isEmpty &&
    decide (c.staleTags.length ≤ 58) && !c.pc.getLsbD 0 && decide (0x110000 ≤ c.pc.toNat) && decide (c.pc.toNat + 2 ≤ 0x200000) &&
    (s.mem.loaded.filter (fun x => x.cache = .core i)).isEmpty

theorem ready_of {s : State} {i : Fin 4} (h : readyB s i = true) : Ready s i := by
  simp only [readyB, Bool.and_eq_true, decide_eq_true_eq, List.isEmpty_iff, Bool.not_eq_true', Option.isNone_iff_eq_none] at h
  obtain ⟨⟨⟨⟨⟨⟨⟨⟨⟨⟨h1, h2⟩, h3⟩, h4⟩, h5⟩, h6⟩, h7⟩, h8⟩, h9⟩, h10⟩, h11⟩ := h
  exact ⟨h1, h2, h3, h4, h5, h6, h7, h8, h9, h10, h11⟩

/-- The part in operation with the core given as its core 0. -/
def tCoreIs (c : CoreState) : State := { tOn .vehicle with core := (tOn .vehicle).core.set 0 c }

/-! One component of a state changed. -/
def onPow (f : Power → Power) (s : State) : State := { s with pow := f s.pow }
def onHold (f : HoldUp → HoldUp) (s : State) : State := { s with hold := f s.hold }
def onClk (f : Clocks → Clocks) (s : State) : State := { s with clk := f s.clk }
def onBoot (f : Boot → Boot) (s : State) : State := { s with boot := f s.boot }
def onHost (f : HostPort → HostPort) (s : State) : State := { s with host := f s.host }
def onPort (f : Port → Port) (s : State) : State := { s with host := { s.host with ports := s.host.ports.map f } }
def onCus (f : Custody → Custody) (s : State) : State := { s with cus := f s.cus }
def onPres (f : Presence → Presence) (s : State) : State := { s with cus := { s.cus with presence := f s.cus.presence } }
def onLed (f : Ledger → Ledger) (s : State) : State := { s with led := f s.led }
def onTail (f : LedgerTail → LedgerTail) (s : State) : State := { s with led := { s.led with cur := f s.led.cur } }
def onCon (f : Concord → Concord) (s : State) : State := { s with con := f s.con }
def onPwm (f : Pwm → Pwm) (s : State) : State := { s with mot := { s.mot with pwm := f s.mot.pwm } }
def onAdc (f : Adc → Adc) (s : State) : State := { s with mot := { s.mot with adc := f s.mot.adc } }
def onCap (f : Tcap → Tcap) (s : State) : State := { s with mot := { s.mot with tcap := f s.mot.tcap } }
def onTsl (f : Teasel → Teasel) (s : State) : State := { s with mot := { s.mot with tsl := f s.mot.tsl } }
def onCel (f : Celandine → Celandine) (s : State) : State := { s with cel := f s.cel }
def onCore (f : CoreState → CoreState) (s : State) : State := { s with core := s.core.map f }
def onMem (f : Memory → Memory) (s : State) : State := { s with mem := f s.mem }
def onPer (f : Periph → Periph) (s : State) : State := { s with per := f s.per }
def onOwn (f : FctlOwn → FctlOwn) (s : State) : State := { s with fl := { s.fl with own := s.fl.own.map f } }
def onBank (f : Bank → Bank) (s : State) : State := { s with fl := { s.fl with banks := s.fl.banks.map f } }
def onJou (f : Journal → Journal) (s : State) : State := { s with jou := f s.jou }
def onDbg (f : Debug → Debug) (s : State) : State := { s with dbg := f s.dbg }
def onAll (f : State → State) (s : State) : State := f s

/-- The octets of a frame whose octets before the CRC are given. -/
def tFrame (l : List Octet) : List Octet := l ++ leOctets 4 (crc32c l).toNat

/-- The base point of P-256. -/
def tPoint : List Octet :=
  (leOctets 32 0x6B17D1F2E12C4247F8BCE6E563A440F277037D812DEB33A0F4A13945D898C296).reverse ++
    (leOctets 32 0x4FE342E2FE1A7F9B8EE7EB4A7C0F9E162BCE33576B315ECECBB6406837BF51F5).reverse

/-- A program image of one section that keeps R623's rules, its signature octets zero. -/
def tImage : List Word :=
  leWords 2 0x1B70A5 ++ [1, 1, 1] ++ leWords 2 0x120004 ++ List.replicate 8 0 ++ leWords 2 0x120000 ++ List.replicate 10 0 ++ [1] ++
    leWords 2 68 ++ List.replicate 10 0 ++ [1] ++ leWords 2 0x120000 ++ leWords 2 20 ++ leWords 2 48 ++ List.replicate 64 0

/-- A member of the vehicle at node 1. -/
def tMember : Member := ⟨1, 5, .pack, 1, false, Session.fresh (List.replicate 32 0) 0, none, 3, true, false, none, none⟩

/-- A Teasel edition of number 9 in range, its signature octets zero. -/
def tEdition : List Word :=
  leWords 2 0x3D1E71 ++ [BitVec.ofNat 12 (domCode .teasel)] ++ leWords 2 9 ++ [1, 17, 0] ++ List.replicate 17 0 ++ List.replicate 43 0

/-- A vehicle edition of a pack of one cell: descriptor 0 reads the cell, descriptor 1 the current, each of two octets. -/
def tPackEdition : List Word :=
  ((((List.replicate 128 0).set 65 1).set 69 3 : List Word).set 70 1).set 73 100 |>.set 74 2 |>.set 77 1000

/-- A fleet root key under which the certificate below verifies: R - G, where R has the digest of the certificate as its X. -/
def tRoot : List Octet :=
  beOctets 32 0xAC424FA73176159675723A214E5920BA0F5086512970FB7F35F2593454FACD5F ++
    beOctets 32 0x4587941687C1309C37DAF8E679E735BB663F5FF65B173667EC78EF9F55B56570

/-- What a pack's certificate signs: level 3, identity 50, valid from 0 to 10 000 005. -/
def tCertHead : List Octet :=
  [3, 1, 0, 0] ++ leOctets 5 50 ++ leOctets 4 0 ++ leOctets 2 0 ++ leOctets 5 0 ++ leOctets 5 10000005 ++ tPoint

/-- The certificate: both halves of the signature are the digest. -/
def tCert : List Octet := tCertHead ++ sha256 tCertHead ++ sha256 tCertHead

/-- A pack's JOIN_REQ of level 3 with that certificate. -/
def tJoin : List Octet := [1, 3, 0, 0] ++ List.replicate 16 7 ++ tPoint ++ tCert

/-- A key under which the tariff edition below verifies, made in the same way. -/
def tEditionKey : List Octet :=
  beOctets 32 0xE12F2A6087F2BCAD9C1830F242F858D31C2838B9DD533C794905398FA36100B8 ++
    beOctets 32 0x9623C5A5B1594C269C9D2A5AFA37B4159F056E84B4752588348DB1C1B7AE5F53

/-- A tariff edition of number 8 with no payload words, and a signature that verifies. -/
def tSigned : EdRecord :=
  let h := sha256 (packWords (signedWords .tariff (EdRecord.words .tariff ⟨8, false, [], [], tEditionKey⟩)))
  ⟨8, false, [], (octetsToWords (h ++ h ++ [0, 0])).take 43, tEditionKey⟩

/-- A page of 253 zero words and their CRC. -/
def tPage : List Word := List.replicate 253 0 ++ crcWords (List.replicate 253 0)

/-- Cells that hold those words from an address on, and nothing else. -/
def tCells (a : Nat) (ws : List Word) : WordMem := ws.zipIdx.map (fun p => (a + p.2, p.1))

/-- A ride of number 7, of no fare, closed in ring page 0. -/
def tClosed : RideRecord :=
  ⟨0, 7, 1, 0, ⟨7, RideFlags.none, 1, [], ⟨0, 0, 0, 0, 0, 3, 0⟩, 0, [], 0, none⟩, ⟨0, 0, 0, 0, none, none, none, none⟩, none, false⟩

/-- `State.reaches` as a test. -/
def reachesB (s : State) (r : Requester) (a : Nat) : Bool :=
  match r with | .core i => decide (s.ioCause i a = none) | .steward | .dma => s.portServes a

theorem reaches_iff {s : State} {r : Requester} {a : Nat} : s.reaches r a ↔ reachesB s r a = true := by
  cases r <;> simp [State.reaches, reachesB]

/-- `State.storeReaches` as a test. -/
def storeReachesB (s : State) (r : Requester) (a : Nat) : Bool :=
  match r with | .core i => decide (s.region i a = .flash) | .steward | .dma => s.portServes 0x200

theorem storeReaches_iff {s : State} {r : Requester} {a : Nat} : s.storeReaches r a ↔ storeReachesB s r a = true := by
  cases r <;> simp [State.storeReaches, storeReachesB]

theorem pages_range (t : LedgerTail) : 1 ≤ (t.record.length + 255) / 256 ∧ (t.record.length + 255) / 256 ≤ 4 := by
  have h : t.tailWords.length ≤ 1004 := by simp only [LedgerTail.tailWords, List.length_take]; omega
  have c (l : List Word) : (crcWords l).length = 3 := by simp [crcWords, leWords]
  have r : t.record.length = ((2 + t.tailWords.length) + 3 + 255) / 256 * 256 := by
    have hm : (leWords 2 Config.tailMark).length = 2 := by simp [leWords]
    simp only [LedgerTail.record, List.length_append, List.length_take, List.length_replicate, c, hm]; omega
  omega

/-- A state with a ride open. -/
def tR : State := onTail (fun x => { x with ride := some ⟨7, RideFlags.none, 1, [], ⟨0, 0, 0, 0, 0, 3, 0⟩, 0, [], 0, none⟩ }) (tOn .vehicle)

/-- A state in which a ride may open. -/
def tG : State := onAll (fun x => { x with boot := { x.boot with lifecycle := .fielded }, con := { x.con with members := [tMember] }, img := { x.img with rejected := false, slots := x.img.slots.set 0 (some ⟨[], false, none⟩) } }) (onCus (fun x => { x with imageActive := some 0, slots := Vector.replicate 5 { DomainSlots.reset with current := some ⟨5, false, [], [], []⟩ } }) (tOn .vehicle))

/-- Octet data packs and unpacks to the same words, of an even number (R6, R7, R9). -/
theorem unpack_pack : ∀ ws : List Word, ws.length % 2 = 0 → unpackOctets (packWords ws) = ws
  | [], _ => rfl
  | [_], h => by simp at h
  | a :: b :: ws, h => by
    have ih := unpack_pack ws (by simp only [List.length_cons] at h; omega)
    simp only [packWords, unpackOctets, ih, List.cons.injEq, and_true]
    constructor <;> apply BitVec.eq_of_getLsbD_eq <;> intro k hk <;>
      (obtain rfl | rfl | rfl | rfl | rfl | rfl | rfl | rfl | rfl | rfl | rfl | rfl :
          k = 0 ∨ k = 1 ∨ k = 2 ∨ k = 3 ∨ k = 4 ∨ k = 5 ∨ k = 6 ∨ k = 7 ∨ k = 8 ∨ k = 9 ∨ k = 10 ∨ k = 11 := by omega) <;> simp

/-- Words listed from an address on, with no other, read back as they are listed. -/
theorem get_listed (fill : Word) (a : Nat) (ws : List Word) : memGetList fill (tCells a ws) a ws.length = ws := by
  have key : ∀ (l : List Word) (k i : Nat) (h : i < l.length),
      lookupD fill (a + (k + i)) ((l.zipIdx k).map (fun p => (a + p.2, p.1))) = l[i] := by
    intro l
    induction l with
    | nil => intro k i h; simp at h
    | cons x l ih =>
      intro k i h
      cases i with
      | zero => simp [lookupD]
      | succ i =>
        have := ih (k + 1) i (by simpa using h)
        simp only [List.zipIdx_cons, List.map_cons, lookupD, List.getElem_cons_succ]
        rw [if_neg (by omega), show a + (k + (i + 1)) = a + (k + 1 + i) by omega, this]
  apply List.ext_getElem
  · simp [memGetList]
  · intro i h1 h2
    simpa [memGetList, memGet, tCells] using key ws 0 i h2

theorem crcWords_length (l : List Word) : (crcWords l).length = 3 := by simp [crcWords, leWords]

theorem tPage_length : tPage.length = 256 := by
  simp only [tPage, List.length_append, List.length_replicate, crcWords_length]

theorem tPage_closed : tPage.drop 253 = crcWords (tPage.take 253) := by
  have h : (List.replicate 253 (0 : Word)).length = 253 := List.length_replicate
  generalize hz : List.replicate 253 (0 : Word) = z at h
  simp only [tPage, hz]
  rw [List.drop_left' h, List.take_left' h]

theorem tPage_good {s : State} {key : Option Nat} (n : Nat) (h : s.cus.keys.sealing ≠ key) : s.recordGood key n tPage = true := by
  simp only [State.recordGood, if_neg h, tPage_closed, tPage_length, decide_true, Bool.and_self]

/-- The page's words stand in ring page 0. -/
theorem tPage_reads {s : State} (h : s.fl.cells = tCells (ringAddr 0) tPage) : s.ringReads FlashFacts.sound 0 256 = some tPage := by
  have := get_listed 0xFFF (ringAddr 0) tPage
  rw [tPage_length] at this
  simp only [State.ringReads, State.wordsRead, FlashFacts.sound, List.any_nil, Bool.false_eq_true, if_false, h, this]

theorem tPage_octets : octetsToWords (recOctets tPage) = tPage := by
  have l : ∀ ws : List Word, ws.length % 2 = 0 → (packWords ws).length = ws.length / 2 * 3 := by
    intro ws
    induction ws using packWords.induct with
    | case1 => simp [packWords]
    | case2 => simp
    | case3 a b ws ih => intro h; simp only [List.length_cons] at h; simp only [packWords, List.length_cons, ih (by omega)]; omega
  have e : tPage.length % 2 = 0 := by rw [tPage_length]
  simp only [octetsToWords, recOctets, l _ e, tPage_length]
  exact unpack_pack _ e

/-- A state whose ring page 0 holds the page of a closed ride. -/
def tP : State := onCus (fun x => { x with keys := ⟨some tPoint, some tPoint, some tPoint, some [], some 0, 0⟩ }) (onAll (fun x => { x with fl := { x.fl with cells := tCells (ringAddr 0) tPage } }) (onCus (fun x => { x with imageActive := some 0, slots := Vector.replicate 5 { DomainSlots.reset with current := some ⟨5, false, [], [], []⟩ } }) (onLed (fun x => { x with rides := [tClosed] }) (onTail (fun x => { x with clock := { Clock.reset with wall := 5000, cls := 0 } }) (tOn .vehicle)))))

/-- A state whose ring page 0 holds the page of a sealed period. -/
def tQ : State := onCon (fun x => { x with members := [tMember], relay := some ⟨.hostPort, 1⟩ }) (onAll (fun x => { x with fl := { x.fl with cells := tCells (ringAddr 0) tPage } }) (onCon (fun x => { x with phase := .member, vehicle := some (5, 9) }) (onCus (fun x => { x with keys := ⟨some tPoint, some tPoint, some tPoint, some [], some 0, 0⟩ }) (onBoot (fun x => { x with lifecycle := .fielded }) (onLed (fun x => { x with periods := [⟨0, 7, 0, [], none, false, false, false⟩] }) (onPres (fun x => { x with windowOpen := true, sources := ⟨true, false, false⟩, jumperFitted := true }) (tOn .vehicle)))))))

/-- A state whose journal holds the page of a sealed period. -/
def tJ : State := onCon (fun x => { x with members := [tMember], relay := some ⟨.hostPort, 1⟩ }) (onJou (fun x => { x with blocks := [(5, ⟨.full, 4, [⟨77, [⟨2, false, 5, 0, 0, 0, recOctets tPage, .period 0 7⟩]⟩]⟩)], state := .ready }) (onCon (fun x => { x with phase := .member, vehicle := some (5, 9) }) (onCus (fun x => { x with keys := ⟨some tPoint, some tPoint, some tPoint, some [], some 0, 0⟩ }) (onBoot (fun x => { x with lifecycle := .fielded }) (onTail (fun x => { x with ride := some ⟨7, RideFlags.none, 1, [], ⟨0, 0, 0, 0, 0, 3, 0⟩, 0, [], 0, none⟩ }) (onLed (fun x => { x with periods := [⟨0, 7, 0, [], none, false, false, false⟩] }) (onPres (fun x => { x with windowOpen := true, sources := ⟨true, false, false⟩, jumperFitted := true }) (tOn .vehicle))))))))

theorem identity_read : fieldNat ([1] ++ leOctets 5 Config.identity.toNat) 1 5 = Config.identity.toNat := by
  have := Config.identity.isLt
  simp only [fieldNat, List.singleton_append, List.drop_succ_cons, List.drop_zero, leOctets, List.take_succ_cons, List.take_nil, leNat, BitVec.toNat_ofNat]
  omega

/-- A pack that joins and holds no session. -/
def tI : State := onBoot (fun x => { x with lifecycle := .fielded, tier := .t1 }) (onCus (fun x => { x with keys := ⟨some tPoint, some tPoint, some tRoot, some tCert, some 0, 0⟩ }) (onCon (fun x => { x with serving := some ⟨joinRequestOf tJoin, List.replicate 16 3, 9, List.replicate 297 5⟩ }) (onCon (fun x => { x with offerQueued := true }) (onCon (fun x => { x with phase := .joining, joining := some ⟨List.replicate 16 2, 4, List.replicate 237 6⟩, proved := false }) (tOn .pack)))))

/-- A state with a ride open and no page free in the ring. -/
def tL : State := onLed (fun x => { x with ring := { x.ring with used := List.range 32, page := 128 } }) tR
/-- The frames that the block sends as node 0 to its vehicle carry its tie. -/
theorem own_frame (n : Nat) (d : List Octet) :
    let f : CanFrame := ⟨concordId 5 0 6 ownTie, true, true, true, false, n, d⟩
    inPlan f = true ∧ concordType f = 5 ∧ concordSrc f = 0 ∧ concordDst f = 6 ∧ concordTie f = ownTie := by
  have h : (concordId 5 0 6 ownTie).toNat = 0xB * 2 ^ 25 + concordPri 5 * 2 ^ 22 + 5 * 2 ^ 17 + 6 * 2 ^ 11 + ownTie := by
    simp only [concordId, BitVec.toNat_ofNat, ownTie, show concordPri 5 = 3 by decide]; omega
  have hp : concordPri 5 = 3 := by decide
  have ht : ownTie < 2048 := by simp only [ownTie]; omega
  simp only [inPlan, concordType, concordSrc, concordDst, concordTie, h, hp]
  refine ⟨?_, by omega, by omega, by omega, by omega⟩
  have a : (0xB * 2 ^ 25 + 3 * 2 ^ 22 + 5 * 2 ^ 17 + 6 * 2 ^ 11 + ownTie) / 2 ^ 25 = 0xB := by omega
  have b : (0xB * 2 ^ 25 + 3 * 2 ^ 22 + 5 * 2 ^ 17 + 6 * 2 ^ 11 + ownTie) / 2 ^ 14 % 8 = 0 := by omega
  have c : (0xB * 2 ^ 25 + 3 * 2 ^ 22 + 5 * 2 ^ 17 + 6 * 2 ^ 11 + ownTie) / 2 ^ 11 % 8 = 6 := by omega
  rw [a, b, c]; decide
/-- A pack that has proved itself. -/
def tV : State := onCon (fun x => { x with phase := .joining, proved := true, session := some (Session.fresh (List.replicate 32 0) 0) }) (tOn .pack)

/-- The hypotheses of FlagBitsOfSums are met. -/
theorem witness_FlagBitsOfSums :
    ∃ (n : Nat), (n = 12 ∨ n = 24) :=
  ⟨12, by decide +kernel⟩

/-- The hypotheses of AluWordOperations are met. -/
theorem witness_AluWordOperations :
    ∃ (s : State) (i : Fin 4) (ra : Fin 32), Ready s i ∧ ra.val < 15 :=
  ⟨tCore CoreState.reset, 0, 0, ready_of (by decide +kernel), by decide +kernel⟩

/-- The hypotheses of SpecialRegisterWrites are met. -/
theorem witness_SpecialRegisterWrites :
    ∃ (s : State) (i : Fin 4) (n : Fin 32), Ready s i ∧ (n = 2 ∨ n = 3 ∨ n = 6 ∨ n = 7 ∨ n = 8 ∨ n = 9 ∨ n = 10 ∨ n = 12) :=
  ⟨tCore CoreState.reset, 0, 2, ready_of (by decide +kernel), by decide +kernel⟩

/-- The hypotheses of PairAndProductOperations are met. -/
theorem witness_PairAndProductOperations :
    ∃ (s : State) (i : Fin 4) (rb : Fin 32), Ready s i ∧ rb.val ≤ 12 :=
  ⟨tCore CoreState.reset, 0, 0, ready_of (by decide +kernel), by decide +kernel⟩

/-- The hypotheses of Divisions are met. -/
theorem witness_Divisions :
    (∃ (s : State) (i : Fin 4) (rb : Fin 32), Ready s i ∧ (let c := s.core.get i; let b := c.w.get rb; b ≠ 0)) ∧
    (∃ (s : State) (i : Fin 4) (rb : Fin 32), Ready s i ∧ (let c := s.core.get i; let b := c.w.get rb; b = 0 ∧ c.ctl.getLsbD 2 = false)) ∧
    (∃ (s : State) (i : Fin 4) (rb : Fin 32), Ready s i ∧ (let c := s.core.get i; let b := c.w.get rb; b = 0 ∧ c.ctl.getLsbD 2 = true ∧ c.ctl.getLsbD 4 = false)) :=
  ⟨⟨tCore (tRegs 0xFFF800 0xFFFFFF), 0, 0, ready_of (by decide +kernel), by dsimp only; decide +kernel⟩,
   ⟨tCore CoreState.reset, 0, 0, ready_of (by decide +kernel), by dsimp only; decide +kernel⟩,
   ⟨tCore { CoreState.reset with ctl := 4 }, 0, 0, ready_of (by decide +kernel), by dsimp only; decide +kernel⟩⟩

/-- The hypotheses of ScratchLoadsAndStores are met. -/
theorem witness_ScratchLoadsAndStores :
    (∃ (s : State) (i : Fin 4) (p : Fin 16) (disp : BitVec 7), Ready s i ∧ (let c := s.core.get i; let a := (c.dataAddr p disp).toNat; a < 0x4000 ∧ a % 2 = 0)) ∧
    (∃ (s : State) (i : Fin 4) (rd : Fin 32) (p : Fin 16), Ready s i ∧ (let c := s.core.get i; let base := (c.rp p).toNat; base < 0x4000 ∧ pairOf rd ≠ p)) ∧
    (∃ (s : State) (i : Fin 4) (p : Fin 16) (q : Fin 16), Ready s i ∧ (let c := s.core.get i; let base := (c.rp p).toNat; base < 0x4000 ∧ (c.rp q).toNat < 0x4000 ∧ q ≠ p)) :=
  ⟨⟨tCore (tRegs 0x003FFE 0x003FFF), 0, 0, 0, ready_of (by decide +kernel), by dsimp only; decide +kernel⟩,
   ⟨tCore (tRegs 0x003FFE 0x003FFF), 0, 2, 0, ready_of (by decide +kernel), by dsimp only; decide +kernel⟩,
   ⟨tCore (tRegs 0x003FFE 0x003FFF), 0, 1, 0, ready_of (by decide +kernel), by dsimp only; decide +kernel⟩⟩

/-- The hypotheses of BranchesAndCounters are met. -/
theorem witness_BranchesAndCounters :
    ∃ (s : State) (i : Fin 4) (p : Fin 16), Ready s i ∧ (let c := s.core.get i; let even : Prop := (c.rp p).getLsbD 0 = false; s.dbg.traceRate = 0 ∧ even) :=
  ⟨tCore CoreState.reset, 0, 0, ready_of (by decide +kernel), by dsimp only; decide +kernel⟩

/-- The hypotheses of TrapsOfBundlesAndOfFetches are met. -/
theorem witness_TrapsOfBundlesAndOfFetches :
    (∃ (s : State) (i : Fin 4) (p : Fin 16) (disp : BitVec 7), Ready s i ∧ (let c := s.core.get i; let a := c.dataAddr p disp; (s.core.get i).ctl.getLsbD 4 = false ∧ 0x4000 ≤ a.toNat ∧ a.toNat < 0x100000)) ∧
    (∃ (s : State) (i : Fin 4) (p : Fin 16) (disp : BitVec 7), Ready s i ∧ (let c := s.core.get i; let a := c.dataAddr p disp; (s.core.get i).ctl.getLsbD 4 = false ∧ 0x100000 ≤ a.toNat ∧ a.toNat < 0x110000)) ∧
    (∃ (s : State) (i : Fin 4) (p : Fin 16) (disp : BitVec 7), Ready s i ∧ (let c := s.core.get i; let a := c.dataAddr p disp; (s.core.get i).ctl.getLsbD 4 = false ∧ a.toNat < 0x4000 ∧ a.toNat % 2 = 1)) ∧
    (∃ (s : State) (i : Fin 4) (p : Fin 16), Ready s i ∧ (let c := s.core.get i; (s.core.get i).ctl.getLsbD 4 = false ∧ (c.rp p).getLsbD 0 = true)) ∧
    (∃ (s : State) (i : Fin 4) (rb : Fin 32), Ready s i ∧ (s.core.get i).ctl.getLsbD 4 = false ∧ 12 < rb.val) ∧
    (∃ (s : State) (i : Fin 4) (rd : Fin 32), Ready s i ∧ (s.core.get i).ctl.getLsbD 4 = false ∧ 15 ≤ rd.val) ∧
    (∃ (s : State) (i : Fin 4) (rd : Fin 32), Ready s i ∧ (s.core.get i).ctl.getLsbD 4 = false ∧ rd ≠ 0) ∧
    (∃ (s : State) (i : Fin 4) (rd : Fin 32), Ready s i ∧ (s.core.get i).ctl.getLsbD 4 = false ∧ rd.val % 2 = 1) ∧
    (∃ (s : State) (i : Fin 4) (ra : Fin 32), Ready s i ∧ (s.core.get i).ctl.getLsbD 4 = false ∧ 15 ≤ ra.val) ∧
    (∃ (s : State) (i : Fin 4), let c := s.core.get i; let odd : Prop := c.pc.getLsbD 0 = true; c.run = .running ∧ c.gather = [] ∧ c.gatherX = [] ∧ c.closed = false ∧ c.preTrap = none ∧ c.window = [] ∧ c.staleTags.length ≤ 58 ∧ s.mem.loaded.filter (fun x => x.cache = .core i) = [] ∧ c.ctl.getLsbD 4 = false ∧ odd) ∧
    (∃ (s : State) (i : Fin 4), let c := s.core.get i; let out : Prop := c.pc.getLsbD 0 = false ∧ ¬ (0x110000 ≤ c.pc.toNat ∧ c.pc.toNat < 0x200000); c.run = .running ∧ c.gather = [] ∧ c.gatherX = [] ∧ c.closed = false ∧ c.preTrap = none ∧ c.window = [] ∧ c.staleTags.length ≤ 58 ∧ s.mem.loaded.filter (fun x => x.cache = .core i) = [] ∧ c.ctl.getLsbD 4 = false ∧ out) ∧
    (∃ (s : State) (i : Fin 4), let c := s.core.get i; let odd : Prop := c.pc.getLsbD 0 = true; let out : Prop := c.pc.getLsbD 0 = false ∧ ¬ (0x110000 ≤ c.pc.toNat ∧ c.pc.toNat < 0x200000); c.run = .running ∧ c.gather = [] ∧ c.gatherX = [] ∧ c.closed = false ∧ c.preTrap = none ∧ c.window = [] ∧ c.staleTags.length ≤ 58 ∧ s.mem.loaded.filter (fun x => x.cache = .core i) = [] ∧ c.ctl.getLsbD 4 = true ∧ (odd ∨ out)) :=
  ⟨⟨tCore (tRegs 0x004000 0x0FFFFF), 0, 0, 0, ready_of (by decide +kernel), by dsimp only; decide +kernel⟩,
   ⟨tCore (tRegs 0x100000 0x10FFFF), 0, 0, 0, ready_of (by decide +kernel), by dsimp only; decide +kernel⟩,
   ⟨tCore (tRegs 0x003FFF 0x000001), 0, 0, 0, ready_of (by decide +kernel), by dsimp only; decide +kernel⟩,
   ⟨tCore (tRegs 0x003FFF 0x000001), 0, 0, ready_of (by decide +kernel), by dsimp only; decide +kernel⟩,
   ⟨tCore (tRegs 0x004000 0x0FFFFF), 0, 13, ready_of (by decide +kernel), by decide +kernel⟩,
   ⟨tCore (tRegs 0x004000 0x0FFFFF), 0, 15, ready_of (by decide +kernel), by decide +kernel⟩,
   ⟨tCore (tRegs 0x004000 0x0FFFFF), 0, 15, ready_of (by decide +kernel), by decide +kernel⟩,
   ⟨tCore (tRegs 0x004000 0x0FFFFF), 0, 15, ready_of (by decide +kernel), by decide +kernel⟩,
   ⟨tCore (tRegs 0x004000 0x0FFFFF), 0, 15, ready_of (by decide +kernel), by decide +kernel⟩,
   ⟨tCoreIs { CoreState.reset with run := .running, pc := 0x1FFFFF }, 0, by dsimp only; decide +kernel⟩,
   ⟨tCoreIs { CoreState.reset with run := .running, pc := 0x200000 }, 0, by dsimp only; decide +kernel⟩,
   ⟨tCoreIs { CoreState.reset with run := .running, ctl := 0x10, pc := 0x10FFFE }, 0, by dsimp only; decide +kernel⟩⟩

/-- The hypotheses of LongImmediates are met. -/
theorem witness_LongImmediates :
    (∃ (s : State) (i : Fin 4) (p : Fin 16) (disp : BitVec 7) (x : BitVec 17), Ready s i ∧ (let c := s.core.get i; let far : Pair := BitVec.ofNat 24 (128 * x.toNat + disp.toNat); let a := (c.rp p + far).toNat; (s.core.get i).pc.toNat + 4 ≤ 0x200000 ∧ s.dbg.traceRate = 0 ∧ x.toNat < 4096 ∧ a < 0x4000)) ∧
    (∃ (s : State) (i : Fin 4) (imm : Word) (x : BitVec 17), Ready s i ∧ (let long : Pair := BitVec.ofNat 24 (4096 * x.toNat + imm.toNat); (s.core.get i).pc.toNat + 4 ≤ 0x200000 ∧ s.dbg.traceRate = 0 ∧ x.toNat < 4096 ∧ long.getLsbD 0 = false)) ∧
    (∃ (s : State) (i : Fin 4) (imm : Word) (x : BitVec 17), Ready s i ∧ (let c := s.core.get i; let long : Pair := BitVec.ofNat 24 (4096 * x.toNat + imm.toNat); (s.core.get i).pc.toNat + 4 ≤ 0x200000 ∧ s.dbg.traceRate = 0 ∧ x.toNat < 4096 ∧ long.getLsbD 0 = true ∧ c.ctl.getLsbD 4 = false)) :=
  ⟨⟨tCore CoreState.reset, 0, 0, 0, 0, ready_of (by decide +kernel), by dsimp only; decide +kernel⟩,
   ⟨tCore CoreState.reset, 0, 0, 0, ready_of (by decide +kernel), by dsimp only; decide +kernel⟩,
   ⟨tCore CoreState.reset, 0, 1, 0, ready_of (by decide +kernel), by dsimp only; decide +kernel⟩⟩

/-- The hypotheses of CacheOrderAndDoorbells are met. -/
theorem witness_CacheOrderAndDoorbells :
    (∃ (s : State) (i : Fin 4), Ready s i ∧ s.mem.storesVisible i = true) ∧
    (∃ (s : State) (i : Fin 4) (p : Fin 16) (disp : BitVec 7), Ready s i ∧ (let c := s.core.get i; let a := (c.dataAddr p disp).toNat; let line := a / 16; s.mem.lineIn (.core i) line = none)) ∧
    (∃ (s : State) (i : Fin 4) (p : Fin 16) (disp : BitVec 7) (l : CacheLine), Ready s i ∧ (let c := s.core.get i; let a := (c.dataAddr p disp).toNat; let line := a / 16; s.mem.lineIn (.core i) line = some l ∧ l.err = false ∧ l.state = .m)) ∧
    (∃ (s : State) (i : Fin 4) (p : Fin 16) (disp : BitVec 7) (l : CacheLine), Ready s i ∧ (let c := s.core.get i; let a := (c.dataAddr p disp).toNat; let line := a / 16; s.mem.lineIn (.core i) line = some l ∧ l.err = false ∧ l.state = .e)) ∧
    (∃ (s : State) (i : Fin 4) (p : Fin 16) (disp : BitVec 7) (l : CacheLine), Ready s i ∧ (let c := s.core.get i; let a := (c.dataAddr p disp).toNat; let line := a / 16; s.mem.lineIn (.core i) line = some l ∧ l.err = false ∧ l.state = .s)) ∧
    (∃ (s : State) (i : Fin 4) (addr : Word), Ready s i ∧ (let c := s.core.get i; c.ctl.getLsbD 4 = false ∧ (512 ≤ addr.toNat ∧ c.grants.blocks.getLsbD (addr.toNat / 256) = false ∨ 0xF00 ≤ addr.toNat))) ∧
    (∃ (s : State) (i : Fin 4) (addr : Word), ¬s.reaches (.core i) addr.toNat) ∧
    (∃ (s : State) (addr : Word), ¬s.reaches .steward addr.toNat) :=
  ⟨⟨tCore (tRegs 0x110000 0x11000F), 0, ready_of (by decide +kernel), by decide +kernel⟩,
   ⟨tCore (tRegs 0x110000 0x11000F), 0, 0, 0, ready_of (by decide +kernel), by dsimp only; decide +kernel⟩,
   ⟨onMem (fun x => { x with dcache := x.dcache.set 0 [(0x11000, { state := .m, data := Vector.replicate 16 5, err := false, waits := [] })] }) (tCore (tRegs 0x110000 0x11000F)), 0, 0, 0, { state := .m, data := Vector.replicate 16 5, err := false, waits := [] }, ready_of (by decide +kernel), by dsimp only; decide +kernel⟩,
   ⟨onMem (fun x => { x with dcache := x.dcache.set 0 [(0x11000, { state := .e, data := Vector.replicate 16 5, err := false, waits := [] })] }) (tCore (tRegs 0x110000 0x11000F)), 0, 0, 0, { state := .e, data := Vector.replicate 16 5, err := false, waits := [] }, ready_of (by decide +kernel), by dsimp only; decide +kernel⟩,
   ⟨onMem (fun x => { x with dcache := x.dcache.set 0 [(0x11000, { state := .s, data := Vector.replicate 16 5, err := false, waits := [] })] }) (tCore (tRegs 0x110000 0x11000F)), 0, 0, 0, { state := .s, data := Vector.replicate 16 5, err := false, waits := [] }, ready_of (by decide +kernel), by dsimp only; decide +kernel⟩,
   ⟨tCore (tRegs 0x110000 0x11000F), 0, 0xF00, ready_of (by decide +kernel), by dsimp only; decide +kernel⟩,
   ⟨tCore (tRegs 0x110000 0x11000F), 0, 0xF00, by simp only [reaches_iff]; decide +kernel⟩,
   ⟨tCore (tRegs 0x110000 0x11000F), 0xF00, by simp only [reaches_iff]; decide +kernel⟩⟩

/-- The hypotheses of WaitsAndInterrupts are met. -/
theorem witness_WaitsAndInterrupts :
    (∃ (s : State) (i : Fin 4), Ready s i ∧ s.interrupts i ≠ 0) ∧
    (∃ (s : State) (i : Fin 4), Ready s i ∧ s.interrupts i = 0) ∧
    (∃ (s : State) (i : Fin 4), let c := s.core.get i; c.run = .waiting ∧ s.interrupts i ≠ 0 ∧ c.window = [] ∧ c.preTrap = none ∧ ¬ (c.ctl.getLsbD 3 = true ∧ c.ctl.getLsbD 4 = false)) ∧
    (∃ (s : State) (i : Fin 4) (n : Nat), let c := s.core.get i; let first : Prop := n < 12 ∧ (s.interrupts i).getLsbD n = true ∧ ∀ m : Fin 12, m.val < n → (s.interrupts i).getLsbD m.val = false; c.run = .waiting ∧ s.interrupts i ≠ 0 ∧ c.window = [] ∧ c.preTrap = none ∧ c.ctl.getLsbD 3 = true ∧ c.ctl.getLsbD 4 = false ∧ first) ∧
    (∃ (s : State) (i : Fin 4) (n : Nat), let c := s.core.get i; let first : Prop := n < 12 ∧ (s.interrupts i).getLsbD n = true ∧ ∀ m : Fin 12, m.val < n → (s.interrupts i).getLsbD m.val = false; c.run = .running ∧ c.ctl.getLsbD 3 = true ∧ c.ctl.getLsbD 4 = false ∧ first ∧ c.preTrap = none ∧ (∀ e ∈ c.window, c.firm ≤ e.bundle) ∧ c.headTrap = none) :=
  ⟨⟨tCoreIs { CoreState.reset with run := .running, pc := 0x110000, tvb := 0x1FFF80, ctl := 0, ien := 0xFFF, dbsrc := 1, pwmEvent := true }, 0, ready_of (by decide +kernel), by decide +kernel⟩,
   ⟨tCoreIs { CoreState.reset with run := .running, pc := 0x110000, tvb := 0x1FFF80, ctl := 0, ien := 0, dbsrc := 1, pwmEvent := true }, 0, ready_of (by decide +kernel), by decide +kernel⟩,
   ⟨tCoreIs { CoreState.reset with run := .waiting, pc := 0x110000, tvb := 0x1FFF80, ctl := 0, ien := 0xFFF, dbsrc := 1, pwmEvent := true }, 0, by dsimp only; decide +kernel⟩,
   ⟨tCoreIs { CoreState.reset with run := .waiting, pc := 0x110000, tvb := 0x1FFF80, ctl := 8, ien := 0xFFF, dbsrc := 1, pwmEvent := true }, 0, 1, by dsimp only; decide +kernel⟩,
   ⟨tCoreIs { CoreState.reset with run := .running, pc := 0x110000, tvb := 0x1FFF80, ctl := 8, ien := 0xFFF, dbsrc := 1, pwmEvent := true }, 0, 1, by dsimp only; decide +kernel⟩⟩

/-- The hypotheses of LateResultsAndMispredictions are met. -/
theorem witness_LateResultsAndMispredictions :
    ∃ (s : State) (i : Fin 4), Ready s i ∧ s.dbg.traceRate = 0 :=
  ⟨tCore CoreState.reset, 0, ready_of (by decide +kernel), by decide +kernel⟩

/-- The hypotheses of CoprocessorOperationsInFlight are met. -/
theorem witness_CoprocessorOperationsInFlight :
    (∃ (s : State) (i : Fin 4) (pd : Fin 16) (pa : Fin 16), Ready s i ∧ (∀ j : Fin 4, j ≠ i → (s.core.get j).run ≠ .running ∨ s.cacheStill (.core j)) ∧ s.copFree i .decimal ∧ (∀ x ∈ s.cop.ops, x.cop ≠ .decimal) ∧ (∀ x ∈ s.cop.tokens, x.1 ≠ .decimal) ∧ pd.val + 3 ≤ 16 ∧ pa.val + 3 ≤ 16) ∧
    (∃ (s : State) (i : Fin 4) (p : Coproc) (tag : Nat), Ready s i ∧ (let me : Coproc × Fin 5 × Nat := (p, coreOwner i, tag); (∀ j : Fin 4, j ≠ i → (s.core.get j).run ≠ .running ∨ s.cacheStill (.core j)) ∧ me ∉ s.cop.tokens)) ∧
    (∃ (s : State) (i : Fin 4) (p : Coproc) (tag : Nat), Ready s i ∧ (let me : Coproc × Fin 5 × Nat := (p, coreOwner i, tag); (∀ j : Fin 4, j ≠ i → (s.core.get j).run ≠ .running ∨ s.cacheStill (.core j)) ∧ me ∈ s.cop.tokens ∧ (∀ x ∈ s.cop.ops, ¬ (x.cop = p ∧ x.owner = coreOwner i ∧ x.tag = tag)))) ∧
    (∃ (s : State) (i : Fin 4) (p : Coproc) (o : CopOp) (tag : Nat), Ready s i ∧ (let me : Coproc × Fin 5 × Nat := (p, coreOwner i, tag); (∀ j : Fin 4, j ≠ i → (s.core.get j).run ≠ .running ∨ s.cacheStill (.core j)) ∧ me ∈ s.cop.tokens ∧ s.cop.ops = [o] ∧ o.cop = p ∧ o.owner = coreOwner i ∧ o.tag = tag ∧ o.stale = true ∧ o.phase = .queued)) ∧
    (∃ (s : State) (i : Fin 4) (p : Coproc) (o : CopOp) (tag : Nat), Ready s i ∧ (let me : Coproc × Fin 5 × Nat := (p, coreOwner i, tag); (∀ j : Fin 4, j ≠ i → (s.core.get j).run ≠ .running ∨ s.cacheStill (.core j)) ∧ me ∈ s.cop.tokens ∧ s.cop.ops = [o] ∧ o.cop = p ∧ o.owner = coreOwner i ∧ o.tag = tag ∧ o.stale = true ∧ o.phase = .running ∧ o.ct = true)) ∧
    (∃ (s : State) (i : Fin 4) (p : Coproc) (o : CopOp) (tag : Nat), Ready s i ∧ (let me : Coproc × Fin 5 × Nat := (p, coreOwner i, tag); (∀ j : Fin 4, j ≠ i → (s.core.get j).run ≠ .running ∨ s.cacheStill (.core j)) ∧ me ∈ s.cop.tokens ∧ s.cop.ops = [o] ∧ o.cop = p ∧ o.owner = coreOwner i ∧ o.tag = tag ∧ o.stale = true ∧ o.phase = .running ∧ o.ct = false)) :=
  ⟨⟨tCore CoreState.reset, 0, 13, 13, ready_of (by decide +kernel), by dsimp only [State.cacheStill, State.copFree]; decide +kernel⟩,
   ⟨tCore CoreState.reset, 0, .vector, 7, ready_of (by decide +kernel), by dsimp only [State.cacheStill]; decide +kernel⟩,
   ⟨onAll (fun x => { x with cop := { x.cop with tokens := [(.vector, 0, 7)], ops := [] } }) (tCore CoreState.reset), 0, .vector, 7, ready_of (by decide +kernel), by dsimp only [State.cacheStill]; decide +kernel⟩,
   ⟨onAll (fun x => { x with cop := { x.cop with tokens := [(.vector, 0, 7)], ops := [{ cop := .vector, owner := 0, tag := 7, unit := 0, phase := .queued, ct := true, stale := true }] } }) (tCore CoreState.reset), 0, .vector, { cop := .vector, owner := 0, tag := 7, unit := 0, phase := .queued, ct := true, stale := true }, 7, ready_of (by decide +kernel), by dsimp only [State.cacheStill]; decide +kernel⟩,
   ⟨onAll (fun x => { x with cop := { x.cop with tokens := [(.vector, 0, 7)], ops := [{ cop := .vector, owner := 0, tag := 7, unit := 0, phase := .running, ct := true, stale := true }] } }) (tCore CoreState.reset), 0, .vector, { cop := .vector, owner := 0, tag := 7, unit := 0, phase := .running, ct := true, stale := true }, 7, ready_of (by decide +kernel), by dsimp only [State.cacheStill]; decide +kernel⟩,
   ⟨onAll (fun x => { x with cop := { x.cop with tokens := [(.vector, 0, 7)], ops := [{ cop := .vector, owner := 0, tag := 7, unit := 0, phase := .running, ct := false, stale := true }] } }) (tCore CoreState.reset), 0, .vector, { cop := .vector, owner := 0, tag := 7, unit := 0, phase := .running, ct := false, stale := true }, 7, ready_of (by decide +kernel), by dsimp only [State.cacheStill]; decide +kernel⟩⟩

/-- The hypotheses of DecimalOperationsComplete are met. -/
theorem witness_DecimalOperationsComplete :
    (∃ (s : State) (i : Fin 4) (pa : Fin 16), Ready s i ∧ (let c := s.core.get i; s.copFree i .decimal ∧ (c.rp pa).toNat % 16 < 14 ∧ (c.rp pa).toNat / 16 % 16 < 14 ∧ (c.rp pa).toNat / 256 % 16 < 14 ∧ (c.rp pa).toNat < 16384)) ∧
    (∃ (s : State) (i : Fin 4) (pa : Fin 16), Ready s i ∧ (let c := s.core.get i; s.copFree i .decimal ∧ ¬ ((c.rp pa).toNat % 16 < 14 ∧ (c.rp pa).toNat / 16 % 16 < 14 ∧ (c.rp pa).toNat / 256 % 16 < 14 ∧ (c.rp pa).toNat < 16384))) ∧
    (∃ (s : State) (i : Fin 4) (pd : Fin 16) (pa : Fin 16) (pb : Fin 16), Ready s i ∧ (let c := s.core.get i; let three : Prop := pd.val + 3 ≤ 16 ∧ pa.val + 3 ≤ 16 ∧ pb.val + 3 ≤ 16; let safe (n m : Nat) : Prop := decDivZero n (c.run' pa m) (c.run' pb m) = false ∨ c.ctl.getLsbD 2 = false; s.copFree i .decimal ∧ three ∧ safe 14 3)) ∧
    (∃ (s : State) (i : Fin 4) (pd : Fin 16) (pa : Fin 16) (pb : Fin 16), Ready s i ∧ (let c := s.core.get i; let five : Prop := pd.val + 5 ≤ 16 ∧ pa.val + 5 ≤ 16 ∧ pb.val + 5 ≤ 16; let safe (n m : Nat) : Prop := decDivZero n (c.run' pa m) (c.run' pb m) = false ∨ c.ctl.getLsbD 2 = false; s.copFree i .decimal ∧ five ∧ safe 29 5)) :=
  ⟨⟨tCore (tRegs 0x003DDD 0x004000), 0, 0, ready_of (by decide +kernel), by dsimp only [State.copFree]; decide +kernel⟩,
   ⟨tCore (tRegs 0x003DDD 0x004000), 0, 1, ready_of (by decide +kernel), by dsimp only [State.copFree]; decide +kernel⟩,
   ⟨tCore (tRegs 0x003DDD 0x004000), 0, 11, 0, 11, ready_of (by decide +kernel), by dsimp only [State.copFree]; decide +kernel⟩,
   ⟨tCore (tRegs 0x003DDD 0x004000), 0, 11, 0, 11, ready_of (by decide +kernel), by dsimp only [State.copFree]; decide +kernel⟩⟩

/-- The hypotheses of DecimalValues are met. -/
theorem witness_DecimalValues :
    (∃ (n : Nat) (x : Int), (n = 14 ∨ n = 29) ∧ x.natAbs < 10 ^ n) ∧
    (∃ (mode : Nat) (den : Nat), 0 < den ∧ mode < 4 ∧ mode < 2) ∧
    (∃ (mode : Nat) (den : Nat), 0 < den ∧ mode < 4 ∧ mode = 2) ∧
    (∃ (mode : Nat) (den : Nat), 0 < den ∧ mode < 4 ∧ mode = 3) ∧
    (∃ (mode : Nat) (x : Int) (den : Nat), 0 < den ∧ mode < 4 ∧ 0 ≤ x) ∧
    (∃ (mode : Nat) (x : Int) (den : Nat), 0 < den ∧ mode < 4 ∧ x ≤ 0) ∧
    (∃ (n : Nat) (a : Int) (b : Int), (n = 14 ∨ n = 29) ∧ a.natAbs < 10 ^ n ∧ b.natAbs < 10 ^ n ∧ b ≠ 0) :=
  ⟨⟨14, 99999999999999, by decide +kernel⟩,
   ⟨0, 1, by decide +kernel⟩,
   ⟨2, 1, by decide +kernel⟩,
   ⟨3, 1, by decide +kernel⟩,
   ⟨0, 99999999999999, 1, by decide +kernel⟩,
   ⟨0, -99999999999999, 1, by decide +kernel⟩,
   ⟨14, 1, -99999999999999, by decide +kernel⟩⟩

/-- The hypotheses of VectorOperationsComplete are met. -/
theorem witness_VectorOperationsComplete :
    (∃ (s : State) (i : Fin 4) (pb : Fin 16), Ready s i ∧ (let c := s.core.get i; s.copFree i .vector ∧ (loWord (c.rp pb)).toInt ≤ (hiWord (c.rp pb)).toInt)) ∧
    (∃ (s : State) (i : Fin 4) (pb : Fin 16), Ready s i ∧ (let c := s.core.get i; s.copFree i .vector ∧ (hiWord (c.rp pb)).toInt < (loWord (c.rp pb)).toInt)) ∧
    (∃ (s : State) (i : Fin 4) (n : Fin 4), Ready s i ∧ (let c := s.core.get i; let z := c.pi.get n; s.copFree i .vector ∧ z.lo.toInt ≤ z.hi.toInt)) :=
  ⟨⟨tCore (tRegs 0x7FF800 0x800001), 0, 0, ready_of (by decide +kernel), by dsimp only [State.copFree]; decide +kernel⟩,
   ⟨tCore (tRegs 0x800001 0x7FF800), 0, 0, ready_of (by decide +kernel), by dsimp only [State.copFree]; decide +kernel⟩,
   ⟨tCore (tRegs 0x800001 0x7FF800), 0, 0, ready_of (by decide +kernel), by dsimp only [State.copFree]; decide +kernel⟩⟩

/-- The hypotheses of CryptoOperations are met. -/
theorem witness_CryptoOperations :
    (∃ (s : State) (i : Fin 4) (pd : Fin 16) (pa : Fin 16) (pb : Fin 16) (e : AccessEnv), Ready s i ∧ (let c := s.core.get i; let d := (c.rp pd).toNat; let a := (c.rp pa).toNat; let n := (c.rp pb).toNat; let ok (cop : Nat) : Prop := cryptoFault cop d a n = none ∧ s.failedWord (cryptoExtents cop d a n) = none ∧ s.markedWord (cryptoExtents cop d a n).1 = none; s.copFree i .crypto ∧ (s.core.get i).grants.crypto = true ∧ e.trngBad = false ∧ ok 17)) ∧
    (∃ (s : State) (i : Fin 4) (e : AccessEnv) (x : CryptoCtx) (l : List Octet), Ready s i ∧ s.copFree i .crypto ∧ (s.core.get i).grants.crypto = true ∧ e.trngBad = false ∧ x.sha = some { hmac := none, fed := l }) ∧
    (∃ (s : State) (i : Fin 4) (pa : Fin 16) (pb : Fin 16), Ready s i ∧ (let c := s.core.get i; let a := (c.rp pa).toNat; let n := (c.rp pb).toNat; let reach : Prop := 0x110000 ≤ a ∧ a + octetWords n ≤ 0x200000; (s.core.get i).ctl.getLsbD 4 = false ∧ s.cop.tagFree .crypto i = true ∧ c.grants.crypto = false ∧ reach)) ∧
    (∃ (s : State) (i : Fin 4) (pa : Fin 16) (pb : Fin 16), Ready s i ∧ (let c := s.core.get i; let a := (c.rp pa).toNat; let n := (c.rp pb).toNat; let reach : Prop := 0x110000 ≤ a ∧ a + octetWords n ≤ 0x200000; (s.core.get i).ctl.getLsbD 4 = false ∧ s.cop.tagFree .crypto i = true ∧ c.grants.crypto = true ∧ s.workingUnits .crypto = [] ∧ reach)) ∧
    (∃ (s : State) (i : Fin 4) (pa : Fin 16) (pb : Fin 16), Ready s i ∧ (let c := s.core.get i; let a := (c.rp pa).toNat; let n := (c.rp pb).toNat; (s.core.get i).ctl.getLsbD 4 = false ∧ s.cop.tagFree .crypto i = true ∧ n ≠ 0 ∧ a < 0x100000)) :=
  ⟨⟨onCore (fun x => { x with grants := { x.grants with crypto := true } }) (tCore (tRegs 0x110000 16)), 0, 0, 0, 1, AccessEnv.quiet, ready_of (by decide +kernel), by dsimp only [State.copFree]; decide +kernel⟩,
   ⟨onCore (fun x => { x with grants := { x.grants with crypto := true } }) (tCore (tRegs 0x110000 16)), 0, AccessEnv.quiet, { CoreState.reset.crypto with sha := some { hmac := none, fed := [] } }, [], ready_of (by decide +kernel), by dsimp only [State.copFree]; decide +kernel⟩,
   ⟨tCore (tRegs 0x110000 16), 0, 0, 1, ready_of (by decide +kernel), by dsimp only; decide +kernel⟩,
   ⟨onBoot (fun x => { x with units := Vector.replicate 42 .failedAtRun }) (onCore (fun x => { x with grants := { x.grants with crypto := true } }) (tCore (tRegs 0x110000 16))), 0, 0, 1, ready_of (by decide +kernel), by dsimp only; decide +kernel⟩,
   ⟨tCore (tRegs 0x0FFFFF 1), 0, 0, 1, ready_of (by decide +kernel), by dsimp only; decide +kernel⟩⟩

/-- The hypotheses of CoherenceAtTheHome are met. -/
theorem witness_CoherenceAtTheHome :
    (∃ (s : State) (c : CacheId) (line : Nat) (rest : List Flight) (x : CohMsg), let h := s.mem.homeOf line; s.cacheStill c ∧ h.queue = [] ∧ s.mem.msgs = ⟨line, c, x⟩ :: rest ∧ h.busy = none ∧ x = .getS ∧ h.dir = .u) ∧
    (∃ (s : State) (c : CacheId) (line : Nat) (rest : List Flight) (set : Vector Bool 5) (x : CohMsg), let h := s.mem.homeOf line; s.cacheStill c ∧ h.queue = [] ∧ s.mem.msgs = ⟨line, c, x⟩ :: rest ∧ h.busy = none ∧ x = .getS ∧ h.dir = .s set) ∧
    (∃ (s : State) (c : CacheId) (o : CacheId) (line : Nat) (rest : List Flight) (x : CohMsg), let h := s.mem.homeOf line; s.cacheStill c ∧ h.queue = [] ∧ s.mem.msgs = ⟨line, c, x⟩ :: rest ∧ h.busy = none ∧ x = .getS ∧ h.dir = .x o) ∧
    (∃ (s : State) (c : CacheId) (o : CacheId) (line : Nat) (rest : List Flight) (x : CohMsg), let h := s.mem.homeOf line; s.cacheStill c ∧ h.queue = [] ∧ s.mem.msgs = ⟨line, c, x⟩ :: rest ∧ h.busy = none ∧ x = .getM ∧ h.dir = .x o) ∧
    (∃ (s : State) (c : CacheId) (line : Nat) (d : LineData) (rest : List Flight) (x : CohMsg), let h := s.mem.homeOf line; s.cacheStill c ∧ h.queue = [] ∧ s.mem.msgs = ⟨line, c, x⟩ :: rest ∧ h.busy = none ∧ x = .putM d ∧ h.dir = .x c) ∧
    (∃ (s : State) (c : CacheId) (o : CacheId) (line : Nat) (rest : List Flight) (x : CohMsg) (final : DirState), let h := s.mem.homeOf line; s.cacheStill c ∧ h.queue = [] ∧ s.mem.msgs = ⟨line, c, x⟩ :: rest ∧ x = .getS ∧ h.busy = some (.granted (.getM o) final)) ∧
    (∃ (s : State) (c : CacheId) (o : CacheId) (line : Nat) (d : LineData) (rest : List Flight) (x : CohMsg), let h := s.mem.homeOf line; s.cacheStill c ∧ h.queue = [] ∧ s.mem.msgs = ⟨line, c, x⟩ :: rest ∧ x = .snpData d ∧ h.busy = some (.snooping (.getS o) c .snpS) ∧ h.dir = .x c) ∧
    (∃ (s : State) (c : CacheId) (line : Nat) (rest : List Flight) (x : CohMsg), let h := s.mem.homeOf line; s.cacheStill c ∧ h.queue = [] ∧ s.mem.msgs = ⟨line, c, x⟩ :: rest ∧ x = .done ∧ h.busy = some (.granted (.getS c) (.x c))) ∧
    (∃ (s : State) (c : CacheId) (line : Nat), let h := s.mem.homeOf line; s.cacheStill c ∧ h.queue = [] ∧ h.busy = none ∧ h.dir = .u ∧ h.err = false) :=
  ⟨⟨onMem (fun x => { x with msgs := [⟨0x11000, .core 0, .getS⟩] }) (tOn .vehicle), .core 0, 0x11000, [], .getS, by dsimp only [State.cacheStill]; decide +kernel⟩,
   ⟨onMem (fun x => { x with msgs := [⟨0x11000, .core 0, .getS⟩] }) (onMem (fun x => { x with home := [(0x11000, { dir := .s (Vector.replicate 5 false), busy := none, queue := [], err := false })] }) (tOn .vehicle)), .core 0, 0x11000, [], Vector.replicate 5 false, .getS, by dsimp only [State.cacheStill]; decide +kernel⟩,
   ⟨onMem (fun x => { x with msgs := [⟨0x11000, .core 0, .getS⟩] }) (onMem (fun x => { x with home := [(0x11000, { dir := .x (.core 1), busy := none, queue := [], err := false })] }) (tOn .vehicle)), .core 0, .core 1, 0x11000, [], .getS, by dsimp only [State.cacheStill]; decide +kernel⟩,
   ⟨onMem (fun x => { x with msgs := [⟨0x11000, .core 0, .getM⟩] }) (onMem (fun x => { x with home := [(0x11000, { dir := .x (.core 1), busy := none, queue := [], err := false })] }) (tOn .vehicle)), .core 0, .core 1, 0x11000, [], .getM, by dsimp only [State.cacheStill]; decide +kernel⟩,
   ⟨onMem (fun x => { x with msgs := [⟨0x11000, .core 0, .putM (Vector.replicate 16 1)⟩] }) (onMem (fun x => { x with home := [(0x11000, { dir := .x (.core 0), busy := none, queue := [], err := false })] }) (tOn .vehicle)), .core 0, 0x11000, Vector.replicate 16 1, [], .putM (Vector.replicate 16 1), by dsimp only [State.cacheStill]; decide +kernel⟩,
   ⟨onMem (fun x => { x with msgs := [⟨0x11000, .core 0, .getS⟩] }) (onMem (fun x => { x with home := [(0x11000, { dir := .x (.core 0), busy := some (.granted (.getM (.core 1)) (.x (.core 1))), queue := [], err := false })] }) (tOn .vehicle)), .core 0, .core 1, 0x11000, [], .getS, .x (.core 1), by dsimp only [State.cacheStill]; decide +kernel⟩,
   ⟨onMem (fun x => { x with msgs := [⟨0x11000, .core 0, .snpData (Vector.replicate 16 1)⟩] }) (onMem (fun x => { x with home := [(0x11000, { dir := .x (.core 0), busy := some (.snooping (.getS (.core 1)) (.core 0) .snpS), queue := [], err := false })] }) (tOn .vehicle)), .core 0, .core 1, 0x11000, Vector.replicate 16 1, [], .snpData (Vector.replicate 16 1), by dsimp only [State.cacheStill]; decide +kernel⟩,
   ⟨onMem (fun x => { x with msgs := [⟨0x11000, .core 0, .done⟩] }) (onMem (fun x => { x with home := [(0x11000, { dir := .x (.core 0), busy := some (.granted (.getS (.core 0)) (.x (.core 0))), queue := [], err := false })] }) (tOn .vehicle)), .core 0, 0x11000, [], .done, by dsimp only [State.cacheStill]; decide +kernel⟩,
   ⟨tOn .vehicle, .core 0, 0x11000, by dsimp only [State.cacheStill]; decide +kernel⟩⟩

/-- The hypotheses of CoherenceAtTheCache are met. -/
theorem witness_CoherenceAtTheCache :
    (∃ (s : State) (c : CacheId) (line : Nat) (rest : List Flight) (x : CohMsg), s.cacheStill c ∧ s.mem.msgs = ⟨line, c, x⟩ :: rest ∧ s.mem.lineIn c line = none ∧ x = .snoop .inv) ∧
    (∃ (s : State) (c : CacheId) (line : Nat) (rest : List Flight) (x : CohMsg), s.cacheStill c ∧ s.mem.msgs = ⟨line, c, x⟩ :: rest ∧ s.mem.lineIn c line = none ∧ x = .snoop .snpI) ∧
    (∃ (s : State) (c : CacheId) (line : Nat) (rest : List Flight) (x : CohMsg) (l : CacheLine), s.cacheStill c ∧ s.mem.msgs = ⟨line, c, x⟩ :: rest ∧ s.mem.lineIn c line = some l ∧ l.state = .s ∧ x = .snoop .inv) ∧
    (∃ (s : State) (c : CacheId) (line : Nat) (rest : List Flight) (x : CohMsg) (l : CacheLine), s.cacheStill c ∧ s.mem.msgs = ⟨line, c, x⟩ :: rest ∧ s.mem.lineIn c line = some l ∧ l.state = .m ∧ x = .snoop .snpS) ∧
    (∃ (s : State) (c : CacheId) (line : Nat) (rest : List Flight) (x : CohMsg) (l : CacheLine), s.cacheStill c ∧ s.mem.msgs = ⟨line, c, x⟩ :: rest ∧ s.mem.lineIn c line = some l ∧ l.state = .m ∧ x = .snoop .snpRd) ∧
    (∃ (s : State) (c : CacheId) (line : Nat) (rest : List Flight) (x : CohMsg) (l : CacheLine), s.cacheStill c ∧ s.mem.msgs = ⟨line, c, x⟩ :: rest ∧ s.mem.lineIn c line = some l ∧ l.state = .m ∧ x = .snoop .snpI) ∧
    (∃ (s : State) (c : CacheId) (line : Nat) (rest : List Flight) (x : CohMsg) (l : CacheLine), s.cacheStill c ∧ s.mem.msgs = ⟨line, c, x⟩ :: rest ∧ s.mem.lineIn c line = some l ∧ l.state = .e ∧ x = .snoop .snpS) ∧
    (∃ (s : State) (c : CacheId) (line : Nat) (rest : List Flight) (x : CohMsg) (l : CacheLine), s.cacheStill c ∧ s.mem.msgs = ⟨line, c, x⟩ :: rest ∧ s.mem.lineIn c line = some l ∧ l.state = .e ∧ x = .snoop .snpRd) ∧
    (∃ (s : State) (c : CacheId) (line : Nat) (rest : List Flight) (x : CohMsg) (l : CacheLine), s.cacheStill c ∧ s.mem.msgs = ⟨line, c, x⟩ :: rest ∧ s.mem.lineIn c line = some l ∧ l.state = .e ∧ x = .snoop .snpI) ∧
    (∃ (s : State) (c : CacheId) (line : Nat) (rest : List Flight) (x : CohMsg) (l : CacheLine), s.cacheStill c ∧ s.mem.msgs = ⟨line, c, x⟩ :: rest ∧ s.mem.lineIn c line = some l ∧ l.state = .miA ∧ x = .snoop .snpS) ∧
    (∃ (s : State) (c : CacheId) (line : Nat) (d : LineData) (rest : List Flight) (x : CohMsg) (l : CacheLine) (err : Bool), s.cacheStill c ∧ s.mem.msgs = ⟨line, c, x⟩ :: rest ∧ s.mem.lineIn c line = some l ∧ l.state = .isD ∧ l.waits = [] ∧ x = .dataE d err) ∧
    (∃ (s : State) (c : CacheId) (line : Nat) (rest : List Flight) (x : CohMsg) (l : CacheLine) (a : Nat) (ws : List Word), s.cacheStill c ∧ s.mem.msgs = ⟨line, c, x⟩ :: rest ∧ s.mem.lineIn c line = some l ∧ l.state = .smA ∧ l.waits = [.store a ws] ∧ a / 16 = line ∧ x = .upgAck) ∧
    (∃ (s : State) (c : CacheId) (line : Nat) (rest : List Flight) (x : CohMsg) (l : CacheLine), s.cacheStill c ∧ s.mem.msgs = ⟨line, c, x⟩ :: rest ∧ s.mem.lineIn c line = some l ∧ l.state = .miA ∧ l.waits = [] ∧ x = .putAck) :=
  ⟨⟨onMem (fun x => { x with msgs := [⟨0x11000, .core 0, .snoop .inv⟩] }) (tOn .vehicle), .core 0, 0x11000, [], .snoop .inv, by dsimp only [State.cacheStill]; decide +kernel⟩,
   ⟨onMem (fun x => { x with msgs := [⟨0x11000, .core 0, .snoop .snpI⟩] }) (tOn .vehicle), .core 0, 0x11000, [], .snoop .snpI, by dsimp only [State.cacheStill]; decide +kernel⟩,
   ⟨onMem (fun x => { x with msgs := [⟨0x11000, .core 0, .snoop .inv⟩] }) (onMem (fun x => { x with dcache := x.dcache.set 0 [(0x11000, { state := .s, data := Vector.replicate 16 5, err := false, waits := [] })] }) (tOn .vehicle)), .core 0, 0x11000, [], .snoop .inv, { state := .s, data := Vector.replicate 16 5, err := false, waits := [] }, by dsimp only [State.cacheStill]; decide +kernel⟩,
   ⟨onMem (fun x => { x with msgs := [⟨0x11000, .core 0, .snoop .snpS⟩] }) (onMem (fun x => { x with dcache := x.dcache.set 0 [(0x11000, { state := .m, data := Vector.replicate 16 5, err := false, waits := [] })] }) (tOn .vehicle)), .core 0, 0x11000, [], .snoop .snpS, { state := .m, data := Vector.replicate 16 5, err := false, waits := [] }, by dsimp only [State.cacheStill]; decide +kernel⟩,
   ⟨onMem (fun x => { x with msgs := [⟨0x11000, .core 0, .snoop .snpRd⟩] }) (onMem (fun x => { x with dcache := x.dcache.set 0 [(0x11000, { state := .m, data := Vector.replicate 16 5, err := false, waits := [] })] }) (tOn .vehicle)), .core 0, 0x11000, [], .snoop .snpRd, { state := .m, data := Vector.replicate 16 5, err := false, waits := [] }, by dsimp only [State.cacheStill]; decide +kernel⟩,
   ⟨onMem (fun x => { x with msgs := [⟨0x11000, .core 0, .snoop .snpI⟩] }) (onMem (fun x => { x with dcache := x.dcache.set 0 [(0x11000, { state := .m, data := Vector.replicate 16 5, err := false, waits := [] })] }) (tOn .vehicle)), .core 0, 0x11000, [], .snoop .snpI, { state := .m, data := Vector.replicate 16 5, err := false, waits := [] }, by dsimp only [State.cacheStill]; decide +kernel⟩,
   ⟨onMem (fun x => { x with msgs := [⟨0x11000, .core 0, .snoop .snpS⟩] }) (onMem (fun x => { x with dcache := x.dcache.set 0 [(0x11000, { state := .e, data := Vector.replicate 16 5, err := false, waits := [] })] }) (tOn .vehicle)), .core 0, 0x11000, [], .snoop .snpS, { state := .e, data := Vector.replicate 16 5, err := false, waits := [] }, by dsimp only [State.cacheStill]; decide +kernel⟩,
   ⟨onMem (fun x => { x with msgs := [⟨0x11000, .core 0, .snoop .snpRd⟩] }) (onMem (fun x => { x with dcache := x.dcache.set 0 [(0x11000, { state := .e, data := Vector.replicate 16 5, err := false, waits := [] })] }) (tOn .vehicle)), .core 0, 0x11000, [], .snoop .snpRd, { state := .e, data := Vector.replicate 16 5, err := false, waits := [] }, by dsimp only [State.cacheStill]; decide +kernel⟩,
   ⟨onMem (fun x => { x with msgs := [⟨0x11000, .core 0, .snoop .snpI⟩] }) (onMem (fun x => { x with dcache := x.dcache.set 0 [(0x11000, { state := .e, data := Vector.replicate 16 5, err := false, waits := [] })] }) (tOn .vehicle)), .core 0, 0x11000, [], .snoop .snpI, { state := .e, data := Vector.replicate 16 5, err := false, waits := [] }, by dsimp only [State.cacheStill]; decide +kernel⟩,
   ⟨onMem (fun x => { x with msgs := [⟨0x11000, .core 0, .snoop .snpS⟩] }) (onMem (fun x => { x with dcache := x.dcache.set 0 [(0x11000, { state := .miA, data := Vector.replicate 16 5, err := false, waits := [] })] }) (tOn .vehicle)), .core 0, 0x11000, [], .snoop .snpS, { state := .miA, data := Vector.replicate 16 5, err := false, waits := [] }, by dsimp only [State.cacheStill]; decide +kernel⟩,
   ⟨onMem (fun x => { x with msgs := [⟨0x11000, .core 0, .dataE (Vector.replicate 16 1) false⟩] }) (onMem (fun x => { x with dcache := x.dcache.set 0 [(0x11000, { state := .isD, data := Vector.replicate 16 5, err := false, waits := [] })] }) (tOn .vehicle)), .core 0, 0x11000, Vector.replicate 16 1, [], .dataE (Vector.replicate 16 1) false, { state := .isD, data := Vector.replicate 16 5, err := false, waits := [] }, false, by dsimp only [State.cacheStill]; decide +kernel⟩,
   ⟨onMem (fun x => { x with msgs := [⟨0x11000, .core 0, .upgAck⟩] }) (onMem (fun x => { x with dcache := x.dcache.set 0 [(0x11000, { state := .smA, data := Vector.replicate 16 5, err := false, waits := [.store 0x110003 [9]] })] }) (tOn .vehicle)), .core 0, 0x11000, [], .upgAck, { state := .smA, data := Vector.replicate 16 5, err := false, waits := [.store 0x110003 [9]] }, 0x110003, [9], by dsimp only [State.cacheStill]; decide +kernel⟩,
   ⟨onMem (fun x => { x with msgs := [⟨0x11000, .core 0, .putAck⟩] }) (onMem (fun x => { x with dcache := x.dcache.set 0 [(0x11000, { state := .miA, data := Vector.replicate 16 5, err := false, waits := [] })] }) (tOn .vehicle)), .core 0, 0x11000, [], .putAck, { state := .miA, data := Vector.replicate 16 5, err := false, waits := [] }, by dsimp only [State.cacheStill]; decide +kernel⟩⟩

/-- The hypotheses of StoresAndLoadsOfTiles are met. -/
theorem witness_StoresAndLoadsOfTiles :
    (∃ (s : State) (i : Fin 4) (p : Fin 16) (disp : BitVec 7) (l : CacheLine), Ready s i ∧ (let c := s.core.get i; let a := (c.dataAddr p disp).toNat; let line := a / 16; let me : CacheId := .core i; 0x110000 ≤ a ∧ a < 0x200000 ∧ s.tileFailed a = false ∧ s.mem.lineIn me line = some l ∧ (l.state = .e ∨ l.state = .m))) ∧
    (∃ (s : State) (i : Fin 4) (p : Fin 16) (disp : BitVec 7) (l : CacheLine), Ready s i ∧ (let c := s.core.get i; let a := (c.dataAddr p disp).toNat; let line := a / 16; let me : CacheId := .core i; 0x110000 ≤ a ∧ a < 0x200000 ∧ s.tileFailed a = false ∧ s.mem.lineIn me line = some l ∧ l.err = false ∧ (l.state = .s ∨ l.state = .e ∨ l.state = .m))) ∧
    (∃ (s : State) (i : Fin 4) (p : Fin 16) (disp : BitVec 7), Ready s i ∧ (let c := s.core.get i; let a := (c.dataAddr p disp).toNat; let line := a / 16; let me : CacheId := .core i; 0x110000 ≤ a ∧ a < 0x200000 ∧ s.tileFailed a = false ∧ s.mem.lineIn me line = none ∧ (s.mem.cache me).filter (fun x => x.1 % 64 = line % 64) = [] ∧ s.mem.msgs = [])) :=
  ⟨⟨onMem (fun x => { x with dcache := x.dcache.set 0 [(0x11000, { state := .e, data := Vector.replicate 16 5, err := false, waits := [] })] }) (tCore (tRegs 0x110000 0x1FFFFF)), 0, 0, 0, { state := .e, data := Vector.replicate 16 5, err := false, waits := [] }, ready_of (by decide +kernel), by dsimp only; decide +kernel⟩,
   ⟨onMem (fun x => { x with dcache := x.dcache.set 0 [(0x11000, { state := .s, data := Vector.replicate 16 5, err := false, waits := [] })] }) (tCore (tRegs 0x110000 0x1FFFFF)), 0, 0, 0, { state := .s, data := Vector.replicate 16 5, err := false, waits := [] }, ready_of (by decide +kernel), by dsimp only; decide +kernel⟩,
   ⟨tCore (tRegs 0x110000 0x1FFFFF), 0, 0, 0, ready_of (by decide +kernel), by dsimp only; decide +kernel⟩⟩

/-- The hypotheses of DmaTransfers are met. -/
theorem witness_DmaTransfers :
    (∃ (s : State) (ch : DmaIndex) (v : Word) (off : Fin 6), let c := s.per.dma.get ch; let reach (off : Nat) : Prop := s.reaches (channelOwner ch) (channelBase ch + off); reach 6 ∧ c.busy = true ∧ v.toNat % 4 ≠ 3) ∧
    (∃ (s : State) (ch : DmaIndex) (v : Word) (off : Fin 6), let reach (off : Nat) : Prop := s.reaches (channelOwner ch) (channelBase ch + off); reach 6 ∧ v.toNat % 4 = 3) ∧
    (∃ (s : State) (ch : DmaIndex) (v : Word) (off : Fin 6), let c := s.per.dma.get ch; let n := c.cnt.toNat; let reach (off : Nat) : Prop := s.reaches (channelOwner ch) (channelBase ch + off); reach 6 ∧ v.toNat % 4 = 2 ∧ c.busy = false ∧ (n % 3 ≠ 0 ∨ n = 0)) ∧
    (∃ (s : State) (ch : DmaIndex) (v : Word) (off : Fin 6), let c := s.per.dma.get ch; let n := c.cnt.toNat; let reach (off : Nat) : Prop := s.reaches (channelOwner ch) (channelBase ch + off); reach 6 ∧ v.toNat % 4 = 2 ∧ c.busy = false ∧ n % 3 = 0 ∧ 0 < n ∧ s.holdsAdc (dmaOwner ch) = false) ∧
    (∃ (s : State) (ch : DmaIndex) (v : Word) (off : Fin 6), let c := s.per.dma.get ch; let n := c.cnt.toNat; let writes := if v.getLsbD 2 then 1 else n; let tiles (x m : Nat) : Prop := (if ch.val < 16 then 0x110000 else 0x100000) ≤ x ∧ x + m ≤ 0x200000; let dst : Prop := tiles c.dst.toNat writes; let reach (off : Nat) : Prop := s.reaches (channelOwner ch) (channelBase ch + off); reach 6 ∧ v.toNat % 4 = 2 ∧ c.busy = false ∧ n % 3 = 0 ∧ 0 < n ∧ s.holdsAdc (dmaOwner ch) = true ∧ ¬ dst) ∧
    (∃ (s : State) (ch : DmaIndex) (v : Word) (off : Fin 6), let c := s.per.dma.get ch; let n := c.cnt.toNat; let writes := if v.getLsbD 2 then 1 else n; let tiles (x m : Nat) : Prop := (if ch.val < 16 then 0x110000 else 0x100000) ≤ x ∧ x + m ≤ 0x200000; let dst : Prop := tiles c.dst.toNat writes; let reach (off : Nat) : Prop := s.reaches (channelOwner ch) (channelBase ch + off); reach 6 ∧ v.toNat % 4 = 2 ∧ c.busy = false ∧ n % 3 = 0 ∧ 0 < n ∧ s.holdsAdc (dmaOwner ch) = true ∧ dst) ∧
    (∃ (s : State) (ch : DmaIndex) (v : Word) (off : Fin 6), let c := s.per.dma.get ch; let n := c.cnt.toNat; let reach (off : Nat) : Prop := s.reaches (channelOwner ch) (channelBase ch + off); reach 6 ∧ v.toNat % 4 < 2 ∧ c.busy = false ∧ n = 0) ∧
    (∃ (s : State) (ch : DmaIndex) (v : Word) (off : Fin 6), let c := s.per.dma.get ch; let n := c.cnt.toNat; let reads := if v.toNat % 4 = 1 then 1 else n; let writes := if v.getLsbD 2 then 1 else n; let tiles (x m : Nat) : Prop := (if ch.val < 16 then 0x110000 else 0x100000) ≤ x ∧ x + m ≤ 0x200000; let own (x : Nat) : Prop := s.inWindow (dmaOwner ch) x = true; let src : Prop := tiles c.src.toNat reads ∨ (own c.src.toNat ∧ own (c.src.toNat + reads - 1) ∧ bankOf c.src.toNat = bankOf (c.src.toNat + reads - 1)); let dst : Prop := tiles c.dst.toNat writes; let reach (off : Nat) : Prop := s.reaches (channelOwner ch) (channelBase ch + off); reach 6 ∧ v.toNat % 4 < 2 ∧ c.busy = false ∧ 0 < n ∧ ¬ (dst ∧ src)) ∧
    (∃ (s : State) (ch : DmaIndex) (v : Word) (off : Fin 6), let c := s.per.dma.get ch; let n := c.cnt.toNat; let reads := if v.toNat % 4 = 1 then 1 else n; let writes := if v.getLsbD 2 then 1 else n; let tiles (x m : Nat) : Prop := (if ch.val < 16 then 0x110000 else 0x100000) ≤ x ∧ x + m ≤ 0x200000; let own (x : Nat) : Prop := s.inWindow (dmaOwner ch) x = true; let src : Prop := tiles c.src.toNat reads ∨ (own c.src.toNat ∧ own (c.src.toNat + reads - 1) ∧ bankOf c.src.toNat = bankOf (c.src.toNat + reads - 1)); let dst : Prop := tiles c.dst.toNat writes; let reach (off : Nat) : Prop := s.reaches (channelOwner ch) (channelBase ch + off); reach 6 ∧ v.toNat % 4 < 2 ∧ c.busy = false ∧ 0 < n ∧ dst ∧ src) ∧
    (∃ (s : State) (ch : DmaIndex) (off : Fin 6), let reach (off : Nat) : Prop := s.reaches (channelOwner ch) (channelBase ch + off); ¬ reach 6) ∧
    (∃ (s : State) (ch : DmaIndex), let c := s.per.dma.get ch; let a0 := c.curSrc.toNat; let bad := ((!inArray a0) && s.tileFailed a0) || s.tileFailed c.curDst.toNat; c.busy = true ∧ c.srck ≠ 2 ∧ bad = true) ∧
    (∃ (s : State) (ch : DmaIndex), let c := s.per.dma.get ch; let a0 := c.curSrc.toNat; let bad := ((!inArray a0) && s.tileFailed a0) || s.tileFailed c.curDst.toNat; c.busy = true ∧ c.srck ≠ 2 ∧ bad = false ∧ inArray a0 = false) ∧
    (∃ (s : State) (ch : DmaIndex) (ec : BitVec 2), let c := s.per.dma.get ch; let k := min c.rem.toNat (min (if c.srck = 1 then 16 else 16 - c.curSrc.toNat % 16) (if c.dfix then 16 else 16 - c.curDst.toNat % 16)); let a0 := c.curSrc.toNat; let bad := ((!inArray a0) && s.tileFailed a0) || s.tileFailed c.curDst.toNat; let f := s.flashDirect (dmaOwner ch) a0 (if c.srck = 1 then 1 else k) ec; c.busy = true ∧ c.srck ≠ 2 ∧ bad = false ∧ inArray a0 = true ∧ f.1 = .busy) ∧
    (∃ (s : State) (ch : DmaIndex) (ec : BitVec 2), let c := s.per.dma.get ch; let k := min c.rem.toNat (min (if c.srck = 1 then 16 else 16 - c.curSrc.toNat % 16) (if c.dfix then 16 else 16 - c.curDst.toNat % 16)); let a0 := c.curSrc.toNat; let bad := ((!inArray a0) && s.tileFailed a0) || s.tileFailed c.curDst.toNat; let f := s.flashDirect (dmaOwner ch) a0 (if c.srck = 1 then 1 else k) ec; c.busy = true ∧ c.srck ≠ 2 ∧ bad = false ∧ inArray a0 = true ∧ f.1 = .uncorrectable) ∧
    (∃ (s : State) (ch : DmaIndex) (ec : BitVec 2) (l : List Word), let c := s.per.dma.get ch; let k := min c.rem.toNat (min (if c.srck = 1 then 16 else 16 - c.curSrc.toNat % 16) (if c.dfix then 16 else 16 - c.curDst.toNat % 16)); let a0 := c.curSrc.toNat; let bad := ((!inArray a0) && s.tileFailed a0) || s.tileFailed c.curDst.toNat; let f := s.flashDirect (dmaOwner ch) a0 (if c.srck = 1 then 1 else k) ec; c.busy = true ∧ c.srck ≠ 2 ∧ bad = false ∧ inArray a0 = true ∧ c.srck = 0 ∧ c.dfix = false ∧ f.1 = .words l) ∧
    (∃ (s : State) (ch : DmaIndex), let c := s.per.dma.get ch; c.srck = 2 ∧ s.mot.adc.dmaDue = false) ∧
    (∃ (s : State) (ch : DmaIndex), let c := s.per.dma.get ch; let due := 4 * (s.mot.adc.thr.toNat + 1); c.srck = 2 ∧ s.mot.adc.dmaDue = true ∧ (dmaOrder s.per.dmaTurn).find? (fun x => (s.dma x).busy && (s.dma x).srck = 2) = some ch ∧ s.tileFailed c.curDst.toNat = false ∧ c.dfix = false ∧ due ≤ s.mot.adc.fifo.length ∧ 3 * due < c.rem.toNat) ∧
    (∃ (s : State) (ch : DmaIndex) (off : Fin 6), let reach (off : Nat) : Prop := s.reaches (channelOwner ch) (channelBase ch + off); reach 8) ∧
    (∃ (s : State) (ch : DmaIndex) (off : Fin 6), let reach (off : Nat) : Prop := s.reaches (channelOwner ch) (channelBase ch + off); ¬ reach 8) ∧
    (∃ (s : State) (ch : DmaIndex) (off : Fin 6) (i : Fin 4), let c := s.per.dma.get ch; ch.val / 4 = i.val ∧ s.ioCause i (0xE00 + 16 * (ch.val % 4) + off.val) = none ∧ c.busy = true) :=
  ⟨⟨onCore (fun x => { x with grants := { x.grants with blocks := 0x4000 } }) (onAll (fun x => { x with fl := { x.fl with banks := x.fl.banks.map (fun b => { b with run := .erasing ⟨0, 0x800000, 40, false, none⟩ }) } }) (onPer (fun x => { x with dma := x.dma.map (fun d => { d with busy := true, srck := 2 }) }) (onCore (fun x => { x with grants := { x.grants with blocks := 0x7FFF } }) (onPer (fun x => { x with dma := x.dma.map (fun d => { d with cnt := 2, src := 0x110000, dst := 0x110010 }) }) (tOn .vehicle))))), 0, 1, 5, by simp only [reaches_iff]; decide +kernel⟩,
   ⟨onCore (fun x => { x with grants := { x.grants with blocks := 0x4000 } }) (onAll (fun x => { x with fl := { x.fl with banks := x.fl.banks.map (fun b => { b with run := .erasing ⟨0, 0x800000, 40, false, none⟩ }) } }) (onPer (fun x => { x with dma := x.dma.map (fun d => { d with busy := true, srck := 2 }) }) (tOn .vehicle))), 0, 3, 4, by simp only [reaches_iff]; decide +kernel⟩,
   ⟨onAdc (fun x => { x with dmaEn := true, fifo := List.replicate 4 ⟨0, 0, 0⟩ }) (onCore (fun x => { x with grants := { x.grants with blocks := 0x4000 } }) (onAdc (fun x => { x with trg := 1, fifo := List.replicate 32 ⟨0, 0, 0⟩ }) (onAll (fun x => { x with fl := { x.fl with banks := x.fl.banks.map (fun b => { b with run := .erasing ⟨0, 0x800000, 40, false, none⟩ }) } }) (onCore (fun x => { x with grants := { x.grants with blocks := 0x7FFF, routes := 15 } }) (tOn .vehicle))))), 0, 2, 3, by simp only [reaches_iff]; decide +kernel⟩,
   ⟨onCore (fun x => { x with grants := { x.grants with blocks := 0x4000 } }) (onAdc (fun x => { x with trg := 1, fifo := List.replicate 32 ⟨0, 0, 0⟩ }) (onAll (fun x => { x with fl := { x.fl with banks := x.fl.banks.map (fun b => { b with run := .erasing ⟨0, 0x800000, 40, false, none⟩ }) } }) (onPer (fun x => { x with dma := x.dma.map (fun d => { d with srck := 2, cnt := 3, src := 0x110000, dst := 0x110000 }) }) (onPer (fun x => { x with dma := x.dma.map (fun d => { d with cnt := 2, src := 0x110000, dst := 0x110010 }) }) (tOn .vehicle))))), 0, 2, 3, by simp only [reaches_iff]; decide +kernel⟩,
   ⟨onAdc (fun x => { x with trg := 1, fifo := List.replicate 32 ⟨0, 0, 0⟩ }) (onAll (fun x => { x with fl := { x.fl with banks := x.fl.banks.map (fun b => { b with run := .erasing ⟨0, 0x800000, 40, false, none⟩ }) } }) (onCore (fun x => { x with grants := { x.grants with blocks := 0x7FFF } }) (onPer (fun x => { x with dma := x.dma.map (fun d => { d with cnt := 3, src := 0x110000, dst := 0x1FFFFE }) }) (tOn .vehicle)))), 0, 2, 0, by simp only [reaches_iff]; decide +kernel⟩,
   ⟨onAdc (fun x => { x with trg := 1, fifo := List.replicate 32 ⟨0, 0, 0⟩ }) (onPer (fun x => { x with dma := x.dma.map (fun d => { d with srck := 2, cnt := 3, src := 0x110000, dst := 0x110000 }) }) (onCore (fun x => { x with grants := { x.grants with blocks := 0x7FFF, routes := 15 } }) (onCore (fun x => { x with grants := { x.grants with blocks := 0x7FFF } }) (onPer (fun x => { x with dma := x.dma.map (fun d => { d with cnt := 3, src := 0x110000, dst := 0x1FFFFE }) }) (tOn .vehicle))))), 0, 2, 2, by simp only [reaches_iff]; decide +kernel⟩,
   ⟨onAdc (fun x => { x with dmaEn := true, fifo := List.replicate 4 ⟨0, 0, 0⟩ }) (onCore (fun x => { x with grants := { x.grants with blocks := 0x4000 } }) (onAdc (fun x => { x with trg := 1, fifo := List.replicate 32 ⟨0, 0, 0⟩ }) (onAll (fun x => { x with fl := { x.fl with banks := x.fl.banks.map (fun b => { b with run := .erasing ⟨0, 0x800000, 40, false, none⟩ }) } }) (onCore (fun x => { x with grants := { x.grants with blocks := 0x7FFF, routes := 15 } }) (tOn .vehicle))))), 0, 1, 3, by simp only [reaches_iff]; decide +kernel⟩,
   ⟨onAdc (fun x => { x with dmaEn := true, fifo := List.replicate 4 ⟨0, 0, 0⟩ }) (onCore (fun x => { x with grants := { x.grants with blocks := 0x4000 } }) (onAdc (fun x => { x with trg := 1, fifo := List.replicate 32 ⟨0, 0, 0⟩ }) (onAll (fun x => { x with fl := { x.fl with banks := x.fl.banks.map (fun b => { b with run := .erasing ⟨0, 0x800000, 40, false, none⟩ }) } }) (onPer (fun x => { x with dma := x.dma.map (fun d => { d with cnt := 3, src := 0x110000, dst := 0x1FFFFE }) }) (tOn .vehicle))))), 0, 1, 3, by simp only [reaches_iff]; decide +kernel⟩,
   ⟨onAdc (fun x => { x with dmaEn := true, fifo := List.replicate 4 ⟨0, 0, 0⟩ }) (onAdc (fun x => { x with trg := 1, fifo := List.replicate 32 ⟨0, 0, 0⟩ }) (onAll (fun x => { x with fl := { x.fl with banks := x.fl.banks.map (fun b => { b with run := .erasing ⟨0, 0x800000, 40, false, none⟩ }) } }) (onPer (fun x => { x with dma := x.dma.map (fun d => { d with srck := 2, cnt := 3, src := 0x110000, dst := 0x110000 }) }) (onCore (fun x => { x with grants := { x.grants with blocks := 0x7FFF } }) (onPer (fun x => { x with dma := x.dma.map (fun d => { d with cnt := 2, src := 0x110000, dst := 0x110010 }) }) (tOn .vehicle)))))), 0, 0, 5, by simp only [reaches_iff]; decide +kernel⟩,
   ⟨tOn .vehicle, 0, 0, by simp only [reaches_iff]; decide +kernel⟩,
   ⟨onBoot (fun x => { x with units := Vector.replicate 42 .failedAtRun }) (onPer (fun x => { x with dma := x.dma.map (fun d => { d with busy := true, curSrc := 0x110000, curDst := 0x110010, rem := 5 }) }) (tOn .vehicle)), 0, by dsimp only; decide +kernel⟩,
   ⟨onPer (fun x => { x with dma := x.dma.map (fun d => { d with busy := true, curSrc := 0x110000, curDst := 0x110010, rem := 5 }) }) (tOn .vehicle), 0, by dsimp only; decide +kernel⟩,
   ⟨onAll (fun x => { x with fl := { x.fl with banks := x.fl.banks.map (fun b => { b with run := .erasing ⟨0, 0x800000, 40, false, none⟩ }) } }) (onPer (fun x => { x with dma := x.dma.map (fun d => { d with busy := true, curSrc := 0x800000, curDst := 0x110010, rem := 5 }) }) (tOn .vehicle)), 0, 0, by dsimp only; decide +kernel⟩,
   ⟨onPer (fun x => { x with dma := x.dma.map (fun d => { d with busy := true, curSrc := 0x800000, curDst := 0x110010, rem := 5 }) }) (tOn .vehicle), 0, 3, by dsimp only; decide +kernel⟩,
   ⟨onPer (fun x => { x with dma := x.dma.map (fun d => { d with busy := true, curSrc := 0x800000, curDst := 0x110010, rem := 5 }) }) (tOn .vehicle), 0, 0, List.replicate 5 0xFFF, by dsimp only; decide +kernel⟩,
   ⟨onPer (fun x => { x with dma := x.dma.map (fun d => { d with srck := 2, cnt := 3, src := 0x110000, dst := 0x110000 }) }) (tOn .vehicle), 0, by dsimp only; decide +kernel⟩,
   ⟨onAdc (fun x => { x with dmaEn := true, fifo := List.replicate 4 ⟨0, 0, 0⟩ }) (onPer (fun x => { x with dma := x.dma.map (fun d => { d with busy := true, srck := 2, curDst := 0x110000, rem := 20 }) }) (tOn .vehicle)), 1, by dsimp only; decide +kernel⟩,
   ⟨onCore (fun x => { x with grants := { x.grants with blocks := 0x7FFF } }) (tOn .vehicle), 0, 0, by simp only [reaches_iff]; decide +kernel⟩,
   ⟨tOn .vehicle, 0, 0, by simp only [reaches_iff]; decide +kernel⟩,
   ⟨onCore (fun x => { x with grants := { x.grants with blocks := 0x4000 } }) (onAll (fun x => { x with fl := { x.fl with banks := x.fl.banks.map (fun b => { b with run := .erasing ⟨0, 0x800000, 40, false, none⟩ }) } }) (onPer (fun x => { x with dma := x.dma.map (fun d => { d with busy := true, srck := 2 }) }) (tOn .vehicle))), 0, 5, 0, by dsimp only; decide +kernel⟩⟩

/-- The hypotheses of CanBTransmit are met. -/
theorem witness_CanBTransmit :
    (∃ (s : State), let c := s.per.canb; let on : Prop := s.portServes 0x900 = true; on ∧ c.stage.data.length < dlcOctets c.stage.fdf c.stage.dlc) ∧
    (∃ (s : State), let c := s.per.canb; let on : Prop := s.portServes 0x900 = true; on ∧ dlcOctets c.stage.fdf c.stage.dlc ≤ c.stage.data.length) ∧
    (∃ (s : State) (b : Fin 3), let c := s.per.canb; let on : Prop := s.portServes 0x900 = true; on ∧ (c.tx.get b).isSome = true) ∧
    (∃ (s : State) (b : Fin 3), let c := s.per.canb; let on : Prop := s.portServes 0x900 = true; on ∧ c.tx.get b = none) ∧
    (∃ (s : State), let on : Prop := s.portServes 0x900 = true; ¬ on) ∧
    (∃ (s : State) (b : Fin 3) (f : CanFrame), let c := s.per.canb; let live : Prop := s.blockLive 9 0 = true; let runs : Prop := live ∧ c.mode ≠ 0 ∧ (c.state ≠ 2 ∨ c.mode = 3); runs ∧ c.tx.get b = some f ∧ c.txAbort.getLsbD b = false) ∧
    (∃ (s : State) (b : Fin 3) (f : CanFrame), let c := s.per.canb; let live : Prop := s.blockLive 9 0 = true; let runs : Prop := live ∧ c.mode ≠ 0 ∧ (c.state ≠ 2 ∨ c.mode = 3); runs ∧ c.tx.get b = some f ∧ c.txAbort.getLsbD b = true) ∧
    (∃ (s : State) (f : CanFrame), let c := s.per.canb; let live : Prop := s.blockLive 9 0 = true; let runs : Prop := live ∧ c.mode ≠ 0 ∧ (c.state ≠ 2 ∨ c.mode = 3); let kept : Prop := (∀ j : Fin 4, (c.filters.get j).en = false) ∨ ∃ j : Fin 4, (c.filters.get j).en = true ∧ f.id &&& (c.filters.get j).mask = (c.filters.get j).id &&& (c.filters.get j).mask ∧ f.ide = (c.filters.get j).ide; runs ∧ (f.fdf = false ∨ c.fden = true) ∧ kept ∧ c.rx.length < 16) ∧
    (∃ (s : State) (f : CanFrame), let c := s.per.canb; let live : Prop := s.blockLive 9 0 = true; let runs : Prop := live ∧ c.mode ≠ 0 ∧ (c.state ≠ 2 ∨ c.mode = 3); let kept : Prop := (∀ j : Fin 4, (c.filters.get j).en = false) ∨ ∃ j : Fin 4, (c.filters.get j).en = true ∧ f.id &&& (c.filters.get j).mask = (c.filters.get j).id &&& (c.filters.get j).mask ∧ f.ide = (c.filters.get j).ide; runs ∧ (f.fdf = false ∨ c.fden = true) ∧ kept ∧ 16 ≤ c.rx.length) ∧
    (∃ (s : State) (f : CanFrame), let c := s.per.canb; let live : Prop := s.blockLive 9 0 = true; let runs : Prop := live ∧ c.mode ≠ 0 ∧ (c.state ≠ 2 ∨ c.mode = 3); let kept : Prop := (∀ j : Fin 4, (c.filters.get j).en = false) ∨ ∃ j : Fin 4, (c.filters.get j).en = true ∧ f.id &&& (c.filters.get j).mask = (c.filters.get j).id &&& (c.filters.get j).mask ∧ f.ide = (c.filters.get j).ide; runs ∧ (f.fdf = false ∨ c.fden = true) ∧ ¬ kept) ∧
    (∃ (s : State), let live : Prop := s.blockLive 9 0 = true; live) ∧
    (∃ (s : State), let live : Prop := s.blockLive 9 0 = true; ¬ live) :=
  ⟨⟨onPer (fun x => { x with canb := { x.canb with stage := { emptyFrame with dlc := 2, data := [1] } } }) (tOn .vehicle), by dsimp only; decide +kernel⟩,
   ⟨tOn .vehicle, by dsimp only; decide +kernel⟩,
   ⟨onPer (fun x => { x with canb := { x.canb with tx := x.canb.tx.set 0 (some { emptyFrame with id := 5, dlc := 2, data := [1, 2] }) } }) (tOn .vehicle), 0, by dsimp only; decide +kernel⟩,
   ⟨tOn .vehicle, 0, by dsimp only; decide +kernel⟩,
   ⟨onBoot (fun x => { x with units := Vector.replicate 42 .failedAtRun }) (tOn .vehicle), by dsimp only; decide +kernel⟩,
   ⟨onPer (fun x => { x with canb := { x.canb with tx := x.canb.tx.set 0 (some { emptyFrame with id := 5, dlc := 2, data := [1, 2] }) } }) (onPer (fun x => { x with canb := { x.canb with mode := 1 } }) (tOn .vehicle)), 0, { emptyFrame with id := 5, dlc := 2, data := [1, 2] }, by dsimp only; decide +kernel⟩,
   ⟨onPer (fun x => { x with canb := { x.canb with tx := x.canb.tx.set 0 (some { emptyFrame with id := 5, dlc := 2, data := [1, 2] }), txAbort := 1 } }) (onPer (fun x => { x with canb := { x.canb with mode := 1 } }) (tOn .vehicle)), 0, { emptyFrame with id := 5, dlc := 2, data := [1, 2] }, by dsimp only; decide +kernel⟩,
   ⟨onPer (fun x => { x with canb := { x.canb with mode := 1 } }) (tOn .vehicle), { emptyFrame with id := 5, dlc := 2, data := [1, 2] }, by dsimp only; decide +kernel⟩,
   ⟨onPer (fun x => { x with canb := { x.canb with rx := List.replicate 16 { emptyFrame with id := 5, dlc := 2, data := [1, 2] } } }) (onPer (fun x => { x with canb := { x.canb with mode := 1 } }) (tOn .vehicle)), { emptyFrame with id := 5, dlc := 2, data := [1, 2] }, by dsimp only; decide +kernel⟩,
   ⟨onPer (fun x => { x with canb := { x.canb with filters := Vector.replicate 4 { id := 9, ide := false, idHigh := 0, mask := 15, maskHigh := 0, en := true } } }) (onPer (fun x => { x with canb := { x.canb with mode := 1 } }) (tOn .vehicle)), { emptyFrame with id := 5, dlc := 2, data := [1, 2] }, by dsimp only; decide +kernel⟩,
   ⟨tOn .vehicle, by dsimp only; decide +kernel⟩,
   ⟨onClk (fun x => { x with domains := Vector.replicate 14 .failed }) (tOn .vehicle), by dsimp only; decide +kernel⟩⟩

/-- The hypotheses of CanBBitTiming are met. -/
theorem witness_CanBBitTiming :
    (∃ (s : State), s.portServes 0x900 = false) ∧
    (∃ (s : State), s.portServes 0x900 = true) ∧
    (∃ (s : State) (off : Fin 10), let c := s.per.canb; c.mode ≠ 0 ∧ 1 ≤ off.val) :=
  ⟨⟨onBoot (fun x => { x with units := Vector.replicate 42 .failedAtRun }) (tOn .vehicle), by decide +kernel⟩,
   ⟨tOn .vehicle, by decide +kernel⟩,
   ⟨onPer (fun x => { x with canb := { x.canb with mode := 1 } }) (tOn .vehicle), 1, by dsimp only; decide +kernel⟩⟩

/-- The hypotheses of SerialTransfers are met. -/
theorem witness_SerialTransfers :
    (∃ (s : State), let c := s.per.i2c; let ok : Prop := c.len ≠ 0 ∧ (c.rd = true ∨ c.len.toNat ≤ c.tx.length); let on : Prop := s.portServes 0xA00 = true; on ∧ c.mode ≠ 0 ∧ c.busy = false ∧ ok) ∧
    (∃ (s : State), let c := s.per.i2c; let ok : Prop := c.len ≠ 0 ∧ (c.rd = true ∨ c.len.toNat ≤ c.tx.length); let on : Prop := s.portServes 0xA00 = true; on ∧ c.mode ≠ 0 ∧ c.busy = false ∧ ¬ ok) ∧
    (∃ (s : State) (n : Nat), let c := s.per.i2c; let live : Prop := s.blockLive 10 0 = true; live ∧ c.busy = true ∧ c.rd = false ∧ n ≤ c.len.toNat) ∧
    (∃ (s : State) (got : List Octet), let c := s.per.i2c; let live : Prop := s.blockLive 10 0 = true; live ∧ c.busy = true ∧ c.rd = true ∧ got.length ≤ c.len.toNat ∧ c.rx.length + got.length ≤ 256) ∧
    (∃ (s : State), let c := s.per.i2c; let on : Prop := s.portServes 0xA00 = true; on ∧ c.tx.length < 256) ∧
    (∃ (s : State), let c := s.per.i2c; let on : Prop := s.portServes 0xA00 = true; on ∧ 256 ≤ c.tx.length) ∧
    (∃ (s : State), let on : Prop := s.portServes 0xA00 = true; ¬ on) ∧
    (∃ (s : State), let live : Prop := s.blockLive 10 0 = true; ¬ live) ∧
    (∃ (s : State), let c := s.per.sspi; let on : Prop := s.portServes 0xB00 = true; on ∧ (c.busy = true ∨ c.len = 0)) ∧
    (∃ (s : State), let c := s.per.sspi; let on : Prop := s.portServes 0xB00 = true; on ∧ c.busy = false ∧ c.len ≠ 0) ∧
    (∃ (s : State) (got : List Octet), let c := s.per.sspi; let n := c.len.toNat; let live : Prop := s.blockLive 11 0 = true; live ∧ c.busy = true ∧ got.length = n) :=
  ⟨⟨onPer (fun x => { x with i2c := { x.i2c with mode := 1, len := 2, tx := [1, 2] } }) (tOn .vehicle), by dsimp only; decide +kernel⟩,
   ⟨onPer (fun x => { x with i2c := { x.i2c with mode := 1 } }) (tOn .vehicle), by dsimp only; decide +kernel⟩,
   ⟨onPer (fun x => { x with i2c := { x.i2c with mode := 1, len := 2, busy := true, tx := [1, 2] } }) (tOn .vehicle), 2, by dsimp only; decide +kernel⟩,
   ⟨onPer (fun x => { x with i2c := { x.i2c with mode := 1, len := 2, busy := true, rd := true } }) (tOn .vehicle), [7, 8], by dsimp only; decide +kernel⟩,
   ⟨tOn .vehicle, by dsimp only; decide +kernel⟩,
   ⟨onPer (fun x => { x with i2c := { x.i2c with tx := List.replicate 256 0 } }) (tOn .vehicle), by dsimp only; decide +kernel⟩,
   ⟨onBoot (fun x => { x with units := Vector.replicate 42 .failedAtRun }) (tOn .vehicle), by dsimp only; decide +kernel⟩,
   ⟨onClk (fun x => { x with domains := Vector.replicate 14 .failed }) (tOn .vehicle), by dsimp only; decide +kernel⟩,
   ⟨tOn .vehicle, by dsimp only; decide +kernel⟩,
   ⟨onPer (fun x => { x with sspi := { x.sspi with len := 2 } }) (tOn .vehicle), by dsimp only; decide +kernel⟩,
   ⟨onPer (fun x => { x with sspi := { x.sspi with busy := true, len := 2 } }) (tOn .vehicle), [7, 8], by dsimp only; decide +kernel⟩⟩

/-- The hypotheses of GnssAndGpio are met. -/
theorem witness_GnssAndGpio :
    (∃ (s : State), let c := s.per.gnss; let live : Prop := s.blockLive 12 0 = true; live ∧ c.en = true ∧ c.rx.length < 256) ∧
    (∃ (s : State), let c := s.per.gnss; let live : Prop := s.blockLive 12 0 = true; live ∧ c.en = true ∧ 256 ≤ c.rx.length) ∧
    (∃ (s : State), let c := s.per.gnss; let live : Prop := s.blockLive 12 0 = true; live ∧ c.en = false) ∧
    (∃ (s : State), let live : Prop := s.blockLive 12 0 = true; live ∧ s.clk.pllLocked = true) ∧
    (∃ (s : State), s.clk.pllLocked = false) ∧
    (∃ (s : State), let c := s.per.gnss; let on : Prop := s.portServes 0xC00 = true; on ∧ c.tx.length < 64) ∧
    (∃ (s : State), let c := s.per.gnss; let on : Prop := s.portServes 0xC00 = true; on ∧ 64 ≤ c.tx.length) ∧
    (∃ (s : State) (r : Requester), s.reaches r 0xC02) ∧
    (∃ (s : State) (r : Requester), s.reaches r 0xC06) ∧
    (∃ (s : State), let on : Prop := s.portServes 0xC00 = true; ¬ on) ∧
    (∃ (s : State), let live : Prop := s.blockLive 12 0 = true; ¬ live) ∧
    (∃ (s : State) (r : Requester), ¬ s.reaches r 0xC02) ∧
    (∃ (s : State) (r : Requester), ¬ s.reaches r 0xC06) ∧
    (∃ (s : State) (k : Fin 8) (w : Word), let c := s.per.gpio; let on : Prop := s.portServes 0xD00 = true; on ∧ c.highStage.get k = some w) ∧
    (∃ (s : State) (v : Word) (w : Word), let c := s.per.gpio; let on : Prop := s.portServes 0xD00 = true; on ∧ c.perStage = some w ∧ 16 ≤ (v ++ w).toNat) ∧
    (∃ (s : State) (v : Word) (w : Word), let c := s.per.gpio; let on : Prop := s.portServes 0xD00 = true; on ∧ c.perStage = some w ∧ (v ++ w).toNat < 16) :=
  ⟨⟨onPer (fun x => { x with gnss := { x.gnss with en := true } }) (tOn .vehicle), by dsimp only; decide +kernel⟩,
   ⟨onPer (fun x => { x with gnss := { x.gnss with en := true, rx := List.replicate 256 (0, false) } }) (tOn .vehicle), by dsimp only; decide +kernel⟩,
   ⟨tOn .vehicle, by dsimp only; decide +kernel⟩,
   ⟨tOn .vehicle, by dsimp only; decide +kernel⟩,
   ⟨State.reset, by decide +kernel⟩,
   ⟨tOn .vehicle, by dsimp only; decide +kernel⟩,
   ⟨onPer (fun x => { x with gnss := { x.gnss with tx := List.replicate 64 0 } }) (tOn .vehicle), by dsimp only; decide +kernel⟩,
   ⟨tOn .vehicle, .steward, by simp only [reaches_iff]; decide +kernel⟩,
   ⟨tOn .vehicle, .steward, by simp only [reaches_iff]; decide +kernel⟩,
   ⟨State.reset, by dsimp only; decide +kernel⟩,
   ⟨State.reset, by dsimp only; decide +kernel⟩,
   ⟨tOn .vehicle, .core 0, by simp only [reaches_iff]; decide +kernel⟩,
   ⟨tOn .vehicle, .core 0, by simp only [reaches_iff]; decide +kernel⟩,
   ⟨onPer (fun x => { x with gpio := { x.gpio with highStage := x.gpio.highStage.set 7 (some 15), perStage := some 15 } }) (tOn .vehicle), 7, 15, by dsimp only; decide +kernel⟩,
   ⟨onPer (fun x => { x with gpio := { x.gpio with perStage := some 16 } }) (tOn .vehicle), 0, 16, by dsimp only; decide +kernel⟩,
   ⟨onPer (fun x => { x with gpio := { x.gpio with highStage := x.gpio.highStage.set 7 (some 15), perStage := some 15 } }) (tOn .vehicle), 0, 15, by dsimp only; decide +kernel⟩⟩

/-- The hypotheses of FlashCommands are met. -/
theorem witness_FlashCommands :
    (∃ (s : State) (r : Fin 5), let o := s.fown r; let owner := ownerOf r; let keys : Prop := ∀ off : Fin 18, s.reaches owner (0x200 + off.val); keys ∧ o.waiting.isSome = true) ∧
    (∃ (s : State) (r : Fin 5) (v : Word), let o := s.fown r; let free : Prop := o.waiting = none; let owner := ownerOf r; let keys : Prop := ∀ off : Fin 18, s.reaches owner (0x200 + off.val); keys ∧ free ∧ v = 0x3C7 ∧ o.asm = .none) ∧
    (∃ (s : State) (r : Fin 5) (v : Word), let o := s.fown r; let free : Prop := o.waiting = none; let owner := ownerOf r; let keys : Prop := ∀ off : Fin 18, s.reaches owner (0x200 + off.val); keys ∧ free ∧ v = 0x3C7 ∧ o.asm ≠ .none) ∧
    (∃ (s : State) (r : Fin 5) (v : Word), let o := s.fown r; let free : Prop := o.waiting = none; let owner := ownerOf r; let keys : Prop := ∀ off : Fin 18, s.reaches owner (0x200 + off.val); keys ∧ free ∧ v ≠ 0x3C7) ∧
    (∃ (s : State) (r : Fin 5) (v : Word), let o := s.fown r; let free : Prop := o.waiting = none; let owner := ownerOf r; let keys : Prop := ∀ off : Fin 18, s.reaches owner (0x200 + off.val); keys ∧ free ∧ o.asm = .keyA ∧ v = 0xC38) ∧
    (∃ (s : State) (r : Fin 5) (v : Word), let o := s.fown r; let free : Prop := o.waiting = none; let owner := ownerOf r; let keys : Prop := ∀ off : Fin 18, s.reaches owner (0x200 + off.val); keys ∧ free ∧ (o.asm ≠ .keyA ∨ v ≠ 0xC38)) ∧
    (∃ (s : State) (r : Fin 5) (v : Word), let o := s.fown r; let free : Prop := o.waiting = none; let owner := ownerOf r; let keys : Prop := ∀ off : Fin 18, s.reaches owner (0x200 + off.val); keys ∧ free ∧ v.toNat % 16 = 0) ∧
    (∃ (s : State) (r : Fin 5) (v : Word), let o := s.fown r; let free : Prop := o.waiting = none; let owner := ownerOf r; let keys : Prop := ∀ off : Fin 18, s.reaches owner (0x200 + off.val); keys ∧ free ∧ o.asm = .unlocked ∧ 1 ≤ v.toNat % 16 ∧ v.toNat % 16 ≤ 5) ∧
    (∃ (s : State) (r : Fin 5) (v : Word), let o := s.fown r; let free : Prop := o.waiting = none; let owner := ownerOf r; let keys : Prop := ∀ off : Fin 18, s.reaches owner (0x200 + off.val); keys ∧ free ∧ o.asm = .unlocked ∧ 1 ≤ v.toNat % 16 ∧ 6 ≤ v.toNat % 16) ∧
    (∃ (s : State) (r : Fin 5) (v : Word), let o := s.fown r; let free : Prop := o.waiting = none; let owner := ownerOf r; let keys : Prop := ∀ off : Fin 18, s.reaches owner (0x200 + off.val); keys ∧ free ∧ 1 ≤ v.toNat % 16 ∧ o.asm = .none) ∧
    (∃ (s : State) (r : Fin 5) (n : Nat), let o := s.fown r; let free : Prop := o.waiting = none; let owner := ownerOf r; let keys : Prop := ∀ off : Fin 18, s.reaches owner (0x200 + off.val); keys ∧ free ∧ o.asm = .code n) ∧
    (∃ (s : State) (r : Fin 5) (n : Nat), let o := s.fown r; let free : Prop := o.waiting = none; let owner := ownerOf r; let keys : Prop := ∀ off : Fin 18, s.reaches owner (0x200 + off.val); keys ∧ free ∧ o.asm ≠ .code n ∧ (o.asm = .unlocked ∨ o.asm = .none)) ∧
    (∃ (s : State) (r : Fin 5) (lo : Word), let o := s.fown r; let free : Prop := o.waiting = none; let owner := ownerOf r; let keys : Prop := ∀ off : Fin 18, s.reaches owner (0x200 + off.val); keys ∧ free ∧ o.asm = .addr0 1 lo) ∧
    (∃ (s : State) (r : Fin 5) (lo : Word), let o := s.fown r; let free : Prop := o.waiting = none; let owner := ownerOf r; let keys : Prop := ∀ off : Fin 18, s.reaches owner (0x200 + off.val); keys ∧ free ∧ o.asm = .addr0 2 lo) ∧
    (∃ (s : State) (r : Fin 5) (lo : Word), let o := s.fown r; let free : Prop := o.waiting = none; let owner := ownerOf r; let keys : Prop := ∀ off : Fin 18, s.reaches owner (0x200 + off.val); keys ∧ free ∧ o.asm = .addr0 3 lo) ∧
    (∃ (s : State) (r : Fin 5) (lo : Word), let o := s.fown r; let free : Prop := o.waiting = none; let owner := ownerOf r; let keys : Prop := ∀ off : Fin 18, s.reaches owner (0x200 + off.val); keys ∧ free ∧ o.asm = .addr0 4 lo) ∧
    (∃ (s : State) (r : Fin 5) (lo : Word), let o := s.fown r; let free : Prop := o.waiting = none; let owner := ownerOf r; let keys : Prop := ∀ off : Fin 18, s.reaches owner (0x200 + off.val); keys ∧ free ∧ o.asm = .addr0 5 lo) ∧
    (∃ (s : State) (r : Fin 5) (ws : List Word) (n : Nat), let o := s.fown r; let free : Prop := o.waiting = none; let owner := ownerOf r; let keys : Prop := ∀ off : Fin 18, s.reaches owner (0x200 + off.val); keys ∧ free ∧ o.asm = .data n ws ∧ ws.length < 255) ∧
    (∃ (s : State) (r : Fin 5) (a : Pair) (ws : List Word), let o := s.fown r; let free : Prop := o.waiting = none; let owner := ownerOf r; let keys : Prop := ∀ off : Fin 18, s.reaches owner (0x200 + off.val); keys ∧ free ∧ o.asm = .data a.toNat ws ∧ ws.length = 255) ∧
    (∃ (s : State) (r : Fin 5) (a : Pair), let o := s.fown r; let owner := ownerOf r; s.storeReaches owner a.toNat ∧ o.waiting.isSome = true) ∧
    (∃ (s : State) (r : Fin 5) (v : Word) (a : Pair), let o := s.fown r; let free : Prop := o.waiting = none; let owner := ownerOf r; s.storeReaches owner a.toNat ∧ free ∧ o.asm = .none ∧ v = 0x5C3 ∧ a.toNat % 0x8000 = 0x1A6) ∧
    (∃ (s : State) (r : Fin 5) (v : Word) (a : Pair), let o := s.fown r; let free : Prop := o.waiting = none; let owner := ownerOf r; let serves : Prop := s.portServes 0x202 = true; s.storeReaches owner a.toNat ∧ serves ∧ free ∧ o.asm = .none ∧ v = 0x6B5) ∧
    (∃ (s : State) (r : Fin 5) (v : Word) (a : Pair), let o := s.fown r; let free : Prop := o.waiting = none; let owner := ownerOf r; let serves : Prop := s.portServes 0x202 = true; s.storeReaches owner a.toNat ∧ serves ∧ free ∧ o.asm = .none ∧ v = 0x3D8) ∧
    (∃ (s : State) (r : Fin 5) (v : Word) (a : Pair) (n : Nat), let o := s.fown r; let free : Prop := o.waiting = none; let owner := ownerOf r; s.storeReaches owner a.toNat ∧ free ∧ o.asm = .seq1 n ∧ v = 0xA3C ∧ a.toNat = n + 0x659) ∧
    (∃ (s : State) (r : Fin 5) (v : Word) (a : Pair) (n : Nat), let o := s.fown r; let free : Prop := o.waiting = none; let owner := ownerOf r; s.storeReaches owner a.toNat ∧ free ∧ o.asm = .seq2 n ∧ a.toNat = n + 0x1A6 ∧ v = 0x7E1) ∧
    (∃ (s : State) (r : Fin 5) (v : Word) (a : Pair) (n : Nat), let o := s.fown r; let free : Prop := o.waiting = none; let owner := ownerOf r; s.storeReaches owner a.toNat ∧ free ∧ o.asm = .seq2 n ∧ a.toNat = n + 0x1A6 ∧ v = 0x4D2) ∧
    (∃ (s : State) (r : Fin 5) (v : Word) (a : Pair), let o := s.fown r; let free : Prop := o.waiting = none; let owner := ownerOf r; let serves : Prop := s.portServes 0x202 = true; s.storeReaches owner a.toNat ∧ serves ∧ free ∧ o.asm = .seqErase a.toNat ∧ v = 0x2B4) ∧
    (∃ (s : State) (r : Fin 5) (a : Pair), let o := s.fown r; let free : Prop := o.waiting = none; let base := a.toNat / 0x8000 * 0x8000; let owner := ownerOf r; s.storeReaches owner a.toNat ∧ free ∧ o.asm = .seqData base none [] ∧ a.toNat % 256 = 0) ∧
    (∃ (s : State) (r : Fin 5) (a : Pair) (ws : List Word) (n : Nat) (pg : Nat), let o := s.fown r; let free : Prop := o.waiting = none; let owner := ownerOf r; s.storeReaches owner a.toNat ∧ free ∧ o.asm = .seqData n (some pg) ws ∧ a.toNat = pg + ws.length ∧ ws.length < 255) ∧
    (∃ (s : State) (r : Fin 5) (a : Pair) (ws : List Word) (n : Nat) (pg : Nat), let o := s.fown r; let free : Prop := o.waiting = none; let owner := ownerOf r; let serves : Prop := s.portServes 0x202 = true; s.storeReaches owner a.toNat ∧ free ∧ o.asm = .seqData n (some pg) ws ∧ a.toNat = pg + ws.length ∧ serves ∧ ws.length = 255) ∧
    (∃ (s : State) (r : Fin 5) (v : Word) (a : Pair) (n : Nat), let o := s.fown r; let free : Prop := o.waiting = none; let owner := ownerOf r; s.storeReaches owner a.toNat ∧ free ∧ o.asm = .seq1 n ∧ v = 0xE47) ∧
    (∃ (s : State) (r : Fin 5) (v : Word) (a : Pair) (n : Nat), let o := s.fown r; let free : Prop := o.waiting = none; let owner := ownerOf r; s.storeReaches owner a.toNat ∧ free ∧ o.asm = .seq1 n ∧ v ≠ 0xE47 ∧ a.toNat ≠ n + 0x659) ∧
    (∃ (s : State) (r : Fin 5) (a : Pair) (ws : List Word), let b := bankOf a.toNat; let block := blockOf a.toNat; let inside : Prop := 0x800000 ≤ a.toNat ∧ (∀ i : Fin 4, i.val = r.val → (s.core.get i).grants.windowValid = true ∧ (s.core.get i).grants.bank.toNat = b.val ∧ (s.core.get i).grants.first.toNat ≤ block ∧ block ≤ (s.core.get i).grants.last.toNat); let serves : Prop := s.portServes 0x202 = true; serves ∧ ws.length = 256 ∧ ¬inside) ∧
    (∃ (s : State) (r : Fin 5) (a : Pair) (ws : List Word), let b := bankOf a.toNat; let block := blockOf a.toNat; let inside : Prop := 0x800000 ≤ a.toNat ∧ (∀ i : Fin 4, i.val = r.val → (s.core.get i).grants.windowValid = true ∧ (s.core.get i).grants.bank.toNat = b.val ∧ (s.core.get i).grants.first.toNat ≤ block ∧ block ≤ (s.core.get i).grants.last.toNat); let serves : Prop := s.portServes 0x202 = true; serves ∧ ws.length = 256 ∧ inside ∧ a.toNat % 256 ≠ 0) ∧
    (∃ (s : State) (r : Fin 5) (a : Pair) (ws : List Word), let b := bankOf a.toNat; let block := blockOf a.toNat; let inside : Prop := 0x800000 ≤ a.toNat ∧ (∀ i : Fin 4, i.val = r.val → (s.core.get i).grants.windowValid = true ∧ (s.core.get i).grants.bank.toNat = b.val ∧ (s.core.get i).grants.first.toNat ≤ block ∧ block ≤ (s.core.get i).grants.last.toNat); let serves : Prop := s.portServes 0x202 = true; serves ∧ ws.length = 256 ∧ inside ∧ a.toNat % 256 = 0 ∧ s.fl.refusing = true) ∧
    (∃ (s : State) (r : Fin 5) (a : Pair) (ws : List Word), let b := bankOf a.toNat; let block := blockOf a.toNat; let inside : Prop := 0x800000 ≤ a.toNat ∧ (∀ i : Fin 4, i.val = r.val → (s.core.get i).grants.windowValid = true ∧ (s.core.get i).grants.bank.toNat = b.val ∧ (s.core.get i).grants.first.toNat ≤ block ∧ block ≤ (s.core.get i).grants.last.toNat); let taken : Prop := inside ∧ s.fl.refusing = false ∧ s.fl.tagFree r = true; let serves : Prop := s.portServes 0x202 = true; serves ∧ ws.length = 256 ∧ taken ∧ a.toNat % 256 = 0) ∧
    (∃ (s : State) (r : Fin 5) (a : Pair), let b := bankOf a.toNat; let block := blockOf a.toNat; let inside : Prop := 0x800000 ≤ a.toNat ∧ (∀ i : Fin 4, i.val = r.val → (s.core.get i).grants.windowValid = true ∧ (s.core.get i).grants.bank.toNat = b.val ∧ (s.core.get i).grants.first.toNat ≤ block ∧ block ≤ (s.core.get i).grants.last.toNat); let serves : Prop := s.portServes 0x202 = true; serves ∧ inside ∧ a.toNat % 0x8000 ≠ 0) ∧
    (∃ (s : State) (r : Fin 5) (a : Pair), let b := bankOf a.toNat; let block := blockOf a.toNat; let inside : Prop := 0x800000 ≤ a.toNat ∧ (∀ i : Fin 4, i.val = r.val → (s.core.get i).grants.windowValid = true ∧ (s.core.get i).grants.bank.toNat = b.val ∧ (s.core.get i).grants.first.toNat ≤ block ∧ block ≤ (s.core.get i).grants.last.toNat); let serves : Prop := s.portServes 0x202 = true; serves ∧ inside ∧ a.toNat % 0x8000 = 0 ∧ s.fl.refusing = true) ∧
    (∃ (s : State) (r : Fin 5) (a : Pair), let b := bankOf a.toNat; let block := blockOf a.toNat; let inside : Prop := 0x800000 ≤ a.toNat ∧ (∀ i : Fin 4, i.val = r.val → (s.core.get i).grants.windowValid = true ∧ (s.core.get i).grants.bank.toNat = b.val ∧ (s.core.get i).grants.first.toNat ≤ block ∧ block ≤ (s.core.get i).grants.last.toNat); let taken : Prop := inside ∧ s.fl.refusing = false ∧ s.fl.tagFree r = true; let serves : Prop := s.portServes 0x202 = true; serves ∧ taken ∧ a.toNat % 0x8000 = 0) ∧
    (∃ (s : State) (r : Fin 5) (a : Pair) (e : EraseRun) (hi : Bool), let b := bankOf a.toNat; let k := s.bank b; let block := blockOf a.toNat; let inside : Prop := 0x800000 ≤ a.toNat ∧ (∀ i : Fin 4, i.val = r.val → (s.core.get i).grants.windowValid = true ∧ (s.core.get i).grants.bank.toNat = b.val ∧ (s.core.get i).grants.first.toNat ≤ block ∧ block ≤ (s.core.get i).grants.last.toNat); let taken : Prop := inside ∧ s.fl.refusing = false ∧ s.fl.tagFree r = true; let serves : Prop := s.portServes 0x202 = true; serves ∧ taken ∧ k.run = .erasing e ∧ e.owner = r ∧ (hi = false ∨ e.resumed = false)) ∧
    (∃ (s : State) (r : Fin 5) (a : Pair) (e : EraseRun), let b := bankOf a.toNat; let k := s.bank b; let block := blockOf a.toNat; let inside : Prop := 0x800000 ≤ a.toNat ∧ (∀ i : Fin 4, i.val = r.val → (s.core.get i).grants.windowValid = true ∧ (s.core.get i).grants.bank.toNat = b.val ∧ (s.core.get i).grants.first.toNat ≤ block ∧ block ≤ (s.core.get i).grants.last.toNat); let taken : Prop := inside ∧ s.fl.refusing = false ∧ s.fl.tagFree r = true; let serves : Prop := s.portServes 0x202 = true; serves ∧ taken ∧ r ≠ 4 ∧ k.run = .erasing e ∧ e.owner = r ∧ e.resumed = true) ∧
    (∃ (s : State) (r : Fin 5) (a : Pair) (e : EraseRun), let b := bankOf a.toNat; let k := s.bank b; let block := blockOf a.toNat; let inside : Prop := 0x800000 ≤ a.toNat ∧ (∀ i : Fin 4, i.val = r.val → (s.core.get i).grants.windowValid = true ∧ (s.core.get i).grants.bank.toNat = b.val ∧ (s.core.get i).grants.first.toNat ≤ block ∧ block ≤ (s.core.get i).grants.last.toNat); let taken : Prop := inside ∧ s.fl.refusing = false ∧ s.fl.tagFree r = true; let serves : Prop := s.portServes 0x202 = true; serves ∧ taken ∧ (k.run = .idle ∨ (r ≠ 4 ∧ e.owner ≠ r ∧ k.run = .erasing e))) ∧
    (∃ (s : State) (r : Fin 5) (a : Pair) (e : EraseRun), let b := bankOf a.toNat; let k := s.bank b; let block := blockOf a.toNat; let inside : Prop := 0x800000 ≤ a.toNat ∧ (∀ i : Fin 4, i.val = r.val → (s.core.get i).grants.windowValid = true ∧ (s.core.get i).grants.bank.toNat = b.val ∧ (s.core.get i).grants.first.toNat ≤ block ∧ block ≤ (s.core.get i).grants.last.toNat); let taken : Prop := inside ∧ s.fl.refusing = false ∧ s.fl.tagFree r = true; let serves : Prop := s.portServes 0x202 = true; serves ∧ taken ∧ k.run = .idle ∧ k.suspended = some e ∧ e.owner = r) ∧
    (∃ (s : State) (r : Fin 5) (a : Pair), let b := bankOf a.toNat; let k := s.bank b; let block := blockOf a.toNat; let inside : Prop := 0x800000 ≤ a.toNat ∧ (∀ i : Fin 4, i.val = r.val → (s.core.get i).grants.windowValid = true ∧ (s.core.get i).grants.bank.toNat = b.val ∧ (s.core.get i).grants.first.toNat ≤ block ∧ block ≤ (s.core.get i).grants.last.toNat); let taken : Prop := inside ∧ s.fl.refusing = false ∧ s.fl.tagFree r = true; let serves : Prop := s.portServes 0x202 = true; serves ∧ taken ∧ k.suspended = none) ∧
    (∃ (s : State) (a : Pair), let serves : Prop := s.portServes 0x202 = true; serves ∧ 0x400 ≤ a.toNat ∧ a.toNat < 0x800000) ∧
    (∃ (s : State), let serves : Prop := s.portServes 0x202 = true; ¬ serves) ∧
    (∃ (s : State) (r : Fin 5) (a : Pair) (i : Fin 4) (sub : Fin 3), let owner := ownerOf r; owner = .core i ∧ s.region i a.toNat = .fault sub.val) :=
  ⟨⟨onCore (fun x => { x with grants := { x.grants with blocks := 0x7FFF, routes := 15 } }) (onOwn (fun x => { x with waiting := some (.suspend 0) }) (tOn .vehicle)), 0, by simp only [reaches_iff]; decide +kernel⟩,
   ⟨onCore (fun x => { x with grants := { x.grants with blocks := 0x7FFF, routes := 15 } }) (onBank (fun x => { x with run := .erasing ⟨0, 0x800000, 40, false, none⟩ }) (onAll (fun x => { x with fl := { x.fl with refusing := true } }) (onCore (fun x => { x with grants := { x.grants with windowValid := true, bank := false, first := 0, last := 127 } }) (tOn .vehicle)))), 0, 0x3C7, by simp only [reaches_iff]; decide +kernel⟩,
   ⟨onCore (fun x => { x with grants := { x.grants with blocks := 0x7FFF, routes := 15 } }) (onBank (fun x => { x with run := .erasing ⟨0, 0x800000, 40, true, none⟩ }) (onAll (fun x => { x with fl := { x.fl with refusing := true } }) (onCore (fun x => { x with grants := { x.grants with windowValid := true, bank := false, first := 0, last := 127 } }) (onOwn (fun x => { x with asm := .data 0x800000 (List.replicate 255 5) }) (tOn .vehicle))))), 0, 0x3C7, by simp only [reaches_iff]; decide +kernel⟩,
   ⟨onCore (fun x => { x with grants := { x.grants with blocks := 0x7FFF, routes := 15 } }) (onBank (fun x => { x with run := .erasing ⟨0, 0x800000, 40, true, none⟩ }) (onCore (fun x => { x with grants := { x.grants with windowValid := true, bank := false, first := 0, last := 127 } }) (onOwn (fun x => { x with asm := .seq2 0x800000 }) (tOn .vehicle)))), 0, 0x4D2, by simp only [reaches_iff]; decide +kernel⟩,
   ⟨onCore (fun x => { x with grants := { x.grants with blocks := 0x7FFF, routes := 15 } }) (onBank (fun x => { x with run := .erasing ⟨1, 0x800000, 40, false, none⟩ }) (onAll (fun x => { x with fl := { x.fl with refusing := true } }) (onCore (fun x => { x with grants := { x.grants with windowValid := true, bank := false, first := 0, last := 127 } }) (onOwn (fun x => { x with asm := .keyA }) (tOn .vehicle))))), 0, 0xC38, by simp only [reaches_iff]; decide +kernel⟩,
   ⟨onCore (fun x => { x with grants := { x.grants with blocks := 0x7FFF, routes := 15 } }) (onBank (fun x => { x with run := .erasing ⟨0, 0x800000, 40, true, none⟩ }) (onCore (fun x => { x with grants := { x.grants with windowValid := true, bank := false, first := 0, last := 127 } }) (onOwn (fun x => { x with asm := .seq2 0x800000 }) (tOn .vehicle)))), 0, 0x4D2, by simp only [reaches_iff]; decide +kernel⟩,
   ⟨onCore (fun x => { x with grants := { x.grants with blocks := 0x7FFF, routes := 15 } }) (onBank (fun x => { x with run := .erasing ⟨1, 0x800000, 40, true, none⟩ }) (onAll (fun x => { x with fl := { x.fl with refusing := true } }) (onOwn (fun x => { x with asm := .seq1 0x800000 }) (tOn .vehicle)))), 0, 0, by simp only [reaches_iff]; decide +kernel⟩,
   ⟨onCore (fun x => { x with grants := { x.grants with blocks := 0x7FFF, routes := 15 } }) (onBank (fun x => { x with run := .erasing ⟨0, 0x800000, 40, false, none⟩ }) (onAll (fun x => { x with fl := { x.fl with refusing := true } }) (onCore (fun x => { x with grants := { x.grants with windowValid := true, bank := false, first := 0, last := 127 } }) (onOwn (fun x => { x with asm := .unlocked }) (tOn .vehicle))))), 0, 0x4D2, by simp only [reaches_iff]; decide +kernel⟩,
   ⟨onCore (fun x => { x with grants := { x.grants with blocks := 0x7FFF, routes := 15 } }) (onBank (fun x => { x with run := .erasing ⟨0, 0x800000, 40, true, none⟩ }) (onAll (fun x => { x with fl := { x.fl with refusing := true } }) (onCore (fun x => { x with grants := { x.grants with windowValid := true, bank := false, first := 0, last := 127 } }) (onOwn (fun x => { x with asm := .unlocked }) (tOn .vehicle))))), 0, 0xE47, by simp only [reaches_iff]; decide +kernel⟩,
   ⟨onCore (fun x => { x with grants := { x.grants with blocks := 0x7FFF, routes := 15 } }) (onCore (fun x => { x with grants := { x.grants with windowValid := true, bank := false, first := 0, last := 127 } }) (onOwn (fun x => { x with asm := .none }) (tOn .vehicle))), 0, 6, by simp only [reaches_iff]; decide +kernel⟩,
   ⟨onCore (fun x => { x with grants := { x.grants with blocks := 0x7FFF, routes := 15 } }) (onOwn (fun x => { x with asm := .code 1 }) (tOn .vehicle)), 0, 1, by simp only [reaches_iff]; decide +kernel⟩,
   ⟨onCore (fun x => { x with grants := { x.grants with blocks := 0x7FFF, routes := 15 } }) (tOn .vehicle), 0, 1, by simp only [reaches_iff]; decide +kernel⟩,
   ⟨onCore (fun x => { x with grants := { x.grants with blocks := 0x7FFF, routes := 15 } }) (onOwn (fun x => { x with asm := .addr0 1 0x100 }) (tOn .vehicle)), 0, 0x100, by simp only [reaches_iff]; decide +kernel⟩,
   ⟨onCore (fun x => { x with grants := { x.grants with blocks := 0x7FFF, routes := 15 } }) (onOwn (fun x => { x with asm := .addr0 2 0 }) (tOn .vehicle)), 0, 0, by simp only [reaches_iff]; decide +kernel⟩,
   ⟨onCore (fun x => { x with grants := { x.grants with blocks := 0x7FFF, routes := 15 } }) (onOwn (fun x => { x with asm := .addr0 3 0 }) (tOn .vehicle)), 0, 0, by simp only [reaches_iff]; decide +kernel⟩,
   ⟨onCore (fun x => { x with grants := { x.grants with blocks := 0x7FFF, routes := 15 } }) (onOwn (fun x => { x with asm := .addr0 4 0 }) (tOn .vehicle)), 0, 0, by simp only [reaches_iff]; decide +kernel⟩,
   ⟨onCore (fun x => { x with grants := { x.grants with blocks := 0x7FFF, routes := 15 } }) (onOwn (fun x => { x with asm := .addr0 5 0 }) (tOn .vehicle)), 0, 0, by simp only [reaches_iff]; decide +kernel⟩,
   ⟨onCore (fun x => { x with grants := { x.grants with blocks := 0x7FFF, routes := 15 } }) (onBank (fun x => { x with run := .erasing ⟨0, 0x800000, 40, false, none⟩ }) (onOwn (fun x => { x with asm := .data 0x800000 [] }) (tOn .vehicle))), 0, [], 0x800000, by simp only [reaches_iff]; decide +kernel⟩,
   ⟨onCore (fun x => { x with grants := { x.grants with blocks := 0x7FFF, routes := 15 } }) (onBank (fun x => { x with run := .erasing ⟨1, 0x800000, 40, true, none⟩ }) (onAll (fun x => { x with fl := { x.fl with refusing := true } }) (onCore (fun x => { x with grants := { x.grants with windowValid := true, bank := false, first := 0, last := 127 } }) (onOwn (fun x => { x with asm := .data 0x800000 (List.replicate 255 5) }) (tOn .vehicle))))), 0, 0x800000, List.replicate 255 5, by simp only [reaches_iff]; decide +kernel⟩,
   ⟨onCore (fun x => { x with grants := { x.grants with windowValid := true, bank := false, first := 0, last := 127 } }) (onOwn (fun x => { x with waiting := some (.suspend 0) }) (tOn .vehicle)), 0, 0x800000, by simp only [storeReaches_iff]; decide +kernel⟩,
   ⟨onBoot (fun x => { x with units := Vector.replicate 42 .failedAtRun }) (onBank (fun x => { x with run := .erasing ⟨1, 0x800000, 40, false, none⟩ }) (onCore (fun x => { x with grants := { x.grants with windowValid := true, bank := false, first := 0, last := 127 } }) (onOwn (fun x => { x with asm := .none }) (tOn .vehicle)))), 0, 0x5C3, 0x8001A6, by simp only [storeReaches_iff]; decide +kernel⟩,
   ⟨onBank (fun x => { x with run := .deferring ⟨0, 0x800000, 40, true, none⟩ 0 }) (onAll (fun x => { x with fl := { x.fl with refusing := true } }) (onCore (fun x => { x with grants := { x.grants with windowValid := true, bank := false, first := 0, last := 127 } }) (tOn .vehicle))), 0, 0x6B5, 0x8001FF, by simp only [storeReaches_iff]; decide +kernel⟩,
   ⟨onBank (fun x => { x with run := .erasing ⟨0, 0x800000, 41, false, none⟩ }) (onAll (fun x => { x with fl := { x.fl with refusing := true } }) (onCore (fun x => { x with grants := { x.grants with windowValid := true, bank := false, first := 0, last := 127 } }) (onOwn (fun x => { x with asm := .none }) (tOn .vehicle)))), 0, 0x3D8, 0x800000, by simp only [storeReaches_iff]; decide +kernel⟩,
   ⟨onBoot (fun x => { x with units := Vector.replicate 42 .failedAtRun }) (onCore (fun x => { x with grants := { x.grants with blocks := 0x7FFF, routes := 15 } }) (onBank (fun x => { x with suspended := some ⟨0, 0x800000, 40, false, none⟩ }) (onCore (fun x => { x with grants := { x.grants with windowValid := true, bank := false, first := 0, last := 127 } }) (onOwn (fun x => { x with asm := .seq1 0x800000 }) (tOn .vehicle))))), 0, 0xA3C, 0x800659, 0x800000, by simp only [storeReaches_iff]; decide +kernel⟩,
   ⟨onBoot (fun x => { x with units := Vector.replicate 42 .failedAtRun }) (onCore (fun x => { x with grants := { x.grants with blocks := 0x7FFF, routes := 15 } }) (onBank (fun x => { x with run := .erasing ⟨1, 0x800000, 40, false, none⟩ }) (onCore (fun x => { x with grants := { x.grants with windowValid := true, bank := false, first := 0, last := 127 } }) (onOwn (fun x => { x with asm := .seq2 0x800000 }) (tOn .vehicle))))), 0, 0x7E1, 0x8001A6, 0x800000, by simp only [storeReaches_iff]; decide +kernel⟩,
   ⟨onBoot (fun x => { x with units := Vector.replicate 42 .failedAtRun }) (onCore (fun x => { x with grants := { x.grants with blocks := 0x7FFF, routes := 15 } }) (onCore (fun x => { x with grants := { x.grants with windowValid := true, bank := false, first := 0, last := 127 } }) (onOwn (fun x => { x with asm := .seq2 0x800000 }) (tOn .vehicle)))), 0, 0x4D2, 0x8001A6, 0x800000, by simp only [storeReaches_iff]; decide +kernel⟩,
   ⟨onCore (fun x => { x with grants := { x.grants with blocks := 0x7FFF, routes := 15 } }) (onAll (fun x => { x with fl := { x.fl with refusing := true } }) (onCore (fun x => { x with grants := { x.grants with windowValid := true, bank := false, first := 0, last := 127 } }) (onOwn (fun x => { x with asm := .seqErase 0x808000 }) (tOn .vehicle)))), 0, 0x2B4, 0x808000, by simp only [storeReaches_iff]; decide +kernel⟩,
   ⟨onCore (fun x => { x with grants := { x.grants with windowValid := true, bank := false, first := 0, last := 127 } }) (onOwn (fun x => { x with asm := .seqData 0x800000 none [] }) (tOn .vehicle)), 0, 0x800000, by simp only [storeReaches_iff]; decide +kernel⟩,
   ⟨onBank (fun x => { x with run := .deferring ⟨0, 0x800000, 40, true, none⟩ 0 }) (onCore (fun x => { x with grants := { x.grants with windowValid := true, bank := false, first := 0, last := 127 } }) (onOwn (fun x => { x with asm := .seqData 0x800000 (some 0x800100) [5] }) (tOn .vehicle))), 0, 0x800101, [5], 0x800000, 0x800100, by simp only [storeReaches_iff]; decide +kernel⟩,
   ⟨onBank (fun x => { x with run := .erasing ⟨0, 0x800000, 429, false, none⟩ }) (onAll (fun x => { x with fl := { x.fl with refusing := true } }) (onCore (fun x => { x with grants := { x.grants with windowValid := true, bank := false, first := 0, last := 127 } }) (onOwn (fun x => { x with asm := .seqData 0x800000 (some 0x800100) (List.replicate 255 5) }) (tOn .vehicle)))), 0, 0x8001FF, List.replicate 255 5, 0x800000, 0x800100, by simp only [storeReaches_iff]; decide +kernel⟩,
   ⟨onBank (fun x => { x with run := .erasing ⟨0, 0x800000, 41, false, none⟩ }) (onAll (fun x => { x with fl := { x.fl with refusing := true } }) (onCore (fun x => { x with grants := { x.grants with windowValid := true, bank := false, first := 0, last := 127 } }) (onOwn (fun x => { x with asm := .seq1 0x800000 }) (tOn .vehicle)))), 0, 0xE47, 0x808000, 0x800000, by simp only [storeReaches_iff]; decide +kernel⟩,
   ⟨onCore (fun x => { x with grants := { x.grants with blocks := 0x7FFF, routes := 15 } }) (onBank (fun x => { x with run := .erasing ⟨0, 0x800000, 429, false, none⟩ }) (onAll (fun x => { x with fl := { x.fl with refusing := true } }) (onCore (fun x => { x with grants := { x.grants with windowValid := true, bank := false, first := 0, last := 127 } }) (onOwn (fun x => { x with asm := .seq1 0x800000 }) (tOn .vehicle))))), 0, 0x5C3, 0x800100, 0x800000, by simp only [storeReaches_iff]; decide +kernel⟩,
   ⟨onCore (fun x => { x with grants := { x.grants with blocks := 0x7FFF, routes := 15 } }) (onBank (fun x => { x with run := .deferring ⟨0, 0x800000, 40, true, none⟩ 0 }) (onAll (fun x => { x with fl := { x.fl with refusing := true } }) (onOwn (fun x => { x with asm := .addr0 2 0 }) (tOn .vehicle)))), 0, 0x7FFFFF, List.replicate 256 5, by dsimp only; decide +kernel⟩,
   ⟨onCore (fun x => { x with grants := { x.grants with blocks := 0x7FFF, routes := 15 } }) (onBank (fun x => { x with run := .erasing ⟨0, 0x800000, 40, false, none⟩ }) (onAll (fun x => { x with fl := { x.fl with refusing := true } }) (onCore (fun x => { x with grants := { x.grants with windowValid := true, bank := false, first := 0, last := 127 } }) (onOwn (fun x => { x with asm := .unlocked }) (tOn .vehicle))))), 0, 0x8001A6, List.replicate 256 5, by dsimp only; decide +kernel⟩,
   ⟨onCore (fun x => { x with grants := { x.grants with blocks := 0x7FFF, routes := 15 } }) (onBank (fun x => { x with run := .erasing ⟨0, 0x800000, 41, false, none⟩ }) (onAll (fun x => { x with fl := { x.fl with refusing := true } }) (onCore (fun x => { x with grants := { x.grants with windowValid := true, bank := false, first := 0, last := 127 } }) (onOwn (fun x => { x with asm := .seq2 0x800000 }) (tOn .vehicle))))), 0, 0x808000, List.replicate 256 5, by dsimp only; decide +kernel⟩,
   ⟨onBank (fun x => { x with run := .erasing ⟨1, 0x800000, 40, false, none⟩ }) (onCore (fun x => { x with grants := { x.grants with windowValid := true, bank := false, first := 0, last := 127 } }) (onOwn (fun x => { x with asm := .unlocked }) (tOn .vehicle))), 0, 0x808000, List.replicate 256 5, by dsimp only; decide +kernel⟩,
   ⟨onCore (fun x => { x with grants := { x.grants with windowValid := true, bank := false, first := 0, last := 127 } }) (tOn .vehicle), 0, 0x800001, by dsimp only; decide +kernel⟩,
   ⟨onAll (fun x => { x with fl := { x.fl with refusing := true } }) (onCore (fun x => { x with grants := { x.grants with windowValid := true, bank := false, first := 0, last := 127 } }) (tOn .vehicle)), 0, 0x800000, by dsimp only; decide +kernel⟩,
   ⟨onCore (fun x => { x with grants := { x.grants with windowValid := true, bank := false, first := 0, last := 127 } }) (tOn .vehicle), 0, 0x800000, by dsimp only; decide +kernel⟩,
   ⟨onBank (fun x => { x with run := .erasing ⟨0, 0x800000, 40, false, none⟩ }) (onCore (fun x => { x with grants := { x.grants with windowValid := true, bank := false, first := 0, last := 127 } }) (onOwn (fun x => { x with asm := .data 0x800000 (List.replicate 255 5) }) (tOn .vehicle))), 0, 0x808000, ⟨0, 0x800000, 40, false, none⟩, true, by dsimp only; decide +kernel⟩,
   ⟨onCore (fun x => { x with grants := { x.grants with blocks := 0x7FFF, routes := 15 } }) (onBank (fun x => { x with run := .erasing ⟨0, 0x800000, 40, true, none⟩ }) (onCore (fun x => { x with grants := { x.grants with windowValid := true, bank := false, first := 0, last := 127 } }) (onOwn (fun x => { x with asm := .seq2 0x800000 }) (tOn .vehicle)))), 0, 0x800101, ⟨0, 0x800000, 40, true, none⟩, by dsimp only; decide +kernel⟩,
   ⟨onCore (fun x => { x with grants := { x.grants with blocks := 0x7FFF, routes := 15 } }) (onCore (fun x => { x with grants := { x.grants with windowValid := true, bank := false, first := 0, last := 127 } }) (onOwn (fun x => { x with asm := .none }) (tOn .vehicle))), 0, 0x800101, ⟨1, 0x800000, 40, true, none⟩, by dsimp only; decide +kernel⟩,
   ⟨onCore (fun x => { x with grants := { x.grants with blocks := 0x7FFF, routes := 15 } }) (onBank (fun x => { x with suspended := some ⟨0, 0x800000, 40, false, none⟩ }) (onCore (fun x => { x with grants := { x.grants with windowValid := true, bank := false, first := 0, last := 127 } }) (onOwn (fun x => { x with asm := .seqErase 0x808000 }) (tOn .vehicle)))), 0, 0x800659, ⟨0, 0x800000, 40, false, none⟩, by dsimp only; decide +kernel⟩,
   ⟨onCore (fun x => { x with grants := { x.grants with windowValid := true, bank := false, first := 0, last := 127 } }) (tOn .vehicle), 0, 0x800000, by dsimp only; decide +kernel⟩,
   ⟨tOn .vehicle, 0x000400, by dsimp only; decide +kernel⟩,
   ⟨onBoot (fun x => { x with units := Vector.replicate 42 .failedAtRun }) (tOn .vehicle), by dsimp only; decide +kernel⟩,
   ⟨onCore (fun x => { x with grants := { x.grants with blocks := 0x7FFF, routes := 15 } }) (onBank (fun x => { x with run := .erasing ⟨1, 0x800000, 40, true, none⟩ }) (onAll (fun x => { x with fl := { x.fl with refusing := true } }) (onOwn (fun x => { x with asm := .seq1 0x800000 }) (tOn .vehicle)))), 0, 0x800000, 0, 2, by dsimp only; decide +kernel⟩⟩

/-- The hypotheses of FlashBanks are met. -/
theorem witness_FlashBanks :
    (∃ (s : State) (b : Fin 2) (c : FlashCmd) (l : List FlashCmd) (p : Nat) (base : Nat) (ws : List Word), let k := s.bank b; let quiet : Prop := ∀ r : Fin 5, (s.fown r).waiting = none; let runs : Prop := s.pow.pm ≠ .holdUp ∧ s.domainRuns .fclk = true; let idle : Prop := runs ∧ k.run = .idle ∧ k.queue = c :: l ∧ quiet; let flag := (s.blockMeta (p / 0x8000 * 0x8000)).flag; let here : Prop := bankOf p = b ∧ bankOf base = b; idle ∧ here ∧ c.op = .program p ws ∧ flag = true) ∧
    (∃ (s : State) (b : Fin 2) (c : FlashCmd) (l : List FlashCmd) (p : Nat) (base : Nat) (ws : List Word), let k := s.bank b; let quiet : Prop := ∀ r : Fin 5, (s.fown r).waiting = none; let runs : Prop := s.pow.pm ≠ .holdUp ∧ s.domainRuns .fclk = true; let idle : Prop := runs ∧ k.run = .idle ∧ k.queue = c :: l ∧ quiet; let flag := (s.blockMeta (p / 0x8000 * 0x8000)).flag; let blank : Prop := p ∉ s.fl.programmed ∧ (p % 0x8000 < 0x7F00 → p + 256 ∉ s.fl.programmed); let here : Prop := bankOf p = b ∧ bankOf base = b; idle ∧ here ∧ c.op = .program p ws ∧ flag = false ∧ ¬blank) ∧
    (∃ (s : State) (b : Fin 2) (c : FlashCmd) (l : List FlashCmd) (p : Nat) (base : Nat) (ws : List Word), let k := s.bank b; let quiet : Prop := ∀ r : Fin 5, (s.fown r).waiting = none; let runs : Prop := s.pow.pm ≠ .holdUp ∧ s.domainRuns .fclk = true; let idle : Prop := runs ∧ k.run = .idle ∧ k.queue = c :: l ∧ quiet; let flag := (s.blockMeta (p / 0x8000 * 0x8000)).flag; let blank : Prop := p ∉ s.fl.programmed ∧ (p % 0x8000 < 0x7F00 → p + 256 ∉ s.fl.programmed); let here : Prop := bankOf p = b ∧ bankOf base = b; idle ∧ here ∧ c.op = .program p ws ∧ flag = false ∧ blank) ∧
    (∃ (s : State) (b : Fin 2) (c : FlashCmd) (l : List FlashCmd) (p : Nat) (base : Nat), let k := s.bank b; let quiet : Prop := ∀ r : Fin 5, (s.fown r).waiting = none; let runs : Prop := s.pow.pm ≠ .holdUp ∧ s.domainRuns .fclk = true; let idle : Prop := runs ∧ k.run = .idle ∧ k.queue = c :: l ∧ quiet; let here : Prop := bankOf p = b ∧ bankOf base = b; idle ∧ here ∧ c.op = .erase base ∧ k.suspended ≠ none) ∧
    (∃ (s : State) (b : Fin 2) (c : FlashCmd) (l : List FlashCmd) (p : Nat) (base : Nat), let k := s.bank b; let quiet : Prop := ∀ r : Fin 5, (s.fown r).waiting = none; let runs : Prop := s.pow.pm ≠ .holdUp ∧ s.domainRuns .fclk = true; let idle : Prop := runs ∧ k.run = .idle ∧ k.queue = c :: l ∧ quiet; let here : Prop := bankOf p = b ∧ bankOf base = b; idle ∧ here ∧ base % 0x8000 = 0 ∧ c.op = .erase base ∧ k.suspended = none) ∧
    (∃ (s : State) (b : Fin 2), let k := s.bank b; let runs : Prop := s.pow.pm ≠ .holdUp ∧ s.domainRuns .fclk = true; (¬ runs ∨ k.run ≠ .idle ∨ k.queue = [])) ∧
    (∃ (s : State) (b : Fin 2) (o : Fin 5) (p : Nat) (ws : List Word) (q : HoldSeq) (y : HoldPage), let k := s.bank b; let quiet : Prop := ∀ r : Fin 5, (s.fown r).waiting = none; let still : Prop := ∀ y ∈ k.suspended, y.resumeBy = none; quiet ∧ still ∧ k.run = .programming o p ws ∧ (∀ q ∈ s.hold.seq, q.stage = .settling) ∧ ws.length = 256) ∧
    (∃ (s : State) (b : Fin 2), let k := s.bank b; let prog := match k.run with | .programming _ _ _ => true | _ => false; prog = false ∧ s.hold.seq = none) ∧
    (∃ (s : State) (b : Fin 2) (q : HoldSeq), let k := s.bank b; let prog := match k.run with | .programming _ _ _ => true | _ => false; prog = false ∧ s.hold.seq = some q ∧ (q.stage ≠ .settling ∨ s.banksSettled = false)) ∧
    (∃ (s : State) (b : Fin 2) (q : HoldSeq), let k := s.bank b; let prog := match k.run with | .programming _ _ _ => true | _ => false; prog = false ∧ s.hold.seq = some q ∧ q.stage = .settling ∧ s.banksSettled = true ∧ q.block = none) ∧
    (∃ (s : State) (b : Fin 2) (q : HoldSeq) (h : Fin 4), let k := s.bank b; let prog := match k.run with | .programming _ _ _ => true | _ => false; prog = false ∧ s.hold.seq = some q ∧ q.stage = .settling ∧ s.banksSettled = true ∧ q.block = some h) ∧
    (∃ (s : State) (b : Fin 2) (o : Fin 5) (p : Nat) (ws : List Word) (q : HoldSeq) (h : Fin 4) (i : HoldImage) (y : HoldPage) (rest : List HoldPage), let k := s.bank b; let quiet : Prop := ∀ r : Fin 5, (s.fown r).waiting = none; let still : Prop := ∀ y ∈ k.suspended, y.resumeBy = none; quiet ∧ still ∧ k.run = .programming o p ws ∧ s.hold.seq = some q ∧ q.block = some h ∧ holdBank h = b ∧ (s.hold.blocks.get h).image = some i ∧ q.stage = .header ∧ q.todo = y :: rest) ∧
    (∃ (s : State) (b : Fin 2) (o : Fin 5) (p : Nat) (ws : List Word) (q : HoldSeq) (h : Fin 4) (i : HoldImage) (y : HoldPage), let k := s.bank b; let quiet : Prop := ∀ r : Fin 5, (s.fown r).waiting = none; let still : Prop := ∀ y ∈ k.suspended, y.resumeBy = none; quiet ∧ still ∧ k.run = .programming o p ws ∧ s.hold.seq = some q ∧ q.block = some h ∧ holdBank h = b ∧ (s.hold.blocks.get h).image = some i ∧ q.stage = .header ∧ q.todo = []) ∧
    (∃ (s : State) (b : Fin 2) (o : Fin 5) (p : Nat) (ws : List Word) (rb : Bool) (q : HoldSeq) (h : Fin 4) (i : HoldImage) (y : HoldPage) (z : HoldPage) (rest : List HoldPage), let k := s.bank b; let quiet : Prop := ∀ r : Fin 5, (s.fown r).waiting = none; let still : Prop := ∀ y ∈ k.suspended, y.resumeBy = none; quiet ∧ still ∧ k.run = .programming o p ws ∧ s.hold.seq = some q ∧ q.block = some h ∧ holdBank h = b ∧ (s.hold.blocks.get h).image = some i ∧ q.stage = .data z ∧ (rb = true ∨ q.rewritten = true) ∧ q.todo = y :: rest) ∧
    (∃ (s : State) (b : Fin 2) (o : Fin 5) (p : Nat) (ws : List Word) (rb : Bool) (q : HoldSeq) (h : Fin 4) (i : HoldImage) (y : HoldPage) (z : HoldPage) (head : List Word) (named : List (List Word)), let k := s.bank b; let quiet : Prop := ∀ r : Fin 5, (s.fown r).waiting = none; let still : Prop := ∀ y ∈ k.suspended, y.resumeBy = none; quiet ∧ still ∧ k.run = .programming o p ws ∧ s.hold.seq = some q ∧ q.block = some h ∧ holdBank h = b ∧ (s.hold.blocks.get h).image = some i ∧ q.stage = .data z ∧ (rb = true ∨ q.rewritten = true) ∧ q.todo = [] ∧ q.written = head :: named) ∧
    (∃ (s : State) (b : Fin 2) (o : Fin 5) (p : Nat) (ws : List Word) (rb : Bool) (q : HoldSeq) (h : Fin 4) (i : HoldImage) (y : HoldPage) (z : HoldPage), let k := s.bank b; let quiet : Prop := ∀ r : Fin 5, (s.fown r).waiting = none; let still : Prop := ∀ y ∈ k.suspended, y.resumeBy = none; quiet ∧ still ∧ k.run = .programming o p ws ∧ s.hold.seq = some q ∧ q.block = some h ∧ holdBank h = b ∧ (s.hold.blocks.get h).image = some i ∧ q.stage = .data z ∧ rb = false ∧ q.rewritten = false) ∧
    (∃ (s : State) (b : Fin 2) (o : Fin 5) (p : Nat) (ws : List Word) (q : HoldSeq) (h : Fin 4) (i : HoldImage) (y : HoldPage), let k := s.bank b; let quiet : Prop := ∀ r : Fin 5, (s.fown r).waiting = none; let still : Prop := ∀ y ∈ k.suspended, y.resumeBy = none; quiet ∧ still ∧ k.run = .programming o p ws ∧ s.hold.seq = some q ∧ q.block = some h ∧ holdBank h = b ∧ (s.hold.blocks.get h).image = some i ∧ q.stage = .commit) ∧
    (∃ (s : State) (b : Fin 2) (e : EraseRun) (ver : Bool), let k := s.bank b; let more := e.steps + 1; k.run = .erasing e ∧ (more < 41 ∨ (ver = false ∧ more < 430))) ∧
    (∃ (s : State) (b : Fin 2) (e : EraseRun) (ver : Bool), let k := s.bank b; let m := s.blockMeta e.block; let quiet : Prop := ∀ r : Fin 5, (s.fown r).waiting = none; let owned : Prop := e.owner ≠ 4 ∧ bankOf e.block = b ∧ e.block % 0x8000 = 0 ∧ quiet ∧ k.suspended = none; let more := e.steps + 1; owned ∧ k.run = .erasing e ∧ 41 ≤ more ∧ more ≤ 430 ∧ ver = true ∧ m.bump.count ≤ 100000) ∧
    (∃ (s : State) (b : Fin 2) (e : EraseRun) (ver : Bool), let k := s.bank b; let m := s.blockMeta e.block; let quiet : Prop := ∀ r : Fin 5, (s.fown r).waiting = none; let owned : Prop := e.owner ≠ 4 ∧ bankOf e.block = b ∧ e.block % 0x8000 = 0 ∧ quiet ∧ k.suspended = none; let more := e.steps + 1; owned ∧ k.run = .erasing e ∧ more = 430 ∧ ver = false ∧ m.bump.count ≤ 100000) ∧
    (∃ (s : State) (p : Nat) (base : Nat) (e : EraseRun), let m := s.blockMeta e.block; m.slotA = some p ∧ m.slotB = some base ∧ p < 0xFFFFFF ∧ base < 0xFFFFFF) ∧
    (∃ (s : State) (b : Fin 2), let k := s.bank b; k.run = .idle) ∧
    (∃ (s : State) (b : Fin 2) (o : Fin 5) (e : EraseRun), let k := s.bank b; k.run = .deferring e o) ∧
    (∃ (s : State) (b : Fin 2), let k := s.bank b; let defer := match k.run with | .deferring _ _ => true | _ => false; defer = false) :=
  ⟨⟨onHold (fun x => { x with seq := some ⟨1, none, .settling, 1, [], [], [[1]], false⟩, blocks := x.blocks.set 0 ⟨true, false, 0, some ⟨1, 1, .vehicle, .t3, Clock.reset, 0, Vector.replicate 2 none, LedgerTail.reset, []⟩, none⟩ }) (onAll (fun x => { x with fl := { x.fl with programmed := [0x800000] } }) (onBank (fun x => { x with info := [(0, { slotA := some 5, slotB := some 0xFFFFFE, flag := true })] }) (onBank (fun x => { x with suspended := some ⟨0, 0x800000, 40, false, none⟩ }) (onBank (fun x => { x with queue := [⟨0, .program 0x800000 (List.replicate 256 5)⟩] }) (tOn .vehicle))))), 0, ⟨0, .program 0x800000 (List.replicate 256 5)⟩, [], 0x800000, 0x800000, List.replicate 256 5, by dsimp only; decide +kernel⟩,
   ⟨onHold (fun x => { x with seq := some ⟨1, some 0, .header, 1, [], [], [[1]], false⟩, blocks := x.blocks.set 0 ⟨true, false, 0, some ⟨1, 1, .vehicle, .t3, Clock.reset, 0, Vector.replicate 2 none, LedgerTail.reset, []⟩, none⟩ }) (onAll (fun x => { x with fl := { x.fl with programmed := [0x800000] } }) (onBank (fun x => { x with suspended := some ⟨0, 0x800000, 40, false, none⟩ }) (onBank (fun x => { x with queue := [⟨0, .program 0x800000 (List.replicate 256 5)⟩] }) (tOn .vehicle)))), 0, ⟨0, .program 0x800000 (List.replicate 256 5)⟩, [], 0x800000, 0x800000, List.replicate 256 5, by dsimp only; decide +kernel⟩,
   ⟨onHold (fun x => { x with seq := some ⟨1, some 0, .data ⟨2, 0, []⟩, 1, [⟨2, 0, []⟩], [], [[1]], true⟩, blocks := x.blocks.set 0 ⟨true, false, 0, some ⟨1, 1, .vehicle, .t3, Clock.reset, 0, Vector.replicate 2 none, LedgerTail.reset, []⟩, none⟩ }) (onBank (fun x => { x with info := [(0, { slotA := some 5, slotB := some 0xFFFFFE, flag := false })] }) (onBank (fun x => { x with suspended := some ⟨0, 0x800000, 40, false, none⟩ }) (onBank (fun x => { x with queue := [⟨0, .program 0x800000 (List.replicate 256 5)⟩] }) (tOn .vehicle)))), 0, ⟨0, .program 0x800000 (List.replicate 256 5)⟩, [], 0x800000, 0x800000, List.replicate 256 5, by dsimp only; decide +kernel⟩,
   ⟨onHold (fun x => { x with seq := some ⟨1, some 0, .header, 1, [⟨2, 0, []⟩], [], [[1]], false⟩, blocks := x.blocks.set 0 ⟨true, false, 0, some ⟨1, 1, .vehicle, .t3, Clock.reset, 0, Vector.replicate 2 none, LedgerTail.reset, []⟩, none⟩ }) (onAll (fun x => { x with fl := { x.fl with programmed := [0x800000] } }) (onBank (fun x => { x with info := [(0, { slotA := some 5, slotB := some 0xFFFFFE, flag := false })] }) (onBank (fun x => { x with suspended := some ⟨0, 0x800000, 40, false, none⟩ }) (onBank (fun x => { x with queue := [⟨0, .erase 0x800000⟩] }) (tOn .vehicle))))), 0, ⟨0, .erase 0x800000⟩, [], 5, 0x800000, by dsimp only; decide +kernel⟩,
   ⟨onHold (fun x => { x with seq := some ⟨1, none, .settling, 1, [], [], [[1]], false⟩, blocks := x.blocks.set 0 ⟨true, false, 0, some ⟨1, 1, .vehicle, .t3, Clock.reset, 0, Vector.replicate 2 none, LedgerTail.reset, []⟩, none⟩ }) (onAll (fun x => { x with fl := { x.fl with programmed := [0x800000] } }) (onBank (fun x => { x with info := [(0, { slotA := some 5, slotB := some 0xFFFFFE, flag := true })] }) (onBank (fun x => { x with queue := [⟨0, .erase 0x800000⟩] }) (tOn .vehicle)))), 0, ⟨0, .erase 0x800000⟩, [], 0x800000, 0x800000, by dsimp only; decide +kernel⟩,
   ⟨tOn .vehicle, 0, by dsimp only; decide +kernel⟩,
   ⟨onAll (fun x => { x with fl := { x.fl with programmed := [0x800000] } }) (onBank (fun x => { x with info := [(0, { slotA := some 5, slotB := some 0xFFFFFE, flag := false })] }) (onBank (fun x => { x with suspended := some ⟨0, 0x800000, 40, false, none⟩ }) (onBank (fun x => { x with queue := [⟨0, .program 0x800000 (List.replicate 256 5)⟩] }) (onBank (fun x => { x with run := .programming 0 0x800000 (List.replicate 256 5) }) (tOn .vehicle))))), 0, 0, 0x800000, List.replicate 256 5, ⟨1, some 0, .header, 1, [⟨2, 0, []⟩], [], [[1]], false⟩, ⟨2, 0, []⟩, by dsimp only; decide +kernel⟩,
   ⟨tOn .vehicle, 0, by dsimp only; decide +kernel⟩,
   ⟨onHold (fun x => { x with seq := some ⟨1, some 0, .ending, 1, [], [], [[1]], false⟩, blocks := x.blocks.set 0 ⟨true, false, 0, some ⟨1, 1, .vehicle, .t3, Clock.reset, 0, Vector.replicate 2 none, LedgerTail.reset, []⟩, none⟩ }) (onAll (fun x => { x with fl := { x.fl with programmed := [0x800000] } }) (onBank (fun x => { x with suspended := some ⟨0, 0x800000, 40, false, none⟩ }) (onBank (fun x => { x with run := .erasing ⟨0, 0x800000, 41, false, none⟩ }) (tOn .vehicle)))), 0, ⟨1, some 0, .ending, 1, [], [], [[1]], false⟩, by dsimp only; decide +kernel⟩,
   ⟨onHold (fun x => { x with seq := some ⟨1, none, .settling, 1, [], [], [[1]], false⟩, blocks := x.blocks.set 0 ⟨true, false, 0, some ⟨1, 1, .vehicle, .t3, Clock.reset, 0, Vector.replicate 2 none, LedgerTail.reset, []⟩, none⟩ }) (onAll (fun x => { x with fl := { x.fl with programmed := [0x800000] } }) (onBank (fun x => { x with suspended := some ⟨0, 0x800000, 40, false, none⟩ }) (onBank (fun x => { x with queue := [⟨0, .program 0x800100 (List.replicate 256 5)⟩] }) (onBank (fun x => { x with run := .erasing ⟨0, 0x800000, 40, true, none⟩ }) (tOn .vehicle))))), 0, ⟨1, none, .settling, 1, [], [], [[1]], false⟩, by dsimp only; decide +kernel⟩,
   ⟨onHold (fun x => { x with seq := some ⟨1, some 0, .settling, 1, [], [], [[1]], false⟩, blocks := x.blocks.set 0 ⟨true, false, 0, some ⟨1, 1, .vehicle, .t3, Clock.reset, 0, Vector.replicate 2 none, LedgerTail.reset, []⟩, none⟩ }) (onAll (fun x => { x with fl := { x.fl with programmed := [0x800000] } }) (onBank (fun x => { x with info := [(0, { slotA := some 5, slotB := some 0xFFFFFE, flag := false })] }) (onBank (fun x => { x with queue := [⟨0, .erase 0x800000⟩] }) (onBank (fun x => { x with run := .erasing ⟨0, 0x800000, 0, false, none⟩ }) (tOn .vehicle))))), 0, ⟨1, some 0, .settling, 1, [], [], [[1]], false⟩, 0, by dsimp only; decide +kernel⟩,
   ⟨onHold (fun x => { x with seq := some ⟨1, some 0, .header, 1, [⟨2, 0, []⟩], [], [[1]], false⟩, blocks := x.blocks.set 0 ⟨true, false, 0, some ⟨1, 1, .vehicle, .t3, Clock.reset, 0, Vector.replicate 2 none, LedgerTail.reset, []⟩, none⟩ }) (onAll (fun x => { x with fl := { x.fl with programmed := [0x800000] } }) (onBank (fun x => { x with suspended := some ⟨0, 0x800000, 40, false, none⟩ }) (onBank (fun x => { x with queue := [⟨0, .erase 0x800000⟩] }) (onBank (fun x => { x with run := .programming 0 0x800000 (List.replicate 256 5) }) (tOn .vehicle))))), 0, 0, 0x800000, List.replicate 256 5, ⟨1, some 0, .header, 1, [⟨2, 0, []⟩], [], [[1]], false⟩, 0, ⟨1, 1, .vehicle, .t3, Clock.reset, 0, Vector.replicate 2 none, LedgerTail.reset, []⟩, ⟨2, 0, []⟩, [], by dsimp only; decide +kernel⟩,
   ⟨onHold (fun x => { x with seq := some ⟨1, some 0, .header, 1, [], [], [[1]], false⟩, blocks := x.blocks.set 0 ⟨true, false, 0, some ⟨1, 1, .vehicle, .t3, Clock.reset, 0, Vector.replicate 2 none, LedgerTail.reset, []⟩, none⟩ }) (onBank (fun x => { x with info := [(0, { slotA := some 5, slotB := some 0xFFFFFE, flag := false })] }) (onBank (fun x => { x with run := .programming 0 0x800000 (List.replicate 256 5) }) (tOn .vehicle))), 0, 0, 0x800000, List.replicate 256 5, ⟨1, some 0, .header, 1, [], [], [[1]], false⟩, 0, ⟨1, 1, .vehicle, .t3, Clock.reset, 0, Vector.replicate 2 none, LedgerTail.reset, []⟩, ⟨2, 0, []⟩, by dsimp only; decide +kernel⟩,
   ⟨onHold (fun x => { x with seq := some ⟨1, some 0, .data ⟨2, 0, []⟩, 1, [⟨2, 0, []⟩], [], [[1]], true⟩, blocks := x.blocks.set 0 ⟨true, false, 0, some ⟨1, 1, .vehicle, .t3, Clock.reset, 0, Vector.replicate 2 none, LedgerTail.reset, []⟩, none⟩ }) (onAll (fun x => { x with fl := { x.fl with programmed := [0x800000] } }) (onBank (fun x => { x with info := [(0, { slotA := some 5, slotB := some 0xFFFFFE, flag := false })] }) (onBank (fun x => { x with queue := [⟨0, .erase 0x800000⟩] }) (onBank (fun x => { x with run := .programming 0 0x800000 (List.replicate 256 5) }) (tOn .vehicle))))), 0, 0, 0x800000, List.replicate 256 5, false, ⟨1, some 0, .data ⟨2, 0, []⟩, 1, [⟨2, 0, []⟩], [], [[1]], true⟩, 0, ⟨1, 1, .vehicle, .t3, Clock.reset, 0, Vector.replicate 2 none, LedgerTail.reset, []⟩, ⟨2, 0, []⟩, ⟨2, 0, []⟩, [], by dsimp only; decide +kernel⟩,
   ⟨onHold (fun x => { x with seq := some ⟨1, some 0, .data ⟨2, 0, []⟩, 1, [], [], [[1]], true⟩, blocks := x.blocks.set 0 ⟨true, false, 0, some ⟨1, 1, .vehicle, .t3, Clock.reset, 0, Vector.replicate 2 none, LedgerTail.reset, []⟩, none⟩ }) (onAll (fun x => { x with fl := { x.fl with programmed := [0x800000] } }) (onBank (fun x => { x with info := [(0, { slotA := some 5, slotB := some 0xFFFFFE, flag := false })] }) (onBank (fun x => { x with suspended := some ⟨0, 0x800000, 40, false, none⟩ }) (onBank (fun x => { x with queue := [⟨0, .erase 0x800000⟩] }) (onBank (fun x => { x with run := .programming 0 0x800000 (List.replicate 256 5) }) (tOn .vehicle)))))), 0, 0, 0x800000, List.replicate 256 5, true, ⟨1, some 0, .data ⟨2, 0, []⟩, 1, [], [], [[1]], true⟩, 0, ⟨1, 1, .vehicle, .t3, Clock.reset, 0, Vector.replicate 2 none, LedgerTail.reset, []⟩, ⟨2, 0, []⟩, ⟨2, 0, []⟩, [1], [], by dsimp only; decide +kernel⟩,
   ⟨onHold (fun x => { x with seq := some ⟨1, some 0, .data ⟨2, 0, []⟩, 1, [⟨2, 0, []⟩], [], [[1]], false⟩, blocks := x.blocks.set 0 ⟨true, false, 0, some ⟨1, 1, .vehicle, .t3, Clock.reset, 0, Vector.replicate 2 none, LedgerTail.reset, []⟩, none⟩ }) (onBank (fun x => { x with info := [(0, { slotA := some 5, slotB := some 0xFFFFFE, flag := true })] }) (onBank (fun x => { x with queue := [⟨0, .erase 0x800000⟩] }) (onBank (fun x => { x with run := .programming 0 0x800000 (List.replicate 256 5) }) (tOn .vehicle)))), 0, 0, 0x800000, List.replicate 256 5, false, ⟨1, some 0, .data ⟨2, 0, []⟩, 1, [⟨2, 0, []⟩], [], [[1]], false⟩, 0, ⟨1, 1, .vehicle, .t3, Clock.reset, 0, Vector.replicate 2 none, LedgerTail.reset, []⟩, ⟨2, 0, []⟩, ⟨2, 0, []⟩, by dsimp only; decide +kernel⟩,
   ⟨onHold (fun x => { x with seq := some ⟨1, some 0, .commit, 1, [], [], [[1]], false⟩, blocks := x.blocks.set 0 ⟨true, false, 0, some ⟨1, 1, .vehicle, .t3, Clock.reset, 0, Vector.replicate 2 none, LedgerTail.reset, []⟩, none⟩ }) (onBank (fun x => { x with queue := [⟨0, .program 0x800100 (List.replicate 256 5)⟩] }) (onBank (fun x => { x with run := .programming 0 0x800000 (List.replicate 256 5) }) (tOn .vehicle))), 0, 0, 0x800000, List.replicate 256 5, ⟨1, some 0, .commit, 1, [], [], [[1]], false⟩, 0, ⟨1, 1, .vehicle, .t3, Clock.reset, 0, Vector.replicate 2 none, LedgerTail.reset, []⟩, ⟨2, 0, []⟩, by dsimp only; decide +kernel⟩,
   ⟨onHold (fun x => { x with seq := some ⟨1, some 0, .data ⟨2, 0, []⟩, 1, [], [], [[1]], false⟩, blocks := x.blocks.set 0 ⟨true, false, 0, some ⟨1, 1, .vehicle, .t3, Clock.reset, 0, Vector.replicate 2 none, LedgerTail.reset, []⟩, none⟩ }) (onAll (fun x => { x with fl := { x.fl with programmed := [0x800000] } }) (onBank (fun x => { x with queue := [⟨0, .erase 0x800000⟩] }) (onBank (fun x => { x with run := .erasing ⟨1, 0x800000, 40, false, none⟩ }) (tOn .vehicle)))), 0, ⟨1, 0x800000, 40, false, none⟩, false, by dsimp only; decide +kernel⟩,
   ⟨onHold (fun x => { x with seq := some ⟨1, some 0, .commit, 1, [], [], [[1]], false⟩, blocks := x.blocks.set 0 ⟨true, false, 0, some ⟨1, 1, .vehicle, .t3, Clock.reset, 0, Vector.replicate 2 none, LedgerTail.reset, []⟩, none⟩ }) (onBank (fun x => { x with queue := [⟨0, .program 0x800000 (List.replicate 256 5)⟩] }) (onBank (fun x => { x with run := .erasing ⟨1, 0x800000, 40, true, none⟩ }) (tOn .vehicle))), 0, ⟨1, 0x800000, 40, true, none⟩, true, by dsimp only; decide +kernel⟩,
   ⟨onHold (fun x => { x with seq := some ⟨1, some 0, .data ⟨2, 0, []⟩, 1, [], [], [[1]], false⟩, blocks := x.blocks.set 0 ⟨true, false, 0, some ⟨1, 1, .vehicle, .t3, Clock.reset, 0, Vector.replicate 2 none, LedgerTail.reset, []⟩, none⟩ }) (onBank (fun x => { x with run := .erasing ⟨0, 0x800000, 429, false, none⟩ }) (tOn .vehicle)), 0, ⟨0, 0x800000, 429, false, none⟩, false, by dsimp only; decide +kernel⟩,
   ⟨onHold (fun x => { x with seq := some ⟨1, some 0, .header, 1, [⟨2, 0, []⟩], [], [[1]], false⟩, blocks := x.blocks.set 0 ⟨true, false, 0, some ⟨1, 1, .vehicle, .t3, Clock.reset, 0, Vector.replicate 2 none, LedgerTail.reset, []⟩, none⟩ }) (onAll (fun x => { x with fl := { x.fl with programmed := [0x800000] } }) (onBank (fun x => { x with info := [(0, { slotA := some 5, slotB := some 0xFFFFFE, flag := false })] }) (onBank (fun x => { x with queue := [⟨0, .program 0x800100 (List.replicate 256 5)⟩] }) (onBank (fun x => { x with run := .programming 0 0x800000 (List.replicate 256 5) }) (tOn .vehicle))))), 5, 0xFFFFFE, ⟨0, 0x800000, 429, false, none⟩, by dsimp only; decide +kernel⟩,
   ⟨tOn .vehicle, 0, by dsimp only; decide +kernel⟩,
   ⟨onBank (fun x => { x with run := .deferring ⟨0, 0x800000, 40, true, none⟩ 0 }) (tOn .vehicle), 0, 0, ⟨0, 0x800000, 40, true, none⟩, by dsimp only; decide +kernel⟩,
   ⟨tOn .vehicle, 0, by dsimp only; decide +kernel⟩⟩

/-- The hypotheses of JournalOnNand are met. -/
theorem witness_JournalOnNand :
    (∃ (s : State) (t : Fin 2), let j := s.jou; j.busy.get t = none) ∧
    (∃ (s : State) (t : Fin 2) (b : Nat) (p : JPage) (r : Rec), let j := s.jou; let blk := j.block b; let empty : Prop := j.entries = [] ∧ j.copies = [] ∧ j.overflow = [] ∧ j.moves = [] ∧ j.lost = 0 ∧ j.pageDue = false ∧ j.flushing = none; let ready : Prop := j.state = .ready ∧ 74 ≤ j.goodBlocks ∧ j.nextSeq < 0xFFFFFFF0 ∧ j.info.pageOctets = 2048; let calm : Prop := s.led.periods = [] ∧ s.led.rides = [] ∧ j.protectedOctets s.led.acks = 0 ∧ j.busy.get (if t = 0 then 1 else 0) = none ∧ s.pow.pm ≠ .holdUp ∧ s.pow.cLow = false ∧ ∀ h : Fin 4, (s.hold.blocks.get h).awaiting = none; let runs (o : NandOp) : Prop := j.busy.get t = some o ∧ empty ∧ ready ∧ calm; let plain : Prop := r.copy = false ∧ r.link = .none ∧ r.type ≠ 1 ∧ r.body.length < 100; runs (.program b p) ∧ plain ∧ p.recs = [r] ∧ blk.pages = []) ∧
    (∃ (s : State) (t : Fin 2) (b : Nat), let j := s.jou; let empty : Prop := j.entries = [] ∧ j.copies = [] ∧ j.overflow = [] ∧ j.moves = [] ∧ j.lost = 0 ∧ j.pageDue = false ∧ j.flushing = none; let ready : Prop := j.state = .ready ∧ 74 ≤ j.goodBlocks ∧ j.nextSeq < 0xFFFFFFF0 ∧ j.info.pageOctets = 2048; let calm : Prop := s.led.periods = [] ∧ s.led.rides = [] ∧ j.protectedOctets s.led.acks = 0 ∧ j.busy.get (if t = 0 then 1 else 0) = none ∧ s.pow.pm ≠ .holdUp ∧ s.pow.cLow = false ∧ ∀ h : Fin 4, (s.hold.blocks.get h).awaiting = none; let runs (o : NandOp) : Prop := j.busy.get t = some o ∧ empty ∧ ready ∧ calm; runs (.erase b) ∧ j.timeouts.get t = 1 ∧ s.eventsLive = true) ∧
    (∃ (s : State) (t : Fin 2) (b : Nat), let j := s.jou; let empty : Prop := j.entries = [] ∧ j.copies = [] ∧ j.overflow = [] ∧ j.moves = [] ∧ j.lost = 0 ∧ j.pageDue = false ∧ j.flushing = none; let ready : Prop := j.state = .ready ∧ 74 ≤ j.goodBlocks ∧ j.nextSeq < 0xFFFFFFF0 ∧ j.info.pageOctets = 2048; let calm : Prop := s.led.periods = [] ∧ s.led.rides = [] ∧ j.protectedOctets s.led.acks = 0 ∧ j.busy.get (if t = 0 then 1 else 0) = none ∧ s.pow.pm ≠ .holdUp ∧ s.pow.cLow = false ∧ ∀ h : Fin 4, (s.hold.blocks.get h).awaiting = none; let runs (o : NandOp) : Prop := j.busy.get t = some o ∧ empty ∧ ready ∧ calm; runs (.erase b) ∧ j.timeouts.get t = 2) ∧
    (∃ (s : State), let j := s.jou; (j.state = .absent ∨ j.state = .paused ∨ j.state = .foreign ∨ j.state = .failed)) ∧
    (∃ (s : State) (b : Nat) (r : Rec), let j := s.jou; let blk := j.block b; let ready : Prop := j.state = .ready ∧ 74 ≤ j.goodBlocks ∧ j.nextSeq < 0xFFFFFFF0 ∧ j.info.pageOctets = 2048; let plain : Prop := r.copy = false ∧ r.link = .none ∧ r.type ≠ 1 ∧ r.body.length < 100; ready ∧ s.pow.pm ≠ .holdUp ∧ s.pow.cLow = false ∧ j.busy = Vector.replicate 2 none ∧ j.entries = [r] ∧ plain ∧ j.active = some b ∧ blk.pages.length < j.info.pagesPerBlock ∧ j.blocks.all (fun x => x.2.kind ≠ .erasing) = true) ∧
    (∃ (s : State), let j := s.jou; let waits : Prop := j.state = .probing ∨ j.state = .absent ∨ j.state = .foreign ∨ j.state = .failed ∨ j.state = .paused; (waits ∨ s.pow.pm = .holdUp ∨ s.pow.cLow = true)) ∧
    (∃ (s : State) (t : Fin 2) (b : Nat) (p : JPage) (r : Rec) (w : List Nat) (l : List Nat), let j := s.jou; let blk := j.block b; let empty : Prop := j.entries = [] ∧ j.copies = [] ∧ j.overflow = [] ∧ j.moves = [] ∧ j.lost = 0 ∧ j.pageDue = false ∧ j.flushing = none; let ready : Prop := j.state = .ready ∧ 74 ≤ j.goodBlocks ∧ j.nextSeq < 0xFFFFFFF0 ∧ j.info.pageOctets = 2048; let calm : Prop := s.led.periods = [] ∧ s.led.rides = [] ∧ j.protectedOctets s.led.acks = 0 ∧ j.busy.get (if t = 0 then 1 else 0) = none ∧ s.pow.pm ≠ .holdUp ∧ s.pow.cLow = false ∧ ∀ h : Fin 4, (s.hold.blocks.get h).awaiting = none; let plain : Prop := r.copy = false ∧ r.link = .none ∧ r.type ≠ 1 ∧ r.body.length < 100; ready ∧ empty ∧ calm ∧ blk.kind = .full ∧ blk.pages = [p] ∧ p.recs = [r] ∧ plain ∧ r.type ≠ 3 ∧ w = [13] ∧ l = [] ∧ r.seconds + 94608000 ≥ s.led.cur.clock.seconds ∧ j.epochSeq ≤ r.seq) ∧
    (∃ (s : State), let j := s.jou; let empty : Prop := j.entries = [] ∧ j.copies = [] ∧ j.overflow = [] ∧ j.moves = [] ∧ j.lost = 0 ∧ j.pageDue = false ∧ j.flushing = none; let ready : Prop := j.state = .ready ∧ 74 ≤ j.goodBlocks ∧ j.nextSeq < 0xFFFFFFF0 ∧ j.info.pageOctets = 2048; s.eventsLive = true ∧ s.boot.tier ≠ .t0 ∧ ready ∧ empty) ∧
    (∃ (s : State), s.boot.tier = .t0) ∧
    (∃ (s : State) (t : Fin 2) (b : Nat) (p : JPage) (r : Rec) (w : List Nat) (l : List Nat), let j := s.jou; let blk := j.block b; let empty : Prop := j.entries = [] ∧ j.copies = [] ∧ j.overflow = [] ∧ j.moves = [] ∧ j.lost = 0 ∧ j.pageDue = false ∧ j.flushing = none; let ready : Prop := j.state = .ready ∧ 74 ≤ j.goodBlocks ∧ j.nextSeq < 0xFFFFFFF0 ∧ j.info.pageOctets = 2048; let calm : Prop := s.led.periods = [] ∧ s.led.rides = [] ∧ j.protectedOctets s.led.acks = 0 ∧ j.busy.get (if t = 0 then 1 else 0) = none ∧ s.pow.pm ≠ .holdUp ∧ s.pow.cLow = false ∧ ∀ h : Fin 4, (s.hold.blocks.get h).awaiting = none; let plain : Prop := r.copy = false ∧ r.link = .none ∧ r.type ≠ 1 ∧ r.body.length < 100; ready ∧ empty ∧ calm ∧ blk.kind = .full ∧ blk.pages = [p] ∧ p.recs = [r] ∧ plain ∧ r.type ≠ 3 ∧ (∀ x ∈ w, x < 8) ∧ l = [0] ∧ r.seconds + 94608000 ≥ s.led.cur.clock.seconds ∧ j.epochSeq ≤ r.seq) ∧
    (∃ (s : State) (t : Fin 2) (b : Nat) (p : JPage) (r : Rec) (w : List Nat) (l : List Nat), let j := s.jou; let blk := j.block b; let empty : Prop := j.entries = [] ∧ j.copies = [] ∧ j.overflow = [] ∧ j.moves = [] ∧ j.lost = 0 ∧ j.pageDue = false ∧ j.flushing = none; let ready : Prop := j.state = .ready ∧ 74 ≤ j.goodBlocks ∧ j.nextSeq < 0xFFFFFFF0 ∧ j.info.pageOctets = 2048; let calm : Prop := s.led.periods = [] ∧ s.led.rides = [] ∧ j.protectedOctets s.led.acks = 0 ∧ j.busy.get (if t = 0 then 1 else 0) = none ∧ s.pow.pm ≠ .holdUp ∧ s.pow.cLow = false ∧ ∀ h : Fin 4, (s.hold.blocks.get h).awaiting = none; ready ∧ empty ∧ calm ∧ blk.kind = .full ∧ blk.pages = [p] ∧ p.recs = [r] ∧ (∀ x ∈ w, x < 8) ∧ l = [] ∧ r.seconds + 94608000 ≥ s.led.cur.clock.seconds ∧ j.epochSeq ≤ r.seq ∧ j.busy = Vector.replicate 2 none ∧ j.blocks.all (fun x => x.2.kind ≠ .erasing) = true) ∧
    (∃ (s : State), let j := s.jou; j.state ≠ .ready ∧ j.state ≠ .full) ∧
    (∃ (s : State), let j := s.jou; j.state ≠ .mounting) ∧
    (∃ (s : State) (f : MountFound), let j := s.jou; j.state = .mounting ∧ f.kind = .foreign) ∧
    (∃ (s : State) (f : MountFound) (fac : List Nat), let j := s.jou; let empty : Prop := j.entries = [] ∧ j.copies = [] ∧ j.overflow = [] ∧ j.moves = [] ∧ j.lost = 0 ∧ j.pageDue = false ∧ j.flushing = none; j.state = .mounting ∧ f.kind = .blank fac ∧ f.info.pageOctets = 2048 ∧ f.info.pagesPerBlock = 64 ∧ 90 ≤ f.info.blocks ∧ fac.length ≤ 6 ∧ f.secondUnusable = false ∧ empty) ∧
    (∃ (s : State) (t : Fin 2) (f : MountFound) (rb : Bool), let j := s.jou; let empty : Prop := j.entries = [] ∧ j.copies = [] ∧ j.overflow = [] ∧ j.moves = [] ∧ j.lost = 0 ∧ j.pageDue = false ∧ j.flushing = none; let calm : Prop := s.led.periods = [] ∧ s.led.rides = [] ∧ j.protectedOctets s.led.acks = 0 ∧ j.busy.get (if t = 0 then 1 else 0) = none ∧ s.pow.pm ≠ .holdUp ∧ s.pow.cLow = false ∧ ∀ h : Fin 4, (s.hold.blocks.get h).awaiting = none; j.state = .mounting ∧ f.kind = .own rb ∧ j.identity ≠ none ∧ f.info = j.info ∧ 74 ≤ j.goodBlocks ∧ j.nextSeq < 0xFFFFFFF0 ∧ j.cutPages = [] ∧ f.secondUnusable = false ∧ empty ∧ calm ∧ j.held.all (fun x => x.2.seq < j.nextSeq) = true) :=
  ⟨⟨tOn .vehicle, 0, by dsimp only; decide +kernel⟩,
   ⟨onJou (fun x => { x with busy := x.busy.set 0 (some (.program 5 ⟨77, [⟨5, false, 40, 0, 0, 0, [7], .none⟩]⟩)) }) (onJou (fun x => { x with state := .ready, info := ⟨1, 2048, 64, 90, 60, 3⟩, nextSeq := 50, confirmed := 30 }) (tOn .vehicle)), 0, 5, ⟨77, [⟨5, false, 40, 0, 0, 0, [7], .none⟩]⟩, ⟨5, false, 40, 0, 0, 0, [7], .none⟩, by dsimp only; decide +kernel⟩,
   ⟨onJou (fun x => { x with timeouts := Vector.replicate 2 1 }) (onJou (fun x => { x with busy := x.busy.set 0 (some (.erase 5)) }) (onJou (fun x => { x with state := .ready, info := ⟨1, 2048, 64, 90, 60, 3⟩, nextSeq := 50, confirmed := 30 }) (tOn .vehicle))), 0, 5, by dsimp only; decide +kernel⟩,
   ⟨onJou (fun x => { x with timeouts := Vector.replicate 2 2 }) (onJou (fun x => { x with busy := x.busy.set 0 (some (.erase 5)) }) (onJou (fun x => { x with state := .ready, info := ⟨1, 2048, 64, 90, 60, 3⟩, nextSeq := 50, confirmed := 30 }) (tOn .vehicle))), 0, 5, by dsimp only; decide +kernel⟩,
   ⟨tOn .vehicle, by dsimp only; decide +kernel⟩,
   ⟨onJou (fun x => { x with active := some 5 }) (onJou (fun x => { x with entries := [⟨5, false, 40, 0, 0, 0, [7], .none⟩] }) (onJou (fun x => { x with state := .ready, info := ⟨1, 2048, 64, 90, 60, 3⟩, nextSeq := 50, confirmed := 30 }) (tOn .vehicle))), 5, ⟨5, false, 40, 0, 0, 0, [7], .none⟩, by dsimp only; decide +kernel⟩,
   ⟨tOn .vehicle, by dsimp only; decide +kernel⟩,
   ⟨onJou (fun x => { x with blocks := [(5, ⟨.full, 4, [⟨77, [⟨5, false, 40, 0, 0, 0, [7], .none⟩]⟩]⟩)] }) (onJou (fun x => { x with state := .ready, info := ⟨1, 2048, 64, 90, 60, 3⟩, nextSeq := 50, confirmed := 30 }) (tOn .vehicle)), 0, 5, ⟨77, [⟨5, false, 40, 0, 0, 0, [7], .none⟩]⟩, ⟨5, false, 40, 0, 0, 0, [7], .none⟩, [13], [], by dsimp only; decide +kernel⟩,
   ⟨onJou (fun x => { x with state := .ready, info := ⟨1, 2048, 64, 90, 60, 3⟩, nextSeq := 50, confirmed := 30 }) (tOn .vehicle), by dsimp only; decide +kernel⟩,
   ⟨onBoot (fun x => { x with tier := .t0 }) (tOn .vehicle), by decide +kernel⟩,
   ⟨onJou (fun x => { x with blocks := [(5, ⟨.full, 4, [⟨77, [⟨5, false, 40, 0, 0, 0, [7], .none⟩]⟩]⟩)] }) (onJou (fun x => { x with state := .ready, info := ⟨1, 2048, 64, 90, 60, 3⟩, nextSeq := 50, confirmed := 30 }) (tOn .vehicle)), 0, 5, ⟨77, [⟨5, false, 40, 0, 0, 0, [7], .none⟩]⟩, ⟨5, false, 40, 0, 0, 0, [7], .none⟩, [], [0], by dsimp only; decide +kernel⟩,
   ⟨onJou (fun x => { x with blocks := [(5, ⟨.full, 4, [⟨77, [⟨5, false, 40, 0, 0, 0, [7], .none⟩]⟩]⟩)] }) (onJou (fun x => { x with state := .ready, info := ⟨1, 2048, 64, 90, 60, 3⟩, nextSeq := 50, confirmed := 30 }) (tOn .vehicle)), 0, 5, ⟨77, [⟨5, false, 40, 0, 0, 0, [7], .none⟩]⟩, ⟨5, false, 40, 0, 0, 0, [7], .none⟩, [], [], by dsimp only; decide +kernel⟩,
   ⟨tOn .vehicle, by dsimp only; decide +kernel⟩,
   ⟨tOn .vehicle, by dsimp only; decide +kernel⟩,
   ⟨onJou (fun x => { x with state := .mounting, info := ⟨1, 2048, 64, 90, 60, 3⟩, nextSeq := 50, confirmed := 30 }) (tOn .vehicle), ⟨⟨1, 2048, 64, 90, 60, 3⟩, false, .foreign, []⟩, by dsimp only; decide +kernel⟩,
   ⟨onJou (fun x => { x with state := .mounting, info := ⟨1, 2048, 64, 90, 60, 3⟩, nextSeq := 50, confirmed := 30 }) (tOn .vehicle), ⟨⟨1, 2048, 64, 90, 60, 3⟩, false, .blank [1, 2, 3, 4, 5, 6], []⟩, [1, 2, 3, 4, 5, 6], by dsimp only; decide +kernel⟩,
   ⟨onJou (fun x => { x with blocks := [(5, ⟨.full, 4, [⟨77, [⟨5, false, 40, 0, 0, 0, [7], .none⟩]⟩]⟩)] }) (onJou (fun x => { x with state := .mounting, info := ⟨1, 2048, 64, 90, 60, 3⟩, nextSeq := 50, identity := some 9 }) (tOn .vehicle)), 0, ⟨⟨1, 2048, 64, 90, 60, 3⟩, false, .own false, []⟩, false, by dsimp only; decide +kernel⟩⟩

/-- The hypotheses of JournalCommands are met. -/
theorem witness_JournalCommands :
    (∃ (s : State) (q : CmdReq), let j := s.jou; let ok (cmd : Nat) : Prop := s.accepts cmd q = true; ok 0x0701 ∧ j.readable = true) ∧
    (∃ (s : State) (q : CmdReq), let j := s.jou; let ok (cmd : Nat) : Prop := s.accepts cmd q = true; ok 0x0701 ∧ j.readable = false ∧ j.state ≠ .mounting) ∧
    (∃ (s : State) (q : CmdReq), let j := s.jou; let ok (cmd : Nat) : Prop := s.accepts cmd q = true; ok 0x0701 ∧ j.state = .mounting) ∧
    (∃ (s : State) (q : CmdReq), let j := s.jou; let ok (cmd : Nat) : Prop := s.accepts cmd q = true; let first := fieldNat q.payload 0 4; let last := fieldNat q.payload 4 4; ok 0x0702 ∧ j.readable = true ∧ last < first) ∧
    (∃ (s : State) (q : CmdReq), let j := s.jou; let ok (cmd : Nat) : Prop := s.accepts cmd q = true; let first := fieldNat q.payload 0 4; let last := fieldNat q.payload 4 4; let still : Prop := j.entries = [] ∧ j.lost = 0 ∧ j.overflow = [] ∧ j.flying = [] ∧ j.pageDue = false ∧ j.flushing = none ∧ j.copies = [] ∧ j.info.pageOctets = 2048; ok 0x0702 ∧ j.readable = true ∧ still ∧ j.nextSeq ≤ first ∧ first ≤ last) ∧
    (∃ (s : State) (q : CmdReq), let j := s.jou; let ok (cmd : Nat) : Prop := s.accepts cmd q = true; ok 0x0702 ∧ j.readable = false ∧ j.state ≠ .mounting) ∧
    (∃ (s : State) (q : CmdReq), let j := s.jou; let ok (cmd : Nat) : Prop := s.accepts cmd q = true; let still : Prop := j.entries = [] ∧ j.lost = 0 ∧ j.overflow = [] ∧ j.flying = [] ∧ j.pageDue = false ∧ j.flushing = none ∧ j.copies = [] ∧ j.info.pageOctets = 2048; ok 0x0703 ∧ j.writing = true ∧ still ∧ q.payload.length < 1000) ∧
    (∃ (s : State) (q : CmdReq), let j := s.jou; let ok (cmd : Nat) : Prop := s.accepts cmd q = true; ok 0x0703 ∧ j.writing = false) ∧
    (∃ (s : State) (q : CmdReq), let ok (cmd : Nat) : Prop := s.accepts cmd q = true; ok 0x0704 ∧ octetAt q.payload 0 ≠ 0x4A) ∧
    (∃ (s : State) (q : CmdReq), let j := s.jou; let ok (cmd : Nat) : Prop := s.accepts cmd q = true; ok 0x0704 ∧ octetAt q.payload 0 = 0x4A ∧ j.state ≠ .foreign) ∧
    (∃ (s : State) (q : CmdReq), let j := s.jou; let ok (cmd : Nat) : Prop := s.accepts cmd q = true; ok 0x0704 ∧ octetAt q.payload 0 = 0x4A ∧ j.state = .foreign) ∧
    (∃ (s : State) (q : CmdReq), let j := s.jou; let ok (cmd : Nat) : Prop := s.accepts cmd q = true; ok 0x0705 ∧ j.writing = true ∧ j.flushing = none ∧ j.entries = []) ∧
    (∃ (s : State) (q : CmdReq) (r : Rec), let j := s.jou; let ok (cmd : Nat) : Prop := s.accepts cmd q = true; ok 0x0705 ∧ j.writing = true ∧ j.flushing = none ∧ j.entries = [r]) ∧
    (∃ (s : State) (q : CmdReq), let j := s.jou; let ok (cmd : Nat) : Prop := s.accepts cmd q = true; ok 0x0705 ∧ j.writing = false ∧ j.flushing = none) :=
  ⟨⟨onJou (fun x => { x with state := .ready, info := ⟨1, 2048, 64, 90, 60, 3⟩, nextSeq := 50 }) (tOn .vehicle), ⟨.hostPort, 1, []⟩, by dsimp only; decide +kernel⟩,
   ⟨tOn .vehicle, ⟨.hostPort, 1, []⟩, by dsimp only; decide +kernel⟩,
   ⟨onJou (fun x => { x with state := .mounting, info := ⟨1, 2048, 64, 90, 60, 3⟩, nextSeq := 50 }) (tOn .vehicle), ⟨.hostPort, 1, []⟩, by dsimp only; decide +kernel⟩,
   ⟨onJou (fun x => { x with state := .ready, info := ⟨1, 2048, 64, 90, 60, 3⟩, nextSeq := 50 }) (tOn .vehicle), ⟨.hostPort, 1, leOctets 4 50 ++ leOctets 4 49 ++ leOctets 2 0xFFF⟩, by dsimp only; decide +kernel⟩,
   ⟨onJou (fun x => { x with state := .ready, info := ⟨1, 2048, 64, 90, 60, 3⟩, nextSeq := 50 }) (tOn .vehicle), ⟨.hostPort, 1, leOctets 4 50 ++ leOctets 4 50 ++ leOctets 2 0xFFF⟩, by dsimp only; decide +kernel⟩,
   ⟨tOn .vehicle, ⟨.hostPort, 1, leOctets 4 50 ++ leOctets 4 49 ++ leOctets 2 0xFFF⟩, by dsimp only; decide +kernel⟩,
   ⟨onJou (fun x => { x with state := .ready, info := ⟨1, 2048, 64, 90, 60, 3⟩, nextSeq := 50 }) (tOn .vehicle), ⟨.hostPort, 1, leOctets 4 50 ++ leOctets 4 49 ++ leOctets 2 0xFFF⟩, by dsimp only; decide +kernel⟩,
   ⟨tOn .vehicle, ⟨.hostPort, 1, leOctets 4 50 ++ leOctets 4 49 ++ leOctets 2 0xFFF⟩, by dsimp only; decide +kernel⟩,
   ⟨tOn .vehicle, ⟨.hostPort, 1, [0x4B]⟩, by dsimp only; decide +kernel⟩,
   ⟨tOn .vehicle, ⟨.hostPort, 1, [0x4A]⟩, by dsimp only; decide +kernel⟩,
   ⟨onJou (fun x => { x with state := .foreign, info := ⟨1, 2048, 64, 90, 60, 3⟩, nextSeq := 50 }) (tOn .vehicle), ⟨.hostPort, 1, [0x4A]⟩, by dsimp only; decide +kernel⟩,
   ⟨onJou (fun x => { x with state := .ready, info := ⟨1, 2048, 64, 90, 60, 3⟩, nextSeq := 50 }) (tOn .vehicle), ⟨.hostPort, 1, []⟩, by dsimp only; decide +kernel⟩,
   ⟨onJou (fun x => { x with entries := [⟨5, false, 40, 0, 0, 0, [7], .none⟩] }) (onJou (fun x => { x with state := .ready, info := ⟨1, 2048, 64, 90, 60, 3⟩, nextSeq := 50 }) (tOn .vehicle)), ⟨.hostPort, 1, []⟩, ⟨5, false, 40, 0, 0, 0, [7], .none⟩, by dsimp only; decide +kernel⟩,
   ⟨tOn .vehicle, ⟨.hostPort, 1, []⟩, by dsimp only; decide +kernel⟩⟩

/-- The hypotheses of SupplyEvents are met. -/
theorem witness_SupplyEvents :
    (∃ (s : State), let p := s.pow; p.pm = .off) ∧
    (∃ (s : State), let p := s.pow; p.pm ≠ .off) ∧
    (∃ (s : State), let p := s.pow; p.pm = .ao) ∧
    (∃ (s : State), let p := s.pow; p.vcoreOn = true) ∧
    (∃ (s : State) (b : Bool), let p := s.pow; (b = false ∨ p.aoLow = true)) ∧
    (∃ (s : State) (b : Bool), let p := s.pow; b = true ∧ p.aoLow = false) ∧
    (∃ (s : State), let p := s.pow; p.teaselRail = false) ∧
    (∃ (s : State), let p := s.pow; p.teaselRail = true) :=
  ⟨⟨State.reset, by dsimp only; decide +kernel⟩,
   ⟨tOn .vehicle, by dsimp only; decide +kernel⟩,
   ⟨onPow (fun x => { x with pm := .ao, vddioAUp := false }) (tOn .vehicle), by dsimp only; decide +kernel⟩,
   ⟨tOn .vehicle, by dsimp only; decide +kernel⟩,
   ⟨tOn .vehicle, false, by dsimp only; decide +kernel⟩,
   ⟨tOn .vehicle, true, by dsimp only; decide +kernel⟩,
   ⟨State.reset, by dsimp only; decide +kernel⟩,
   ⟨tOn .vehicle, by dsimp only; decide +kernel⟩⟩

/-- The hypotheses of PowerFailSequence are met. -/
theorem witness_PowerFailSequence :
    (∃ (s : State), let p := s.pow; (p.pm = .running ∨ p.pm = .starting) ∧ s.boot.phase ≠ .stopped ∧ p.vddioAUp = true) ∧
    (∃ (s : State), let p := s.pow; (p.pm = .running ∨ p.pm = .starting) ∧ s.boot.phase ≠ .stopped ∧ p.vddaUp = true) ∧
    (∃ (s : State), let p := s.pow; (p.pm = .running ∨ p.pm = .starting) ∧ s.boot.phase ≠ .stopped ∧ p.pfiHigh = true) ∧
    (∃ (s : State), let p := s.pow; (p.pm = .running ∨ p.pm = .starting) ∧ s.boot.phase ≠ .stopped ∧ p.vddioBUp = true) ∧
    (∃ (s : State), let p := s.pow; (p.pm = .running ∨ p.pm = .starting) ∧ s.boot.phase = .stopped ∧ p.pfiHigh = true) ∧
    (∃ (s : State), let p := s.pow; (p.pm = .off ∨ p.pm = .ao) ∧ p.pfiHigh = true) ∧
    (∃ (s : State), let p := s.pow; (p.pm = .off ∨ p.pm = .ao) ∧ p.vddioBUp = true) ∧
    (∃ (s : State) (a : Bool), let p := s.pow; (p.pm = .off ∨ p.pm = .ao) ∧ (if a then p.vddaUp else p.vddioAUp) = true) ∧
    (∃ (s : State), let p := s.pow; p.pfiHigh = false) ∧
    (∃ (s : State), let p := s.pow; p.vddioBUp = false) ∧
    (∃ (s : State) (a : Bool), let p := s.pow; (if a then p.vddaUp else p.vddioAUp) = false) ∧
    (∃ (s : State), s.hold.seq = none) ∧
    (∃ (s : State) (q : HoldSeq), let p := s.pow; s.hold.seq = some q ∧ p.pm = .holdUp ∧ p.pfiHigh = true) ∧
    (∃ (s : State) (q : HoldSeq), s.hold.seq = some q ∧ q.stage = .ending) ∧
    (∃ (s : State) (q : HoldSeq), s.hold.seq = some q ∧ q.stage = .settling ∧ s.domainRuns .fclk = false) ∧
    (∃ (s : State) (q : HoldSeq) (k : Fin 4), s.hold.seq = some q ∧ q.stage = .settling ∧ s.domainRuns .fclk = true ∧ s.banksSettled = true ∧ q.block = some k) ∧
    (∃ (s : State), let p := s.pow; p.vcoreOn = true) ∧
    (∃ (s : State), let p := s.pow; p.vcoreOn = false) :=
  ⟨⟨tOn .vehicle, by dsimp only; decide +kernel⟩,
   ⟨tOn .vehicle, by dsimp only; decide +kernel⟩,
   ⟨tOn .vehicle, by dsimp only; decide +kernel⟩,
   ⟨tOn .vehicle, by dsimp only; decide +kernel⟩,
   ⟨onBoot (fun x => { x with phase := .stopped }) (tOn .vehicle), by dsimp only; decide +kernel⟩,
   ⟨onPow (fun x => { x with pm := .ao, vddioAUp := true, vddaUp := true, vddioBUp := true, pfiHigh := true }) (tOn .vehicle), by dsimp only; decide +kernel⟩,
   ⟨onPow (fun x => { x with pm := .ao, vddioAUp := true, vddaUp := true, vddioBUp := true, pfiHigh := true }) (tOn .vehicle), by dsimp only; decide +kernel⟩,
   ⟨onPow (fun x => { x with pm := .ao, vddioAUp := true, vddaUp := true, vddioBUp := true, pfiHigh := true }) (tOn .vehicle), false, by dsimp only; decide +kernel⟩,
   ⟨State.reset, by dsimp only; decide +kernel⟩,
   ⟨State.reset, by dsimp only; decide +kernel⟩,
   ⟨State.reset, false, by dsimp only; decide +kernel⟩,
   ⟨tOn .vehicle, by decide +kernel⟩,
   ⟨onHold (fun x => { x with seq := some ⟨1, none, .settling, 1, [], [], [[1]], false⟩, blocks := x.blocks.set 0 ⟨true, false, 0, some ⟨1, 1, .vehicle, .t3, Clock.reset, 0, Vector.replicate 2 none, LedgerTail.reset, []⟩, none⟩ }) (onPow (fun x => { x with pm := .holdUp }) (tOn .vehicle)), ⟨1, none, .settling, 1, [], [], [[1]], false⟩, by dsimp only; decide +kernel⟩,
   ⟨onHold (fun x => { x with seq := some ⟨1, some 0, .ending, 1, [], [], [[1]], false⟩, blocks := x.blocks.set 0 ⟨true, false, 0, some ⟨1, 1, .vehicle, .t3, Clock.reset, 0, Vector.replicate 2 none, LedgerTail.reset, []⟩, none⟩ }) (tOn .vehicle), ⟨1, some 0, .ending, 1, [], [], [[1]], false⟩, by decide +kernel⟩,
   ⟨onHold (fun x => { x with seq := some ⟨1, none, .settling, 1, [], [], [[1]], false⟩, blocks := x.blocks.set 0 ⟨true, false, 0, some ⟨1, 1, .vehicle, .t3, Clock.reset, 0, Vector.replicate 2 none, LedgerTail.reset, []⟩, none⟩ }) State.reset, ⟨1, none, .settling, 1, [], [], [[1]], false⟩, by decide +kernel⟩,
   ⟨onHold (fun x => { x with seq := some ⟨1, some 0, .settling, 1, [], [], [[1]], false⟩, blocks := x.blocks.set 0 ⟨true, false, 0, some ⟨1, 1, .vehicle, .t3, Clock.reset, 0, Vector.replicate 2 none, LedgerTail.reset, []⟩, none⟩ }) (tOn .vehicle), ⟨1, some 0, .settling, 1, [], [], [[1]], false⟩, 0, by decide +kernel⟩,
   ⟨tOn .vehicle, by dsimp only; decide +kernel⟩,
   ⟨State.reset, by dsimp only; decide +kernel⟩⟩

/-- The hypotheses of StartsOfTheDevice are met. -/
theorem witness_StartsOfTheDevice :
    (∃ (s : State) (e : StartEnv) (r0 : Bool) (r1 : Bool) (k : Fin 2), let p := s.pow; let due : Prop := p.goodPeriod = true ∧ p.vddioAUp = true ∧ p.vddaUp = true ∧ p.vddioBUp = true ∧ p.pfiHigh = true ∧ p.ioUp = true ∧ p.pm = .ao; let rests : Prop := ∀ b : Fin 2, (s.bank b).run = .idle ∧ (s.bank b).suspended = none; let sound : Prop := e.romOk = true ∧ e.failed = [] ∧ e.stop = .none ∧ e.store = StoreEnv.good ∧ s.canStart = true ∧ rests; let straps : Prop := strapLevel e.role0 = some r0 ∧ strapLevel e.role1 = some r1; let takes (k : Fin 2) : Prop := s.setBoots e k = true ∧ (k = s.preferredSet ∨ s.setBoots e s.preferredSet = false); e.testen = false ∧ straps ∧ takes k ∧ due ∧ sound ∧ p.retry = .stopped) ∧
    (∃ (s : State) (e : StartEnv) (r0 : Bool) (r1 : Bool) (k : Fin 2), let p := s.pow; let rests : Prop := ∀ b : Fin 2, (s.bank b).run = .idle ∧ (s.bank b).suspended = none; let sound : Prop := e.romOk = true ∧ e.failed = [] ∧ e.stop = .none ∧ e.store = StoreEnv.good ∧ s.canStart = true ∧ rests; let straps : Prop := strapLevel e.role0 = some r0 ∧ strapLevel e.role1 = some r1; let takes (k : Fin 2) : Prop := s.setBoots e k = true ∧ (k = s.preferredSet ∨ s.setBoots e s.preferredSet = false); e.testen = false ∧ straps ∧ takes k ∧ p.pm = .ao ∧ p.v33Good = true ∧ sound ∧ p.retry ≠ .stopped) ∧
    (∃ (s : State) (e : StartEnv) (r0 : Bool) (r1 : Bool) (k : Fin 2), let p := s.pow; let rests : Prop := ∀ b : Fin 2, (s.bank b).run = .idle ∧ (s.bank b).suspended = none; let sound : Prop := e.romOk = true ∧ e.failed = [] ∧ e.stop = .none ∧ e.store = StoreEnv.good ∧ s.canStart = true ∧ rests; let straps : Prop := strapLevel e.role0 = some r0 ∧ strapLevel e.role1 = some r1; let takes (k : Fin 2) : Prop := s.setBoots e k = true ∧ (k = s.preferredSet ∨ s.setBoots e s.preferredSet = false); e.testen = false ∧ straps ∧ takes k ∧ p.pm = .ao ∧ p.v33Good = true ∧ sound ∧ p.retry = .stopped) ∧
    (∃ (s : State) (e : StartEnv), let p := s.pow; let due : Prop := p.goodPeriod = true ∧ p.vddioAUp = true ∧ p.vddaUp = true ∧ p.vddioBUp = true ∧ p.pfiHigh = true ∧ p.ioUp = true ∧ p.pm = .ao; let rests : Prop := ∀ b : Fin 2, (s.bank b).run = .idle ∧ (s.bank b).suspended = none; due ∧ p.retry = .stopped ∧ s.canStart = true ∧ rests ∧ e.testen = false ∧ e.failed = [] ∧ e.stop = .none ∧ (e.romOk = false ∨ (s.setBoots e 0 = false ∧ s.setBoots e 1 = false))) ∧
    (∃ (s : State) (e : StartEnv), let p := s.pow; let due : Prop := p.goodPeriod = true ∧ p.vddioAUp = true ∧ p.vddaUp = true ∧ p.vddioBUp = true ∧ p.pfiHigh = true ∧ p.ioUp = true ∧ p.pm = .ao; due ∧ p.retry = .stopped ∧ s.canStart = true ∧ e.testen = true ∧ e.failed = []) ∧
    (∃ (s : State) (e : StartEnv), let p := s.pow; let due : Prop := p.goodPeriod = true ∧ p.vddioAUp = true ∧ p.vddaUp = true ∧ p.vddioBUp = true ∧ p.pfiHigh = true ∧ p.ioUp = true ∧ p.pm = .ao; due ∧ p.retry = .stopped ∧ s.canStart = true ∧ e.failed = [UnitId.celandine]) ∧
    (∃ (s : State), let p := s.pow; let due : Prop := p.goodPeriod = true ∧ p.vddioAUp = true ∧ p.vddaUp = true ∧ p.vddioBUp = true ∧ p.pfiHigh = true ∧ p.ioUp = true ∧ p.pm = .ao; due ∧ (p.retry ≠ .stopped ∨ s.canStart = false)) ∧
    (∃ (s : State), let p := s.pow; p.goodPeriod = false) ∧
    (∃ (s : State), let p := s.pow; p.pm = .ao ∧ p.v33Good = false) :=
  ⟨⟨onPow (fun x => { x with pm := .ao, goodPeriod := true, vddioAUp := true, vddaUp := true, vddioBUp := true, pfiHigh := true, ioUp := true }) State.reset, StartEnv.good false false false true, false, false, 0, by dsimp only; decide +kernel⟩,
   ⟨onPow (fun x => { x with pm := .ao, v33Good := true, retry := .short }) State.reset, StartEnv.good false false false true, false, false, 0, by dsimp only; decide +kernel⟩,
   ⟨onPow (fun x => { x with pm := .ao, v33Good := true }) State.reset, StartEnv.good false false false true, false, false, 0, by dsimp only; decide +kernel⟩,
   ⟨onPow (fun x => { x with pm := .ao, goodPeriod := true, vddioAUp := true, vddaUp := true, vddioBUp := true, pfiHigh := true, ioUp := true }) State.reset, { StartEnv.good false false false true with romOk := false }, by dsimp only; decide +kernel⟩,
   ⟨onPow (fun x => { x with pm := .ao, goodPeriod := true, vddioAUp := true, vddaUp := true, vddioBUp := true, pfiHigh := true, ioUp := true }) State.reset, { StartEnv.good false false false true with testen := true }, by dsimp only; decide +kernel⟩,
   ⟨onPow (fun x => { x with pm := .ao, goodPeriod := true, vddioAUp := true, vddaUp := true, vddioBUp := true, pfiHigh := true, ioUp := true }) State.reset, { StartEnv.good false false false true with failed := [UnitId.celandine] }, by dsimp only; decide +kernel⟩,
   ⟨onPow (fun x => { x with pm := .ao, goodPeriod := true, vddioAUp := true, vddaUp := true, vddioBUp := true, pfiHigh := true, ioUp := true, retry := .long }) State.reset, by dsimp only; decide +kernel⟩,
   ⟨State.reset, by dsimp only; decide +kernel⟩,
   ⟨onPow (fun x => { x with pm := .ao, goodPeriod := true, vddioAUp := true, vddaUp := true, vddioBUp := true, pfiHigh := true, ioUp := true }) State.reset, by dsimp only; decide +kernel⟩⟩

/-- The hypotheses of ClockEvents are met. -/
theorem witness_ClockEvents :
    (∃ (s : State), let on : Prop := s.pow.vcoreOn = true; let ends : Prop := s.boot.tier = .t0 ∧ s.boot.phase = .decided; on ∧ s.clk.hfxFailed = false ∧ s.clk.pllLocked = false ∧ ¬ (s.clk.relocking = true ∧ ends)) ∧
    (∃ (s : State), let on : Prop := s.pow.vcoreOn = true; let ends : Prop := s.boot.tier = .t0 ∧ s.boot.phase = .decided; on ∧ s.clk.hfxFailed = false ∧ s.clk.pllLocked = false ∧ s.clk.relocking = true ∧ ends) ∧
    (∃ (s : State), s.clk.pllLocked = true) ∧
    (∃ (s : State), s.clk.relocking = true ∧ s.clk.relocks < 3) ∧
    (∃ (s : State), let ends : Prop := s.boot.tier = .t0 ∧ s.boot.phase = .decided; s.clk.relocking = true ∧ 3 ≤ s.clk.relocks ∧ ¬ ends) ∧
    (∃ (s : State), let ends : Prop := s.boot.tier = .t0 ∧ s.boot.phase = .decided; s.clk.relocking = true ∧ 3 ≤ s.clk.relocks ∧ ends) ∧
    (∃ (s : State), let on : Prop := s.pow.vcoreOn = true; let kept : Prop := s.boot.phase = .decided → beaconFails s.boot.units = false; s.clk.pllLocked = false ∧ s.clk.hfxFailed = false ∧ on ∧ kept ∧ s.boot.hsel = false) ∧
    (∃ (s : State) (d : ClockDomain), let dom (t : State) (x : ClockDomain) : DomainClock := t.clk.domains.get x.row; let on : Prop := s.pow.vcoreOn = true; let kept : Prop := s.boot.phase = .decided → beaconFails s.boot.units = false; on ∧ d.isPll = true ∧ d.portKind = .register ∧ dom s d = .running ∧ kept ∧ (d ≠ .uclk ∨ s.boot.hsel = false)) ∧
    (∃ (s : State), let dom (t : State) (x : ClockDomain) : DomainClock := t.clk.domains.get x.row; let on : Prop := s.pow.vcoreOn = true; on ∧ dom s .uclk = .running ∧ s.boot.hsel = true ∧ s.boot.phase = .decided ∧ unitFailed (s.boot.units.get UnitId.hostPort) = false ∧ s.boot.tier ≠ .t0 ∧ s.clk.relocking = false) ∧
    (∃ (s : State) (d : ClockDomain), let dom (t : State) (x : ClockDomain) : DomainClock := t.clk.domains.get x.row; (dom s d ≠ .running ∨ d.portKind ≠ .register ∨ d.isPll = false)) ∧
    (∃ (s : State), let kept : Prop := s.boot.phase = .decided → beaconFails s.boot.units = false; s.pow.pm = .running ∧ s.domainRuns .fclk = true ∧ kept) ∧
    (∃ (s : State), s.pow.pm = .holdUp ∧ s.domainRuns .fclk = true) ∧
    (∃ (s : State), s.domainRuns .fclk = false) ∧
    (∃ (s : State) (edges : Nat), let pass := inRange edges 240 272; s.pow.pm ≠ .off ∧ s.cel.lfo = .good ∧ s.cel.lfxFailed = false ∧ pass = false ∧ 1 ≤ s.cel.lfxBad) ∧
    (∃ (s : State) (edges : Nat), let pass := inRange edges 240 272; s.pow.pm ≠ .off ∧ s.cel.lfo = .good ∧ s.cel.lfxFailed = false ∧ pass = false ∧ s.cel.lfxBad = 0) ∧
    (∃ (s : State) (edges : Nat), let pass := inRange edges 240 272; s.pow.pm ≠ .off ∧ s.cel.lfo = .good ∧ s.cel.lfxFailed = true ∧ pass = true ∧ 15 ≤ s.cel.lfxGood) ∧
    (∃ (s : State) (off : Nat), s.pow.pm ≠ .off ∧ s.cel.lfo = .good ∧ s.eventsLive = true ∧ s.domainRuns .tsclk = true ∧ 50 < off) ∧
    (∃ (s : State) (off : Nat), s.pow.pm ≠ .off ∧ s.cel.lfo = .good ∧ s.eventsLive = true ∧ s.domainRuns .tsclk = true ∧ off ≤ 40) ∧
    (∃ (s : State), s.pow.pm = .off) :=
  ⟨⟨onClk (fun x => { x with pllLocked := false }) (tOn .vehicle), by dsimp only; decide +kernel⟩,
   ⟨onClk (fun x => { x with pllLocked := false, relocking := true }) (onBoot (fun x => { x with tier := .t0 }) (tOn .vehicle)), by dsimp only; decide +kernel⟩,
   ⟨tOn .vehicle, by decide +kernel⟩,
   ⟨onClk (fun x => { x with relocking := true, relocks := 2 }) (tOn .vehicle), by decide +kernel⟩,
   ⟨onClk (fun x => { x with relocking := true, relocks := 3 }) (tOn .vehicle), by dsimp only; decide +kernel⟩,
   ⟨onBoot (fun x => { x with tier := .t0 }) (onClk (fun x => { x with relocking := true, relocks := 3 }) (tOn .vehicle)), by dsimp only; decide +kernel⟩,
   ⟨onClk (fun x => { x with pllLocked := false }) (tOn .vehicle), by dsimp only; decide +kernel⟩,
   ⟨tOn .vehicle, .mclk, by dsimp only; decide +kernel⟩,
   ⟨onBoot (fun x => { x with hsel := true }) (tOn .vehicle), by dsimp only; decide +kernel⟩,
   ⟨onClk (fun x => { x with domains := Vector.replicate 14 .failed }) (tOn .vehicle), .mclk, by dsimp only; decide +kernel⟩,
   ⟨tOn .vehicle, by dsimp only; decide +kernel⟩,
   ⟨onPow (fun x => { x with pm := .holdUp }) (tOn .vehicle), by decide +kernel⟩,
   ⟨onClk (fun x => { x with domains := Vector.replicate 14 .failed }) (tOn .vehicle), by decide +kernel⟩,
   ⟨onCel (fun x => { x with lfxBad := 1 }) (tOn .vehicle), 239, by dsimp only; decide +kernel⟩,
   ⟨tOn .vehicle, 239, by dsimp only; decide +kernel⟩,
   ⟨onCel (fun x => { x with lfxFailed := true, lfxGood := 15 }) (tOn .vehicle), 240, by dsimp only; decide +kernel⟩,
   ⟨tOn .vehicle, 51, by decide +kernel⟩,
   ⟨tOn .vehicle, 40, by decide +kernel⟩,
   ⟨onPow (fun x => { x with pm := .off }) (tOn .vehicle), by decide +kernel⟩⟩

/-- The hypotheses of VcoreTargetAndTemperature are met. -/
theorem witness_VcoreTargetAndTemperature :
    (∃ (s : State) (i : Fin 4) (v : Word), let code := v.toNat % 128; let served : Prop := s.reaches (.core i) 0x100; served ∧ code ≤ 100) ∧
    (∃ (s : State) (i : Fin 4) (v : Word), let code := v.toNat % 128; let served : Prop := s.reaches (.core i) 0x100; served ∧ 100 < code) ∧
    (∃ (s : State) (i : Fin 4), let served : Prop := s.reaches (.core i) 0x100; ¬ served) ∧
    (∃ (s : State), s.pow.vcoreOn = true) ∧
    (∃ (s : State), s.pow.vcoreOn = false) :=
  ⟨⟨onCore (fun x => { x with grants := { x.grants with blocks := 0x7FFF, routes := 15 } }) (tCore CoreState.reset), 0, 100, by simp only [reaches_iff]; decide +kernel⟩,
   ⟨onCore (fun x => { x with grants := { x.grants with blocks := 0x7FFF, routes := 15 } }) (tCore CoreState.reset), 0, 101, by simp only [reaches_iff]; decide +kernel⟩,
   ⟨tCore CoreState.reset, 0, by simp only [reaches_iff]; decide +kernel⟩,
   ⟨tCore CoreState.reset, by decide +kernel⟩,
   ⟨onPow (fun x => { x with pm := .ao }) (tCore CoreState.reset), by decide +kernel⟩⟩

/-- The hypotheses of CoreWatchdogs are met. -/
theorem witness_CoreWatchdogs :
    (∃ (s : State) (i : Fin 4) (v : Word), let w := s.boot.wdt.get i; let per : BitVec 4 := (v >>> 1).setWidth 4; let served (n : Nat) : Prop := s.reaches (.core i) n; served 0x105 ∧ per.toNat < 12 ∧ w.en = false) ∧
    (∃ (s : State) (i : Fin 4) (v : Word), let w := s.boot.wdt.get i; let per : BitVec 4 := (v >>> 1).setWidth 4; let served (n : Nat) : Prop := s.reaches (.core i) n; served 0x105 ∧ per.toNat < 12 ∧ w.en = true) ∧
    (∃ (s : State) (i : Fin 4) (v : Word), let per : BitVec 4 := (v >>> 1).setWidth 4; let served (n : Nat) : Prop := s.reaches (.core i) n; served 0x105 ∧ 12 ≤ per.toNat) ∧
    (∃ (s : State) (i : Fin 4), let served (n : Nat) : Prop := s.reaches (.core i) n; ¬ served 0x105) ∧
    (∃ (s : State) (i : Fin 4) (v : Word), let w := s.boot.wdt.get i; let served (n : Nat) : Prop := s.reaches (.core i) n; s.cus.cut = none ∧ served 0x106 ∧ (v = 0x6D9 ∨ w.en = false)) ∧
    (∃ (s : State) (i : Fin 4), let served (n : Nat) : Prop := s.reaches (.core i) n; s.cus.cut = none ∧ ¬ served 0x106) ∧
    (∃ (s : State) (i : Fin 4) (v : Word), let w := s.boot.wdt.get i; let served (n : Nat) : Prop := s.reaches (.core i) n; let runs : Prop := s.pow.pm = .running ∧ w.en = true ∧ (s.core.get i).run = .running ∧ s.cus.cut = none ∧ s.cus.probation = none; runs ∧ served 0x106 ∧ v ≠ 0x6D9) ∧
    (∃ (s : State) (i : Fin 4), let w := s.boot.wdt.get i; s.cus.cut = none ∧ (w.en = false ∨ (s.core.get i).run = .halted ∨ (s.core.get i).run = .stopped)) ∧
    (∃ (s : State) (f : StartEnv), let b := s.boot; let count := (match b.serviceSince with | none => b.stewardExpiries | some a => if a + 1966080 ≤ s.ticks then 0 else b.stewardExpiries) + 1; let sound : Prop := f.romOk = true ∧ f.failed = [] ∧ f.stop = .none ∧ f.store = StoreEnv.good ∧ s.setBoots f 0 = true ∧ s.setBoots f 1 = true ∧ ∀ k : Fin 2, (s.bank k).run = .idle ∧ (s.bank k).suspended = none; s.pow.pm = .running ∧ b.testen = false ∧ s.cus.probation = none ∧ sound ∧ count < 3) ∧
    (∃ (s : State) (f : StartEnv), let b := s.boot; let count := (match b.serviceSince with | none => b.stewardExpiries | some a => if a + 1966080 ≤ s.ticks then 0 else b.stewardExpiries) + 1; let sound : Prop := f.romOk = true ∧ f.failed = [] ∧ f.stop = .none ∧ f.store = StoreEnv.good ∧ s.setBoots f 0 = true ∧ s.setBoots f 1 = true ∧ ∀ k : Fin 2, (s.bank k).run = .idle ∧ (s.bank k).suspended = none; s.pow.pm = .running ∧ b.testen = false ∧ s.cus.probation = none ∧ sound ∧ 3 ≤ count ∧ b.alternateFirst = false) ∧
    (∃ (s : State) (f : StartEnv), let b := s.boot; let count := (match b.serviceSince with | none => b.stewardExpiries | some a => if a + 1966080 ≤ s.ticks then 0 else b.stewardExpiries) + 1; let sound : Prop := f.romOk = true ∧ f.failed = [] ∧ f.stop = .none ∧ f.store = StoreEnv.good ∧ s.setBoots f 0 = true ∧ s.setBoots f 1 = true ∧ ∀ k : Fin 2, (s.bank k).run = .idle ∧ (s.bank k).suspended = none; s.pow.pm = .running ∧ b.testen = false ∧ s.cus.probation = none ∧ sound ∧ 3 ≤ count ∧ b.alternateFirst = true) ∧
    (∃ (s : State), let b := s.boot; (s.pow.pm ≠ .running ∨ b.testen = true)) :=
  ⟨⟨tCore CoreState.reset, 0, 22, by simp only [reaches_iff]; decide +kernel⟩,
   ⟨onBoot (fun x => { x with wdt := x.wdt.set 0 ⟨0, true, 11⟩ }) (tCore CoreState.reset), 0, 22, by simp only [reaches_iff]; decide +kernel⟩,
   ⟨tCore CoreState.reset, 0, 24, by simp only [reaches_iff]; decide +kernel⟩,
   ⟨State.reset, 0, by simp only [reaches_iff]; decide +kernel⟩,
   ⟨tCore CoreState.reset, 0, 22, by simp only [reaches_iff]; decide +kernel⟩,
   ⟨State.reset, 0, by simp only [reaches_iff]; decide +kernel⟩,
   ⟨onBoot (fun x => { x with wdt := x.wdt.set 0 ⟨0, true, 11⟩ }) (tCore CoreState.reset), 0, 22, by simp only [reaches_iff]; decide +kernel⟩,
   ⟨tCore CoreState.reset, 0, by dsimp only; decide +kernel⟩,
   ⟨tCore CoreState.reset, StartEnv.good false false false true, by dsimp only; decide +kernel⟩,
   ⟨onBoot (fun x => { x with stewardExpiries := 2 }) (tCore CoreState.reset), StartEnv.good false false false true, by dsimp only; decide +kernel⟩,
   ⟨onBoot (fun x => { x with stewardExpiries := 2, alternateFirst := true }) (tCore CoreState.reset), StartEnv.good false false false true, by dsimp only; decide +kernel⟩,
   ⟨State.reset, by dsimp only; decide +kernel⟩⟩

/-- The hypotheses of TiersByFailedUnits are met. -/
theorem witness_TiersByFailedUnits :
    (∃ (u : Vector UnitResult 42), beaconFails u = true) ∧
    (∃ (r : Role) (u : Vector UnitResult 42), beaconFails u = false ∧ r = .bringUp) ∧
    (∃ (r : Role) (u : Vector UnitResult 42), beaconFails u = false ∧ (r = .pack ∨ r = .dock) ∧ (∀ n : Fin 42, n ≠ 41 → unitOn r n = true → u.get n = .passed)) ∧
    (∃ (r : Role) (u : Vector UnitResult 42) (n : Fin 42), beaconFails u = false ∧ (r = .pack ∨ r = .dock) ∧ n ≠ 41 ∧ unitOn r n = true ∧ u.get n ≠ .passed) ∧
    (∃ (r : Role) (u : Vector UnitResult 42), let bad (n : Fin 42) : Prop := unitFailed (u.get n) = true; let one : Prop := (∀ i : Fin 4, bad (UnitId.core i)) ∨ bad 1 ∨ bad 19 ∨ bad 20 ∨ bad 30 ∨ bad 32 ∨ bad 33 ∨ bad 34 ∨ bad 35; beaconFails u = false ∧ r = .vehicle ∧ one) ∧
    (∃ (r : Role) (u : Vector UnitResult 42), let bad (n : Fin 42) : Prop := unitFailed (u.get n) = true; let one : Prop := (∀ i : Fin 4, bad (UnitId.core i)) ∨ bad 1 ∨ bad 19 ∨ bad 20 ∨ bad 30 ∨ bad 32 ∨ bad 33 ∨ bad 34 ∨ bad 35; beaconFails u = false ∧ r = .vehicle ∧ ¬one ∧ (∃ n : Fin 42, n ≠ 41 ∧ bad n)) ∧
    (∃ (r : Role) (u : Vector UnitResult 42), let bad (n : Fin 42) : Prop := unitFailed (u.get n) = true; beaconFails u = false ∧ r = .vehicle ∧ (∀ n : Fin 42, n ≠ 41 → ¬bad n)) :=
  ⟨⟨(Vector.replicate 42 UnitResult.passed).set 0 .failedAtStart, by decide +kernel⟩,
   ⟨.bringUp, Vector.replicate 42 UnitResult.passed, by decide +kernel⟩,
   ⟨.pack, Vector.replicate 42 UnitResult.passed, by decide +kernel⟩,
   ⟨.pack, (Vector.replicate 42 UnitResult.passed).set 19 .failedAtRun, 19, by decide +kernel⟩,
   ⟨.vehicle, (Vector.replicate 42 UnitResult.passed).set 19 .failedAtRun, by dsimp only; decide +kernel⟩,
   ⟨.vehicle, (Vector.replicate 42 UnitResult.passed).set 40 .failedAtRun, by dsimp only; decide +kernel⟩,
   ⟨.vehicle, Vector.replicate 42 UnitResult.passed, by dsimp only; decide +kernel⟩⟩

/-- The hypotheses of TierAndSelfTest are met. -/
theorem witness_TierAndSelfTest :
    (∃ (s : State) (failed : List UnitId), let judged : Vector UnitResult 42 := Vector.ofFn (fun n => let r := s.boot.units.get n; let clock := s.clockless.contains n; if r = .untested then (if failed.contains n || clock then .failedAtStart else .passed) else if r = .passed then (if clock then .failedAtStart else if n = UnitId.powerManager && decide (s.cel.lfo ≠ .good) then .failedAtRun else .passed) else r); let given := tierFor s.boot.role judged; let best := if s.boot.fclkLost then given.min .t1 else given; s.boot.phase = .beacon ∧ best ≠ .t0) ∧
    (∃ (s : State) (failed : List UnitId), let judged : Vector UnitResult 42 := Vector.ofFn (fun n => let r := s.boot.units.get n; let clock := s.clockless.contains n; if r = .untested then (if failed.contains n || clock then .failedAtStart else .passed) else if r = .passed then (if clock then .failedAtStart else if n = UnitId.powerManager && decide (s.cel.lfo ≠ .good) then .failedAtRun else .passed) else r); let given := tierFor s.boot.role judged; let best := if s.boot.fclkLost then given.min .t1 else given; s.boot.phase = .beacon ∧ best = .t0 ∧ s.pow.vcoreOn = true) ∧
    (∃ (s : State), s.boot.phase ≠ .beacon) ∧
    (∃ (s : State) (u : Fin 42), let hit : Vector UnitResult 42 := s.boot.units.set u .failedAtRun; s.led.cur.ride = none ∧ s.eventsLive = true ∧ s.boot.phase = .decided ∧ 26 ≤ u.val ∧ u.val ≤ 30 ∧ unitOn s.boot.role u = true ∧ unitFailed (s.boot.units.get u) = false ∧ beaconFails hit = false ∧ s.boot.tier ≠ .t0) ∧
    (∃ (s : State), (s.led.cur.ride.isSome = true ∨ s.eventsLive = false)) ∧
    (∃ (s : State), s.pow.vcoreOn = true ∧ s.pow.cLow = false) ∧
    (∃ (s : State), (s.pow.vcoreOn = false ∨ s.pow.cLow = true)) ∧
    (∃ (s : State), s.pow.cLow = true) ∧
    (∃ (s : State), let pages := (s.storedTail.record.length + 255) / 256; s.cus.cut = none ∧ s.led.cur.ride.isSome = true ∧ s.eventsLive = true ∧ (s.led.takePages pages).isSome = true ∧ 260 ≤ s.led.freePages) ∧
    (∃ (s : State), let pages := (s.storedTail.record.length + 255) / 256; s.cus.cut = none ∧ s.led.cur.ride.isSome = true ∧ s.eventsLive = true ∧ (s.led.takePages pages).isSome = false) ∧
    (∃ (s : State), s.cus.cut = none ∧ (s.led.cur.ride = none ∨ s.eventsLive = false)) :=
  ⟨⟨onBoot (fun x => { x with phase := .beacon, units := Vector.replicate 42 .untested }) (tOn .vehicle), [], by dsimp only; decide +kernel⟩,
   ⟨onBoot (fun x => { x with phase := .beacon, tier := .t0, units := Vector.replicate 42 .failedAtStart }) (tOn .vehicle), [], by dsimp only; decide +kernel⟩,
   ⟨tOn .vehicle, by decide +kernel⟩,
   ⟨tOn .vehicle, 26, by dsimp only; decide +kernel⟩,
   ⟨onTail (fun x => { x with ride := some ⟨7, RideFlags.none, 1, [], ⟨0, 0, 0, 0, 0, 3, 0⟩, 0, [], 0, none⟩ }) (tOn .vehicle), by decide +kernel⟩,
   ⟨tOn .vehicle, by decide +kernel⟩,
   ⟨onPow (fun x => { x with cLow := true }) (tOn .vehicle), by decide +kernel⟩,
   ⟨onPow (fun x => { x with cLow := true }) (tOn .vehicle), by decide +kernel⟩,
   ⟨tR, by
    obtain ⟨h1, h2⟩ := pages_range tR.storedTail
    dsimp only
    generalize (tR.storedTail.record.length + 255) / 256 = n at *
    obtain rfl | rfl | rfl | rfl : n = 1 ∨ n = 2 ∨ n = 3 ∨ n = 4 := by omega
    all_goals decide +kernel⟩,
   ⟨tL, by
    obtain ⟨h1, h2⟩ := pages_range tL.storedTail
    dsimp only
    generalize (tL.storedTail.record.length + 255) / 256 = n at *
    obtain rfl | rfl | rfl | rfl : n = 1 ∨ n = 2 ∨ n = 3 ∨ n = 4 := by omega
    all_goals decide +kernel⟩,
   ⟨tOn .vehicle, by decide +kernel⟩⟩

/-- The hypotheses of HostSpiTransport are met. -/
theorem witness_HostSpiTransport :
    (∃ (s : State) (n : Nat) (f : Frame) (e : Event) (r : List Frame) (l : List Event), let p := s.port .hostPort; let on : Prop := s.boot.hsel = false ∧ s.portUp .hostPort = true; let first : Prop := p.staged = some f ∨ (p.staged = none ∧ (p.responses = f :: r ∨ (p.responses = [] ∧ p.events = e :: l ∧ f = e.frame p.lost p.lostMask))); on ∧ first ∧ f.octets.length ≤ n) ∧
    (∃ (s : State) (n : Nat) (f : Frame) (e : Event) (r : List Frame) (l : List Event), let p := s.port .hostPort; let on : Prop := s.boot.hsel = false ∧ s.portUp .hostPort = true; let first : Prop := p.staged = some f ∨ (p.staged = none ∧ (p.responses = f :: r ∨ (p.responses = [] ∧ p.events = e :: l ∧ f = e.frame p.lost p.lostMask))); on ∧ first ∧ n < f.octets.length) ∧
    (∃ (s : State), let p := s.port .hostPort; let on : Prop := s.boot.hsel = false ∧ s.portUp .hostPort = true; let queued := p.staged.isSome.toNat + p.responses.length + p.events.length; on ∧ queued = 0) ∧
    (∃ (s : State) (used : Fin 3), let on : Prop := s.boot.hsel = false ∧ s.portUp .hostPort = true; on ∧ 2 ≤ used.val) ∧
    (∃ (s : State) (used : Fin 3) (os : List Octet), let on : Prop := s.boot.hsel = false ∧ s.portUp .hostPort = true; on ∧ used.val < 2 ∧ parseFrame os = none) ∧
    (∃ (s : State) (used : Fin 3) (os : List Octet) (q : RawFrame) (c : Fin 7) (st : Nat), let on : Prop := s.boot.hsel = false ∧ s.portUp .hostPort = true; on ∧ used.val < 2 ∧ parseFrame os = some q ∧ q.chan = c.val ∧ s.r271 q = some st) ∧
    (∃ (s : State) (used : Fin 3) (os : List Octet) (q : RawFrame) (c : Fin 7), let p := s.port .hostPort; let on : Prop := s.boot.hsel = false ∧ s.portUp .hostPort = true; on ∧ used.val < 2 ∧ parseFrame os = some q ∧ q.chan = c.val ∧ s.r271 q = none ∧ (p.chans.get c).last = none) ∧
    (∃ (s : State) (op : Octet), let on : Prop := s.boot.hsel = false ∧ s.portUp .hostPort = true; on ∧ op ≠ 0x5A ∧ op ≠ 0xA5 ∧ op ≠ 0xA6 ∧ op ≠ 0x3C) ∧
    (∃ (s : State), s.boot.hsel = true) ∧
    (∃ (s : State), s.boot.hsel = false ∧ s.portUp .hostPort = false) ∧
    (∃ (s : State), (s.boot.hsel = true ∨ s.portUp .hostPort = false)) :=
  ⟨⟨onPort (fun x => { x with responses := [⟨1, true, 9, 0x0102, false, false, false, 0, [1, 2]⟩] }) (tOn .vehicle), 14, ⟨1, true, 9, 0x0102, false, false, false, 0, [1, 2]⟩, ⟨0x1000, 1, 0, 0, 0, []⟩, [], [], by dsimp only; decide +kernel⟩,
   ⟨onPort (fun x => { x with responses := [⟨1, true, 9, 0x0102, false, false, false, 0, [1, 2]⟩] }) (tOn .vehicle), 13, ⟨1, true, 9, 0x0102, false, false, false, 0, [1, 2]⟩, ⟨0x1000, 1, 0, 0, 0, []⟩, [], [], by dsimp only; decide +kernel⟩,
   ⟨tOn .vehicle, by dsimp only; decide +kernel⟩,
   ⟨tOn .vehicle, 2, by dsimp only; decide +kernel⟩,
   ⟨tOn .vehicle, 0, [], by dsimp only; decide +kernel⟩,
   ⟨tOn .vehicle, 0, tFrame [0, 9, 0x02, 0x01, 1, 0, 0, 0, 5], ⟨0, false, false, 9, 0x0102, 0, [5]⟩, 0, 2, by dsimp only; decide +kernel⟩,
   ⟨tOn .vehicle, 0, tFrame [0, 9, 0x02, 0x01, 0, 0, 0, 0], ⟨0, false, false, 9, 0x0102, 0, []⟩, 0, by dsimp only; decide +kernel⟩,
   ⟨tOn .vehicle, 0, by dsimp only; decide +kernel⟩,
   ⟨onBoot (fun x => { x with hsel := true }) (tOn .vehicle), by decide +kernel⟩,
   ⟨onHost (fun x => { x with enabled := false }) (tOn .vehicle), by decide +kernel⟩,
   ⟨onBoot (fun x => { x with hsel := true }) (tOn .vehicle), by decide +kernel⟩⟩

/-- The hypotheses of HostUartAndUsb are met. -/
theorem witness_HostUartAndUsb :
    (∃ (s : State) (used : Fin 3) (os : List Octet) (q : RawFrame) (c : Fin 7), let p := s.port .hostPort; let uart : Prop := s.boot.hsel = true ∧ s.portUp .hostPort = true; let idle : Prop := s.host.uartRx = []; uart ∧ idle ∧ parseFrame os = some q ∧ used.val < 2 ∧ q.chan = c.val ∧ (p.chans.get c).last = none ∧ s.r271 q = none) ∧
    (∃ (s : State) (used : Fin 3) (os : List Octet) (q : RawFrame), let uart : Prop := s.boot.hsel = true ∧ s.portUp .hostPort = true; let idle : Prop := s.host.uartRx = []; uart ∧ idle ∧ parseFrame os = some q ∧ 2 ≤ used.val) ∧
    (∃ (s : State) (os : List Octet), let uart : Prop := s.boot.hsel = true ∧ s.portUp .hostPort = true; let idle : Prop := s.host.uartRx = []; let len := fieldNat os 4 2 % 1024; uart ∧ idle ∧ os.length = 12 + len ∧ len ≤ 1020 ∧ parseFrame os = none ∧ 0x55 ∉ os) ∧
    (∃ (s : State) (os : List Octet), let uart : Prop := s.boot.hsel = true ∧ s.portUp .hostPort = true; let idle : Prop := s.host.uartRx = []; uart ∧ idle ∧ os.length < 8) ∧
    (∃ (s : State) (f : Frame) (r : List Frame) (n : Nat), let p := s.port .hostPort; let uart : Prop := s.boot.hsel = true ∧ s.portUp .hostPort = true; let out : List Octet := [0x55, 0xC3] ++ f.octets; uart ∧ s.host.hcts = false ∧ p.staged = none ∧ p.responses = f :: r ∧ s.host.uartLeft = [] ∧ 0 < n ∧ n < out.length) ∧
    (∃ (s : State) (os : List Octet) (f : Frame), let p := s.port .hostPort; let uart : Prop := s.boot.hsel = true ∧ s.portUp .hostPort = true; uart ∧ s.host.hcts = false ∧ p.staged = some f ∧ s.host.uartLeft = os ∧ os ≠ []) ∧
    (∃ (s : State), s.host.hcts = true) ∧
    (∃ (s : State) (b : Bool) (n : Nat), (b = false ∨ s.host.hcts = true ∨ n = 0)) ∧
    (∃ (s : State), (s.boot.hsel = false ∨ s.portUp .hostPort = false)) ∧
    (∃ (s : State) (k : Nat), s.host.ratePending = some k) ∧
    (∃ (s : State), s.host.ratePending = none) ∧
    (∃ (s : State), s.host.rateUnproved = true) ∧
    (∃ (s : State), s.host.rateUnproved = false) ∧
    (∃ (s : State) (used : Fin 3) (os : List Octet) (q : RawFrame) (c : Fin 7), let u := s.port .usb; s.portUp .usb = true ∧ used.val < 2 ∧ parseFrame os = some q ∧ q.chan = c.val ∧ (u.chans.get c).last = none ∧ s.r271 q = none) ∧
    (∃ (s : State) (used : Fin 3), s.portUp .usb = true ∧ 2 ≤ used.val) ∧
    (∃ (s : State) (f : Frame) (r : List Frame), let u := s.port .usb; s.portUp .usb = true ∧ u.staged = none ∧ u.responses = f :: r ∧ f.payload.length ≤ 1020) ∧
    (∃ (s : State), let u := s.port .usb; s.portUp .usb = true ∧ u.staged = none ∧ u.responses = [] ∧ u.events = []) ∧
    (∃ (s : State), s.portUp .usb = false) :=
  ⟨⟨onBoot (fun x => { x with hsel := true }) (tOn .vehicle), 0, tFrame [0, 9, 0x02, 0x01, 0, 0, 0, 0], ⟨0, false, false, 9, 0x0102, 0, []⟩, 0, by dsimp only; decide +kernel⟩,
   ⟨onBoot (fun x => { x with hsel := true }) (tOn .vehicle), 2, tFrame [0, 9, 0x02, 0x01, 0, 0, 0, 0], ⟨0, false, false, 9, 0x0102, 0, []⟩, by dsimp only; decide +kernel⟩,
   ⟨onBoot (fun x => { x with hsel := true }) (tOn .vehicle), [0, 9, 0x02, 0x01, 0, 0, 0, 0, 1, 2, 3, 4], by dsimp only; decide +kernel⟩,
   ⟨onBoot (fun x => { x with hsel := true }) (tOn .vehicle), [], by dsimp only; decide +kernel⟩,
   ⟨onBoot (fun x => { x with hsel := true }) (onPort (fun x => { x with responses := [⟨1, true, 9, 0x0102, false, false, false, 0, [1, 2]⟩] }) (tOn .vehicle)), ⟨1, true, 9, 0x0102, false, false, false, 0, [1, 2]⟩, [], 1, by dsimp only; decide +kernel⟩,
   ⟨onHost (fun x => { x with uartLeft := [1, 2] }) (onPort (fun x => { x with staged := some ⟨1, true, 9, 0x0102, false, false, false, 0, [1, 2]⟩ }) (onBoot (fun x => { x with hsel := true }) (tOn .vehicle))), [1, 2], ⟨1, true, 9, 0x0102, false, false, false, 0, [1, 2]⟩, by dsimp only; decide +kernel⟩,
   ⟨onHost (fun x => { x with hcts := true }) (tOn .vehicle), by decide +kernel⟩,
   ⟨tOn .vehicle, false, 0, by decide +kernel⟩,
   ⟨tOn .vehicle, by decide +kernel⟩,
   ⟨onHost (fun x => { x with ratePending := some 5 }) (tOn .vehicle), 5, by decide +kernel⟩,
   ⟨tOn .vehicle, by decide +kernel⟩,
   ⟨onHost (fun x => { x with rateUnproved := true }) (tOn .vehicle), by decide +kernel⟩,
   ⟨tOn .vehicle, by decide +kernel⟩,
   ⟨tOn .vehicle, 0, tFrame [0, 9, 0x02, 0x01, 0, 0, 0, 0], ⟨0, false, false, 9, 0x0102, 0, []⟩, 0, by dsimp only; decide +kernel⟩,
   ⟨tOn .vehicle, 2, by decide +kernel⟩,
   ⟨onPort (fun x => { x with responses := [⟨1, true, 9, 0x0102, false, false, false, 0, [1, 2]⟩] }) (tOn .vehicle), ⟨1, true, 9, 0x0102, false, false, false, 0, [1, 2]⟩, [], by dsimp only; decide +kernel⟩,
   ⟨tOn .vehicle, by dsimp only; decide +kernel⟩,
   ⟨onHost (fun x => { x with usbConfigured := false }) (tOn .vehicle), by decide +kernel⟩⟩

/-- The hypotheses of ApplicationChannels are met. -/
theorem witness_ApplicationChannels :
    (∃ (s : State) (c : Fin 7) (cmd : Nat) (g : Octet) (q : CmdReq) (r : Request) (st : Nat), let ch := (s.port q.transport).chans.get c; let up : Prop := s.portUp q.transport = true; let tests := s.r271 { chan := c.val, dir := false, reserved := false, seq := q.seq, cmd := cmd, flags := g, payload := q.payload }; let again : Prop := up ∧ ch.last = some r ∧ r.seq = q.seq; again ∧ tests = some st) ∧
    (∃ (s : State) (c : Fin 7) (cmd : Nat) (g : Octet) (q : CmdReq) (r : Request) (fr : Frame), let ch := (s.port q.transport).chans.get c; let up : Prop := s.portUp q.transport = true; let tests := s.r271 { chan := c.val, dir := false, reserved := false, seq := q.seq, cmd := cmd, flags := g, payload := q.payload }; let again : Prop := up ∧ ch.last = some r ∧ r.seq = q.seq; let same : Prop := r.cmd = cmd ∧ r.payload = q.payload; again ∧ tests = none ∧ same ∧ ch.phase = .executing ∧ ch.interim = some fr) ∧
    (∃ (s : State) (c : Fin 7) (cmd : Nat) (g : Octet) (q : CmdReq) (r : Request) (fr : Frame), let ch := (s.port q.transport).chans.get c; let up : Prop := s.portUp q.transport = true; let tests := s.r271 { chan := c.val, dir := false, reserved := false, seq := q.seq, cmd := cmd, flags := g, payload := q.payload }; let again : Prop := up ∧ ch.last = some r ∧ r.seq = q.seq; let same : Prop := r.cmd = cmd ∧ r.payload = q.payload; again ∧ tests = none ∧ same ∧ ch.phase = .answered ∧ c ≠ 6 ∧ ch.cache = some fr) ∧
    (∃ (s : State) (c : Fin 7) (cmd : Nat) (g : Octet) (q : CmdReq) (r : Request), let ch := (s.port q.transport).chans.get c; let up : Prop := s.portUp q.transport = true; let tests := s.r271 { chan := c.val, dir := false, reserved := false, seq := q.seq, cmd := cmd, flags := g, payload := q.payload }; let again : Prop := up ∧ ch.last = some r ∧ r.seq = q.seq; let same : Prop := r.cmd = cmd ∧ r.payload = q.payload; again ∧ tests = none ∧ ¬ same ∧ ch.phase ≠ .idle) ∧
    (∃ (s : State) (c : Fin 7) (q : CmdReq), let ch := (s.port q.transport).chans.get c; ch.last = none) ∧
    (∃ (s : State) (c : Fin 7) (q : CmdReq) (r : Request), let ch := (s.port q.transport).chans.get c; let up : Prop := s.portUp q.transport = true; up ∧ ch.phase = .executing ∧ ch.last = some r ∧ (c.val = 0 ∨ 5 ≤ c.val)) ∧
    (∃ (s : State) (a : Fin 4) (r : Request) (x : AppRoute) (tr : Transport), let ac : Fin 7 := ⟨a.val + 1, by omega⟩; let held : Prop := s.host.app.get a = some (tr, r) ∧ s.host.routes.get a = some x ∧ ((s.port tr).chans.get ac).last = some r; held ∧ s.portUp tr = true ∧ ((s.port tr).chans.get ac).phase = .executing) ∧
    (∃ (s : State) (a : Fin 4) (cmd : Nat) (q : CmdReq) (x : AppRoute), let ac : Fin 7 := ⟨a.val + 1, by omega⟩; let up : Prop := s.portUp q.transport = true; let fresh : Prop := ((s.port q.transport).chans.get ac).last = none ∧ 0x8000 ≤ cmd ∧ s.boot.tier ≠ .t0; let runs : Prop := (s.core.get x.core).run = .running ∨ (s.core.get x.core).run = .waiting ∨ (s.core.get x.core).run = .halted; up ∧ fresh ∧ s.host.routes.get a = some x ∧ runs ∧ s.host.app.get a = none) ∧
    (∃ (s : State) (a : Fin 4) (cmd : Nat) (q : CmdReq), let ac : Fin 7 := ⟨a.val + 1, by omega⟩; let up : Prop := s.portUp q.transport = true; let fresh : Prop := ((s.port q.transport).chans.get ac).last = none ∧ 0x8000 ≤ cmd ∧ s.boot.tier ≠ .t0; up ∧ fresh ∧ s.host.routes.get a = none) ∧
    (∃ (s : State) (a : Fin 4) (i : Fin 4) (r : Request) (x : AppRoute) (tr : Transport) (v : Word), let ac : Fin 7 := ⟨a.val + 1, by omega⟩; let head := s.cohRead (x.base + 1024) 2; let stat := wordsNat (head.take 1); let len := wordsNat (head.drop 1); let legal : Prop := (stat = 0 ∨ (0xC0 ≤ stat ∧ stat ≤ 0xFF)) ∧ len ≤ 1020; let held : Prop := s.host.app.get a = some (tr, r) ∧ s.host.routes.get a = some x ∧ ((s.port tr).chans.get ac).last = some r; held ∧ x.core = i ∧ s.reaches (.core i) 0x011 ∧ (s.host.pend.get i).getLsbD a.val = true ∧ v.toNat % 8 = ac.val ∧ legal) ∧
    (∃ (s : State) (a : Fin 4) (i : Fin 4) (r : Request) (x : AppRoute) (tr : Transport) (v : Word), let ac : Fin 7 := ⟨a.val + 1, by omega⟩; let head := s.cohRead (x.base + 1024) 2; let stat := wordsNat (head.take 1); let len := wordsNat (head.drop 1); let legal : Prop := (stat = 0 ∨ (0xC0 ≤ stat ∧ stat ≤ 0xFF)) ∧ len ≤ 1020; let held : Prop := s.host.app.get a = some (tr, r) ∧ s.host.routes.get a = some x ∧ ((s.port tr).chans.get ac).last = some r; held ∧ x.core = i ∧ s.reaches (.core i) 0x011 ∧ (s.host.pend.get i).getLsbD a.val = true ∧ v.toNat % 8 = ac.val ∧ ¬legal) ∧
    (∃ (s : State) (i : Fin 4) (v : Word), s.reaches (.core i) 0x011 ∧ (v.toNat % 8 = 0 ∨ 5 ≤ v.toNat % 8)) ∧
    (∃ (s : State) (i : Fin 4), ¬ s.reaches (.core i) 0x011) ∧
    (∃ (s : State) (i : Fin 4), s.reaches (.core i) 0x012 ∧ s.eventsLive = true ∧ (s.port .hostPort).mask.getLsbD 10 = false ∧ (s.port .hostPort).events.length < 64) :=
  ⟨⟨onPort (fun x => { x with chans := x.chans.set 0 ⟨.executing, true, some ⟨9, 0x8001, [1]⟩, 0, none, none⟩ }) (onCore (fun x => { x with grants := { x.grants with blocks := 0x7FFF, routes := 15 } }) (onMem (fun x => { x with sram := memSetList 0 0x120400 [0xC0, 1020] [] }) (onCore (fun x => { x with run := .running }) (onHost (fun x => { x with routes := Vector.replicate 4 (some ⟨0, 0x120000, 100⟩) }) (onPort (fun x => { x with chans := x.chans.set 1 ⟨.answered, true, some ⟨9, 0x8001, [1]⟩, 0, some ⟨1, true, 9, 0x0102, false, false, false, 0, [1, 2]⟩, none⟩ }) (tOn .vehicle)))))), 0, 0x8000, 0, ⟨.hostPort, 9, [1]⟩, ⟨9, 0x8001, [1]⟩, 4, by dsimp only; decide +kernel⟩,
   ⟨onPort (fun x => { x with chans := x.chans.set 1 ⟨.executing, true, some ⟨9, 0x8001, [1]⟩, 0, none, some ⟨1, true, 9, 0x0102, false, false, false, 0, [1, 2]⟩⟩ }) (tOn .vehicle), 1, 0x8001, 0, ⟨.hostPort, 9, [1]⟩, ⟨9, 0x8001, [1]⟩, ⟨1, true, 9, 0x0102, false, false, false, 0, [1, 2]⟩, by dsimp only; decide +kernel⟩,
   ⟨onPort (fun x => { x with chans := x.chans.set 1 ⟨.answered, true, some ⟨9, 0x8001, [1]⟩, 0, some ⟨1, true, 9, 0x0102, false, false, false, 0, [1, 2]⟩, none⟩ }) (tOn .vehicle), 1, 0x8001, 0, ⟨.hostPort, 9, [1]⟩, ⟨9, 0x8001, [1]⟩, ⟨1, true, 9, 0x0102, false, false, false, 0, [1, 2]⟩, by dsimp only; decide +kernel⟩,
   ⟨onPort (fun x => { x with chans := x.chans.set 1 ⟨.executing, true, some ⟨9, 0x8001, [1]⟩, 0, none, some ⟨1, true, 9, 0x0102, false, false, false, 0, [1, 2]⟩⟩ }) (tOn .vehicle), 1, 0x8000, 0, ⟨.hostPort, 9, [1]⟩, ⟨9, 0x8001, [1]⟩, by dsimp only; decide +kernel⟩,
   ⟨tOn .vehicle, 0, ⟨.hostPort, 9, [1]⟩, by dsimp only; decide +kernel⟩,
   ⟨onPort (fun x => { x with chans := x.chans.set 0 ⟨.executing, true, some ⟨9, 0x8001, [1]⟩, 0, none, none⟩ }) (tOn .vehicle), 0, ⟨.hostPort, 9, [1]⟩, ⟨9, 0x8001, [1]⟩, by dsimp only; decide +kernel⟩,
   ⟨onHost (fun x => { x with routes := Vector.replicate 4 (some ⟨0, 0x120000, 100⟩), app := x.app.set 0 (some (.hostPort, ⟨9, 0x8001, [1]⟩)), pend := Vector.replicate 4 2, usbConfigured := false }) (onPort (fun x => { x with chans := x.chans.set 1 ⟨.executing, true, some ⟨9, 0x8001, [1]⟩, 0, none, some ⟨1, true, 9, 0x0102, false, false, false, 0, [1, 2]⟩⟩ }) (tOn .vehicle)), 0, ⟨9, 0x8001, [1]⟩, ⟨0, 0x120000, 100⟩, .hostPort, by dsimp only; decide +kernel⟩,
   ⟨onCore (fun x => { x with run := .running }) (onHost (fun x => { x with routes := Vector.replicate 4 (some ⟨0, 0x120000, 100⟩) }) (tOn .vehicle)), 0, 0x8001, ⟨.hostPort, 9, [1]⟩, ⟨0, 0x120000, 100⟩, by dsimp only; decide +kernel⟩,
   ⟨tOn .vehicle, 0, 0x8001, ⟨.hostPort, 9, [1]⟩, by dsimp only; decide +kernel⟩,
   ⟨onCore (fun x => { x with grants := { x.grants with blocks := 0x7FFF, routes := 15 } }) (onHost (fun x => { x with routes := Vector.replicate 4 (some ⟨0, 0x120000, 100⟩), app := x.app.set 0 (some (.hostPort, ⟨9, 0x8001, [1]⟩)), pend := Vector.replicate 4 1 }) (onPort (fun x => { x with chans := x.chans.set 1 ⟨.executing, true, some ⟨9, 0x8001, [1]⟩, 0, none, some ⟨1, true, 9, 0x0102, false, false, false, 0, [1, 2]⟩⟩ }) (tOn .vehicle))), 0, 0, ⟨9, 0x8001, [1]⟩, ⟨0, 0x120000, 100⟩, .hostPort, 1, by simp only [reaches_iff]; decide +kernel⟩,
   ⟨onCore (fun x => { x with grants := { x.grants with blocks := 0x7FFF, routes := 15 } }) (onMem (fun x => { x with sram := memSetList 0 0x120400 [0xBF, 4] [] }) (onHost (fun x => { x with routes := Vector.replicate 4 (some ⟨0, 0x120000, 100⟩), app := x.app.set 0 (some (.hostPort, ⟨9, 0x8001, [1]⟩)), pend := Vector.replicate 4 1 }) (onPort (fun x => { x with chans := x.chans.set 1 ⟨.executing, true, some ⟨9, 0x8001, [1]⟩, 0, none, some ⟨1, true, 9, 0x0102, false, false, false, 0, [1, 2]⟩⟩ }) (tOn .vehicle)))), 0, 0, ⟨9, 0x8001, [1]⟩, ⟨0, 0x120000, 100⟩, .hostPort, 1, by simp only [reaches_iff]; decide +kernel⟩,
   ⟨onCore (fun x => { x with grants := { x.grants with blocks := 0x7FFF, routes := 15 } }) (tOn .vehicle), 0, 0, by simp only [reaches_iff]; decide +kernel⟩,
   ⟨tOn .vehicle, 0, by simp only [reaches_iff]; decide +kernel⟩,
   ⟨onCore (fun x => { x with grants := { x.grants with blocks := 0x7FFF, routes := 15 } }) (tOn .vehicle), 0, by simp only [reaches_iff]; decide +kernel⟩⟩

/-- The hypotheses of SystemAndCoreCommands are met. -/
theorem witness_SystemAndCoreCommands :
    (∃ (s : State) (q : CmdReq), let ok (cmd : Nat) : Prop := s.accepts cmd q = true; ok 0x0101) ∧
    (∃ (s : State) (q : CmdReq), let ok (cmd : Nat) : Prop := s.accepts cmd q = true; ok 0x0102) ∧
    (∃ (s : State) (q : CmdReq), let ok (cmd : Nat) : Prop := s.accepts cmd q = true; let o := octetAt q.payload 0; ok 0x0103 ∧ 100 < o.toNat) ∧
    (∃ (s : State) (q : CmdReq), let ok (cmd : Nat) : Prop := s.accepts cmd q = true; let o := octetAt q.payload 0; ok 0x0103 ∧ o.toNat ≤ 100) ∧
    (∃ (s : State) (q : CmdReq), let ok (cmd : Nat) : Prop := s.accepts cmd q = true; let o := octetAt q.payload 0; ok 0x0104 ∧ (5 < o.toNat ∨ q.transport = .usb ∨ s.boot.hsel = false)) ∧
    (∃ (s : State) (q : CmdReq), let ok (cmd : Nat) : Prop := s.accepts cmd q = true; let o := octetAt q.payload 0; ok 0x0104 ∧ o.toNat ≤ 5 ∧ q.transport = .hostPort ∧ s.boot.hsel = true) ∧
    (∃ (s : State) (q : CmdReq), let ok (cmd : Nat) : Prop := s.accepts cmd q = true; let m := fieldNat q.payload 0 2; ok 0x0105 ∧ BitVec.ofNat 16 m &&& 0xE203 ≠ 0) ∧
    (∃ (s : State) (q : CmdReq), let ok (cmd : Nat) : Prop := s.accepts cmd q = true; let m := fieldNat q.payload 0 2; ok 0x0105 ∧ BitVec.ofNat 16 m &&& 0xE203 = 0) ∧
    (∃ (s : State) (q : CmdReq), let ok (cmd : Nat) : Prop := s.accepts cmd q = true; let o := octetAt q.payload 0; ok 0x0106 ∧ o ≠ 0xA5) ∧
    (∃ (s : State) (q : CmdReq), let ok (cmd : Nat) : Prop := s.accepts cmd q = true; let o := octetAt q.payload 0; ok 0x0106 ∧ o = 0xA5 ∧ s.led.cur.ride.isSome = true) ∧
    (∃ (s : State) (q : CmdReq) (e : StartEnv), let ok (cmd : Nat) : Prop := s.accepts cmd q = true; let o := octetAt q.payload 0; let noRide : Prop := s.led.cur.ride = none; let started : Prop := e.testen = false ∧ e.failed = [] ∧ e.romOk = true ∧ e.stop = .none ∧ e.store = StoreEnv.good ∧ s.boot.testen = false ∧ s.boot.alternateFirst = false ∧ s.setBoots e s.preferredSet = true ∧ (∀ j : Fin 2, (s.bank j).run = .idle ∧ (s.bank j).suspended = none) ∧ s.jou.busy = Vector.replicate 2 none; ok 0x0106 ∧ o = 0xA5 ∧ noRide ∧ s.pow.pm = .running ∧ started) ∧
    (∃ (s : State) (q : CmdReq), let ok (cmd : Nat) : Prop := s.accepts cmd q = true; ok 0x0107 ∧ s.led.cur.ride.isSome = true) ∧
    (∃ (s : State) (q : CmdReq), let ok (cmd : Nat) : Prop := s.accepts cmd q = true; let noRide : Prop := s.led.cur.ride = none; ok 0x0107 ∧ noRide) ∧
    (∃ (s : State) (q : CmdReq), let ok (cmd : Nat) : Prop := s.accepts cmd q = true; ok 0x0901) ∧
    (∃ (s : State) (q : CmdReq), let ok (cmd : Nat) : Prop := s.accepts cmd q = true; let o := octetAt q.payload 0; ok 0x0902 ∧ 3 < o.toNat) ∧
    (∃ (s : State) (q : CmdReq) (i : Fin 4), let ok (cmd : Nat) : Prop := s.accepts cmd q = true; let o := octetAt q.payload 0; let runs (j : Fin 4) : Prop := (s.core.get j).run = .running ∨ (s.core.get j).run = .waiting ∨ (s.core.get j).run = .halted; ok 0x0902 ∧ o.toNat = i.val ∧ ¬runs i) ∧
    (∃ (s : State) (q : CmdReq) (i : Fin 4), let ok (cmd : Nat) : Prop := s.accepts cmd q = true; let o := octetAt q.payload 0; let runs (j : Fin 4) : Prop := (s.core.get j).run = .running ∨ (s.core.get j).run = .waiting ∨ (s.core.get j).run = .halted; ok 0x0902 ∧ o.toNat = i.val ∧ runs i) ∧
    (∃ (s : State) (q : CmdReq), let ok (cmd : Nat) : Prop := s.accepts cmd q = true; ok 0x0A01 ∧ s.boot.units.toList.all (· ≠ .untested) = true) ∧
    (∃ (s : State) (q : CmdReq), let ok (cmd : Nat) : Prop := s.accepts cmd q = true; ok 0x0A02 ∧ s.led.cur.ride.isSome = true) ∧
    (∃ (s : State) (q : CmdReq), let ok (cmd : Nat) : Prop := s.accepts cmd q = true; let noRide : Prop := s.led.cur.ride = none; ok 0x0A02 ∧ noRide ∧ s.boot.tier = .t3) ∧
    (∃ (s : State) (q : CmdReq), let ok (cmd : Nat) : Prop := s.accepts cmd q = true; let noRide : Prop := s.led.cur.ride = none; let clocked : Prop := s.clk.pllLocked = true ∧ s.cel.lfo = .good ∧ ∀ x ∈ pllDomains, s.clk.domains.get x.row ≠ .held ∧ (s.wants x = true → s.clk.domains.get x.row ≠ .gated); ok 0x0A02 ∧ noRide ∧ (s.boot.tier = .t1 ∨ s.boot.tier = .t2) ∧ s.failedUnits ≠ [] ∧ clocked) ∧
    (∃ (s : State) (q : CmdReq) (b : BeaconRecord) (l : List BeaconRecord), let ok (cmd : Nat) : Prop := s.accepts cmd q = true; ok 0x0A03 ∧ s.boot.beacons = b :: l) ∧
    (∃ (s : State) (q : CmdReq), let ok (cmd : Nat) : Prop := s.accepts cmd q = true; ok 0x0A03 ∧ s.boot.beacons = []) :=
  ⟨⟨tCore CoreState.reset, ⟨.hostPort, 1, []⟩, by dsimp only; decide +kernel⟩,
   ⟨tCore CoreState.reset, ⟨.hostPort, 1, []⟩, by dsimp only; decide +kernel⟩,
   ⟨tCore CoreState.reset, ⟨.hostPort, 1, [101]⟩, by dsimp only; decide +kernel⟩,
   ⟨tCore CoreState.reset, ⟨.hostPort, 1, [100]⟩, by dsimp only; decide +kernel⟩,
   ⟨tCore CoreState.reset, ⟨.hostPort, 1, [100]⟩, by dsimp only; decide +kernel⟩,
   ⟨onBoot (fun x => { x with hsel := true }) (tCore CoreState.reset), ⟨.hostPort, 1, [5]⟩, by dsimp only; decide +kernel⟩,
   ⟨tCore CoreState.reset, ⟨.hostPort, 1, leOctets 2 0x0001⟩, by dsimp only; decide +kernel⟩,
   ⟨tCore CoreState.reset, ⟨.hostPort, 1, leOctets 2 0x1DFC⟩, by dsimp only; decide +kernel⟩,
   ⟨tCore CoreState.reset, ⟨.hostPort, 1, [100]⟩, by dsimp only; decide +kernel⟩,
   ⟨onTail (fun x => { x with ride := some ⟨7, RideFlags.none, 1, [], ⟨0, 0, 0, 0, 0, 3, 0⟩, 0, [], 0, none⟩ }) (tCore CoreState.reset), ⟨.hostPort, 1, [0xA5]⟩, by dsimp only; decide +kernel⟩,
   ⟨tCore CoreState.reset, ⟨.hostPort, 1, [0xA5]⟩, StartEnv.good false false false true, by dsimp only; decide +kernel⟩,
   ⟨onTail (fun x => { x with ride := some ⟨7, RideFlags.none, 1, [], ⟨0, 0, 0, 0, 0, 3, 0⟩, 0, [], 0, none⟩ }) (tCore CoreState.reset), ⟨.hostPort, 1, []⟩, by dsimp only; decide +kernel⟩,
   ⟨tCore CoreState.reset, ⟨.hostPort, 1, []⟩, by dsimp only; decide +kernel⟩,
   ⟨tCore CoreState.reset, ⟨.hostPort, 1, []⟩, by dsimp only; decide +kernel⟩,
   ⟨tCore CoreState.reset, ⟨.hostPort, 1, [100]⟩, by dsimp only; decide +kernel⟩,
   ⟨tOn .vehicle, ⟨.hostPort, 1, [0]⟩, 0, by dsimp only; decide +kernel⟩,
   ⟨tCore CoreState.reset, ⟨.hostPort, 1, [0]⟩, 0, by dsimp only; decide +kernel⟩,
   ⟨tCore CoreState.reset, ⟨.hostPort, 1, []⟩, by dsimp only; decide +kernel⟩,
   ⟨onTail (fun x => { x with ride := some ⟨7, RideFlags.none, 1, [], ⟨0, 0, 0, 0, 0, 3, 0⟩, 0, [], 0, none⟩ }) (tCore CoreState.reset), ⟨.hostPort, 1, []⟩, by dsimp only; decide +kernel⟩,
   ⟨tCore CoreState.reset, ⟨.hostPort, 1, []⟩, by dsimp only; decide +kernel⟩,
   ⟨onBoot (fun x => { x with tier := .t2, units := x.units.set 30 .failedAtRun }) (tCore CoreState.reset), ⟨.hostPort, 1, []⟩, by dsimp only; decide +kernel⟩,
   ⟨onBoot (fun x => { x with beacons := [⟨0, 5, [2]⟩] }) (tCore CoreState.reset), ⟨.hostPort, 1, []⟩, ⟨0, 5, [2]⟩, [], by dsimp only; decide +kernel⟩,
   ⟨tCore CoreState.reset, ⟨.hostPort, 1, []⟩, by dsimp only; decide +kernel⟩⟩

/-- The hypotheses of ImageMotorAndCelandineCommands are met. -/
theorem witness_ImageMotorAndCelandineCommands :
    (∃ (s : State) (q : CmdReq), let whole : Prop := s.accepts 0x0601 q = true ∧ s.cus.cut = none; let o := octetAt q.payload 0; whole ∧ 1 < o.toNat) ∧
    (∃ (s : State) (q : CmdReq), let whole : Prop := s.accepts 0x0601 q = true ∧ s.cus.cut = none; let o := octetAt q.payload 0; let has : Prop := (o = 0 ∧ (s.boot.role = .vehicle ∨ s.boot.role = .dock)) ∨ o = 1; whole ∧ ¬has ∧ o = 0) ∧
    (∃ (s : State) (q : CmdReq), let whole : Prop := s.accepts 0x0601 q = true ∧ s.cus.cut = none; let o := octetAt q.payload 0; let f := fieldNat q.payload; let has : Prop := (o = 0 ∧ (s.boot.role = .vehicle ∨ s.boot.role = .dock)) ∨ o = 1; let limit := if o = 0 then 884736 else 52 + 16 * 0x8000; whole ∧ has ∧ limit < f 1 3) ∧
    (∃ (s : State) (q : CmdReq), let whole : Prop := s.accepts 0x0601 q = true ∧ s.cus.cut = none; let o := octetAt q.payload 0; let f := fieldNat q.payload; let has : Prop := (o = 0 ∧ (s.boot.role = .vehicle ∨ s.boot.role = .dock)) ∨ o = 1; let limit := if o = 0 then 884736 else 52 + 16 * 0x8000; let trial : Prop := o = 0 ∧ (s.cus.probation.any (·.program)) = true; whole ∧ has ∧ f 1 3 ≤ limit ∧ trial) ∧
    (∃ (s : State) (q : CmdReq) (w : StoreWrite) (d : Fin 2), let whole : Prop := s.accepts 0x0601 q = true ∧ s.cus.cut = none; let o := octetAt q.payload 0; let f := fieldNat q.payload; let has : Prop := (o = 0 ∧ (s.boot.role = .vehicle ∨ s.boot.role = .dock)) ∨ o = 1; let kind : Prop := has ∧ o.toNat = d.val; let limit := if o = 0 then 884736 else 52 + 16 * 0x8000; let trial : Prop := o = 0 ∧ (s.cus.probation.any (·.program)) = true; whole ∧ kind ∧ f 1 3 ≤ limit ∧ ¬trial ∧ w = .done) ∧
    (∃ (s : State) (q : CmdReq) (d : Fin 2), let ok (cmd : Nat) : Prop := s.accepts cmd q = true; let o := octetAt q.payload 0; let has : Prop := (o = 0 ∧ (s.boot.role = .vehicle ∨ s.boot.role = .dock)) ∨ o = 1; let kind : Prop := has ∧ o.toNat = d.val; ok 0x0602 ∧ kind ∧ s.img.writing.get d = none ∧ (partAt q.payload 0).isSome = true) ∧
    (∃ (s : State) (q : CmdReq) (d : Fin 2) (x : ImageWrite), let ok (cmd : Nat) : Prop := s.accepts cmd q = true; let o := octetAt q.payload 0; let f := fieldNat q.payload; let has : Prop := (o = 0 ∧ (s.boot.role = .vehicle ∨ s.boot.role = .dock)) ∨ o = 1; let kind : Prop := has ∧ o.toNat = d.val; ok 0x0602 ∧ kind ∧ s.img.writing.get d = some x ∧ f 2 3 ≠ x.total) ∧
    (∃ (s : State) (q : CmdReq) (d : Fin 2) (x : ImageWrite) (ws : List Word), let ok (cmd : Nat) : Prop := s.accepts cmd q = true; let o := octetAt q.payload 0; let f := fieldNat q.payload; let has : Prop := (o = 0 ∧ (s.boot.role = .vehicle ∨ s.boot.role = .dock)) ∨ o = 1; let kind : Prop := has ∧ o.toNat = d.val; ok 0x0602 ∧ kind ∧ s.img.writing.get d = some x ∧ f 2 3 = x.total ∧ f 5 3 = 0 ∧ octetAt q.payload 1 = 0 ∧ ws = unpackOctets (q.payload.drop 8) ∧ ws.length ≤ x.total ∧ ws.length % 2 = 0 ∧ ws.length ≤ 672) ∧
    (∃ (s : State) (q : CmdReq) (d : Fin 2) (x : ImageWrite), let ok (cmd : Nat) : Prop := s.accepts cmd q = true; let o := octetAt q.payload 0; let has : Prop := (o = 0 ∧ (s.boot.role = .vehicle ∨ s.boot.role = .dock)) ∨ o = 1; let kind : Prop := has ∧ o.toNat = d.val; ok 0x0603 ∧ kind ∧ s.img.writing.get d = some x ∧ x.complete = false) ∧
    (∃ (s : State) (q : CmdReq) (x : ImageWrite), let ok (cmd : Nat) : Prop := s.accepts cmd q = true; let o := octetAt q.payload 0; let has : Prop := (o = 0 ∧ (s.boot.role = .vehicle ∨ s.boot.role = .dock)) ∨ o = 1; ok 0x0603 ∧ has ∧ o = 0 ∧ s.img.writing.get 0 = some x ∧ x.complete = true ∧ programImageOk x.words = false) ∧
    (∃ (s : State) (q : CmdReq) (x : ImageWrite), let ok (cmd : Nat) : Prop := s.accepts cmd q = true; let o := octetAt q.payload 0; let has : Prop := (o = 0 ∧ (s.boot.role = .vehicle ∨ s.boot.role = .dock)) ∨ o = 1; ok 0x0603 ∧ has ∧ o = 0 ∧ s.img.writing.get 0 = some x ∧ x.complete = true ∧ programImageOk x.words = true) ∧
    (∃ (s : State) (q : CmdReq), let ok (cmd : Nat) : Prop := s.accepts cmd q = true; let o := octetAt q.payload 0; let has : Prop := (o = 0 ∧ (s.boot.role = .vehicle ∨ s.boot.role = .dock)) ∨ o = 1; let slot := s.img.slots.get s.cus.stageSlot; let staged : Option (List Word) := match slot with | none => none | some y => if y.staged = true then some y.words else none; ok 0x0603 ∧ has ∧ o = 0 ∧ s.img.writing.get 0 = none ∧ staged = none) ∧
    (∃ (s : State) (q : CmdReq), let ok (cmd : Nat) : Prop := s.accepts cmd q = true; ok 0x0604) ∧
    (∃ (s : State) (q : CmdReq), let ok (cmd : Nat) : Prop := s.accepts cmd q = true; let o := octetAt q.payload 0; let f := fieldNat q.payload; ok 0x0605 ∧ (1 < o.toNat ∨ f 2 1 = 0 ∨ 128 < f 2 1 ∨ 128 < f 1 1 + f 2 1)) ∧
    (∃ (s : State) (q : CmdReq), let ok (cmd : Nat) : Prop := s.accepts cmd q = true; let o := octetAt q.payload 0; let f := fieldNat q.payload; ok 0x0605 ∧ o.toNat ≤ 1 ∧ f 2 1 = 1 ∧ f 1 1 < 128) ∧
    (∃ (s : State) (q : CmdReq), let ok (cmd : Nat) : Prop := s.accepts cmd q = true; ok 0x0501) ∧
    (∃ (s : State) (q : CmdReq), let ok (cmd : Nat) : Prop := s.accepts cmd q = true; ok 0x0502 ∧ s.clearResult ≠ 1) ∧
    (∃ (s : State) (q : CmdReq), let ok (cmd : Nat) : Prop := s.accepts cmd q = true; let t := s.mot.tsl; ok 0x0502 ∧ s.clearResult = 1 ∧ t.latch = true) ∧
    (∃ (s : State) (q : CmdReq), let ok (cmd : Nat) : Prop := s.accepts cmd q = true; ok 0x0503) ∧
    (∃ (s : State) (q : CmdReq), let ok (cmd : Nat) : Prop := s.accepts cmd q = true; ok 0x0801) ∧
    (∃ (s : State) (q : CmdReq), let ok (cmd : Nat) : Prop := s.accepts cmd q = true; ok 0x0802) ∧
    (∃ (s : State) (q : CmdReq), let ok (cmd : Nat) : Prop := s.accepts cmd q = true; let f := fieldNat q.payload; ok 0x0803 ∧ 600 < f 0 2) ∧
    (∃ (s : State) (q : CmdReq), let ok (cmd : Nat) : Prop := s.accepts cmd q = true; let f := fieldNat q.payload; ok 0x0803 ∧ f 0 2 ≤ 600) ∧
    (∃ (s : State) (q : CmdReq), let ok (cmd : Nat) : Prop := s.accepts cmd q = true; ok 0x0804) :=
  ⟨⟨tOn .vehicle, ⟨.hostPort, 1, [2, 0, 0, 0]⟩, by dsimp only; decide +kernel⟩,
   ⟨tOn .pack, ⟨.hostPort, 1, [0] ++ leOctets 3 884736⟩, by dsimp only; decide +kernel⟩,
   ⟨tOn .vehicle, ⟨.hostPort, 1, [0] ++ leOctets 3 884737⟩, by dsimp only; decide +kernel⟩,
   ⟨onCus (fun x => { x with probation := some ⟨Vector.replicate 5 false, true, false, 0, 0, 0, 0⟩ }) (tOn .vehicle), ⟨.hostPort, 1, [0] ++ leOctets 3 884736⟩, by dsimp only; decide +kernel⟩,
   ⟨tOn .vehicle, ⟨.hostPort, 1, [0] ++ leOctets 3 884736⟩, .done, 0, by dsimp only; decide +kernel⟩,
   ⟨tOn .vehicle, ⟨.hostPort, 1, [0, 0] ++ leOctets 3 6 ++ leOctets 3 0 ++ packWords [1, 2]⟩, 0, by dsimp only; decide +kernel⟩,
   ⟨onAll (fun x => { x with img := { x.img with writing := Vector.replicate 2 (some ⟨0, 6, [], false⟩) } }) (tOn .vehicle), ⟨.hostPort, 1, [0, 0] ++ leOctets 3 7 ++ leOctets 3 0 ++ packWords [1, 2]⟩, 0, ⟨0, 6, [], false⟩, by dsimp only; decide +kernel⟩,
   ⟨onAll (fun x => { x with img := { x.img with writing := Vector.replicate 2 (some ⟨0, 6, [], false⟩) } }) (tOn .vehicle), ⟨.hostPort, 1, [0, 0] ++ leOctets 3 6 ++ leOctets 3 0 ++ packWords [1, 2]⟩, 0, ⟨0, 6, [], false⟩, [1, 2], by dsimp only; decide +kernel⟩,
   ⟨onAll (fun x => { x with img := { x.img with writing := Vector.replicate 2 (some ⟨0, 6, [], false⟩) } }) (tOn .vehicle), ⟨.hostPort, 1, [0]⟩, 0, ⟨0, 6, [], false⟩, by dsimp only; decide +kernel⟩,
   ⟨onAll (fun x => { x with img := { x.img with writing := Vector.replicate 2 (some ⟨0, 2, [1, 2], true⟩) } }) (tOn .vehicle), ⟨.hostPort, 1, [0]⟩, ⟨0, 2, [1, 2], true⟩, by dsimp only; decide +kernel⟩,
   ⟨onAll (fun x => { x with img := { x.img with writing := Vector.replicate 2 (some ⟨0, 111, tImage, true⟩) } }) (tOn .vehicle), ⟨.hostPort, 1, [0]⟩, ⟨0, 111, tImage, true⟩, by dsimp only; decide +kernel⟩,
   ⟨tOn .vehicle, ⟨.hostPort, 1, [0]⟩, by dsimp only; decide +kernel⟩,
   ⟨tOn .vehicle, ⟨.hostPort, 1, []⟩, by dsimp only; decide +kernel⟩,
   ⟨tOn .vehicle, ⟨.hostPort, 1, [1, 127, 2]⟩, by dsimp only; decide +kernel⟩,
   ⟨tOn .vehicle, ⟨.hostPort, 1, [1, 127, 1]⟩, by dsimp only; decide +kernel⟩,
   ⟨tOn .vehicle, ⟨.hostPort, 1, []⟩, by dsimp only; decide +kernel⟩,
   ⟨tOn .vehicle, ⟨.hostPort, 1, []⟩, by dsimp only; decide +kernel⟩,
   ⟨onTsl (fun x => { x with latch := true, armWait := false }) (tOn .vehicle), ⟨.hostPort, 1, []⟩, by dsimp only; decide +kernel⟩,
   ⟨tOn .vehicle, ⟨.hostPort, 1, []⟩, by dsimp only; decide +kernel⟩,
   ⟨tOn .vehicle, ⟨.hostPort, 1, []⟩, by dsimp only; decide +kernel⟩,
   ⟨tOn .vehicle, ⟨.hostPort, 1, []⟩, by dsimp only; decide +kernel⟩,
   ⟨tOn .vehicle, ⟨.hostPort, 1, leOctets 2 601⟩, by dsimp only; decide +kernel⟩,
   ⟨tOn .vehicle, ⟨.hostPort, 1, leOctets 2 600⟩, by dsimp only; decide +kernel⟩,
   ⟨tOn .vehicle, ⟨.hostPort, 1, leOctets 2 600⟩, by dsimp only; decide +kernel⟩⟩

/-- The hypotheses of PresenceWindow are met. -/
theorem witness_PresenceWindow :
    (∃ (s : State), let p := s.cus.presence; let good : Prop := s.pow.pm = .running ∧ s.cel.lfo = .good; good ∧ p.serviceLow = true ∧ p.serviceCounts = true) ∧
    (∃ (s : State), let p := s.cus.presence; (p.serviceLow = false ∨ p.serviceCounts = false ∨ s.pow.pm = .off)) ∧
    (∃ (s : State), let p := s.cus.presence; let good : Prop := s.pow.pm = .running ∧ s.cel.lfo = .good; good ∧ p.jumperFitted = true ∧ p.jumperPending = true) ∧
    (∃ (s : State), let p := s.cus.presence; (p.jumperFitted = false ∨ p.jumperPending = false ∨ s.pow.pm = .off)) ∧
    (∃ (s : State), s.cus.cut = none ∧ (s.boot.role = .dock ∨ s.pow.pm = .off)) ∧
    (∃ (s : State) (edges : Nat), s.cus.cut = none ∧ s.boot.role ≠ .dock ∧ s.pow.pm ≠ .off ∧ (s.cel.lfxFailed = true ∨ edges < 251 ∨ 261 < edges)) ∧
    (∃ (s : State) (edges : Nat), let p := s.cus.presence; s.cus.cut = none ∧ s.boot.role ≠ .dock ∧ s.pow.pm ≠ .off ∧ s.cel.lfxFailed = false ∧ 251 ≤ edges ∧ edges ≤ 261 ∧ p.dockGates < 3 ∧ (p.windowOpen = false ∨ p.dockBlocked = false)) ∧
    (∃ (s : State) (edges : Nat), let p := s.cus.presence; let good : Prop := s.pow.pm = .running ∧ s.cel.lfo = .good; let noStaged : Prop := ∀ d : Fin 5, (s.cus.slots.get d).staged = none; s.cus.cut = none ∧ s.boot.role ≠ .dock ∧ s.pow.pm ≠ .off ∧ s.cel.lfxFailed = false ∧ 251 ≤ edges ∧ edges ≤ 261 ∧ good ∧ p.dockGates = 3 ∧ noStaged) ∧
    (∃ (s : State) (edges : Nat), let p := s.cus.presence; let noStaged : Prop := ∀ d : Fin 5, (s.cus.slots.get d).staged = none; s.cus.cut = none ∧ s.boot.role ≠ .dock ∧ s.pow.pm ≠ .off ∧ s.cel.lfxFailed = false ∧ 251 ≤ edges ∧ edges ≤ 261 ∧ 4 ≤ p.dockGates ∧ p.windowOpen = true ∧ noStaged) ∧
    (∃ (s : State) (edges : Nat), let p := s.cus.presence; s.cus.cut = none ∧ s.boot.role ≠ .dock ∧ s.pow.pm ≠ .off ∧ s.cel.lfxFailed = false ∧ 251 ≤ edges ∧ edges ≤ 261 ∧ 4 ≤ p.dockGates ∧ p.windowOpen = false) ∧
    (∃ (s : State), let p := s.cus.presence; p.serviceLow = false) ∧
    (∃ (s : State), let p := s.cus.presence; p.dockEventAt = none) ∧
    (∃ (s : State) (q : CmdReq), s.accepts 0x0208 q = true) :=
  ⟨⟨onPres (fun x => { x with serviceLow := true, serviceCounts := true }) (tOn .vehicle), by dsimp only; decide +kernel⟩,
   ⟨tOn .vehicle, by dsimp only; decide +kernel⟩,
   ⟨onPres (fun x => { x with jumperFitted := true, jumperPending := true }) (tOn .vehicle), by dsimp only; decide +kernel⟩,
   ⟨tOn .vehicle, by dsimp only; decide +kernel⟩,
   ⟨tOn .dock, by decide +kernel⟩,
   ⟨tOn .vehicle, 250, by decide +kernel⟩,
   ⟨tOn .vehicle, 251, by dsimp only; decide +kernel⟩,
   ⟨onPres (fun x => { x with dockGates := 3 }) (tOn .vehicle), 251, by dsimp only; decide +kernel⟩,
   ⟨onPres (fun x => { x with dockGates := 4, windowOpen := true }) (tOn .vehicle), 251, by dsimp only; decide +kernel⟩,
   ⟨onPres (fun x => { x with dockGates := 4 }) (tOn .vehicle), 251, by dsimp only; decide +kernel⟩,
   ⟨tOn .vehicle, by dsimp only; decide +kernel⟩,
   ⟨tOn .vehicle, by dsimp only; decide +kernel⟩,
   ⟨tOn .vehicle, ⟨.hostPort, 1, []⟩, by decide +kernel⟩⟩

/-- The hypotheses of CustodyAndLedgerTimers are met. -/
theorem witness_CustodyAndLedgerTimers :
    (∃ (s : State), let live : Prop := s.eventsLive = true; let map := s.cus.writing { s.cus with probation := none } []; s.cus.cut = none ∧ live ∧ s.probationDue = true ∧ map ≠ none) ∧
    (∃ (s : State), let live : Prop := s.eventsLive = true; let map := s.cus.writing { s.cus with probation := none } []; s.cus.cut = none ∧ live ∧ s.probationDue = true ∧ map = none) ∧
    (∃ (s : State), s.cus.cut = none ∧ (s.probationDue = false ∨ s.eventsLive = false)) ∧
    (∃ (s : State), let live : Prop := s.eventsLive = true; s.cus.cut = none ∧ live ∧ s.led.cur.period = none ∧ s.led.due = []) ∧
    (∃ (s : State) (o : OpenPeriod), let live : Prop := s.eventsLive = true; s.cus.cut = none ∧ live ∧ s.led.cur.period = some o ∧ s.led.due = [] ∧ s.led.cur.clock.wall < o.stop) ∧
    (∃ (s : State) (o : OpenPeriod), let live : Prop := s.eventsLive = true; let next := nextBoundary (s.edition .tariff) o.stop; let roomy : Prop := 260 ≤ s.led.freePages; s.cus.cut = none ∧ live ∧ s.boot.tier ≠ .t0 ∧ s.led.cur.period = some o ∧ s.led.due = [] ∧ s.led.sealed s.led.epoch o.index = false ∧ o.stop ≤ s.led.cur.clock.wall ∧ s.led.cur.clock.wall < next ∧ o.index < 0xFFFFFF ∧ roomy) ∧
    (∃ (s : State), s.cus.cut = none ∧ s.eventsLive = false) ∧
    (∃ (s : State) (r : OpenRide), let live : Prop := s.eventsLive = true; let roomy : Prop := 260 ≤ s.led.freePages; s.cus.cut = none ∧ live ∧ s.led.cur.ride = some r ∧ tariffMaxRide r.tariff ≤ s.rideSeconds r ∧ s.cus.probation = none ∧ roomy) ∧
    (∃ (s : State), s.cus.cut = none ∧ (s.led.cur.ride = none ∨ s.eventsLive = false)) ∧
    (∃ (s : State), (s.led.cur.ride.isSome = true ∨ s.eventsLive = false)) ∧
    (∃ (s : State) (e : StoreEnv), let live : Prop := s.eventsLive = true; live ∧ s.led.cur.ride = none ∧ e.changed = []) ∧
    (∃ (s : State), s.led.cur.clock.cls = 4 ∧ 86400 ≤ s.led.cur.class4Age) ∧
    (∃ (s : State), (s.led.cur.clock.cls ≠ 4 ∨ s.led.cur.class4Age < 86400)) :=
  ⟨⟨onTail (fun x => { x with clock := { Clock.reset with seconds := 86400 } }) (onCus (fun x => { x with probation := some ⟨Vector.replicate 5 true, false, false, 0, 0, 0, 0⟩ }) (tOn .vehicle)), by dsimp only; decide +kernel⟩,
   ⟨onCus (fun x => { x with store := { x.store with page := 128, blank := Vector.replicate 4 false } }) (onTail (fun x => { x with clock := { Clock.reset with seconds := 86400 } }) (onCus (fun x => { x with probation := some ⟨Vector.replicate 5 true, false, false, 0, 0, 0, 0⟩ }) (tOn .vehicle))), by dsimp only; decide +kernel⟩,
   ⟨tOn .vehicle, by decide +kernel⟩,
   ⟨tOn .vehicle, by dsimp only; decide +kernel⟩,
   ⟨onTail (fun x => { x with period := some (OpenPeriod.fresh 0xFFFFFE 100 200 false), clock := { Clock.reset with wall := 199 } }) (tOn .vehicle), OpenPeriod.fresh 0xFFFFFE 100 200 false, by dsimp only; decide +kernel⟩,
   ⟨onTail (fun x => { x with period := some (OpenPeriod.fresh 0xFFFFFE 100 200 false), clock := { Clock.reset with wall := 200 } }) (tOn .vehicle), OpenPeriod.fresh 0xFFFFFE 100 200 false, by dsimp only; decide +kernel⟩,
   ⟨onBoot (fun x => { x with phase := .stopped }) (tOn .vehicle), by decide +kernel⟩,
   ⟨onTail (fun x => { x with ride := some ⟨7, RideFlags.none, 1, [], ⟨0, 0, 0, 0, 0, 3, 0⟩, 0, [], 0, none⟩ }) (tOn .vehicle), ⟨7, RideFlags.none, 1, [], ⟨0, 0, 0, 0, 0, 3, 0⟩, 0, [], 0, none⟩, by dsimp only; decide +kernel⟩,
   ⟨tOn .vehicle, by decide +kernel⟩,
   ⟨onTail (fun x => { x with ride := some ⟨7, RideFlags.none, 1, [], ⟨0, 0, 0, 0, 0, 3, 0⟩, 0, [], 0, none⟩ }) (tOn .vehicle), by decide +kernel⟩,
   ⟨tOn .vehicle, StoreEnv.good, by dsimp only; decide +kernel⟩,
   ⟨onTail (fun x => { x with clock := { Clock.reset with cls := 4 }, class4Age := 86400 }) (tOn .vehicle), by decide +kernel⟩,
   ⟨tOn .vehicle, by decide +kernel⟩⟩

/-- The hypotheses of EditionCommands are met. -/
theorem witness_EditionCommands :
    (∃ (s : State) (q : CmdReq), let ok (cmd : Nat) : Prop := s.accepts cmd q = true ∧ s.cus.cut = none; ok 0x0201 ∧ s.heldDomain (octetAt q.payload 0).toNat = none) ∧
    (∃ (s : State) (q : CmdReq) (d : EdDomain) (p : Part), let ok (cmd : Nat) : Prop := s.accepts cmd q = true ∧ s.cus.cut = none; ok 0x0201 ∧ s.heldDomain (octetAt q.payload 0).toNat = some d ∧ partAt q.payload 0 = some p ∧ p.offset = 0 ∧ p.last = false ∧ p.chunk.length ≤ p.total) ∧
    (∃ (s : State) (q : CmdReq) (d : EdDomain) (p : Part), let ok (cmd : Nat) : Prop := s.accepts cmd q = true ∧ s.cus.cut = none; ok 0x0201 ∧ s.heldDomain (octetAt q.payload 0).toNat = some d ∧ partAt q.payload 0 = some p ∧ p.offset = 0 ∧ p.last = true ∧ p.chunk.length = p.total ∧ recordRange d s.boot.role p.chunk = true) ∧
    (∃ (s : State) (q : CmdReq) (d : EdDomain) (p : Part) (key : List Octet), let ok (cmd : Nat) : Prop := s.accepts cmd q = true ∧ s.cus.cut = none; let room (f : Custody → Custody) : Prop := (s.cus.writing (f s.cus) []).isSome = true; let x := s.slot d; let r := edRecordOf key p.chunk; let st := if ecdsaVerify key (sha256 (packWords (signedWords d p.chunk))) (wordsToOctets 64 r.signature) = false then 0x12 else if r.number ≤ x.highest then 0x14 else if s.cus.store.full r.pages then 0x15 else 0; ok 0x0201 ∧ s.heldDomain (octetAt q.payload 0).toNat = some d ∧ partAt q.payload 0 = some p ∧ p.offset = 0 ∧ p.last = true ∧ p.chunk.length = p.total ∧ recordRange d s.boot.role p.chunk = false ∧ s.cus.keys.config = some key ∧ (st = 0 → room (fun c => c.setSlot d (fun y => { y with staged := some r })))) ∧
    (∃ (s : State) (q : CmdReq) (d : EdDomain), let ok (cmd : Nat) : Prop := s.accepts cmd q = true ∧ s.cus.cut = none; let room (f : Custody → Custody) : Prop := (s.cus.writing (f s.cus) []).isSome = true; let x := s.slot d; ok 0x0202 ∧ s.heldDomain (octetAt q.payload 0).toNat = some d ∧ x.staged.isSome = true ∧ room (fun c => c.setSlot d (fun y => { y with staged := none }))) ∧
    (∃ (s : State) (q : CmdReq) (d : EdDomain), let ok (cmd : Nat) : Prop := s.accepts cmd q = true ∧ s.cus.cut = none; let x := s.slot d; ok 0x0202 ∧ s.heldDomain (octetAt q.payload 0).toNat = some d ∧ x.staged = none) ∧
    (∃ (s : State) (q : CmdReq), s.accepts 0x0203 q = true) ∧
    (∃ (s : State) (q : CmdReq), let ok (cmd : Nat) : Prop := s.accepts cmd q = true ∧ s.cus.cut = none; let shut : Prop := s.cus.presence.windowOpen = false ∧ s.cus.presence.jumperFitted = false; ok 0x0204 ∧ shut) ∧
    (∃ (s : State) (q : CmdReq), let ok (cmd : Nat) : Prop := s.accepts cmd q = true ∧ s.cus.cut = none; let open1 : Prop := s.cus.presence.windowOpen = true ∧ s.cel.lfo = .good; let m : BitVec 5 := BitVec.ofNat 5 (octetAt q.payload 0).toNat; ok 0x0204 ∧ open1 ∧ octetAt q.payload 1 = 0 ∧ m = 0) ∧
    (∃ (s : State) (q : CmdReq), let ok (cmd : Nat) : Prop := s.accepts cmd q = true ∧ s.cus.cut = none; let open1 : Prop := s.cus.presence.windowOpen = true ∧ s.cel.lfo = .good; let m : BitVec 5 := BitVec.ofNat 5 (octetAt q.payload 0).toNat; let held : Prop := ∀ i : Fin 5, m.getLsbD i = true → domHeld ([EdDomain.vehicle, .fleet, .tariff, .grants, .teasel].get i) s.boot.role = true; ok 0x0204 ∧ open1 ∧ octetAt q.payload 1 = 0 ∧ m ≠ 0 ∧ held ∧ (∃ i : Fin 5, m.getLsbD i = true ∧ (s.cus.slots.get i).staged = none)) ∧
    (∃ (s : State) (q : CmdReq), let ok (cmd : Nat) : Prop := s.accepts cmd q = true ∧ s.cus.cut = none; let open1 : Prop := s.cus.presence.windowOpen = true ∧ s.cel.lfo = .good; let m : BitVec 5 := BitVec.ofNat 5 (octetAt q.payload 0).toNat; let held : Prop := ∀ i : Fin 5, m.getLsbD i = true → domHeld ([EdDomain.vehicle, .fleet, .tariff, .grants, .teasel].get i) s.boot.role = true; ok 0x0204 ∧ open1 ∧ octetAt q.payload 1 = 0 ∧ m ≠ 0 ∧ held ∧ (∀ i : Fin 5, m.getLsbD i = true → (s.cus.slots.get i).staged.isSome = true) ∧ s.led.cur.ride.isSome = true) ∧
    (∃ (s : State) (q : CmdReq), let ok (cmd : Nat) : Prop := s.accepts cmd q = true ∧ s.cus.cut = none; let open1 : Prop := s.cus.presence.windowOpen = true ∧ s.cel.lfo = .good; let m : BitVec 5 := BitVec.ofNat 5 (octetAt q.payload 0).toNat; let held : Prop := ∀ i : Fin 5, m.getLsbD i = true → domHeld ([EdDomain.vehicle, .fleet, .tariff, .grants, .teasel].get i) s.boot.role = true; ok 0x0204 ∧ open1 ∧ octetAt q.payload 1 = 0 ∧ m ≠ 0 ∧ held ∧ (∀ i : Fin 5, m.getLsbD i = true → (s.cus.slots.get i).staged.isSome = true) ∧ s.led.cur.ride = none ∧ s.cus.probation.isSome = true) ∧
    (∃ (s : State) (q : CmdReq) (e : StoreEnv), let ok (cmd : Nat) : Prop := s.accepts cmd q = true ∧ s.cus.cut = none; let open1 : Prop := s.cus.presence.windowOpen = true ∧ s.cel.lfo = .good; let m : BitVec 5 := BitVec.ofNat 5 (octetAt q.payload 0).toNat; let held : Prop := ∀ i : Fin 5, m.getLsbD i = true → domHeld ([EdDomain.vehicle, .fleet, .tariff, .grants, .teasel].get i) s.boot.role = true; let after := s.writeMap .done (fun c => c.commit m false s.led.cur.clock.era s.led.cur.clock.seconds); ok 0x0204 ∧ open1 ∧ octetAt q.payload 1 = 0 ∧ m ≠ 0 ∧ held ∧ (∀ i : Fin 5, m.getLsbD i = true → (s.cus.slots.get i).staged.isSome = true) ∧ s.led.cur.ride = none ∧ s.cus.probation = none ∧ e.write = .done ∧ e.changed = [] ∧ after.2 = true) ∧
    (∃ (s : State) (q : CmdReq), let ok (cmd : Nat) : Prop := s.accepts cmd q = true ∧ s.cus.cut = none; let shut : Prop := s.cus.presence.windowOpen = false ∧ s.cus.presence.jumperFitted = false; ok 0x0205 ∧ shut) ∧
    (∃ (s : State) (q : CmdReq), let ok (cmd : Nat) : Prop := s.accepts cmd q = true ∧ s.cus.cut = none; let open1 : Prop := s.cus.presence.windowOpen = true ∧ s.cel.lfo = .good; let m : BitVec 5 := BitVec.ofNat 5 (octetAt q.payload 0).toNat; let held : Prop := ∀ i : Fin 5, m.getLsbD i = true → domHeld ([EdDomain.vehicle, .fleet, .tariff, .grants, .teasel].get i) s.boot.role = true; ok 0x0205 ∧ open1 ∧ octetAt q.payload 1 = 0 ∧ m ≠ 0 ∧ held ∧ s.led.cur.ride.isSome = true) ∧
    (∃ (s : State) (q : CmdReq) (e : StoreEnv), let ok (cmd : Nat) : Prop := s.accepts cmd q = true ∧ s.cus.cut = none; let room (f : Custody → Custody) : Prop := (s.cus.writing (f s.cus) []).isSome = true; let open1 : Prop := s.cus.presence.windowOpen = true ∧ s.cel.lfo = .good; let m : BitVec 5 := BitVec.ofNat 5 (octetAt q.payload 0).toNat; let held : Prop := ∀ i : Fin 5, m.getLsbD i = true → domHeld ([EdDomain.vehicle, .fleet, .tariff, .grants, .teasel].get i) s.boot.role = true; ok 0x0205 ∧ open1 ∧ octetAt q.payload 1 = 0 ∧ m ≠ 0 ∧ held ∧ s.led.cur.ride = none ∧ e.write = .done ∧ room (fun c => c.rollBack m false)) ∧
    (∃ (s : State) (q : CmdReq), let ok (cmd : Nat) : Prop := s.accepts cmd q = true ∧ s.cus.cut = none; let open1 : Prop := s.cus.presence.windowOpen = true ∧ s.cel.lfo = .good; ok 0x0206 ∧ open1 ∧ s.cus.probation = none) ∧
    (∃ (s : State) (q : CmdReq), let ok (cmd : Nat) : Prop := s.accepts cmd q = true ∧ s.cus.cut = none; let open1 : Prop := s.cus.presence.windowOpen = true ∧ s.cel.lfo = .good; ok 0x0206 ∧ open1 ∧ s.cus.probation.map (·.failed) = some true) ∧
    (∃ (s : State) (q : CmdReq), let ok (cmd : Nat) : Prop := s.accepts cmd q = true ∧ s.cus.cut = none; let room (f : Custody → Custody) : Prop := (s.cus.writing (f s.cus) []).isSome = true; let open1 : Prop := s.cus.presence.windowOpen = true ∧ s.cel.lfo = .good; ok 0x0206 ∧ open1 ∧ s.cus.probation.map (·.failed) = some false ∧ room (fun c => { c with probation := none })) ∧
    (∃ (s : State) (q : CmdReq), let ok (cmd : Nat) : Prop := s.accepts cmd q = true ∧ s.cus.cut = none; let open1 : Prop := s.cus.presence.windowOpen = true ∧ s.cel.lfo = .good; let m : BitVec 5 := BitVec.ofNat 5 (octetAt q.payload 0).toNat; ok 0x0207 ∧ open1 ∧ m &&& ~~~s.requestMask ≠ 0) ∧
    (∃ (s : State) (q : CmdReq) (d : EdDomain), let ok (cmd : Nat) : Prop := s.accepts cmd q = true ∧ s.cus.cut = none; let room (f : Custody → Custody) : Prop := (s.cus.writing (f s.cus) []).isSome = true; let open1 : Prop := s.cus.presence.windowOpen = true ∧ s.cel.lfo = .good; let m : BitVec 5 := BitVec.ofNat 5 (octetAt q.payload 0).toNat; ok 0x0207 ∧ open1 ∧ m &&& ~~~s.requestMask = 0 ∧ room (fun c => (maskDomains m).foldl (fun c d => c.setSlot d DomainSlots.confirmed) c)) :=
  ⟨⟨tOn .pack, ⟨.hostPort, 1, [5, 0] ++ leOctets 3 2 ++ leOctets 3 0 ++ packWords [1, 2]⟩, by dsimp only; decide +kernel⟩,
   ⟨tOn .vehicle, ⟨.hostPort, 1, [1, 0] ++ leOctets 3 6 ++ leOctets 3 0 ++ packWords [1, 2]⟩, .vehicle, ⟨1, false, 6, 0, [1, 2]⟩, by dsimp only; decide +kernel⟩,
   ⟨tOn .vehicle, ⟨.hostPort, 1, [1, 1] ++ leOctets 3 2 ++ leOctets 3 0 ++ packWords [1, 2]⟩, .vehicle, ⟨1, true, 2, 0, [1, 2]⟩, by dsimp only; decide +kernel⟩,
   ⟨onCus (fun x => { x with keys := { Keys.reset with config := some tPoint } }) (onPres (fun x => { x with windowOpen := true }) (tOn .vehicle)), ⟨.hostPort, 1, [5, 1] ++ leOctets 3 tEdition.length ++ leOctets 3 0 ++ packWords tEdition⟩, .teasel, ⟨5, true, 68, 0, tEdition⟩, tPoint, by dsimp only; decide +kernel⟩,
   ⟨onCus (fun x => { x with slots := Vector.replicate 5 { DomainSlots.reset with staged := some ⟨5, false, [], [], []⟩ } }) (tOn .vehicle), ⟨.hostPort, 1, [1]⟩, .vehicle, by dsimp only; decide +kernel⟩,
   ⟨tOn .vehicle, ⟨.hostPort, 1, [1]⟩, .vehicle, by dsimp only; decide +kernel⟩,
   ⟨tOn .vehicle, ⟨.hostPort, 1, []⟩, by decide +kernel⟩,
   ⟨tOn .vehicle, ⟨.hostPort, 1, [31, 0]⟩, by dsimp only; decide +kernel⟩,
   ⟨onPres (fun x => { x with windowOpen := true }) (tOn .vehicle), ⟨.hostPort, 1, [0, 0]⟩, by dsimp only; decide +kernel⟩,
   ⟨onPres (fun x => { x with windowOpen := true }) (tOn .vehicle), ⟨.hostPort, 1, [31, 0]⟩, by dsimp only; decide +kernel⟩,
   ⟨onTail (fun x => { x with ride := some ⟨7, RideFlags.none, 1, [], ⟨0, 0, 0, 0, 0, 3, 0⟩, 0, [], 0, none⟩ }) (onCus (fun x => { x with slots := Vector.replicate 5 { DomainSlots.reset with staged := some ⟨5, false, [], [], []⟩ } }) (onPres (fun x => { x with windowOpen := true }) (tOn .vehicle))), ⟨.hostPort, 1, [31, 0]⟩, by dsimp only; decide +kernel⟩,
   ⟨onCus (fun x => { x with probation := some ⟨Vector.replicate 5 true, false, true, 0, 0, 0, 0⟩ }) (onCus (fun x => { x with slots := Vector.replicate 5 { DomainSlots.reset with staged := some ⟨5, false, [], [], []⟩ } }) (onPres (fun x => { x with windowOpen := true }) (tOn .vehicle))), ⟨.hostPort, 1, [31, 0]⟩, by dsimp only; decide +kernel⟩,
   ⟨onCus (fun x => { x with slots := Vector.replicate 5 { DomainSlots.reset with staged := some ⟨5, false, [], [], []⟩ } }) (onPres (fun x => { x with windowOpen := true }) (tOn .vehicle)), ⟨.hostPort, 1, [31, 0]⟩, StoreEnv.good, by dsimp only; decide +kernel⟩,
   ⟨tOn .vehicle, ⟨.hostPort, 1, [31, 0]⟩, by dsimp only; decide +kernel⟩,
   ⟨onTail (fun x => { x with ride := some ⟨7, RideFlags.none, 1, [], ⟨0, 0, 0, 0, 0, 3, 0⟩, 0, [], 0, none⟩ }) (onPres (fun x => { x with windowOpen := true }) (tOn .vehicle)), ⟨.hostPort, 1, [31, 0]⟩, by dsimp only; decide +kernel⟩,
   ⟨onPres (fun x => { x with windowOpen := true }) (tOn .vehicle), ⟨.hostPort, 1, [31, 0]⟩, StoreEnv.good, by dsimp only; decide +kernel⟩,
   ⟨onPres (fun x => { x with windowOpen := true }) (tOn .vehicle), ⟨.hostPort, 1, []⟩, by dsimp only; decide +kernel⟩,
   ⟨onCus (fun x => { x with probation := some ⟨Vector.replicate 5 true, false, true, 0, 0, 0, 0⟩ }) (onPres (fun x => { x with windowOpen := true }) (tOn .vehicle)), ⟨.hostPort, 1, []⟩, by dsimp only; decide +kernel⟩,
   ⟨onCus (fun x => { x with probation := some ⟨Vector.replicate 5 true, false, false, 0, 0, 0, 0⟩ }) (onPres (fun x => { x with windowOpen := true }) (tOn .vehicle)), ⟨.hostPort, 1, []⟩, by dsimp only; decide +kernel⟩,
   ⟨onPres (fun x => { x with windowOpen := true }) (tOn .vehicle), ⟨.hostPort, 1, [1]⟩, by dsimp only; decide +kernel⟩,
   ⟨onPres (fun x => { x with windowOpen := true }) (tOn .vehicle), ⟨.hostPort, 1, [0]⟩, .vehicle, by dsimp only; decide +kernel⟩⟩

/-- The hypotheses of KeysAndLifecycle are met. -/
theorem witness_KeysAndLifecycle :
    (∃ (s : State) (q : CmdReq), let p := s.cus.presence; let shut : Prop := p.windowOpen = false ∧ p.jumperFitted = false; let op : Nat := (octetAt q.payload 0).toNat; s.accepts 0x0209 q = true ∧ op ≤ 2 ∧ shut) ∧
    (∃ (s : State) (q : CmdReq), let p := s.cus.presence; let c2 : Prop := p.windowOpen = true ∧ p.sources.service = true ∧ p.jumperFitted = true; let op : Nat := (octetAt q.payload 0).toNat; let key (i : Nat) : List Octet := (q.payload.drop i).take 64; let life (l : Lifecycle) : Prop := s.boot.lifecycleReadable = true ∧ s.boot.lifecycle = l; s.accepts 0x0209 q = true ∧ c2 ∧ op = 0 ∧ (life .blank ∨ life .returned) ∧ ecPoint (key 1) = true ∧ ecPoint (key 65) = true ∧ ecPoint (key 129) = true) ∧
    (∃ (s : State) (q : CmdReq), let p := s.cus.presence; let c2 : Prop := p.windowOpen = true ∧ p.sources.service = true ∧ p.jumperFitted = true; let op : Nat := (octetAt q.payload 0).toNat; let life (l : Lifecycle) : Prop := s.boot.lifecycleReadable = true ∧ s.boot.lifecycle = l; s.accepts 0x0209 q = true ∧ c2 ∧ op = 0 ∧ (life .provisioned ∨ life .fielded)) ∧
    (∃ (s : State) (q : CmdReq) (old : List Octet), let p := s.cus.presence; let c2 : Prop := p.windowOpen = true ∧ p.sources.service = true ∧ p.jumperFitted = true; let op : Nat := (octetAt q.payload 0).toNat; let key (i : Nat) : List Octet := (q.payload.drop i).take 64; let life (l : Lifecycle) : Prop := s.boot.lifecycleReadable = true ∧ s.boot.lifecycle = l; s.accepts 0x0209 q = true ∧ c2 ∧ (life .provisioned ∨ life .fielded) ∧ ecPoint (key 1) = true ∧ op = 1 ∧ s.cus.keys.config = some old) ∧
    (∃ (s : State) (q : CmdReq) (old : List Octet), let p := s.cus.presence; let c2 : Prop := p.windowOpen = true ∧ p.sources.service = true ∧ p.jumperFitted = true; let op : Nat := (octetAt q.payload 0).toNat; let key (i : Nat) : List Octet := (q.payload.drop i).take 64; let life (l : Lifecycle) : Prop := s.boot.lifecycleReadable = true ∧ s.boot.lifecycle = l; s.accepts 0x0209 q = true ∧ c2 ∧ (life .provisioned ∨ life .fielded) ∧ ecPoint (key 1) = true ∧ op = 2 ∧ s.cus.keys.image = some old) ∧
    (∃ (s : State) (q : CmdReq), let ok : Prop := s.accepts 0x020A q = true ∧ s.cus.cut = none; let p := s.cus.presence; let shut : Prop := p.windowOpen = false ∧ p.jumperFitted = false; ok ∧ shut) ∧
    (∃ (s : State) (q : CmdReq), let ok : Prop := s.accepts 0x020A q = true ∧ s.cus.cut = none; let p := s.cus.presence; let c2 : Prop := p.windowOpen = true ∧ p.sources.service = true ∧ p.jumperFitted = true; let op : Nat := (octetAt q.payload 0).toNat; ok ∧ c2 ∧ (op = 0 ∨ 3 < op)) ∧
    (∃ (s : State) (q : CmdReq), let ok : Prop := s.accepts 0x020A q = true ∧ s.cus.cut = none; let p := s.cus.presence; let c2 : Prop := p.windowOpen = true ∧ p.sources.service = true ∧ p.jumperFitted = true; let op : Nat := (octetAt q.payload 0).toNat; let life (l : Lifecycle) : Prop := s.boot.lifecycleReadable = true ∧ s.boot.lifecycle = l; ok ∧ c2 ∧ op = 1 ∧ life .blank ∧ s.cus.keys.complete = true ∧ s.led.epoch < 4095) ∧
    (∃ (s : State) (q : CmdReq), let ok : Prop := s.accepts 0x020A q = true ∧ s.cus.cut = none; let p := s.cus.presence; let c2 : Prop := p.windowOpen = true ∧ p.sources.service = true ∧ p.jumperFitted = true; let op : Nat := (octetAt q.payload 0).toNat; let life (l : Lifecycle) : Prop := s.boot.lifecycleReadable = true ∧ s.boot.lifecycle = l; ok ∧ c2 ∧ op = 1 ∧ life .blank ∧ s.cus.keys.complete = false) ∧
    (∃ (s : State) (q : CmdReq), let ok : Prop := s.accepts 0x020A q = true ∧ s.cus.cut = none; let p := s.cus.presence; let c2 : Prop := p.windowOpen = true ∧ p.sources.service = true ∧ p.jumperFitted = true; let op : Nat := (octetAt q.payload 0).toNat; let life (l : Lifecycle) : Prop := s.boot.lifecycleReadable = true ∧ s.boot.lifecycle = l; ok ∧ c2 ∧ op = 2 ∧ life .provisioned) ∧
    (∃ (s : State) (q : CmdReq) (w : RingWrite), let ok : Prop := s.accepts 0x020A q = true ∧ s.cus.cut = none; let emptied := s.cus.writing { s.cus with slots := s.cus.slots.map DomainSlots.emptied, probation := none, keys := s.cus.keys.zeroised } []; let p := s.cus.presence; let c2 : Prop := p.windowOpen = true ∧ p.sources.service = true ∧ p.jumperFitted = true; let op : Nat := (octetAt q.payload 0).toNat; let life (l : Lifecycle) : Prop := s.boot.lifecycleReadable = true ∧ s.boot.lifecycle = l; ok ∧ c2 ∧ op = 3 ∧ life .fielded ∧ w = .done ∧ s.cus.probation = none ∧ s.led.due = [] ∧ (∀ o ∈ s.led.cur.period, s.led.cur.clock.wall < o.stop) ∧ 600 ≤ s.led.freePages ∧ emptied.isSome = true) ∧
    (∃ (s : State) (q : CmdReq), let ok : Prop := s.accepts 0x020A q = true ∧ s.cus.cut = none; let p := s.cus.presence; let c2 : Prop := p.windowOpen = true ∧ p.sources.service = true ∧ p.jumperFitted = true; let op : Nat := (octetAt q.payload 0).toNat; let life (l : Lifecycle) : Prop := s.boot.lifecycleReadable = true ∧ s.boot.lifecycle = l; ok ∧ c2 ∧ op = 1 ∧ life .fielded) ∧
    (∃ (s : State) (q : CmdReq), let p := s.cus.presence; let c2 : Prop := p.windowOpen = true ∧ p.sources.service = true ∧ p.jumperFitted = true; s.accepts 0x020B q = true ∧ c2) ∧
    (∃ (s : State) (q : CmdReq), let p := s.cus.presence; let shut : Prop := p.windowOpen = false ∧ p.jumperFitted = false; s.accepts 0x020B q = true ∧ shut) ∧
    (∃ (s : State) (q : CmdReq), s.accepts 0x020C q = true) :=
  ⟨⟨tOn .vehicle, ⟨.hostPort, 1, [0] ++ tPoint ++ tPoint ++ tPoint ++ List.replicate 153 0⟩, by dsimp only; decide +kernel⟩,
   ⟨onPres (fun x => { x with windowOpen := true, sources := ⟨true, false, false⟩, jumperFitted := true }) (tOn .vehicle), ⟨.hostPort, 1, [0] ++ tPoint ++ tPoint ++ tPoint ++ List.replicate 153 0⟩, by dsimp only; decide +kernel⟩,
   ⟨onBoot (fun x => { x with lifecycle := .provisioned }) (onPres (fun x => { x with windowOpen := true, sources := ⟨true, false, false⟩, jumperFitted := true }) (tOn .vehicle)), ⟨.hostPort, 1, [0] ++ tPoint ++ tPoint ++ tPoint ++ List.replicate 153 0⟩, by dsimp only; decide +kernel⟩,
   ⟨onCus (fun x => { x with keys := ⟨some tPoint, some tPoint, some tPoint, some [], some 0, 0⟩ }) (onBoot (fun x => { x with lifecycle := .provisioned }) (onPres (fun x => { x with windowOpen := true, sources := ⟨true, false, false⟩, jumperFitted := true }) (tOn .vehicle))), ⟨.hostPort, 1, [1] ++ tPoint ++ List.replicate 64 0⟩, tPoint, by dsimp only; decide +kernel⟩,
   ⟨onCus (fun x => { x with keys := ⟨some tPoint, some tPoint, some tPoint, some [], some 0, 0⟩ }) (onBoot (fun x => { x with lifecycle := .provisioned }) (onPres (fun x => { x with windowOpen := true, sources := ⟨true, false, false⟩, jumperFitted := true }) (tOn .vehicle))), ⟨.hostPort, 1, [2] ++ tPoint ++ List.replicate 64 0⟩, tPoint, by dsimp only; decide +kernel⟩,
   ⟨tOn .vehicle, ⟨.hostPort, 1, [0]⟩, by dsimp only; decide +kernel⟩,
   ⟨onPres (fun x => { x with windowOpen := true, sources := ⟨true, false, false⟩, jumperFitted := true }) (tOn .vehicle), ⟨.hostPort, 1, [0]⟩, by dsimp only; decide +kernel⟩,
   ⟨onCus (fun x => { x with keys := ⟨some tPoint, some tPoint, some tPoint, some [], some 0, 0⟩ }) (onPres (fun x => { x with windowOpen := true, sources := ⟨true, false, false⟩, jumperFitted := true }) (tOn .vehicle)), ⟨.hostPort, 1, [1]⟩, by dsimp only; decide +kernel⟩,
   ⟨onPres (fun x => { x with windowOpen := true, sources := ⟨true, false, false⟩, jumperFitted := true }) (tOn .vehicle), ⟨.hostPort, 1, [1]⟩, by dsimp only; decide +kernel⟩,
   ⟨onBoot (fun x => { x with lifecycle := .provisioned }) (onPres (fun x => { x with windowOpen := true, sources := ⟨true, false, false⟩, jumperFitted := true }) (tOn .vehicle)), ⟨.hostPort, 1, [2]⟩, by dsimp only; decide +kernel⟩,
   ⟨onBoot (fun x => { x with lifecycle := .fielded }) (onPres (fun x => { x with windowOpen := true, sources := ⟨true, false, false⟩, jumperFitted := true }) (tOn .vehicle)), ⟨.hostPort, 1, [3]⟩, .done, by dsimp only; decide +kernel⟩,
   ⟨onBoot (fun x => { x with lifecycle := .fielded }) (onPres (fun x => { x with windowOpen := true, sources := ⟨true, false, false⟩, jumperFitted := true }) (tOn .vehicle)), ⟨.hostPort, 1, [1]⟩, by dsimp only; decide +kernel⟩,
   ⟨onPres (fun x => { x with windowOpen := true, sources := ⟨true, false, false⟩, jumperFitted := true }) (tOn .vehicle), ⟨.hostPort, 1, []⟩, by dsimp only; decide +kernel⟩,
   ⟨tOn .vehicle, ⟨.hostPort, 1, []⟩, by dsimp only; decide +kernel⟩,
   ⟨tOn .vehicle, ⟨.hostPort, 1, []⟩, by decide +kernel⟩⟩

/-- The hypotheses of TimeAndRideCommands are met. -/
theorem witness_TimeAndRideCommands :
    (∃ (s : State) (q : CmdReq), let c := s.led.cur.clock; let k := (octetAt q.payload 7).toNat; let idle (v : Nat) : Prop := s.led.due = [] ∧ s.led.cur.period.all (fun o => decide (v < o.stop)) = true; let go (cmd : Nat) : Prop := s.accepts cmd q = true ∧ idle c.wall ∧ s.cus.cut = none; go 0x0301 ∧ 4 < k) ∧
    (∃ (s : State) (q : CmdReq), let c := s.led.cur.clock; let k := (octetAt q.payload 7).toNat; let idle (v : Nat) : Prop := s.led.due = [] ∧ s.led.cur.period.all (fun o => decide (v < o.stop)) = true; let go (cmd : Nat) : Prop := s.accepts cmd q = true ∧ idle c.wall ∧ s.cus.cut = none; go 0x0301 ∧ k = 4 ∧ s.per.gnss.pps = none) ∧
    (∃ (s : State) (q : CmdReq), let c := s.led.cur.clock; let k := (octetAt q.payload 7).toNat; let idle (v : Nat) : Prop := s.led.due = [] ∧ s.led.cur.period.all (fun o => decide (v < o.stop)) = true; let shut : Prop := s.cus.presence.windowOpen = false ∧ s.cus.presence.jumperFitted = false; let go (cmd : Nat) : Prop := s.accepts cmd q = true ∧ idle c.wall ∧ s.cus.cut = none; go 0x0301 ∧ k ≤ 3 ∧ k < c.cls ∧ shut) ∧
    (∃ (s : State) (q : CmdReq), let c := s.led.cur.clock; let w := fieldNat q.payload 0 5; let f := fieldNat q.payload 5 2; let k := (octetAt q.payload 7).toNat; let new := w * 32768 + f; let old := c.wall * 32768 + c.wallFraction; let idle (v : Nat) : Prop := s.led.due = [] ∧ s.led.cur.period.all (fun o => decide (v < o.stop)) = true; let go (cmd : Nat) : Prop := s.accepts cmd q = true ∧ idle c.wall ∧ s.cus.cut = none; go 0x0301 ∧ k ≤ 3 ∧ c.cls ≤ k ∧ new ≤ old + 32768 ∧ old ≤ new + 32768) ∧
    (∃ (s : State) (q : CmdReq), let c := s.led.cur.clock; let w := fieldNat q.payload 0 5; let f := fieldNat q.payload 5 2; let k := (octetAt q.payload 7).toNat; let new := w * 32768 + f; let old := c.wall * 32768 + c.wallFraction; let idle (v : Nat) : Prop := s.led.due = [] ∧ s.led.cur.period.all (fun o => decide (v < o.stop)) = true; let go (cmd : Nat) : Prop := s.accepts cmd q = true ∧ idle c.wall ∧ s.cus.cut = none; go 0x0301 ∧ k ≤ 3 ∧ c.cls ≤ k ∧ old + 32768 < new ∧ f < 32768 ∧ idle w) ∧
    (∃ (s : State) (q : CmdReq), let c := s.led.cur.clock; let w := fieldNat q.payload 0 5; let f := fieldNat q.payload 5 2; let k := (octetAt q.payload 7).toNat; let new := w * 32768 + f; let old := c.wall * 32768 + c.wallFraction; let idle (v : Nat) : Prop := s.led.due = [] ∧ s.led.cur.period.all (fun o => decide (v < o.stop)) = true; let roomy : Prop := 260 ≤ s.led.freePages; let go (cmd : Nat) : Prop := s.accepts cmd q = true ∧ idle c.wall ∧ s.cus.cut = none; go 0x0301 ∧ k ≤ 3 ∧ c.cls ≤ k ∧ new + 32768 < old ∧ old ≤ new + 29491200 ∧ f < 32768 ∧ roomy) ∧
    (∃ (s : State) (q : CmdReq), let c := s.led.cur.clock; let w := fieldNat q.payload 0 5; let f := fieldNat q.payload 5 2; let k := (octetAt q.payload 7).toNat; let new := w * 32768 + f; let old := c.wall * 32768 + c.wallFraction; let idle (v : Nat) : Prop := s.led.due = [] ∧ s.led.cur.period.all (fun o => decide (v < o.stop)) = true; let shut : Prop := s.cus.presence.windowOpen = false ∧ s.cus.presence.jumperFitted = false; let go (cmd : Nat) : Prop := s.accepts cmd q = true ∧ idle c.wall ∧ s.cus.cut = none; go 0x0301 ∧ k < 3 ∧ c.cls ≤ k ∧ new + 29491200 < old ∧ shut) ∧
    (∃ (s : State) (q : CmdReq) (st : Nat), let c := s.led.cur.clock; let idle (v : Nat) : Prop := s.led.due = [] ∧ s.led.cur.period.all (fun o => decide (v < o.stop)) = true; let go (cmd : Nat) : Prop := s.accepts cmd q = true ∧ idle c.wall ∧ s.cus.cut = none; go 0x0302 ∧ s.rideRefusal = some st) ∧
    (∃ (s : State) (q : CmdReq), let c := s.led.cur.clock; let idle (v : Nat) : Prop := s.led.due = [] ∧ s.led.cur.period.all (fun o => decide (v < o.stop)) = true; let roomy : Prop := 260 ≤ s.led.freePages; let go (cmd : Nat) : Prop := s.accepts cmd q = true ∧ idle c.wall ∧ s.cus.cut = none; go 0x0302 ∧ s.rideRefusal = none ∧ roomy) ∧
    (∃ (s : State) (q : CmdReq), let c := s.led.cur.clock; let idle (v : Nat) : Prop := s.led.due = [] ∧ s.led.cur.period.all (fun o => decide (v < o.stop)) = true; let go (cmd : Nat) : Prop := s.accepts cmd q = true ∧ idle c.wall ∧ s.cus.cut = none; go 0x0303 ∧ s.led.cur.ride = none) ∧
    (∃ (s : State) (q : CmdReq) (r : OpenRide), let c := s.led.cur.clock; let idle (v : Nat) : Prop := s.led.due = [] ∧ s.led.cur.period.all (fun o => decide (v < o.stop)) = true; let roomy : Prop := 260 ≤ s.led.freePages; let go (cmd : Nat) : Prop := s.accepts cmd q = true ∧ idle c.wall ∧ s.cus.cut = none; go 0x0303 ∧ s.led.cur.ride = some r ∧ s.cus.probation = none ∧ roomy) ∧
    (∃ (s : State) (q : CmdReq), let c := s.led.cur.clock; let idle (v : Nat) : Prop := s.led.due = [] ∧ s.led.cur.period.all (fun o => decide (v < o.stop)) = true; let go (cmd : Nat) : Prop := s.accepts cmd q = true ∧ idle c.wall ∧ s.cus.cut = none; go 0x0304 ∧ s.led.cur.ride = none) ∧
    (∃ (s : State) (q : CmdReq) (r : OpenRide), let c := s.led.cur.clock; let idle (v : Nat) : Prop := s.led.due = [] ∧ s.led.cur.period.all (fun o => decide (v < o.stop)) = true; let go (cmd : Nat) : Prop := s.accepts cmd q = true ∧ idle c.wall ∧ s.cus.cut = none; go 0x0304 ∧ s.led.cur.ride = some r) ∧
    (∃ (s : State) (q : CmdReq), let c := s.led.cur.clock; let idle (v : Nat) : Prop := s.led.due = [] ∧ s.led.cur.period.all (fun o => decide (v < o.stop)) = true; let go (cmd : Nat) : Prop := s.accepts cmd q = true ∧ idle c.wall ∧ s.cus.cut = none; let found := s.led.rides.find? (fun y => y.epoch = fieldNat q.payload 0 2 && y.number = fieldNat q.payload 2 3); go 0x0305 ∧ found = none) ∧
    (∃ (s : State) (q : CmdReq) (x : RideRecord) (g : FlashFacts) (ws : List Word), let c := s.led.cur.clock; let idle (v : Nat) : Prop := s.led.due = [] ∧ s.led.cur.period.all (fun o => decide (v < o.stop)) = true; let go (cmd : Nat) : Prop := s.accepts cmd q = true ∧ idle c.wall ∧ s.cus.cut = none; let found := s.led.rides.find? (fun y => y.epoch = fieldNat q.payload 0 2 && y.number = fieldNat q.payload 2 3); let reads := (s.ringReads g x.page 256).filter (s.recordGood x.key 231); go 0x0305 ∧ found = some x ∧ reads = some ws) ∧
    (∃ (s : State) (q : CmdReq) (x : RideRecord) (g : FlashFacts), let c := s.led.cur.clock; let idle (v : Nat) : Prop := s.led.due = [] ∧ s.led.cur.period.all (fun o => decide (v < o.stop)) = true; let go (cmd : Nat) : Prop := s.accepts cmd q = true ∧ idle c.wall ∧ s.cus.cut = none; let found := s.led.rides.find? (fun y => y.epoch = fieldNat q.payload 0 2 && y.number = fieldNat q.payload 2 3); let reads := (s.ringReads g x.page 256).filter (s.recordGood x.key 231); go 0x0305 ∧ found = some x ∧ reads = none) :=
  ⟨⟨tOn .vehicle, ⟨.hostPort, 1, leOctets 5 5000 ++ leOctets 2 0 ++ [5]⟩, by dsimp only; decide +kernel⟩,
   ⟨tOn .vehicle, ⟨.hostPort, 1, leOctets 5 5000 ++ leOctets 2 0 ++ [4]⟩, by dsimp only; decide +kernel⟩,
   ⟨onTail (fun x => { x with clock := { Clock.reset with wall := 5000, cls := 2 } }) (tOn .vehicle), ⟨.hostPort, 1, leOctets 5 5000 ++ leOctets 2 0 ++ [0]⟩, by dsimp only; decide +kernel⟩,
   ⟨onTail (fun x => { x with clock := { Clock.reset with wall := 5000, cls := 0 } }) (tOn .vehicle), ⟨.hostPort, 1, leOctets 5 5000 ++ leOctets 2 0 ++ [0]⟩, by dsimp only; decide +kernel⟩,
   ⟨tOn .vehicle, ⟨.hostPort, 1, leOctets 5 5000 ++ leOctets 2 0 ++ [0]⟩, by dsimp only; decide +kernel⟩,
   ⟨onTail (fun x => { x with clock := { Clock.reset with wall := 5000, cls := 0 } }) (tOn .vehicle), ⟨.hostPort, 1, leOctets 5 4998 ++ leOctets 2 0 ++ [0]⟩, by dsimp only; decide +kernel⟩,
   ⟨onTail (fun x => { x with clock := { Clock.reset with wall := 5000, cls := 0 } }) (tOn .vehicle), ⟨.hostPort, 1, leOctets 5 4099 ++ leOctets 2 0 ++ [0]⟩, by dsimp only; decide +kernel⟩,
   ⟨tOn .vehicle, ⟨.hostPort, 1, []⟩, 0x11, by dsimp only; decide +kernel⟩,
   ⟨tG, ⟨.hostPort, 1, []⟩, ⟨by decide +kernel, by decide +kernel, by decide +kernel⟩, by
    obtain ⟨h1, h2⟩ := pages_range tG.storedTail
    unfold State.rideRefusal
    generalize (tG.storedTail.record.length + 255) / 256 = n at *
    obtain rfl | rfl | rfl | rfl : n = 1 ∨ n = 2 ∨ n = 3 ∨ n = 4 := by omega
    all_goals decide +kernel, by decide +kernel⟩,
   ⟨tOn .vehicle, ⟨.hostPort, 1, []⟩, by dsimp only; decide +kernel⟩,
   ⟨onTail (fun x => { x with ride := some ⟨7, RideFlags.none, 1, [], ⟨0, 0, 0, 0, 0, 3, 0⟩, 0, [], 0, none⟩ }) (tOn .vehicle), ⟨.hostPort, 1, []⟩, ⟨7, RideFlags.none, 1, [], ⟨0, 0, 0, 0, 0, 3, 0⟩, 0, [], 0, none⟩, by dsimp only; decide +kernel⟩,
   ⟨tOn .vehicle, ⟨.hostPort, 1, []⟩, by dsimp only; decide +kernel⟩,
   ⟨onTail (fun x => { x with ride := some ⟨7, RideFlags.none, 1, [], ⟨0, 0, 0, 0, 0, 3, 0⟩, 0, [], 0, none⟩ }) (tOn .vehicle), ⟨.hostPort, 1, []⟩, ⟨7, RideFlags.none, 1, [], ⟨0, 0, 0, 0, 0, 3, 0⟩, 0, [], 0, none⟩, by dsimp only; decide +kernel⟩,
   ⟨tOn .vehicle, ⟨.hostPort, 1, leOctets 2 0 ++ leOctets 3 7⟩, by dsimp only; decide +kernel⟩,
   ⟨tP, ⟨.hostPort, 1, leOctets 2 0 ++ leOctets 3 7⟩, tClosed, FlashFacts.sound, tPage, by
    have h : tP.ringReads FlashFacts.sound tClosed.page 256 = some tPage := tPage_reads rfl
    have k : tP.recordGood tClosed.key 231 tPage = true := tPage_good 231 (by decide +kernel)
    simp only [h, Option.filter_some, k, if_true, and_true]; decide +kernel⟩,
   ⟨onLed (fun x => { x with rides := [tClosed] }) (tOn .vehicle), ⟨.hostPort, 1, leOctets 2 0 ++ leOctets 3 7⟩, tClosed, FlashFacts.sound, by dsimp only; decide +kernel⟩⟩

/-- The hypotheses of PeriodAndConcordCommands are met. -/
theorem witness_PeriodAndConcordCommands :
    (∃ (s : State) (q : CmdReq), let c := s.led.cur.clock; let ep := fieldNat q.payload 0 2; let n := fieldNat q.payload 2 3; let go (cmd : Nat) : Prop := s.accepts cmd q = true ∧ s.led.due = [] ∧ s.led.cur.period.all (fun o => decide (c.wall < o.stop)) = true ∧ s.cus.cut = none; go 0x0306 ∧ s.led.unsealed ep n = true) ∧
    (∃ (s : State) (q : CmdReq), let c := s.led.cur.clock; let ep := fieldNat q.payload 0 2; let n := fieldNat q.payload 2 3; let go (cmd : Nat) : Prop := s.accepts cmd q = true ∧ s.led.due = [] ∧ s.led.cur.period.all (fun o => decide (c.wall < o.stop)) = true ∧ s.cus.cut = none; let find := s.led.periods.find? (fun y => y.epoch = ep && y.index = n); go 0x0306 ∧ s.led.unsealed ep n = false ∧ find = none) ∧
    (∃ (s : State) (q : CmdReq) (x : PeriodRecord) (g : FlashFacts) (ws : List Word), let c := s.led.cur.clock; let ep := fieldNat q.payload 0 2; let n := fieldNat q.payload 2 3; let go (cmd : Nat) : Prop := s.accepts cmd q = true ∧ s.led.due = [] ∧ s.led.cur.period.all (fun o => decide (c.wall < o.stop)) = true ∧ s.cus.cut = none; let find := s.led.periods.find? (fun y => y.epoch = ep && y.index = n); let reads := (s.ringReads g x.page 256).filter (s.recordGood x.key 116); go 0x0306 ∧ s.led.unsealed ep n = false ∧ find = some x ∧ reads = some ws) ∧
    (∃ (s : State) (q : CmdReq) (x : PeriodRecord) (g : FlashFacts) (ws : List Word), let c := s.led.cur.clock; let ep := fieldNat q.payload 0 2; let n := fieldNat q.payload 2 3; let go (cmd : Nat) : Prop := s.accepts cmd q = true ∧ s.led.due = [] ∧ s.led.cur.period.all (fun o => decide (c.wall < o.stop)) = true ∧ s.cus.cut = none; let find := s.led.periods.find? (fun y => y.epoch = ep && y.index = n); let reads := (s.ringReads g x.page 256).filter (s.recordGood x.key 116); let copy := (if s.jou.readable then s.journalPeriod x.epoch x.index else none).filter (s.recordGood x.key 116); go 0x0306 ∧ s.led.unsealed ep n = false ∧ find = some x ∧ reads = none ∧ copy = some ws) ∧
    (∃ (s : State) (q : CmdReq) (x : PeriodRecord) (g : FlashFacts), let c := s.led.cur.clock; let ep := fieldNat q.payload 0 2; let n := fieldNat q.payload 2 3; let go (cmd : Nat) : Prop := s.accepts cmd q = true ∧ s.led.due = [] ∧ s.led.cur.period.all (fun o => decide (c.wall < o.stop)) = true ∧ s.cus.cut = none; let find := s.led.periods.find? (fun y => y.epoch = ep && y.index = n); let reads := (s.ringReads g x.page 256).filter (s.recordGood x.key 116); let copy := (if s.jou.readable then s.journalPeriod x.epoch x.index else none).filter (s.recordGood x.key 116); go 0x0306 ∧ s.led.unsealed ep n = false ∧ find = some x ∧ reads = none ∧ copy = none) ∧
    (∃ (s : State) (q : CmdReq), let c := s.led.cur.clock; let ep := fieldNat q.payload 0 2; let n := fieldNat q.payload 2 3; let go (cmd : Nat) : Prop := s.accepts cmd q = true ∧ s.led.due = [] ∧ s.led.cur.period.all (fun o => decide (c.wall < o.stop)) = true ∧ s.cus.cut = none; go 0x0307 ∧ s.led.unsealed ep n = true) ∧
    (∃ (s : State) (q : CmdReq), let c := s.led.cur.clock; let ep := fieldNat q.payload 0 2; let n := fieldNat q.payload 2 3; let go (cmd : Nat) : Prop := s.accepts cmd q = true ∧ s.led.due = [] ∧ s.led.cur.period.all (fun o => decide (c.wall < o.stop)) = true ∧ s.cus.cut = none; let find := s.led.periods.find? (fun y => y.epoch = ep && y.index = n); go 0x0307 ∧ s.led.unsealed ep n = false ∧ find = none) ∧
    (∃ (s : State) (q : CmdReq) (x : PeriodRecord), let c := s.led.cur.clock; let ep := fieldNat q.payload 0 2; let n := fieldNat q.payload 2 3; let roomy : Prop := 260 ≤ s.led.freePages; let go (cmd : Nat) : Prop := s.accepts cmd q = true ∧ s.led.due = [] ∧ s.led.cur.period.all (fun o => decide (c.wall < o.stop)) = true ∧ s.cus.cut = none; let find := s.led.periods.find? (fun y => y.epoch = ep && y.index = n); go 0x0307 ∧ s.led.unsealed ep n = false ∧ find = some x ∧ roomy) ∧
    (∃ (s : State) (q : CmdReq), let c := s.led.cur.clock; let pr := s.cus.presence; let shut : Prop := pr.windowOpen = false ∧ pr.jumperFitted = false; let go (cmd : Nat) : Prop := s.accepts cmd q = true ∧ s.led.due = [] ∧ s.led.cur.period.all (fun o => decide (c.wall < o.stop)) = true ∧ s.cus.cut = none; go 0x0308 ∧ shut ∧ (s.boot.lifecycleReadable = false ∨ s.boot.lifecycle ≠ .blank)) ∧
    (∃ (s : State) (q : CmdReq), let c := s.led.cur.clock; let pr := s.cus.presence; let c2 : Prop := pr.windowOpen = true ∧ pr.sources.service = true ∧ pr.jumperFitted = true; let go (cmd : Nat) : Prop := s.accepts cmd q = true ∧ s.led.due = [] ∧ s.led.cur.period.all (fun o => decide (c.wall < o.stop)) = true ∧ s.cus.cut = none; go 0x0308 ∧ c2 ∧ s.led.cur.ride.isSome = true) ∧
    (∃ (s : State) (q : CmdReq), let c := s.led.cur.clock; let pr := s.cus.presence; let c2 : Prop := pr.windowOpen = true ∧ pr.sources.service = true ∧ pr.jumperFitted = true; let roomy : Prop := 260 ≤ s.led.freePages; let go (cmd : Nat) : Prop := s.accepts cmd q = true ∧ s.led.due = [] ∧ s.led.cur.period.all (fun o => decide (c.wall < o.stop)) = true ∧ s.cus.cut = none; let life (l : Lifecycle) : Prop := s.boot.lifecycleReadable = true ∧ s.boot.lifecycle = l; go 0x0308 ∧ c2 ∧ s.led.cur.ride = none ∧ (life .provisioned ∨ life .fielded) ∧ s.led.epoch < 4095 ∧ roomy) ∧
    (∃ (s : State) (q : CmdReq), let c := s.led.cur.clock; let go (cmd : Nat) : Prop := s.accepts cmd q = true ∧ s.led.due = [] ∧ s.led.cur.period.all (fun o => decide (c.wall < o.stop)) = true ∧ s.cus.cut = none; let life (l : Lifecycle) : Prop := s.boot.lifecycleReadable = true ∧ s.boot.lifecycle = l; go 0x0309 ∧ (life .blank ∨ life .fielded ∨ life .returned)) ∧
    (∃ (s : State) (q : CmdReq), let c := s.led.cur.clock; let pr := s.cus.presence; let shut : Prop := pr.windowOpen = false ∧ pr.jumperFitted = false; let go (cmd : Nat) : Prop := s.accepts cmd q = true ∧ s.led.due = [] ∧ s.led.cur.period.all (fun o => decide (c.wall < o.stop)) = true ∧ s.cus.cut = none; let life (l : Lifecycle) : Prop := s.boot.lifecycleReadable = true ∧ s.boot.lifecycle = l; go 0x0309 ∧ life .provisioned ∧ shut) ∧
    (∃ (s : State) (q : CmdReq) (cfg : List Octet) (sk : Nat), let c := s.led.cur.clock; let pr := s.cus.presence; let c2 : Prop := pr.windowOpen = true ∧ pr.sources.service = true ∧ pr.jumperFitted = true; let go (cmd : Nat) : Prop := s.accepts cmd q = true ∧ s.led.due = [] ∧ s.led.cur.period.all (fun o => decide (c.wall < o.stop)) = true ∧ s.cus.cut = none; let life (l : Lifecycle) : Prop := s.boot.lifecycleReadable = true ∧ s.boot.lifecycle = l; go 0x0309 ∧ life .provisioned ∧ c2 ∧ s.cus.keys.config = some cfg ∧ s.cus.keys.sealing = some sk) ∧
    (∃ (s : State) (q : CmdReq), let c := s.led.cur.clock; let go (cmd : Nat) : Prop := s.accepts cmd q = true ∧ s.led.due = [] ∧ s.led.cur.period.all (fun o => decide (c.wall < o.stop)) = true ∧ s.cus.cut = none; go 0x030A) ∧
    (∃ (s : State) (q : CmdReq), s.accepts 0x0401 q = true) ∧
    (∃ (s : State) (q : CmdReq), let id := fieldNat q.payload 0 5; let on := (octetAt q.payload 5).toNat; s.accepts 0x0402 q = true ∧ on = 1 ∧ s.con.phase = .member ∧ s.con.vehicle.map (·.1) = some id) ∧
    (∃ (s : State) (q : CmdReq), let id := fieldNat q.payload 0 5; let on := (octetAt q.payload 5).toNat; s.accepts 0x0402 q = true ∧ on = 1 ∧ (s.con.phase ≠ .member ∨ s.con.vehicle.map (·.1) ≠ some id)) ∧
    (∃ (s : State) (q : CmdReq), let on := (octetAt q.payload 5).toNat; s.accepts 0x0402 q = true ∧ on = 0) ∧
    (∃ (s : State) (q : CmdReq) (p : Part), let node := (octetAt q.payload 0).toNat; s.accepts 0x0403 q = true ∧ (domOfCode (octetAt q.payload 1).toNat).isSome = true ∧ partAt q.payload 1 = some p ∧ p.offset = 0 ∧ p.last = true ∧ p.chunk.length = p.total ∧ s.con.relay = none ∧ (s.member node).isSome = true) ∧
    (∃ (s : State) (q : CmdReq) (p : Part), let node := (octetAt q.payload 0).toNat; s.accepts 0x0403 q = true ∧ (domOfCode (octetAt q.payload 1).toNat).isSome = true ∧ partAt q.payload 1 = some p ∧ p.offset = 0 ∧ p.last = true ∧ p.chunk.length = p.total ∧ s.con.relay = none ∧ s.member node = none) ∧
    (∃ (s : State) (q : CmdReq) (p : Part), s.accepts 0x0403 q = true ∧ (domOfCode (octetAt q.payload 1).toNat).isSome = true ∧ partAt q.payload 1 = some p ∧ p.offset = 0 ∧ p.last = true ∧ p.chunk.length = p.total ∧ s.con.relay.isSome = true) :=
  ⟨⟨onAll (fun x => { x with fl := { x.fl with cells := tCells (ringAddr 0) tPage } }) (onCon (fun x => { x with members := [tMember] }) (onCus (fun x => { x with keys := ⟨some tPoint, some tPoint, some tPoint, some [], some 0, 0⟩ }) (onTail (fun x => { x with period := some (OpenPeriod.fresh 8 100 200 false) }) (onLed (fun x => { x with periods := [⟨0, 7, 0, [], none, false, false, false⟩] }) (onPres (fun x => { x with windowOpen := true, sources := ⟨true, false, false⟩, jumperFitted := true }) (tOn .vehicle)))))), ⟨.hostPort, 1, leOctets 2 0 ++ leOctets 3 8⟩, by dsimp only; decide +kernel⟩,
   ⟨onCon (fun x => { x with members := [tMember], relay := some ⟨.hostPort, 1⟩ }) (onAll (fun x => { x with fl := { x.fl with cells := tCells (ringAddr 0) tPage } }) (onCon (fun x => { x with phase := .member, vehicle := some (5, 9) }) (onCus (fun x => { x with keys := ⟨some tPoint, some tPoint, some tPoint, some [], some 0, 0⟩ }) (onTail (fun x => { x with ride := some ⟨7, RideFlags.none, 1, [], ⟨0, 0, 0, 0, 0, 3, 0⟩, 0, [], 0, none⟩ }) (onLed (fun x => { x with periods := [⟨0, 7, 0, [], none, false, false, false⟩] }) (onPres (fun x => { x with windowOpen := true, sources := ⟨true, false, false⟩, jumperFitted := true }) (tOn .vehicle))))))), ⟨.hostPort, 1, leOctets 2 0 ++ leOctets 3 8⟩, by dsimp only; decide +kernel⟩,
   ⟨tQ, ⟨.hostPort, 1, leOctets 2 0 ++ leOctets 3 7⟩, ⟨0, 7, 0, [], none, false, false, false⟩, FlashFacts.sound, tPage, by
    have h : tQ.ringReads FlashFacts.sound 0 256 = some tPage := tPage_reads rfl
    have k : tQ.recordGood none 116 tPage = true := tPage_good 116 (by decide +kernel)
    simp only [h, Option.filter_some, k, if_true, and_true]; decide +kernel⟩,
   ⟨tJ, ⟨.hostPort, 1, leOctets 2 0 ++ leOctets 3 7⟩, ⟨0, 7, 0, [], none, false, false, false⟩, ⟨[ringAddr 0], []⟩, tPage, by
    have h : tJ.ringReads ⟨[ringAddr 0], []⟩ 0 256 = none := by decide +kernel
    have j : (if tJ.jou.readable then tJ.journalPeriod 0 7 else none) = some tPage :=
      (show _ = some (octetsToWords (recOctets tPage)) from rfl).trans (congrArg some tPage_octets)
    have k : tJ.recordGood none 116 tPage = true := tPage_good 116 (by decide +kernel)
    simp only [h, j, Option.filter_some, Option.filter_none, k, if_true, and_true]; decide +kernel⟩,
   ⟨onCon (fun x => { x with members := [tMember], relay := some ⟨.hostPort, 1⟩ }) (onCon (fun x => { x with members := [tMember] }) (onBoot (fun x => { x with lifecycle := .provisioned }) (onTail (fun x => { x with ride := some ⟨7, RideFlags.none, 1, [], ⟨0, 0, 0, 0, 0, 3, 0⟩, 0, [], 0, none⟩ }) (onLed (fun x => { x with periods := [⟨0, 7, 0, [], none, false, false, false⟩] }) (tOn .vehicle))))), ⟨.hostPort, 1, leOctets 2 0 ++ leOctets 3 7⟩, ⟨0, 7, 0, [], none, false, false, false⟩, FlashFacts.sound, by dsimp only; decide +kernel⟩,
   ⟨onAll (fun x => { x with fl := { x.fl with cells := tCells (ringAddr 0) tPage } }) (onCon (fun x => { x with members := [tMember] }) (onCus (fun x => { x with keys := ⟨some tPoint, some tPoint, some tPoint, some [], some 0, 0⟩ }) (onTail (fun x => { x with period := some (OpenPeriod.fresh 8 100 200 false) }) (onLed (fun x => { x with periods := [⟨0, 7, 0, [], none, false, false, false⟩] }) (onPres (fun x => { x with windowOpen := true, sources := ⟨true, false, false⟩, jumperFitted := true }) (tOn .vehicle)))))), ⟨.hostPort, 1, leOctets 2 0 ++ leOctets 3 8⟩, by dsimp only; decide +kernel⟩,
   ⟨onCon (fun x => { x with members := [tMember], relay := some ⟨.hostPort, 1⟩ }) (onAll (fun x => { x with fl := { x.fl with cells := tCells (ringAddr 0) tPage } }) (onCon (fun x => { x with phase := .member, vehicle := some (5, 9) }) (onCus (fun x => { x with keys := ⟨some tPoint, some tPoint, some tPoint, some [], some 0, 0⟩ }) (onTail (fun x => { x with ride := some ⟨7, RideFlags.none, 1, [], ⟨0, 0, 0, 0, 0, 3, 0⟩, 0, [], 0, none⟩ }) (onLed (fun x => { x with periods := [⟨0, 7, 0, [], none, false, false, false⟩] }) (onPres (fun x => { x with windowOpen := true, sources := ⟨true, false, false⟩, jumperFitted := true }) (tOn .vehicle))))))), ⟨.hostPort, 1, leOctets 2 0 ++ leOctets 3 8⟩, by dsimp only; decide +kernel⟩,
   ⟨onJou (fun x => { x with blocks := [(5, ⟨.full, 4, [⟨77, [⟨2, false, 5, 0, 0, 0, recOctets tPage, .period 0 7⟩]⟩]⟩)], state := .ready }) (onCon (fun x => { x with phase := .member, vehicle := some (5, 9) }) (onCus (fun x => { x with keys := ⟨some tPoint, some tPoint, some tPoint, some [], some 0, 0⟩ }) (onLed (fun x => { x with periods := [⟨0, 7, 0, [], none, false, false, false⟩] }) (onPres (fun x => { x with windowOpen := true, sources := ⟨true, false, false⟩, jumperFitted := true }) (tOn .vehicle))))), ⟨.hostPort, 1, leOctets 2 0 ++ leOctets 3 7⟩, ⟨0, 7, 0, [], none, false, false, false⟩, by dsimp only; decide +kernel⟩,
   ⟨onAll (fun x => { x with fl := { x.fl with cells := tCells (ringAddr 0) tPage } }) (onBoot (fun x => { x with lifecycle := .fielded }) (onTail (fun x => { x with period := some (OpenPeriod.fresh 8 100 200 false) }) (onLed (fun x => { x with periods := [⟨0, 7, 0, [], none, false, false, false⟩] }) (tOn .pack)))), ⟨.hostPort, 1, []⟩, by dsimp only; decide +kernel⟩,
   ⟨onAll (fun x => { x with fl := { x.fl with cells := tCells (ringAddr 0) tPage } }) (onCus (fun x => { x with keys := ⟨some tPoint, some tPoint, some tPoint, some [], some 0, 0⟩ }) (onBoot (fun x => { x with lifecycle := .fielded }) (onTail (fun x => { x with ride := some ⟨7, RideFlags.none, 1, [], ⟨0, 0, 0, 0, 0, 3, 0⟩, 0, [], 0, none⟩ }) (onLed (fun x => { x with lfxLost := false }) (onPres (fun x => { x with windowOpen := true, sources := ⟨true, false, false⟩, jumperFitted := true }) (tOn .vehicle)))))), ⟨.hostPort, 1, []⟩, by dsimp only; decide +kernel⟩,
   ⟨onCon (fun x => { x with members := [tMember], relay := some ⟨.hostPort, 1⟩ }) (onJou (fun x => { x with blocks := [(5, ⟨.full, 4, [⟨77, [⟨2, false, 5, 0, 0, 0, recOctets tPage, .period 0 7⟩]⟩]⟩)], state := .ready }) (onCon (fun x => { x with phase := .member, vehicle := some (5, 9) }) (onCus (fun x => { x with keys := ⟨some tPoint, some tPoint, some tPoint, some [], some 0, 0⟩ }) (onBoot (fun x => { x with lifecycle := .fielded }) (onTail (fun x => { x with period := some (OpenPeriod.fresh 8 100 200 false) }) (onLed (fun x => { x with periods := [⟨0, 7, 0, [], none, false, false, false⟩] }) (onPres (fun x => { x with windowOpen := true, sources := ⟨true, false, false⟩, jumperFitted := true }) (tOn .dock)))))))), ⟨.hostPort, 1, []⟩, by dsimp only; decide +kernel⟩,
   ⟨onJou (fun x => { x with blocks := [(5, ⟨.full, 4, [⟨77, [⟨2, false, 5, 0, 0, 0, recOctets tPage, .period 0 7⟩]⟩]⟩)], state := .ready }) (onCus (fun x => { x with keys := ⟨some tPoint, some tPoint, some tPoint, some [], some 0, 0⟩ }) (onTail (fun x => { x with ride := some ⟨7, RideFlags.none, 1, [], ⟨0, 0, 0, 0, 0, 3, 0⟩, 0, [], 0, none⟩ }) (onLed (fun x => { x with periods := [⟨0, 7, 0, [], none, false, false, false⟩] }) (onPres (fun x => { x with windowOpen := true, sources := ⟨true, false, false⟩, jumperFitted := true }) (tOn .dock))))), ⟨.hostPort, 1, List.replicate 128 0⟩, by dsimp only; decide +kernel⟩,
   ⟨onJou (fun x => { x with blocks := [(5, ⟨.full, 4, [⟨77, [⟨2, false, 5, 0, 0, 0, recOctets tPage, .period 0 7⟩]⟩]⟩)], state := .ready }) (onCon (fun x => { x with phase := .member, vehicle := some (5, 9) }) (onBoot (fun x => { x with lifecycle := .provisioned }) (onTail (fun x => { x with ride := some ⟨7, RideFlags.none, 1, [], ⟨0, 0, 0, 0, 0, 3, 0⟩, 0, [], 0, none⟩ }) (tOn .vehicle)))), ⟨.hostPort, 1, List.replicate 128 0⟩, by dsimp only; decide +kernel⟩,
   ⟨onCon (fun x => { x with members := [tMember], relay := some ⟨.hostPort, 1⟩ }) (onAll (fun x => { x with fl := { x.fl with cells := tCells (ringAddr 0) tPage } }) (onCon (fun x => { x with phase := .member, vehicle := some (5, 9) }) (onCus (fun x => { x with keys := ⟨some tPoint, some tPoint, some tPoint, some [], some 0, 0⟩ }) (onBoot (fun x => { x with lifecycle := .provisioned }) (onTail (fun x => { x with period := some (OpenPeriod.fresh 8 100 200 false) }) (onPres (fun x => { x with windowOpen := true, sources := ⟨true, false, false⟩, jumperFitted := true }) (tOn .pack))))))), ⟨.hostPort, 1, List.replicate 128 0⟩, tPoint, 0, by dsimp only; decide +kernel⟩,
   ⟨tOn .vehicle, ⟨.hostPort, 1, []⟩, by dsimp only; decide +kernel⟩,
   ⟨tOn .vehicle, ⟨.hostPort, 1, []⟩, by decide +kernel⟩,
   ⟨onJou (fun x => { x with blocks := [(5, ⟨.full, 4, [⟨77, [⟨2, false, 5, 0, 0, 0, recOctets tPage, .period 0 7⟩]⟩]⟩)], state := .ready }) (onCon (fun x => { x with phase := .member, vehicle := some (5, 9) }) (onTail (fun x => { x with ride := some ⟨7, RideFlags.none, 1, [], ⟨0, 0, 0, 0, 0, 3, 0⟩, 0, [], 0, none⟩ }) (onLed (fun x => { x with periods := [⟨0, 7, 0, [], none, false, false, false⟩] }) (onPres (fun x => { x with windowOpen := true, sources := ⟨true, false, false⟩, jumperFitted := true }) (tOn .dock))))), ⟨.hostPort, 1, leOctets 5 5 ++ [1]⟩, by dsimp only; decide +kernel⟩,
   ⟨onLed (fun x => { x with lfxLost := false }) (onPres (fun x => { x with windowOpen := true, sources := ⟨true, false, false⟩, jumperFitted := true }) (tOn .dock)), ⟨.hostPort, 1, leOctets 5 5 ++ [1]⟩, by dsimp only; decide +kernel⟩,
   ⟨onCon (fun x => { x with members := [tMember], relay := some ⟨.hostPort, 1⟩ }) (onAll (fun x => { x with fl := { x.fl with cells := tCells (ringAddr 0) tPage } }) (onCon (fun x => { x with members := [tMember] }) (onCus (fun x => { x with keys := ⟨some tPoint, some tPoint, some tPoint, some [], some 0, 0⟩ }) (onLed (fun x => { x with periods := [⟨0, 7, 0, [], none, false, false, false⟩] }) (onPres (fun x => { x with windowOpen := true, sources := ⟨true, false, false⟩, jumperFitted := true }) (tOn .dock)))))), ⟨.hostPort, 1, leOctets 5 5 ++ [0]⟩, by dsimp only; decide +kernel⟩,
   ⟨onCon (fun x => { x with members := [tMember] }) (onCus (fun x => { x with keys := ⟨some tPoint, some tPoint, some tPoint, some [], some 0, 0⟩ }) (onTail (fun x => { x with ride := some ⟨7, RideFlags.none, 1, [], ⟨0, 0, 0, 0, 0, 3, 0⟩, 0, [], 0, none⟩ }) (onPres (fun x => { x with windowOpen := true, sources := ⟨true, false, false⟩, jumperFitted := true }) (tOn .vehicle)))), ⟨.hostPort, 1, [1, 1, 1] ++ leOctets 3 2 ++ leOctets 3 0 ++ packWords [1, 2]⟩, ⟨1, true, 2, 0, [1, 2]⟩, by dsimp only; decide +kernel⟩,
   ⟨onCon (fun x => { x with phase := .member, vehicle := some (5, 9) }) (onBoot (fun x => { x with lifecycle := .provisioned }) (onTail (fun x => { x with period := some (OpenPeriod.fresh 8 100 200 false) }) (onLed (fun x => { x with periods := [⟨0, 7, 0, [], none, false, false, false⟩] }) (tOn .vehicle)))), ⟨.hostPort, 1, [1, 1, 1] ++ leOctets 3 2 ++ leOctets 3 0 ++ packWords [1, 2]⟩, ⟨1, true, 2, 0, [1, 2]⟩, by dsimp only; decide +kernel⟩,
   ⟨onCon (fun x => { x with members := [tMember], relay := some ⟨.hostPort, 1⟩ }) (onJou (fun x => { x with blocks := [(5, ⟨.full, 4, [⟨77, [⟨2, false, 5, 0, 0, 0, recOctets tPage, .period 0 7⟩]⟩]⟩)], state := .ready }) (onCon (fun x => { x with members := [tMember] }) (onCus (fun x => { x with keys := ⟨some tPoint, some tPoint, some tPoint, some [], some 0, 0⟩ }) (onBoot (fun x => { x with lifecycle := .provisioned }) (onLed (fun x => { x with periods := [⟨0, 7, 0, [], none, false, false, false⟩] }) (onPres (fun x => { x with windowOpen := true, sources := ⟨true, false, false⟩, jumperFitted := true }) (tOn .vehicle))))))), ⟨.hostPort, 1, [2, 1, 1] ++ leOctets 3 2 ++ leOctets 3 0 ++ packWords [1, 2]⟩, ⟨1, true, 2, 0, [1, 2]⟩, by decide +kernel⟩⟩

/-- The hypotheses of ConcordSessions are met. -/
theorem witness_ConcordSessions :
    (∃ (s : State) (b : List Octet), let c := s.con; let a := announceOf b; let live : Prop := s.canLive = true; live ∧ b.length = 16 ∧ s.joinGuard = true ∧ a.role = .vehicle ∧ c.phase = .idle ∧ c.heard = []) ∧
    (∃ (s : State) (b : List Octet) (other : Nat × Nat), let c := s.con; let now := s.ticks; let a := announceOf b; let live : Prop := s.canLive = true; live ∧ b.length = 16 ∧ s.joinGuard = true ∧ a.role = .vehicle ∧ c.phase = .idle ∧ c.heard = [other] ∧ other.1 ≠ a.identity ∧ now < other.2 + 98304) ∧
    (∃ (s : State) (b : List Octet), let c := s.con; let a := announceOf b; let live : Prop := s.canLive = true; live ∧ b.length = 16 ∧ a.role ≠ .vehicle ∧ c.partials = []) ∧
    (∃ (s : State), let c := s.con; s.joinGuard = true ∧ c.phase = .idle ∧ c.twoVehicles = false) ∧
    (∃ (s : State) (b : List Octet), let c := s.con; let j := joinRequestOf b; let live : Prop := s.canLive = true; let veh : Prop := live ∧ s.boot.role = .vehicle; veh ∧ b.length = 237 ∧ c.serving = none ∧ s.joinRefusal j = none) ∧
    (∃ (s : State) (b : List Octet), let c := s.con; let live : Prop := s.canLive = true; let veh : Prop := live ∧ s.boot.role = .vehicle; veh ∧ b.length = 237 ∧ c.serving.isSome = true ∧ c.joinQueue.length < 3 ∧ c.partials = []) ∧
    (∃ (s : State) (b : List Octet) (v : Serving), let c := s.con; let live : Prop := s.canLive = true; let veh : Prop := live ∧ s.boot.role = .vehicle; let j1 := v.request; veh ∧ b.length = 64 ∧ c.serving = some v ∧ c.joinQueue = [] ∧ s.joinRefusal j1 = none) ∧
    (∃ (s : State) (b : List Octet), let c := s.con; let live : Prop := s.canLive = true; let veh : Prop := live ∧ s.boot.role = .vehicle; veh ∧ b.length = 64 ∧ c.serving = none ∧ c.joinQueue = [] ∧ c.partials = []) ∧
    (∃ (s : State) (b : List Octet) (o : JoinOwn), let c := s.con; let live : Prop := s.canLive = true; let joining : Prop := live ∧ s.boot.role ≠ .vehicle ∧ c.phase = .joining; joining ∧ b.length = 297 ∧ c.joining = some o ∧ c.proved = false) ∧
    (∃ (s : State) (b : List Octet), let c := s.con; let live : Prop := s.canLive = true; let joining : Prop := live ∧ s.boot.role ≠ .vehicle ∧ c.phase = .joining; joining ∧ b.length = 6 ∧ octetAt b 0 ≠ 0 ∧ fieldNat b 1 5 = Config.identity.toNat ∧ (∀ x ∈ c.session, x.gen = false)) ∧
    (∃ (s : State) (b : List Octet) (ctr : Nat) (y : Session), let c := s.con; let live : Prop := s.canLive = true; let joining : Prop := live ∧ s.boot.role ≠ .vehicle ∧ c.phase = .joining; joining ∧ b.length = 6 ∧ octetAt b 0 = 0 ∧ c.proved = true ∧ c.session = some y ∧ y.keys.length = 32 ∧ y.rx < ctr ∧ ctr < 0x100000000) ∧
    (∃ (s : State) (y : Session) (f : CanFrame), let c := s.con; let live : Prop := s.canLive = true; let joining : Prop := live ∧ s.boot.role ≠ .vehicle ∧ c.phase = .joining; joining ∧ c.proved = true ∧ c.session = some y ∧ inPlan f = true ∧ concordType f = 5 ∧ concordSrc f = 0 ∧ concordDst f = 6 ∧ concordTie f = ownTie ∧ 12 < f.data.length) ∧
    (∃ (s : State), let c := s.con; c.phase = .joining) ∧
    (∃ (s : State), let c := s.con; c.phase = .backoff) ∧
    (∃ (s : State) (b : List Octet) (ctr : Nat) (node : Nat) (m : Member), let live : Prop := s.canLive = true; let veh : Prop := live ∧ s.boot.role = .vehicle; let admitted : Prop := veh ∧ 1 ≤ node ∧ node ≤ 3 ∧ s.member node = some m ∧ m.session.keys.length = 32 ∧ m.session.rx < ctr ∧ ctr < 0x100000000; admitted ∧ b = []) ∧
    (∃ (s : State) (b : List Octet) (ctr : Nat) (y : Session), let c := s.con; let live : Prop := s.canLive = true; let member : Prop := live ∧ s.boot.role ≠ .vehicle ∧ c.phase = .member ∧ 1 ≤ c.node ∧ c.node ≤ 3 ∧ c.session = some y ∧ y.keys.length = 32 ∧ y.rx < ctr ∧ ctr < 0x100000000; member ∧ b = []) ∧
    (∃ (s : State), let c := s.con; s.boot.role ≠ .vehicle ∧ c.phase = .member) ∧
    (∃ (s : State) (b : List Octet) (ctr : Nat) (node : Nat) (m : Member), let live : Prop := s.canLive = true; let veh : Prop := live ∧ s.boot.role = .vehicle; let admitted : Prop := veh ∧ 1 ≤ node ∧ node ≤ 3 ∧ s.member node = some m ∧ m.session.keys.length = 32 ∧ m.session.rx < ctr ∧ ctr < 0x100000000; admitted ∧ b.length = 80) ∧
    (∃ (s : State) (b : List Octet) (ctr : Nat) (y : Session), let c := s.con; let live : Prop := s.canLive = true; let member : Prop := live ∧ s.boot.role ≠ .vehicle ∧ c.phase = .member ∧ 1 ≤ c.node ∧ c.node ≤ 3 ∧ c.session = some y ∧ y.keys.length = 32 ∧ y.rx < ctr ∧ ctr < 0x100000000; member ∧ b.length = 80 ∧ y.tx < 0xFFFFFFFE) ∧
    (∃ (s : State) (node : Nat) (m : Member), let now := s.ticks; let live : Prop := s.canLive = true; let veh : Prop := live ∧ s.boot.role = .vehicle; veh ∧ s.member node = some m ∧ 1 ≤ node ∧ m.session.tx < 0xFFFFFFFE ∧ m.session.rekey = .none ∧ m.session.aged now = true) ∧
    (∃ (s : State) (node : Nat) (m : Member), let live : Prop := s.canLive = true; let veh : Prop := live ∧ s.boot.role = .vehicle; veh ∧ s.member node = some m ∧ 1 ≤ node ∧ m.session.tx < 0xFFFFFFFE ∧ m.session.rekey = .retry) ∧
    (∃ (s : State) (node : Nat) (m : Member), let live : Prop := s.canLive = true; let veh : Prop := live ∧ s.boot.role = .vehicle; veh ∧ s.member node = some m ∧ 1 ≤ node ∧ (∃ q ∈ (match m.session.rekey with | .waiting n k => some (n, k) | _ => none), 0 ≤ q.1)) :=
  ⟨⟨onCus (fun x => { x with slots := Vector.replicate 5 { DomainSlots.reset with current := some ⟨5, false, List.replicate 94 2, [], []⟩ } }) (onTail (fun x => { x with clock := { Clock.reset with seconds := 100000 } }) (onBoot (fun x => { x with lifecycle := .fielded }) (onCon (fun x => { x with serving := some ⟨joinRequestOf tJoin, List.replicate 16 3, 9, List.replicate 297 5⟩, joinQueue := [joinRequestOf tJoin] }) (onCon (fun x => { x with members := [{ tMember with session := { tMember.session with rekey := .waiting 3 4 } }] }) (tOn .pack))))), ([0, 3, 3] ++ leOctets 5 5 ++ leOctets 8 77), by dsimp only; decide +kernel⟩,
   ⟨onCus (fun x => { x with slots := Vector.replicate 5 { DomainSlots.reset with current := some ⟨5, false, List.replicate 94 2, [], []⟩ } }) (onBoot (fun x => { x with lifecycle := .fielded }) (onCus (fun x => { x with keys := ⟨some tPoint, some tPoint, some tRoot, some tCert, some 0, 0⟩ }) (onCon (fun x => { x with serving := some ⟨joinRequestOf tJoin, List.replicate 16 3, 9, List.replicate 297 5⟩ }) (onCon (fun x => { x with offerQueued := true }) (onCon (fun x => { x with heard := [(6, 0)] }) (tOn .pack)))))), ([0, 3, 3] ++ leOctets 5 5 ++ leOctets 8 77), (6, 0), by dsimp only; decide +kernel⟩,
   ⟨onBoot (fun x => { x with lifecycle := .fielded }) (onCus (fun x => { x with keys := ⟨some tPoint, some tPoint, some tRoot, some tCert, some 0, 0⟩ }) (onCon (fun x => { x with members := [tMember] }) (onCon (fun x => { x with phase := .joining, joining := some ⟨List.replicate 16 2, 4, List.replicate 237 6⟩, proved := false }) (tOn .pack)))), ([1, 3, 3] ++ leOctets 5 5 ++ leOctets 8 77), by dsimp only; decide +kernel⟩,
   ⟨onBoot (fun x => { x with lifecycle := .fielded }) (tOn .pack), by dsimp only; decide +kernel⟩,
   ⟨onTail (fun x => { x with clock := { Clock.reset with seconds := 100000 } }) (onBoot (fun x => { x with lifecycle := .fielded }) (onCus (fun x => { x with keys := ⟨some tPoint, some tPoint, some tRoot, some tCert, some 0, 0⟩ }) (onCon (fun x => { x with offerQueued := true }) (onCon (fun x => { x with phase := .backoff }) (tOn .vehicle))))), tJoin, by dsimp only; decide +kernel⟩,
   ⟨onBoot (fun x => { x with lifecycle := .fielded, tier := .t1 }) (onCus (fun x => { x with keys := ⟨some tPoint, some tPoint, some tRoot, some tCert, some 0, 0⟩ }) (onCon (fun x => { x with serving := some ⟨joinRequestOf tJoin, List.replicate 16 3, 9, List.replicate 297 5⟩, joinQueue := [joinRequestOf tJoin] }) (onCon (fun x => { x with members := [tMember, { tMember with node := 3, role := .dock }] }) (onCon (fun x => { x with phase := .member, node := 1, session := some (Session.fresh (List.replicate 32 0) 0), epoch := 20, epochMisses := 1 }) (tOn .vehicle))))), List.replicate 237 0, by dsimp only; decide +kernel⟩,
   ⟨onBoot (fun x => { x with lifecycle := .fielded }) (onCus (fun x => { x with keys := ⟨some tPoint, some tPoint, some tRoot, some tCert, some 0, 0⟩ }) (onCon (fun x => { x with serving := some ⟨joinRequestOf tJoin, List.replicate 16 3, 9, List.replicate 297 5⟩ }) (onCon (fun x => { x with phase := .backoff }) (tOn .vehicle)))), List.replicate 64 0, ⟨joinRequestOf tJoin, List.replicate 16 3, 9, List.replicate 297 5⟩, by dsimp only; decide +kernel⟩,
   ⟨onBoot (fun x => { x with lifecycle := .fielded, tier := .t1 }) (onCon (fun x => { x with members := [tMember], relay := some ⟨.hostPort, 1⟩ }) (onCon (fun x => { x with heard := [(6, 0)] }) (tOn .vehicle))), List.replicate 64 0, by dsimp only; decide +kernel⟩,
   ⟨onCus (fun x => { x with slots := Vector.replicate 5 { DomainSlots.reset with current := some ⟨5, false, List.replicate 94 2, [], []⟩ } }) (onBoot (fun x => { x with lifecycle := .fielded }) (onCus (fun x => { x with keys := ⟨some tPoint, some tPoint, some tRoot, some tCert, some 0, 0⟩ }) (onCon (fun x => { x with members := [tMember], relay := some ⟨.hostPort, 1⟩ }) (onCon (fun x => { x with phase := .joining, joining := some ⟨List.replicate 16 2, 4, List.replicate 237 6⟩, proved := false }) (tOn .pack))))), List.replicate 297 0, ⟨List.replicate 16 2, 4, List.replicate 237 6⟩, by dsimp only; decide +kernel⟩,
   ⟨tI, [1] ++ leOctets 5 Config.identity.toNat, ⟨by decide +kernel, by decide +kernel, by decide +kernel⟩, rfl, by simp [octetAt], identity_read, by decide +kernel⟩,
   ⟨onCus (fun x => { x with slots := Vector.replicate 5 { DomainSlots.reset with current := some ⟨5, false, List.replicate 94 2, [], []⟩ } }) (onTail (fun x => { x with clock := { Clock.reset with seconds := 100000 } }) (onCon (fun x => { x with serving := some ⟨joinRequestOf tJoin, List.replicate 16 3, 9, List.replicate 297 5⟩ }) (onCon (fun x => { x with members := [{ tMember with session := { tMember.session with rekey := .waiting 3 4 } }] }) (onCon (fun x => { x with phase := .joining, proved := true, session := some (Session.fresh (List.replicate 32 0) 0) }) (tOn .pack))))), [0, 1, 1, 0, 0, 0], 7, Session.fresh (List.replicate 32 0) 0, by dsimp only; decide +kernel⟩,
   ⟨tV, Session.fresh (List.replicate 32 0) 0, ⟨concordId 5 0 6 ownTie, true, true, true, false, 10, List.replicate 16 0⟩, by
    obtain ⟨h1, h2, h3, h4, h5⟩ := own_frame 10 (List.replicate 16 0)
    exact ⟨⟨by decide +kernel, by decide +kernel, by decide +kernel⟩, by decide +kernel, rfl, h1, h2, h3, h4, h5, by decide⟩⟩,
   ⟨onCon (fun x => { x with phase := .joining, joining := some ⟨List.replicate 16 2, 4, List.replicate 237 6⟩, proved := false }) (tOn .vehicle), by dsimp only; decide +kernel⟩,
   ⟨onCon (fun x => { x with phase := .backoff }) (tOn .vehicle), by dsimp only; decide +kernel⟩,
   ⟨onCus (fun x => { x with slots := Vector.replicate 5 { DomainSlots.reset with current := some ⟨5, false, List.replicate 94 2, [], []⟩ } }) (onTail (fun x => { x with clock := { Clock.reset with seconds := 100000 } }) (onBoot (fun x => { x with lifecycle := .fielded, tier := .t1 }) (onCus (fun x => { x with keys := ⟨some tPoint, some tPoint, some tRoot, some tCert, some 0, 0⟩ }) (onCon (fun x => { x with members := [tMember] }) (onCon (fun x => { x with phase := .member, node := 1, session := some (Session.fresh (List.replicate 32 0) 0), epoch := 20, epochMisses := 1 }) (tOn .vehicle)))))), [], 7, 1, tMember, by dsimp only; decide +kernel⟩,
   ⟨onBoot (fun x => { x with lifecycle := .fielded }) (onCon (fun x => { x with members := [{ tMember with session := { tMember.session with rekey := .retry } }] }) (onCon (fun x => { x with phase := .member, node := 1, session := some (Session.fresh (List.replicate 32 0) 0), epoch := 20 }) (tOn .pack))), [], 7, Session.fresh (List.replicate 32 0) 0, by dsimp only; decide +kernel⟩,
   ⟨onCon (fun x => { x with phase := .member, node := 1, session := some (Session.fresh (List.replicate 32 0) 0) }) (tOn .pack), by dsimp only; decide +kernel⟩,
   ⟨onTail (fun x => { x with clock := { Clock.reset with seconds := 100000 } }) (onCon (fun x => { x with serving := some ⟨joinRequestOf tJoin, List.replicate 16 3, 9, List.replicate 297 5⟩, joinQueue := [joinRequestOf tJoin] }) (onCon (fun x => { x with members := [{ tMember with session := { tMember.session with rekey := .retry } }] }) (onCon (fun x => { x with phase := .joining, proved := true, session := some (Session.fresh (List.replicate 32 0) 0) }) (tOn .vehicle)))), List.replicate 80 0, 7, 1, { tMember with session := { tMember.session with rekey := .retry } }, by dsimp only; decide +kernel⟩,
   ⟨onCus (fun x => { x with slots := Vector.replicate 5 { DomainSlots.reset with current := some ⟨5, false, List.replicate 94 2, [], []⟩ } }) (onBoot (fun x => { x with lifecycle := .fielded }) (onCus (fun x => { x with keys := ⟨some tPoint, some tPoint, some tRoot, some tCert, some 0, 0⟩ }) (onCon (fun x => { x with members := [tMember], relay := some ⟨.hostPort, 1⟩ }) (onCon (fun x => { x with phase := .member, node := 1, session := some (Session.fresh (List.replicate 32 0) 0), epoch := 20 }) (tOn .pack))))), List.replicate 80 0, 7, Session.fresh (List.replicate 32 0) 0, by dsimp only; decide +kernel⟩,
   ⟨onTail (fun x => { x with clock := { Clock.reset with seconds := 100000 } }) (onCon (fun x => { x with members := [tMember] }) (tOn .vehicle)), 1, tMember, by dsimp only; decide +kernel⟩,
   ⟨onCon (fun x => { x with members := [{ tMember with session := { tMember.session with rekey := .retry } }] }) (tOn .vehicle), 1, { tMember with session := { tMember.session with rekey := .retry } }, by dsimp only; decide +kernel⟩,
   ⟨onCon (fun x => { x with members := [{ tMember with session := { tMember.session with rekey := .waiting 3 4 } }] }) (tOn .vehicle), 1, { tMember with session := { tMember.session with rekey := .waiting 3 4 } }, by dsimp only; decide +kernel⟩⟩

/-- The hypotheses of ConcordMessages are met. -/
theorem witness_ConcordMessages :
    (∃ (s : State) (b : List Octet) (ctr : Nat) (node : Nat) (m : Member), let live : Prop := s.canLive = true; let admitted : Prop := live ∧ s.boot.role = .vehicle ∧ 1 ≤ node ∧ node ≤ 3 ∧ s.member node = some m ∧ m.session.keys.length = 32 ∧ m.session.rx < ctr ∧ ctr < 0x100000000; let epoch := fieldNat b 0 2; let tier := (octetAt b 2).toNat; admitted ∧ b.length = 5 ∧ 3 ≤ tier ∧ epoch ≠ 0xFFFF) ∧
    (∃ (s : State) (b : List Octet) (ctr : Nat) (node : Nat) (m : Member), let live : Prop := s.canLive = true; let admitted : Prop := live ∧ s.boot.role = .vehicle ∧ 1 ≤ node ∧ node ≤ 3 ∧ s.member node = some m ∧ m.session.keys.length = 32 ∧ m.session.rx < ctr ∧ ctr < 0x100000000; let tier := (octetAt b 2).toNat; admitted ∧ b.length = 5 ∧ tier < 3) ∧
    (∃ (s : State) (b : List Octet) (ctr : Nat) (node : Nat) (m : Member), let live : Prop := s.canLive = true; let admitted : Prop := live ∧ s.boot.role = .vehicle ∧ 1 ≤ node ∧ node ≤ 3 ∧ s.member node = some m ∧ m.session.keys.length = 32 ∧ m.session.rx < ctr ∧ ctr < 0x100000000; let epoch := fieldNat b 0 2; let tier := (octetAt b 2).toNat; admitted ∧ b.length = 5 ∧ 3 ≤ tier ∧ epoch = 0xFFFF ∧ m.session.tx < 0xFFFFFFFE) ∧
    (∃ (s : State) (b : List Octet) (ctr : Nat) (y : Session), let c := s.con; let live : Prop := s.canLive = true; let member : Prop := live ∧ s.boot.role ≠ .vehicle ∧ c.phase = .member ∧ 1 ≤ c.node ∧ c.node ≤ 3 ∧ c.session = some y ∧ y.keys.length = 32 ∧ y.rx < ctr ∧ ctr < 0x100000000; let epoch := fieldNat b 0 2; member ∧ b.length = 5 ∧ epoch = c.epoch) ∧
    (∃ (s : State) (b : List Octet) (ctr : Nat) (y : Session), let c := s.con; let live : Prop := s.canLive = true; let member : Prop := live ∧ s.boot.role ≠ .vehicle ∧ c.phase = .member ∧ 1 ≤ c.node ∧ c.node ≤ 3 ∧ c.session = some y ∧ y.keys.length = 32 ∧ y.rx < ctr ∧ ctr < 0x100000000; let epoch := fieldNat b 0 2; member ∧ b.length = 5 ∧ epoch ≠ c.epoch ∧ c.epochMisses = 0) ∧
    (∃ (s : State) (b : List Octet) (ctr : Nat) (y : Session), let c := s.con; let live : Prop := s.canLive = true; let member : Prop := live ∧ s.boot.role ≠ .vehicle ∧ c.phase = .member ∧ 1 ≤ c.node ∧ c.node ≤ 3 ∧ c.session = some y ∧ y.keys.length = 32 ∧ y.rx < ctr ∧ ctr < 0x100000000; let epoch := fieldNat b 0 2; member ∧ b.length = 5 ∧ epoch ≠ c.epoch ∧ 1 ≤ c.epochMisses ∧ y.tx < 0xFFFFFFFE) ∧
    (∃ (s : State) (b : List Octet) (ctr : Nat) (y : Session), let c := s.con; let live : Prop := s.canLive = true; let member : Prop := live ∧ s.boot.role ≠ .vehicle ∧ c.phase = .member ∧ 1 ≤ c.node ∧ c.node ≤ 3 ∧ c.session = some y ∧ y.keys.length = 32 ∧ y.rx < ctr ∧ ctr < 0x100000000; member ∧ b.length % 9 = 2 ∧ b.length ≤ 3262) ∧
    (∃ (s : State) (b : List Octet) (ctr : Nat) (node : Nat) (m : Member), let live : Prop := s.canLive = true; let admitted : Prop := live ∧ s.boot.role = .vehicle ∧ 1 ≤ node ∧ node ≤ 3 ∧ s.member node = some m ∧ m.session.keys.length = 32 ∧ m.session.rx < ctr ∧ ctr < 0x100000000; let r := reportOf b; admitted ∧ node ≤ 2 ∧ b.length = 29 ∧ m.role = .pack ∧ (∀ q ∈ m.report, q.number < r.number)) ∧
    (∃ (s : State) (b : List Octet) (ctr : Nat) (node : Nat) (m : Member), let live : Prop := s.canLive = true; let admitted : Prop := live ∧ s.boot.role = .vehicle ∧ 1 ≤ node ∧ node ≤ 3 ∧ s.member node = some m ∧ m.session.keys.length = 32 ∧ m.session.rx < ctr ∧ ctr < 0x100000000; let r := reportOf b; admitted ∧ node ≤ 2 ∧ b.length = 29 ∧ (∃ q ∈ m.report, r.number ≤ q.number)) ∧
    (∃ (s : State) (y : Session), let c := s.con; let live : Prop := s.canLive = true; live ∧ s.boot.role = .pack ∧ c.phase = .member ∧ c.session = some y ∧ y.tx < 0xFFFFFFFE) ∧
    (∃ (s : State) (b : List Octet) (ctr : Nat) (y : Session), let c := s.con; let live : Prop := s.canLive = true; let member : Prop := live ∧ s.boot.role ≠ .vehicle ∧ c.phase = .member ∧ 1 ≤ c.node ∧ c.node ≤ 3 ∧ c.session = some y ∧ y.keys.length = 32 ∧ y.rx < ctr ∧ ctr < 0x100000000; member ∧ c.node ≤ 2 ∧ b = [] ∧ s.boot.role = .pack ∧ y.tx < 0xFFFFFFFE) ∧
    (∃ (s : State) (b : List Octet) (ctr : Nat) (y : Session), let c := s.con; let k := s.led.cur.clock; let live : Prop := s.canLive = true; let member : Prop := live ∧ s.boot.role ≠ .vehicle ∧ c.phase = .member ∧ 1 ≤ c.node ∧ c.node ≤ 3 ∧ c.session = some y ∧ y.keys.length = 32 ∧ y.rx < ctr ∧ ctr < 0x100000000; let cls := (octetAt b 7).toNat; member ∧ b.length = 9 ∧ cls < k.cls) ∧
    (∃ (s : State) (b : List Octet) (ctr : Nat) (dt : Nat) (y : Session), let c := s.con; let live : Prop := s.canLive = true; let member : Prop := live ∧ s.boot.role ≠ .vehicle ∧ c.phase = .member ∧ 1 ≤ c.node ∧ c.node ≤ 3 ∧ c.session = some y ∧ y.keys.length = 32 ∧ y.rx < ctr ∧ ctr < 0x100000000; member ∧ b.length = 9 ∧ 96000000 < dt) ∧
    (∃ (s : State) (b : List Octet) (ctr : Nat) (dt : Nat) (y : Session), let c := s.con; let k := s.led.cur.clock; let live : Prop := s.canLive = true; let member : Prop := live ∧ s.boot.role ≠ .vehicle ∧ c.phase = .member ∧ 1 ≤ c.node ∧ c.node ≤ 3 ∧ c.session = some y ∧ y.keys.length = 32 ∧ y.rx < ctr ∧ ctr < 0x100000000; let offered := fieldNat b 0 5 * 32768 + fieldNat b 5 2 + dt * 32768 / 96000000; let own := k.wall * 32768 + k.wallFraction; let cls := (octetAt b 7).toNat; let wins : Prop := k.cls < cls ∧ Role.ofCode (octetAt b 8).toNat = .vehicle ∧ s.led.cur.period = none ∧ s.led.due = []; member ∧ b.length = 9 ∧ dt ≤ 96000000 ∧ wins ∧ own + 32768 < offered) ∧
    (∃ (s : State) (b : List Octet) (ctr : Nat) (dt : Nat) (y : Session), let c := s.con; let k := s.led.cur.clock; let live : Prop := s.canLive = true; let member : Prop := live ∧ s.boot.role ≠ .vehicle ∧ c.phase = .member ∧ 1 ≤ c.node ∧ c.node ≤ 3 ∧ c.session = some y ∧ y.keys.length = 32 ∧ y.rx < ctr ∧ ctr < 0x100000000; let offered := fieldNat b 0 5 * 32768 + fieldNat b 5 2 + dt * 32768 / 96000000; let own := k.wall * 32768 + k.wallFraction; let cls := (octetAt b 7).toNat; let wins : Prop := k.cls < cls ∧ Role.ofCode (octetAt b 8).toNat = .vehicle ∧ s.led.cur.period = none ∧ s.led.due = []; member ∧ b.length = 9 ∧ dt ≤ 96000000 ∧ wins ∧ offered + 32768 < own) ∧
    (∃ (s : State), let c := s.con; let live : Prop := s.canLive = true; let peered : Prop := live ∧ (s.boot.role = .vehicle ∨ c.phase = .member ∧ c.session.isSome = true) ∧ (∀ x ∈ c.members, x.session.tx + c.members.length < 0xFFFFFFFE) ∧ (∀ x ∈ c.session, x.tx + 1 < 0xFFFFFFFE); peered ∧ c.offerQueued = true) ∧
    (∃ (s : State), let c := s.con; c.offerQueued = false) ∧
    (∃ (s : State) (b : List Octet) (ctr : Nat) (node : Nat) (m : Member), let live : Prop := s.canLive = true; let admitted : Prop := live ∧ s.boot.role = .vehicle ∧ 1 ≤ node ∧ node ≤ 3 ∧ s.member node = some m ∧ m.session.keys.length = 32 ∧ m.session.rx < ctr ∧ ctr < 0x100000000; admitted ∧ b.length = 18) ∧
    (∃ (s : State) (b : List Octet) (ctr : Nat) (y : Session), let c := s.con; let live : Prop := s.canLive = true; let member : Prop := live ∧ s.boot.role ≠ .vehicle ∧ c.phase = .member ∧ 1 ≤ c.node ∧ c.node ≤ 3 ∧ c.session = some y ∧ y.keys.length = 32 ∧ y.rx < ctr ∧ ctr < 0x100000000; member ∧ b.length = 16) ∧
    (∃ (s : State) (b : List Octet) (ctr : Nat) (node : Nat) (m : Member), let live : Prop := s.canLive = true; let admitted : Prop := live ∧ s.boot.role = .vehicle ∧ 1 ≤ node ∧ node ≤ 3 ∧ s.member node = some m ∧ m.session.keys.length = 32 ∧ m.session.rx < ctr ∧ ctr < 0x100000000; admitted ∧ node = 3 ∧ b.length = 5) ∧
    (∃ (s : State) (y : Session), let c := s.con; let live : Prop := s.canLive = true; live ∧ s.boot.role = .dock ∧ c.phase = .member ∧ c.session = some y ∧ y.tx < 0xFFFFFFFE) ∧
    (∃ (s : State) (b : List Octet) (ctr : Nat) (y : Session), let c := s.con; let live : Prop := s.canLive = true; let member : Prop := live ∧ s.boot.role ≠ .vehicle ∧ c.phase = .member ∧ 1 ≤ c.node ∧ c.node ≤ 3 ∧ c.session = some y ∧ y.keys.length = 32 ∧ y.rx < ctr ∧ ctr < 0x100000000; member ∧ c.node = 3 ∧ b.length % 31 = 0 ∧ b.length ≤ 3262) ∧
    (∃ (s : State) (b : List Octet) (ctr : Nat) (y : Session) (dm : EdDomain), let c := s.con; let live : Prop := s.canLive = true; let member : Prop := live ∧ s.boot.role ≠ .vehicle ∧ c.phase = .member ∧ 1 ≤ c.node ∧ c.node ≤ 3 ∧ c.session = some y ∧ y.keys.length = 32 ∧ y.rx < ctr ∧ ctr < 0x100000000; let ws := octetsToWords b; member ∧ packedLengthOk b.length = true ∧ b.length ≤ 3262 ∧ y.tx < 0xFFFFFFFE ∧ s.cus.cut = none ∧ domOfCode (wN ws 2) = some dm) ∧
    (∃ (s : State) (b : List Octet) (ctr : Nat) (y : Session), let c := s.con; let live : Prop := s.canLive = true; let member : Prop := live ∧ s.boot.role ≠ .vehicle ∧ c.phase = .member ∧ 1 ≤ c.node ∧ c.node ≤ 3 ∧ c.session = some y ∧ y.keys.length = 32 ∧ y.rx < ctr ∧ ctr < 0x100000000; let ws := octetsToWords b; member ∧ packedLengthOk b.length = true ∧ b.length ≤ 3262 ∧ y.tx < 0xFFFFFFFE ∧ s.cus.cut = none ∧ domOfCode (wN ws 2) = none) ∧
    (∃ (s : State) (b : List Octet) (ctr : Nat) (node : Nat) (m : Member), let c := s.con; let live : Prop := s.canLive = true; let admitted : Prop := live ∧ s.boot.role = .vehicle ∧ 1 ≤ node ∧ node ≤ 3 ∧ s.member node = some m ∧ m.session.keys.length = 32 ∧ m.session.rx < ctr ∧ ctr < 0x100000000; admitted ∧ b.length = 1 ∧ (c.relay).isSome = true) :=
  ⟨⟨onTail (fun x => { x with clock := { Clock.reset with cls := 2, wall := 1000 } }) (onCon (fun x => { x with members := [{ tMember with report := some ⟨9, 1, 1, 1, 1, 1, 1, 1, false, false⟩ }] }) (onCon (fun x => { x with heard := [(6, 0)] }) (tOn .vehicle))), leOctets 2 19 ++ [3, 3, 0], 7, 1, { tMember with report := some ⟨9, 1, 1, 1, 1, 1, 1, 1, false, false⟩ }, by dsimp only; decide +kernel⟩,
   ⟨onTail (fun x => { x with clock := { Clock.reset with cls := 2, wall := 1000 } }) (onCon (fun x => { x with members := [{ tMember with report := some ⟨9, 1, 1, 1, 1, 1, 1, 1, false, false⟩ }] }) (tOn .vehicle)), leOctets 2 20 ++ [2, 3, 0], 7, 1, { tMember with report := some ⟨9, 1, 1, 1, 1, 1, 1, 1, false, false⟩ }, by dsimp only; decide +kernel⟩,
   ⟨onTail (fun x => { x with clock := { Clock.reset with cls := 2 } }) (onPort (fun x => { x with chans := x.chans.set 0 ⟨.executing, true, some ⟨9, 0x0403, []⟩, 0, none, none⟩ }) (onCon (fun x => { x with members := [tMember], relay := some ⟨.hostPort, 1⟩ }) (onCon (fun x => { x with phase := .member, node := 1, session := some (Session.fresh (List.replicate 32 0) 0), epoch := 20, epochMisses := 1 }) (tOn .vehicle)))), [0xFF, 0xFF, 3, 3, 0], 7, 1, tMember, by dsimp only; decide +kernel⟩,
   ⟨onCon (fun x => { x with phase := .member, node := 1, session := some (Session.fresh (List.replicate 32 0) 0), epoch := 20, epochMisses := 1 }) (tOn .pack), leOctets 2 20 ++ [3, 3, 0], 7, Session.fresh (List.replicate 32 0) 0, by dsimp only; decide +kernel⟩,
   ⟨onCon (fun x => { x with phase := .member, node := 1, session := some (Session.fresh (List.replicate 32 0) 0) }) (tOn .pack), leOctets 2 20 ++ [3, 3, 0], 7, Session.fresh (List.replicate 32 0) 0, by dsimp only; decide +kernel⟩,
   ⟨onCon (fun x => { x with phase := .member, node := 1, session := some (Session.fresh (List.replicate 32 0) 0), epoch := 20, epochMisses := 1 }) (tOn .pack), leOctets 2 19 ++ [3, 3, 0], 7, Session.fresh (List.replicate 32 0) 0, by dsimp only; decide +kernel⟩,
   ⟨onCon (fun x => { x with phase := .member, node := 1, session := some (Session.fresh (List.replicate 32 0) 0) }) (tOn .pack), List.replicate 11 0, 7, Session.fresh (List.replicate 32 0) 0, by dsimp only; decide +kernel⟩,
   ⟨onPort (fun x => { x with chans := x.chans.set 0 ⟨.executing, true, some ⟨9, 0x0403, []⟩, 0, none, none⟩ }) (onCon (fun x => { x with members := [tMember] }) (onCon (fun x => { x with phase := .backoff }) (tOn .vehicle))), [10, 0, 0] ++ List.replicate 26 0, 7, 1, tMember, by dsimp only; decide +kernel⟩,
   ⟨onTail (fun x => { x with clock := { Clock.reset with cls := 2 } }) (onPort (fun x => { x with chans := x.chans.set 0 ⟨.executing, true, some ⟨9, 0x0403, []⟩, 0, none, none⟩ }) (onCon (fun x => { x with members := [{ tMember with report := some ⟨9, 1, 1, 1, 1, 1, 1, 1, false, false⟩ }] }) (onCon (fun x => { x with phase := .backoff }) (tOn .vehicle)))), [9, 0, 0] ++ List.replicate 26 0, 7, 1, { tMember with report := some ⟨9, 1, 1, 1, 1, 1, 1, 1, false, false⟩ }, by dsimp only; decide +kernel⟩,
   ⟨onCon (fun x => { x with phase := .member, node := 1, session := some (Session.fresh (List.replicate 32 0) 0) }) (tOn .pack), Session.fresh (List.replicate 32 0) 0, by dsimp only; decide +kernel⟩,
   ⟨onCon (fun x => { x with phase := .member, node := 1, session := some (Session.fresh (List.replicate 32 0) 0) }) (tOn .pack), [], 7, Session.fresh (List.replicate 32 0) 0, by dsimp only; decide +kernel⟩,
   ⟨onTail (fun x => { x with clock := { Clock.reset with cls := 2 } }) (onCon (fun x => { x with phase := .member, node := 1, session := some (Session.fresh (List.replicate 32 0) 0) }) (tOn .pack)), leOctets 5 5 ++ leOctets 2 0 ++ [0, 0], 7, Session.fresh (List.replicate 32 0) 0, by dsimp only; decide +kernel⟩,
   ⟨onTail (fun x => { x with clock := { Clock.reset with cls := 2, wall := 1000 } }) (onCon (fun x => { x with members := [{ tMember with session := { tMember.session with rekey := .retry } }] }) (onCon (fun x => { x with phase := .member, node := 1, session := some (Session.fresh (List.replicate 32 0) 0), epoch := 20, epochMisses := 1 }) (tOn .dock))), leOctets 5 5 ++ leOctets 2 0 ++ [0, 0], 7, 96000001, Session.fresh (List.replicate 32 0) 0, by dsimp only; decide +kernel⟩,
   ⟨onTail (fun x => { x with clock := { Clock.reset with cls := 2 } }) (onCon (fun x => { x with offerQueued := true }) (onCon (fun x => { x with phase := .member, node := 1, session := some (Session.fresh (List.replicate 32 0) 0), epoch := 20 }) (tOn .pack))), leOctets 5 5 ++ leOctets 2 0 ++ [3, 0], 7, 0, Session.fresh (List.replicate 32 0) 0, by dsimp only; decide +kernel⟩,
   ⟨onTail (fun x => { x with clock := { Clock.reset with cls := 2, wall := 1000 } }) (onCon (fun x => { x with members := [tMember, { tMember with node := 3, role := .dock }] }) (onCon (fun x => { x with phase := .member, node := 1, session := some (Session.fresh (List.replicate 32 0) 0), epoch := 20, epochMisses := 1 }) (tOn .dock))), leOctets 5 5 ++ leOctets 2 0 ++ [3, 0], 7, 0, Session.fresh (List.replicate 32 0) 0, by dsimp only; decide +kernel⟩,
   ⟨onCon (fun x => { x with offerQueued := true }) (tOn .vehicle), by dsimp only; decide +kernel⟩,
   ⟨tOn .vehicle, by dsimp only; decide +kernel⟩,
   ⟨onTail (fun x => { x with clock := { Clock.reset with cls := 2 } }) (onPort (fun x => { x with chans := x.chans.set 0 ⟨.executing, true, some ⟨9, 0x0403, []⟩, 0, none, none⟩ }) (onCon (fun x => { x with members := [tMember, { tMember with node := 3, role := .dock }] }) (onCon (fun x => { x with phase := .member, node := 1, session := some (Session.fresh (List.replicate 32 0) 0), epoch := 20, epochMisses := 1 }) (tOn .vehicle)))), List.replicate 18 0, 7, 1, tMember, by dsimp only; decide +kernel⟩,
   ⟨onCon (fun x => { x with phase := .member, node := 1, session := some (Session.fresh (List.replicate 32 0) 0) }) (tOn .pack), List.replicate 16 0, 7, Session.fresh (List.replicate 32 0) 0, by dsimp only; decide +kernel⟩,
   ⟨onCon (fun x => { x with members := [tMember, { tMember with node := 3, role := .dock }] }) (onCon (fun x => { x with phase := .joining, proved := true, session := some (Session.fresh (List.replicate 32 0) 0) }) (tOn .vehicle)), leOctets 2 20 ++ [2, 3, 0], 7, 3, { tMember with node := 3, role := .dock }, by dsimp only; decide +kernel⟩,
   ⟨onCon (fun x => { x with phase := .member, node := 1, session := some (Session.fresh (List.replicate 32 0) 0) }) (tOn .dock), Session.fresh (List.replicate 32 0) 0, by dsimp only; decide +kernel⟩,
   ⟨onCon (fun x => { x with phase := .member, node := 3, session := some (Session.fresh (List.replicate 32 0) 0) }) (tOn .pack), [], 7, Session.fresh (List.replicate 32 0) 0, by dsimp only; decide +kernel⟩,
   ⟨onCon (fun x => { x with offerQueued := true }) (onCon (fun x => { x with phase := .member, node := 1, session := some (Session.fresh (List.replicate 32 0) 0), epoch := 20 }) (tOn .pack)), [0xFF, 0xFF, 3, 3, 0], 7, Session.fresh (List.replicate 32 0) 0, .tariff, by dsimp only; decide +kernel⟩,
   ⟨onCon (fun x => { x with phase := .member, node := 1, session := some (Session.fresh (List.replicate 32 0) 0) }) (tOn .pack), List.replicate 11 0, 7, Session.fresh (List.replicate 32 0) 0, by dsimp only; decide +kernel⟩,
   ⟨onTail (fun x => { x with clock := { Clock.reset with cls := 2, wall := 1000 } }) (onPort (fun x => { x with chans := x.chans.set 0 ⟨.executing, true, some ⟨9, 0x0403, []⟩, 0, none, none⟩ }) (onCon (fun x => { x with members := [tMember], relay := some ⟨.hostPort, 1⟩ }) (tOn .vehicle))), [5], 7, 1, tMember, by dsimp only; decide +kernel⟩⟩

/-- The hypotheses of BusErrorsAndPackSamples are met. -/
theorem witness_BusErrorsAndPackSamples :
    (∃ (s : State) (n : Nat) (rsp : List (List Octet)), let c := s.con; let v := s.edition .vehicle; let x := readSample (decide ((v.getD 64 0).toNat / 8 % 2 = 1)) (descriptors v) rsp; let gap : Bool := c.partials.any (fun x => x.sender = n); gap = true) ∧
    (∃ (s : State) (n : Nat) (rsp : List (List Octet)), let c := s.con; let v := s.edition .vehicle; let x := readSample (decide ((v.getD 64 0).toNat / 8 % 2 = 1)) (descriptors v) rsp; let gap : Bool := c.partials.any (fun x => x.sender = n); gap = false) ∧
    (∃ (s : State) (f : CanFrame), let live : Prop := s.canLive = true; live ∧ inPlan f = false) ∧
    (∃ (s : State) (f : CanFrame), let live : Prop := s.canLive = true; (¬live ∨ inPlan f = true)) ∧
    (∃ (s : State) (f : CanFrame), let live : Prop := s.canLive = true; let agrees : Bool := nodesAgree (concordType f) (concordSrc f) (concordDst f); live ∧ inPlan f = true ∧ agrees = false) ∧
    (∃ (s : State) (f : CanFrame), let live : Prop := s.canLive = true; let agrees : Bool := nodesAgree (concordType f) (concordSrc f) (concordDst f); (¬live ∨ inPlan f = false ∨ agrees = true)) ∧
    (∃ (te : Nat), te < 256) ∧
    (∃ (s : State) (te : Nat), let c := s.con; 256 ≤ te ∧ c.busOff = true) ∧
    (∃ (s : State) (te : Nat), let c := s.con; 256 ≤ te ∧ c.busOff = false) ∧
    (∃ (s : State), let c := s.con; c.busOff = true ∧ c.recovering = true) ∧
    (∃ (s : State), let c := s.con; (c.busOff = false ∨ c.recovering = false)) ∧
    (∃ (s : State), s.per.canb.state = 2 ∧ s.per.canb.mode = 1) ∧
    (∃ (s : State), let c := s.con; c.fallback = true ∧ c.txErrors < 96 ∧ c.rxErrors < 96) ∧
    (∃ (s : State), let c := s.con; (c.fallback = false ∨ 96 ≤ c.txErrors ∨ 96 ≤ c.rxErrors)) ∧
    (∃ (s : State) (rsp : List (List Octet)) (u : Int) (i : Int), let v := s.edition .vehicle; let cells := (v.getD 65 0).toNat; let x := readSample (decide ((v.getD 64 0).toNat / 8 % 2 = 1)) (descriptors v) rsp; let runs : Prop := s.boot.role = .pack ∧ s.pow.pm = .running; let good : Prop := x.ok = true ∧ x.packVoltage cells = some u ∧ x.current = some i; runs ∧ good) ∧
    (∃ (s : State) (rsp : List (List Octet)), let c := s.con; let v := s.edition .vehicle; let cells := (v.getD 65 0).toNat; let x := readSample (decide ((v.getD 64 0).toNat / 8 % 2 = 1)) (descriptors v) rsp; let p := c.pack; let runs : Prop := s.boot.role = .pack ∧ s.pow.pm = .running; let bad : Prop := x.ok = false ∨ x.packVoltage cells = none ∨ x.current = none; runs ∧ bad ∧ p.savedDischarge + 50 > p.discharge ∧ p.savedCharge + 50 > p.charge) ∧
    (∃ (s : State), let runs : Prop := s.boot.role = .pack ∧ s.pow.pm = .running; ¬runs) ∧
    (∃ (s : State), let room : Prop := 260 ≤ s.led.freePages ∧ s.cus.cut = none; room ∧ s.boot.role = .pack) ∧
    (∃ (s : State), s.boot.role ≠ .pack) :=
  ⟨⟨onCon (fun x => { x with partials := [⟨7, 1, 1, false, 3, 100, [1]⟩] }) (tOn .pack), 7, [], by dsimp only; decide +kernel⟩,
   ⟨tOn .pack, 7, [], by dsimp only; decide +kernel⟩,
   ⟨tOn .pack, ⟨0x1FFFFFFF, true, true, true, false, 5, [1, 2, 3, 4, 5]⟩, by dsimp only; decide +kernel⟩,
   ⟨State.reset, ⟨concordId 5 0 6 ownTie, true, true, true, false, 5, [1, 2, 3, 4, 5]⟩, by dsimp only; decide +kernel⟩,
   ⟨tOn .pack, ⟨concordId 31 0 6 0, true, true, true, false, 5, [1, 2, 3, 4, 5]⟩, by dsimp only; decide +kernel⟩,
   ⟨State.reset, ⟨concordId 5 0 6 ownTie, true, true, true, false, 5, [1, 2, 3, 4, 5]⟩, by dsimp only; decide +kernel⟩,
   ⟨255, by decide +kernel⟩,
   ⟨onCon (fun x => { x with busOff := true }) (tOn .pack), 256, by dsimp only; decide +kernel⟩,
   ⟨tOn .pack, 256, by dsimp only; decide +kernel⟩,
   ⟨onCon (fun x => { x with busOff := true, recovering := true }) (tOn .pack), by dsimp only; decide +kernel⟩,
   ⟨tOn .pack, by dsimp only; decide +kernel⟩,
   ⟨onPer (fun x => { x with canb := { x.canb with mode := 1, state := 2 } }) (tOn .pack), by decide +kernel⟩,
   ⟨onCon (fun x => { x with fallback := true }) (tOn .pack), by dsimp only; decide +kernel⟩,
   ⟨tOn .pack, by dsimp only; decide +kernel⟩,
   ⟨onCus (fun x => { x with slots := Vector.replicate 5 { DomainSlots.reset with current := some ⟨5, false, tPackEdition, [], []⟩ } }) (tOn .pack), [[5, 0], [7, 0]], 500, 7000, by dsimp only; decide +kernel⟩,
   ⟨tOn .pack, [], by dsimp only; decide +kernel⟩,
   ⟨tOn .vehicle, by dsimp only; decide +kernel⟩,
   ⟨tOn .pack, by dsimp only; decide +kernel⟩,
   ⟨tOn .vehicle, by decide +kernel⟩⟩

/-- The hypotheses of PwmTimerAndAdc are met. -/
theorem witness_PwmTimerAndAdc :
    (∃ (s : State) (i : Fin 5) (v : Word), let p := s.mot.pwm; let low : Word := (p.staged.get i).getD ((p.shadow.value i).setWidth 12); let x : BitVec 14 := v.setWidth 2 ++ low; let bad : Prop := i = 0 ∧ (x.toNat < 1250 ∨ 10000 < x.toNat); let pw : Prop := s.portServes 0x300 = true; pw ∧ bad) ∧
    (∃ (s : State) (i : Fin 5) (v : Word), let p := s.mot.pwm; let low : Word := (p.staged.get i).getD ((p.shadow.value i).setWidth 12); let x : BitVec 14 := v.setWidth 2 ++ low; let bad : Prop := i = 0 ∧ (x.toNat < 1250 ∨ 10000 < x.toNat); let pw : Prop := s.portServes 0x300 = true; pw ∧ ¬bad) ∧
    (∃ (s : State), let pw : Prop := s.portServes 0x300 = true; ¬pw) ∧
    (∃ (s : State), let ad : Prop := s.portServes 0x400 = true; ¬ad) ∧
    (∃ (s : State), let p := s.mot.pwm; let mclk : Prop := s.domainRuns .mclk = true; (p.run = false ∨ ¬mclk)) ∧
    (∃ (s : State) (v : Word), let pw : Prop := s.portServes 0x300 = true; pw ∧ v.getLsbD 0 = false) ∧
    (∃ (s : State) (v : Word), let p := s.mot.pwm; let pw : Prop := s.portServes 0x300 = true; pw ∧ v.getLsbD 0 = true ∧ p.run = true) ∧
    (∃ (s : State) (v : Word), let p := s.mot.pwm; let pw : Prop := s.portServes 0x300 = true; pw ∧ v.getLsbD 0 = true ∧ p.run = false) ∧
    (∃ (s : State), let p := s.mot.pwm; let a := s.mot.adc; let place : Bool := [!p.dir, p.dir, true, p.dir == p.active.trg.getLsbD 3 && decide (p.active.trgc.toNat ≤ p.active.per.toNat)].getD (p.active.trg.toNat % 4) true; let mclk : Prop := s.domainRuns .mclk = true; p.run = true ∧ mclk ∧ s.domainRuns .aclk = true ∧ p.active.trg.getLsbD 2 = true ∧ place = true ∧ a.trg = 1) ∧
    (∃ (s : State), let p := s.mot.pwm; let a := s.mot.adc; let place : Bool := [!p.dir, p.dir, true, p.dir == p.active.trg.getLsbD 3 && decide (p.active.trgc.toNat ≤ p.active.per.toNat)].getD (p.active.trg.toNat % 4) true; let mclk : Prop := s.domainRuns .mclk = true; (p.run = false ∨ a.trg ≠ 1 ∨ place = false ∨ ¬mclk)) ∧
    (∃ (s : State) (v : Word), let a := s.mot.adc; let ad : Prop := s.portServes 0x400 = true; ad ∧ v.getLsbD 0 = true ∧ a.trg = 2) ∧
    (∃ (s : State) (v : Word), let a := s.mot.adc; (v.getLsbD 0 = false ∨ a.trg ≠ 2)) ∧
    (∃ (s : State) (v : Word), let ad : Prop := s.portServes 0x400 = true; ad ∧ 16 ≤ v.toNat % 32) ∧
    (∃ (s : State) (v : Word), let ad : Prop := s.portServes 0x400 = true; ad ∧ v.toNat % 32 < 12) ∧
    (∃ (s : State), s.blockLive 4 0 = false) ∧
    (∃ (s : State) (n : Nat) (last : Nat) (sq : Vector (BitVec 10) 8), let a := s.mot.adc; s.blockLive 4 0 = true ∧ a.running = some (n, last, sq) ∧ n < last) ∧
    (∃ (s : State) (r : Requester) (e : AdcEntry) (rest : List AdcEntry), let a := s.mot.adc; s.reaches r 0x403 ∧ a.fifo = e :: rest) ∧
    (∃ (s : State) (r : Requester), let a := s.mot.adc; s.reaches r 0x403 ∧ a.fifo = []) ∧
    (∃ (s : State) (r : Requester) (cnt : BitVec 14), let p := s.mot.pwm; s.reaches r 0x30F ∧ p.run = true ∧ cnt.toNat ≤ p.active.per.toNat) ∧
    (∃ (s : State) (r : Requester), s.reaches r 0x315) ∧
    (∃ (s : State) (r : Requester), ¬s.reaches r 0x403) ∧
    (∃ (s : State) (r : Requester), ¬s.reaches r 0x30F) ∧
    (∃ (s : State) (r : Requester), ¬s.reaches r 0x315) :=
  ⟨⟨tOn .vehicle, 0, 0, by dsimp only; decide +kernel⟩,
   ⟨tOn .vehicle, 1, 0, by dsimp only; decide +kernel⟩,
   ⟨onBoot (fun x => { x with units := Vector.replicate 42 .failedAtRun }) (tOn .vehicle), by dsimp only; decide +kernel⟩,
   ⟨onBoot (fun x => { x with units := Vector.replicate 42 .failedAtRun }) (tOn .vehicle), by dsimp only; decide +kernel⟩,
   ⟨tOn .vehicle, by dsimp only; decide +kernel⟩,
   ⟨tOn .vehicle, 0, by dsimp only; decide +kernel⟩,
   ⟨onPwm (fun x => { x with run := true }) (tOn .vehicle), 1, by dsimp only; decide +kernel⟩,
   ⟨tOn .vehicle, 1, by dsimp only; decide +kernel⟩,
   ⟨onAdc (fun x => { x with trg := 1 }) (onPwm (fun x => { x with run := true, active := { x.active with trg := 4 } }) (tOn .vehicle)), by dsimp only; decide +kernel⟩,
   ⟨tOn .vehicle, by dsimp only; decide +kernel⟩,
   ⟨onAdc (fun x => { x with trg := 2 }) (tOn .vehicle), 1, by dsimp only; decide +kernel⟩,
   ⟨tOn .vehicle, 0, by dsimp only; decide +kernel⟩,
   ⟨tOn .vehicle, 16, by dsimp only; decide +kernel⟩,
   ⟨tOn .vehicle, 0, by dsimp only; decide +kernel⟩,
   ⟨onClk (fun x => { x with domains := Vector.replicate 14 .failed }) (tOn .vehicle), by decide +kernel⟩,
   ⟨onAdc (fun x => { x with running := some (6, 7, Vector.replicate 8 0) }) (tOn .vehicle), 6, 7, Vector.replicate 8 0, by dsimp only; decide +kernel⟩,
   ⟨onAdc (fun x => { x with fifo := [⟨0, 1, 2⟩] }) (tOn .vehicle), .steward, ⟨0, 1, 2⟩, [], by simp only [reaches_iff]; decide +kernel⟩,
   ⟨tOn .vehicle, .steward, by simp only [reaches_iff]; decide +kernel⟩,
   ⟨onPwm (fun x => { x with run := true }) (tOn .vehicle), .steward, 0, by simp only [reaches_iff]; decide +kernel⟩,
   ⟨tOn .vehicle, .steward, by simp only [reaches_iff]; decide +kernel⟩,
   ⟨tOn .vehicle, .core 0, by simp only [reaches_iff]; decide +kernel⟩,
   ⟨tOn .vehicle, .core 0, by simp only [reaches_iff]; decide +kernel⟩,
   ⟨tOn .vehicle, .core 0, by simp only [reaches_iff]; decide +kernel⟩⟩

/-- The hypotheses of CaptureAndTeasel are met. -/
theorem witness_CaptureAndTeasel :
    (∃ (s : State), let c := s.mot.tcap; let edges : Prop := s.blockLive 5 3 = true; edges ∧ c.wha = false) ∧
    (∃ (s : State) (w : Bool), let c := s.mot.tcap; let edges : Prop := s.blockLive 5 3 = true; edges ∧ c.wha = w) ∧
    (∃ (s : State), let edges : Prop := s.blockLive 5 3 = true; ¬edges) ∧
    (∃ (s : State) (hc : BitVec 3), let c := s.mot.tcap; let edges : Prop := s.blockLive 5 3 = true; edges ∧ hc ≠ c.hall) ∧
    (∃ (s : State) (r : Requester), s.reaches r 0x500) ∧
    (∃ (s : State) (r : Requester), s.reaches r 0x507) ∧
    (∃ (s : State) (r : Requester), s.reaches r 0x509) ∧
    (∃ (s : State) (r : Requester), s.reaches r 0x50B) ∧
    (∃ (s : State) (r : Requester), s.reaches r 0x506) ∧
    (∃ (s : State) (r : Requester) (ev : CapEvent) (rest : List CapEvent), let c := s.mot.tcap; s.reaches r 0x50E ∧ c.fifo = ev :: rest) ∧
    (∃ (s : State) (r : Requester), let c := s.mot.tcap; s.reaches r 0x50E ∧ c.fifo = []) ∧
    (∃ (s : State) (n : Fin 4), let z := s.mot.tsl; let src : Fin 5 := ⟨n.val, by omega⟩; z.act.getLsbD n.val = false ∧ z.cfg.enabled src = true ∧ s.cus.probation = none ∧ s.cus.cut = none) ∧
    (∃ (s : State) (n : Fin 4), let z := s.mot.tsl; let src : Fin 5 := ⟨n.val, by omega⟩; z.act.getLsbD n.val = false ∧ z.cfg.enabled src = false ∧ s.cus.cut = none) ∧
    (∃ (s : State) (n : Fin 4), let z := s.mot.tsl; z.act.getLsbD n.val = true ∧ s.cus.cut = none) ∧
    (∃ (s : State), let z := s.mot.tsl; z.act.getLsbD 4 = false ∧ z.cfg.enabled 4 = true ∧ s.cus.probation = none ∧ s.cus.cut = none) ∧
    (∃ (s : State), let z := s.mot.tsl; z.act.getLsbD 4 = false ∧ z.cfg.enabled 4 = false ∧ s.cus.cut = none) ∧
    (∃ (s : State) (i : Fin 4), let z := s.mot.tsl; let takes : Prop := s.reaches (.core i) 0x602; takes ∧ z.sourceActive = true) ∧
    (∃ (s : State) (i : Fin 4), let z := s.mot.tsl; let takes : Prop := s.reaches (.core i) 0x602; takes ∧ z.sourceActive = false ∧ z.armWait = true) ∧
    (∃ (s : State) (i : Fin 4), let z := s.mot.tsl; let takes : Prop := s.reaches (.core i) 0x602; takes ∧ z.sourceActive = false ∧ z.armWait = false ∧ z.lock = true) ∧
    (∃ (s : State) (i : Fin 4), let z := s.mot.tsl; let healthy : Prop := 2 ≤ s.boot.tier.toNat ∧ s.supplyLow = false ∧ s.mot.mclk = true ∧ s.pow.teaselRail = true; let takes : Prop := s.reaches (.core i) 0x602; takes ∧ z.sourceActive = false ∧ z.armWait = false ∧ z.lock = false ∧ ¬healthy) ∧
    (∃ (s : State) (i : Fin 4), let z := s.mot.tsl; let healthy : Prop := 2 ≤ s.boot.tier.toNat ∧ s.supplyLow = false ∧ s.mot.mclk = true ∧ s.pow.teaselRail = true; let takes : Prop := s.reaches (.core i) 0x602; takes ∧ z.sourceActive = false ∧ z.armWait = false ∧ z.lock = false ∧ healthy ∧ z.latch = true) ∧
    (∃ (s : State) (i : Fin 4), let takes : Prop := s.reaches (.core i) 0x602; ¬takes) ∧
    (∃ (s : State), let ts : Prop := s.portServes 0x602 = true; ts) ∧
    (∃ (s : State), let ts : Prop := s.portServes 0x602 = true; ¬ts) ∧
    (∃ (s : State), let z := s.mot.tsl; z.pads = .lowSideDead) ∧
    (∃ (s : State), let z := s.mot.tsl; z.pads ≠ .lowSideDead) ∧
    (∃ (s : State), let z := s.mot.tsl; z.pads = .lowSideOn) ∧
    (∃ (s : State), let z := s.mot.tsl; (z.pads = .pwm ∨ z.pads = .allOff)) ∧
    (∃ (s : State) (r : Requester), ∀ n ∈ [0x500, 0x507, 0x509, 0x50B, 0x506, 0x50E], ¬s.reaches r n) :=
  ⟨⟨tOn .vehicle, by dsimp only; decide +kernel⟩,
   ⟨tOn .vehicle, false, by dsimp only; decide +kernel⟩,
   ⟨onClk (fun x => { x with domains := Vector.replicate 14 .failed }) (tOn .vehicle), by dsimp only; decide +kernel⟩,
   ⟨tOn .vehicle, 5, by dsimp only; decide +kernel⟩,
   ⟨onCore (fun x => { x with grants := { x.grants with blocks := 0x7FFF, routes := 15 } }) (tOn .vehicle), .core 0, by simp only [reaches_iff]; decide +kernel⟩,
   ⟨onCore (fun x => { x with grants := { x.grants with blocks := 0x7FFF, routes := 15 } }) (tOn .vehicle), .core 0, by simp only [reaches_iff]; decide +kernel⟩,
   ⟨onCore (fun x => { x with grants := { x.grants with blocks := 0x7FFF, routes := 15 } }) (tOn .vehicle), .core 0, by simp only [reaches_iff]; decide +kernel⟩,
   ⟨onCore (fun x => { x with grants := { x.grants with blocks := 0x7FFF, routes := 15 } }) (tOn .vehicle), .core 0, by simp only [reaches_iff]; decide +kernel⟩,
   ⟨onCore (fun x => { x with grants := { x.grants with blocks := 0x7FFF, routes := 15 } }) (tOn .vehicle), .core 0, by simp only [reaches_iff]; decide +kernel⟩,
   ⟨onCore (fun x => { x with grants := { x.grants with blocks := 0x7FFF, routes := 15 } }) (onCap (fun x => { x with fifo := [⟨1, 2⟩] }) (tOn .vehicle)), .core 0, ⟨1, 2⟩, [], by simp only [reaches_iff]; decide +kernel⟩,
   ⟨onCore (fun x => { x with grants := { x.grants with blocks := 0x7FFF, routes := 15 } }) (tOn .vehicle), .core 0, by simp only [reaches_iff]; decide +kernel⟩,
   ⟨onTsl (fun x => { x with cfg := { x.cfg with thr := Vector.replicate 4 0xFFF, cfg := 0xFFF } }) (tOn .vehicle), 0, by dsimp only; decide +kernel⟩,
   ⟨tOn .vehicle, 0, by dsimp only; decide +kernel⟩,
   ⟨onTsl (fun x => { x with act := 31 }) (tOn .vehicle), 0, by dsimp only; decide +kernel⟩,
   ⟨tOn .vehicle, by dsimp only; decide +kernel⟩,
   ⟨onTsl (fun x => { x with cfg := { x.cfg with cfg := 0 } }) (tOn .vehicle), by dsimp only; decide +kernel⟩,
   ⟨onCore (fun x => { x with grants := { x.grants with blocks := 0x7FFF, routes := 15 } }) (onTsl (fun x => { x with act := 31 }) (tOn .vehicle)), 0, by simp only [reaches_iff]; decide +kernel⟩,
   ⟨onCore (fun x => { x with grants := { x.grants with blocks := 0x7FFF, routes := 15 } }) (tOn .vehicle), 0, by simp only [reaches_iff]; decide +kernel⟩,
   ⟨onCore (fun x => { x with grants := { x.grants with blocks := 0x7FFF, routes := 15 } }) (onTsl (fun x => { x with armWait := false, lock := true }) (tOn .vehicle)), 0, by simp only [reaches_iff]; decide +kernel⟩,
   ⟨onCore (fun x => { x with grants := { x.grants with blocks := 0x7FFF, routes := 15 } }) (onBoot (fun x => { x with tier := .t1 }) (onTsl (fun x => { x with armWait := false }) (tOn .vehicle))), 0, by simp only [reaches_iff]; decide +kernel⟩,
   ⟨onCore (fun x => { x with grants := { x.grants with blocks := 0x7FFF, routes := 15 } }) (onTsl (fun x => { x with armWait := false }) (tOn .vehicle)), 0, by simp only [reaches_iff]; decide +kernel⟩,
   ⟨tOn .vehicle, 0, by simp only [reaches_iff]; decide +kernel⟩,
   ⟨tOn .vehicle, by dsimp only; decide +kernel⟩,
   ⟨onClk (fun x => { x with domains := Vector.replicate 14 .failed }) (tOn .vehicle), by dsimp only; decide +kernel⟩,
   ⟨onTsl (fun x => { x with pads := .lowSideDead }) (tOn .vehicle), by dsimp only; decide +kernel⟩,
   ⟨tOn .vehicle, by dsimp only; decide +kernel⟩,
   ⟨onTsl (fun x => { x with pads := .lowSideOn }) (tOn .vehicle), by dsimp only; decide +kernel⟩,
   ⟨tOn .vehicle, by dsimp only; decide +kernel⟩,
   ⟨tCore CoreState.reset, .core 0, by simp only [reaches_iff]; decide +kernel⟩⟩

/-- The hypotheses of CelandineEvents are met. -/
theorem witness_CelandineEvents :
    (∃ (s : State), let c := s.cel; let lit : Prop := s.dark = false; lit ∧ c.ltPending = false ∧ c.wtPending = false) ∧
    (∃ (s : State), let c := s.cel; let lit : Prop := s.dark = false; lit ∧ c.ltPending = true) ∧
    (∃ (s : State), let c := s.cel; let lit : Prop := s.dark = false; lit ∧ c.wtPending = true) ∧
    (∃ (s : State), let c := s.cel; let lit : Prop := s.dark = false; lit ∧ c.keyEn = true ∧ s.boot.role ≠ .pack ∧ c.wet = false) ∧
    (∃ (s : State), let c := s.cel; (c.keyEn = false ∨ s.boot.role = .pack ∨ c.wet = true)) ∧
    (∃ (s : State) (kr : Vector KeyReading 16) (n : Fin 16), let c := s.cel; let lit : Prop := s.dark = false; let key := c.keys.get n; let scanning : Prop := c.keyEn = true ∧ s.boot.role ≠ .pack ∧ (c.scanning = true ∨ c.wet = true); let one : Prop := kr.get n = .down ∧ ∀ x : Fin 16, x ≠ n → kr.get x = .up; s.pow.pm = .running ∧ lit ∧ scanning ∧ c.wet = false ∧ one ∧ key.ignored = false ∧ key.down = false ∧ c.keyFifo.length < 8 ∧ c.kwake.getLsbD n.val = false ∧ (∀ x : Fin 16, x ≠ n → (c.keys.get x).down = false ∧ (c.keys.get x).ignored = false)) ∧
    (∃ (s : State), let c := s.cel; (c.keyEn = false ∨ (c.scanning = false ∧ c.wet = false))) ∧
    (∃ (s : State) (n : Fin 16), let c := s.cel; let lit : Prop := s.dark = false; let key := c.keys.get n; lit ∧ key.down = true ∧ key.ignored = false ∧ c.keyFifo.length < 8) ∧
    (∃ (s : State) (r : Requester), s.reaches r 0x702) ∧
    (∃ (s : State) (r : Requester), s.reaches r 0x703) ∧
    (∃ (s : State) (r : Requester), ¬s.reaches r 0x702) ∧
    (∃ (s : State) (r : Requester), ¬s.reaches r 0x703) ∧
    (∃ (s : State), let lit : Prop := s.dark = false; ¬lit) ∧
    (∃ (s : State) (j : Fin 2) (b : BitVec 4), let c := s.cel; let lit : Prop := s.dark = false; let l := c.seals.get j; lit ∧ l.en = true ∧ l.confirmed = true ∧ b = l.bin) ∧
    (∃ (s : State) (j : Fin 2) (b : BitVec 4), let c := s.cel; let lit : Prop := s.dark = false; let l := c.seals.get j; lit ∧ l.en = true ∧ (l.confirmed = false ∨ b ≠ l.bin) ∧ l.candidate.map (·.1) ≠ some b) ∧
    (∃ (s : State) (j : Fin 2) (b : BitVec 4) (sec : Nat) (era : Nat), let c := s.cel; let lit : Prop := s.dark = false; let l := c.seals.get j; s.pow.pm = .running ∧ lit ∧ l.en = true ∧ l.state = .intact ∧ b ≠ l.exp ∧ (l.confirmed = false ∨ b ≠ l.bin) ∧ l.candidate = some (b, sec, era)) ∧
    (∃ (v : Word), let exp : BitVec 4 := (v >>> 6).setWidth 4; (exp = 0 ∨ exp = 15)) ∧
    (∃ (v : Word), let exp : BitVec 4 := (v >>> 6).setWidth 4; exp ≠ 0 ∧ exp ≠ 15 ∧ v.getLsbD 10 = false) ∧
    (∃ (s : State) (j : Fin 2) (v : Word), let c := s.cel; let l := c.seals.get j; let exp : BitVec 4 := (v >>> 6).setWidth 4; exp ≠ 0 ∧ exp ≠ 15 ∧ v.getLsbD 10 = true ∧ l.en = false) ∧
    (∃ (s : State), let c := s.cel; let lit : Prop := s.dark = false; s.pow.pm = .running ∧ lit ∧ c.shockWakeAt = none) ∧
    (∃ (s : State), let c := s.cel; let lit : Prop := s.dark = false; lit ∧ (c.shockWakeAt).isSome = true) :=
  ⟨⟨tOn .vehicle, by dsimp only; decide +kernel⟩,
   ⟨onCel (fun x => { x with ltPending := true }) (tOn .vehicle), by dsimp only; decide +kernel⟩,
   ⟨onCel (fun x => { x with wtPending := true }) (tOn .vehicle), by dsimp only; decide +kernel⟩,
   ⟨tOn .vehicle, by dsimp only; decide +kernel⟩,
   ⟨onCel (fun x => { x with wet := true }) (tOn .vehicle), by dsimp only; decide +kernel⟩,
   ⟨onCel (fun x => { x with scanning := true, kwake := 0 }) (tOn .vehicle), (Vector.replicate 16 KeyReading.up).set 15 .down, 15, by dsimp only; decide +kernel⟩,
   ⟨tOn .vehicle, by dsimp only; decide +kernel⟩,
   ⟨onCel (fun x => { x with keys := x.keys.set 15 { (x.keys.get 15) with down := true } }) (tOn .vehicle), 15, by dsimp only; decide +kernel⟩,
   ⟨tOn .vehicle, .steward, by simp only [reaches_iff]; decide +kernel⟩,
   ⟨tOn .vehicle, .steward, by simp only [reaches_iff]; decide +kernel⟩,
   ⟨tOn .vehicle, .core 0, by simp only [reaches_iff]; decide +kernel⟩,
   ⟨tOn .vehicle, .core 0, by simp only [reaches_iff]; decide +kernel⟩,
   ⟨onPow (fun x => { x with pm := .off }) (tOn .vehicle), by dsimp only; decide +kernel⟩,
   ⟨onCel (fun x => { x with seals := Vector.replicate 2 ⟨5, .intact, 5, true, none, true, none⟩ }) (tOn .vehicle), 1, 5, by dsimp only; decide +kernel⟩,
   ⟨onCel (fun x => { x with seals := Vector.replicate 2 ⟨5, .intact, 5, true, none, true, none⟩ }) (tOn .vehicle), 1, 3, by dsimp only; decide +kernel⟩,
   ⟨onCel (fun x => { x with seals := Vector.replicate 2 ⟨5, .intact, 5, true, some (3, 1, 1), true, none⟩ }) (tOn .vehicle), 1, 3, 1, 1, by dsimp only; decide +kernel⟩,
   ⟨0x000, by dsimp only; decide +kernel⟩,
   ⟨0x140, by dsimp only; decide +kernel⟩,
   ⟨tOn .vehicle, 1, 0x540, by dsimp only; decide +kernel⟩,
   ⟨tOn .vehicle, by dsimp only; decide +kernel⟩,
   ⟨onCel (fun x => { x with shockWakeAt := some 0 }) (tOn .vehicle), by dsimp only; decide +kernel⟩⟩

/-- The hypotheses of TestAccessPort are met. -/
theorem witness_TestAccessPort :
    (∃ (s : State), let on : Prop := s.boot.jtagen = true ∧ s.pow.vcoreOn = true; ¬on) ∧
    (∃ (s : State), let on : Prop := s.boot.jtagen = true ∧ s.pow.vcoreOn = true; let open_ : Prop := on ∧ (s.lifecycle ≠ .fielded ∨ s.boot.debugUnlocked = true); on ∧ ¬open_) ∧
    (∃ (s : State) (i : Fin 4), let d := s.dbg; let c := s.core.get i; let on : Prop := s.boot.jtagen = true ∧ s.pow.vcoreOn = true; let open_ : Prop := on ∧ (s.lifecycle ≠ .fielded ∨ s.boot.debugUnlocked = true); let done := d.traceRate = 0 ∧ c.granted 3 = false; open_ ∧ done ∧ c.run = .running ∧ c.window = [] ∧ c.preTrap = none ∧ c.gather = []) ∧
    (∃ (s : State) (i : Fin 4), let d := s.dbg; let c := s.core.get i; let on : Prop := s.boot.jtagen = true ∧ s.pow.vcoreOn = true; let open_ : Prop := on ∧ (s.lifecycle ≠ .fielded ∨ s.boot.debugUnlocked = true); let done := d.traceRate = 0 ∧ c.granted 3 = false; open_ ∧ done ∧ c.run = .waiting) ∧
    (∃ (s : State) (i : Fin 4), let d := s.dbg; let c := s.core.get i; let on : Prop := s.boot.jtagen = true ∧ s.pow.vcoreOn = true; let open_ : Prop := on ∧ (s.lifecycle ≠ .fielded ∨ s.boot.debugUnlocked = true); let done := d.traceRate = 0 ∧ c.granted 3 = false; open_ ∧ done ∧ c.run = .halted) ∧
    (∃ (s : State) (i : Fin 4) (n : Fin 32) (v12 : Word) (line : List Word), Ready (s.setCore i { s.core.get i with run := .running }) i ∧ (let d := s.dbg; let c := s.core.get i; let on : Prop := s.boot.jtagen = true ∧ s.pow.vcoreOn = true; let open_ : Prop := on ∧ (s.lifecycle ≠ .fielded ∨ s.boot.debugUnlocked = true); let pc := c.pc.toNat; open_ ∧ d.traceRate = 0 ∧ c.run = .halted ∧ d.wasWaiting.get i = false ∧ s.tileFailed pc = false ∧ s.mem.icache.get i = [(pc / 32, line)] ∧ line.getD (pc % 32 + 1) 0 ++ line.getD (pc % 32) 0 = encodeSyl (.ai .ldi n v12) true)) ∧
    (∃ (s : State) (i : Fin 4), let c := s.core.get i; let on : Prop := s.boot.jtagen = true ∧ s.pow.vcoreOn = true; let open_ : Prop := on ∧ (s.lifecycle ≠ .fielded ∨ s.boot.debugUnlocked = true); open_ ∧ c.run ≠ .halted) ∧
    (∃ (s : State) (i : Fin 4) (sel : BitVec 7), let c := s.core.get i; let on : Prop := s.boot.jtagen = true ∧ s.pow.vcoreOn = true; let open_ : Prop := on ∧ (s.lifecycle ≠ .fielded ∨ s.boot.debugUnlocked = true); open_ ∧ (c.run ≠ .halted ∨ 54 ≤ sel.toNat)) ∧
    (∃ (s : State), let d := s.dbg; let on : Prop := s.boot.jtagen = true ∧ s.pow.vcoreOn = true; let open_ : Prop := on ∧ (s.lifecycle ≠ .fielded ∨ s.boot.debugUnlocked = true); let at_ := d.memAddr.toNat; let tile : Prop := at_ % 2 = 0 ∧ 0x110000 ≤ at_ ∧ at_ + 2 ≤ 0x200000 ∧ s.tileFailed at_ = false; open_ ∧ tile ∧ (s.mem.homeOf (at_ / 16)).err = false) ∧
    (∃ (s : State), let d := s.dbg; let on : Prop := s.boot.jtagen = true ∧ s.pow.vcoreOn = true; let open_ : Prop := on ∧ (s.lifecycle ≠ .fielded ∨ s.boot.debugUnlocked = true); let at_ := d.memAddr.toNat; open_ ∧ (at_ % 2 = 1 ∨ (0x4000 ≤ at_ ∧ at_ < 0x110000) ∨ (0x200000 ≤ at_ ∧ at_ < 0x800000))) ∧
    (∃ (s : State), let d := s.dbg; let on : Prop := s.boot.jtagen = true ∧ s.pow.vcoreOn = true; let open_ : Prop := on ∧ (s.lifecycle ≠ .fielded ∨ s.boot.debugUnlocked = true); let at_ := d.memAddr.toNat; let m := s.core.get d.memCore; open_ ∧ at_ % 2 = 0 ∧ at_ < 0x4000 ∧ m.run = .halted) ∧
    (∃ (s : State) (e : StartEnv), let on : Prop := s.boot.jtagen = true ∧ s.pow.vcoreOn = true; let open_ : Prop := on ∧ (s.lifecycle ≠ .fielded ∨ s.boot.debugUnlocked = true); open_ ∧ s.pow.pm = .running ∧ s.boot.testen = false ∧ s.boot.alternateFirst = false ∧ e.testen = false ∧ e.failed = [] ∧ e.romOk = true ∧ s.setBoots e s.preferredSet = true) ∧
    (∃ (s : State) (v12 : Word), let on : Prop := s.boot.jtagen = true ∧ s.pow.vcoreOn = true; let open_ : Prop := on ∧ (s.lifecycle ≠ .fielded ∨ s.boot.debugUnlocked = true); open_ ∧ v12.toNat % 4 = 0) :=
  ⟨⟨tCore CoreState.reset, by dsimp only; decide +kernel⟩,
   ⟨onBoot (fun x => { x with jtagen := true, lifecycle := .fielded }) (tCore CoreState.reset), by dsimp only; decide +kernel⟩,
   ⟨onBoot (fun x => { x with jtagen := true }) (tCore CoreState.reset), 0, by dsimp only; decide +kernel⟩,
   ⟨onCore (fun x => { x with run := .waiting }) (onBoot (fun x => { x with jtagen := true }) (tCore CoreState.reset)), 0, by dsimp only; decide +kernel⟩,
   ⟨onCore (fun x => { x with run := .halted }) (onBoot (fun x => { x with jtagen := true }) (tCore CoreState.reset)), 0, by dsimp only; decide +kernel⟩,
   ⟨onMem (fun x => { x with icache := x.icache.set 0 [(0x8800, [loWord (encodeSyl (.ai .ldi 1 5) true), hiWord (encodeSyl (.ai .ldi 1 5) true)])] }) (onCore (fun x => { x with run := .halted }) (onBoot (fun x => { x with jtagen := true }) (tCore CoreState.reset))), 0, 1, 5, [loWord (encodeSyl (.ai .ldi 1 5) true), hiWord (encodeSyl (.ai .ldi 1 5) true)], ready_of (by decide +kernel), by dsimp only; decide +kernel⟩,
   ⟨onBoot (fun x => { x with jtagen := true }) (tCore CoreState.reset), 0, by dsimp only; decide +kernel⟩,
   ⟨onBoot (fun x => { x with jtagen := true }) (tCore CoreState.reset), 0, 54, by dsimp only; decide +kernel⟩,
   ⟨onDbg (fun x => { x with memAddr := 0x110000 }) (onBoot (fun x => { x with jtagen := true }) (tCore CoreState.reset)), by dsimp only; decide +kernel⟩,
   ⟨onDbg (fun x => { x with memAddr := 0x110001 }) (onBoot (fun x => { x with jtagen := true }) (tCore CoreState.reset)), by dsimp only; decide +kernel⟩,
   ⟨onCore (fun x => { x with run := .halted }) (onBoot (fun x => { x with jtagen := true }) (tCore CoreState.reset)), by dsimp only; decide +kernel⟩,
   ⟨onBoot (fun x => { x with jtagen := true }) (tCore CoreState.reset), StartEnv.good false false false true, by dsimp only; decide +kernel⟩,
   ⟨onBoot (fun x => { x with jtagen := true }) (tCore CoreState.reset), 4, by dsimp only; decide +kernel⟩⟩

/-- The hypotheses of StepRunsTheFrontCommand are met. -/
theorem witness_StepRunsTheFrontCommand :
    ∃ (s : State), s.pending = [] :=
  ⟨tCore CoreState.reset, by decide +kernel⟩

/-- The hypotheses of SyllableRoundTrip are met. -/
theorem witness_SyllableRoundTrip :
    ∃ (y : Syl), (∀ raw, y ≠ .unassigned raw) :=
  ⟨.ai .ldi 1 5, fun _ h => by cases h⟩

/-- A state in canonical form with words listed and a command at the front, whose step answers a next state. -/
theorem witness_StepKeepsMemoryForm :
    (∃ s t : State, s.mem.sram ≠ [] ∧ s.fl.cells ≠ [] ∧ s.pending ≠ [] ∧ Canonical s ∧ step s = .next t) :=
  ⟨{ tOn .vehicle with mem := { Memory.reset with sram := [(0x110000, 1)] }, fl := { Flash.reset with cells := [(0x800000, 0)] },
                       pending := [.waitResume 0] },
    _, by decide, by decide, by decide, ⟨rfl, rfl⟩, rfl⟩

/-- A memory in its form: addresses rising, none listed with the value that an unlisted one reads as. -/
theorem witness_MemoryLaws : memWf 0 [(0, 0xFFF), (0xFFFFFF, 1)] = true := by decide

/-! Worked cases of the spec, and its tables read by hand. -/

/-- spec/00_scope.md, worked case of R6 and R12: the pair 0xC17_3A5. -/
theorem test_pair_packing : packWords [0x3A5, 0xC17] = [0xA5, 0x73, 0xC1] ∧ unpackOctets [0xA5, 0x73, 0xC1] = [0x3A5, 0xC17] := by
  decide

/-- spec/00_scope.md, R8 and R9: a lone last word. -/
theorem test_lone_word_packing : packWords [0xABC] = [0xBC, 0x0A] ∧ unpackOctets [0xBC, 0xFA] = [0xABC] := by decide

/-- spec/05_host_port.md, worked case of a request header: channel 2, sequence 0x47, command 0x8012, 6 octets. -/
theorem test_request_header :
    ((⟨2, false, 0x47, 0x8012, false, false, false, 0, List.replicate 6 0⟩ : Frame).octets).take 8 =
      [0x02, 0x47, 0x12, 0x80, 0x06, 0x00, 0x00, 0x00] := by decide +kernel

/-- spec/08_concord.md, R443: the CRC-8 check value over "123456789". -/
theorem test_crc8_check : crc8 [0x31, 0x32, 0x33, 0x34, 0x35, 0x36, 0x37, 0x38, 0x39] = 0xF4 := by decide +kernel

/-- The published check value of CRC-32C over "123456789" (R269 names the code). -/
theorem test_crc32c_check : crc32c [0x31, 0x32, 0x33, 0x34, 0x35, 0x36, 0x37, 0x38, 0x39] = 0xE3069283 := by decide +kernel

/-- spec/12_jieles_operations.md, worked MACP syllable 0x263_101: bits written out there. -/
theorem test_syllable_macp : decodeSyl 0b001001100011000100000001 = .l .macp 6 2 1 := by decide

/-- spec/12_jieles_operations.md, worked DBNZ syllable 0xD20_000. -/
theorem test_syllable_dbnz : decodeSyl 0xD20000 = .b .dbnz 0 0 ∧ stopBit 0xD20000 = true := by decide

/-- spec/11_jieles_model.md, worked X syllable 0x443_487: target 2, value 0x03487. -/
theorem test_syllable_x : decodeSyl 0x443487 = .x 2 0x03487 ∧ stopBit 0x443487 = false := by decide

/-- spec/13_decimal_ct.md, Table Decimal-6, row 1. -/
theorem test_decimal_two_nans :
    decAdd 14 ⟨0, 0, 0, 0⟩ false [4, 0, 0, 0, 0xC00] [9, 0, 0, 0, 0xB00] = ⟨[4, 0, 0, 0, 0xC00], flZ + flN + flV, 0, flDN⟩ := by
  decide +kernel

/-- Table Decimal-6, row 2: payload 0142 in class 0xF. -/
theorem test_decimal_malformed :
    decMul 14 ⟨0, 0, 0, 0⟩ [5, 0, 0, 0, 0] [0, 0, 0, 0, 0x700] = ⟨[0x142, 0, 0, 0, 0xF00], flZ + flN + flV, 0, flDN⟩ := by
  decide +kernel

/-- Table Decimal-6, row 3: 99 999 999 × 10 000 000 overflows. -/
theorem test_decimal_overflow :
    decMul 14 ⟨0, 0, 0, 0⟩ [0x999, 0x999, 0x099, 0, 0] [0, 0, 0x010, 0, 0] = ⟨[0, 0, 0, 0, 0xE00], flZ + flN + flV, flV, flDN⟩ := by
  decide +kernel

/-- Table Decimal-6, row 4: 37 ÷ 0 without the trap. -/
theorem test_decimal_divide_by_zero :
    decDiv 14 ⟨0, 0, 0, 0⟩ [0x037, 0, 0, 0, 0] [0, 0, 0, 0, 0] = ⟨[1, 0, 0, 0, 0xE00], flZ + flN + flV, 0, flDN + flDZ⟩ := by
  decide +kernel

/-- Table Decimal-6, row 5. -/
theorem test_decimal_compare_nan : (decCmp 14 ⟨0, 0, 0, 0⟩ [0, 0, 0, 0, 0xA00] [0, 0, 0, 0, 0xA00]).value = flV := by decide +kernel

/-- spec/13_decimal_ct.md, worked fare, step 2: 754 × 0.220000 is 165.880000. -/
theorem test_decimal_fare_product :
    (decMul 14 ⟨0, 6, 6, 2⟩ [0x754, 0, 0, 0, 0] [0, 0x220, 0, 0, 0]).words = [0x000, 0x880, 0x165, 0, 0] := by decide +kernel

/-- The same, step 4: ÷ 60 is 2.764666, inexact. -/
theorem test_decimal_fare_quotient :
    (fun r : DecResult => (r.words, r.sticky)) (decDiv 14 ⟨6, 0, 6, 2⟩ [0x000, 0x880, 0x165, 0, 0] [0x060, 0, 0, 0, 0]) =
      ([0x666, 0x764, 0x002, 0, 0], flDI) := by decide +kernel

/-- The same, step 6: + 1.000000 is 3.764666. -/
theorem test_decimal_fare_sum :
    (decAdd 14 ⟨6, 6, 6, 2⟩ false [0x666, 0x764, 0x002, 0, 0] [0, 0, 0x001, 0, 0]).words = [0x666, 0x764, 0x003, 0, 0] := by decide +kernel

/-- The same, step 8: rounded half-up to scale 2, 3.76, inexact. -/
theorem test_decimal_fare_rounded :
    (fun r : DecResult => (r.words, r.sticky)) (decUnary 14 14 ⟨6, 0, 2, 1⟩ id [0x666, 0x764, 0x003, 0, 0]) =
      ([0x376, 0, 0, 0, 0], flDI) := by decide +kernel

/-- spec/12_jieles_operations.md, worked divisions: 37 ÷ 5, 37 ÷ 0 and 0x800 ÷ 0xFFF. -/
theorem test_divisions :
    (divFlags true false (37 : Word) 5).res = 7 ∧ (divFlags true false (37 : Word) 0).res = 37 ∧
    (divFlags true false (37 : Word) 0).sticky = bitDZ ∧ (divFlags true false (0x800 : Word) 0xFFF).res = 0x800 ∧
    (divFlags true false (0x800 : Word) 0xFFF).value = bitV ||| bitN := by decide +kernel

/-- Ostmere's tariff of the ledger's worked cases: offset 60 min, 86 400 s, anchor 14 400 s, scale 2 half-up, 1.00, 0.22, 0.05, 0.40,
cap 12.00. -/
def tTariff : List Word :=
  [60] ++ leWords 2 86400 ++ leWords 2 14400 ++ [2 + 16] ++ [0, 0, 0x001, 0, 0] ++ [0, 0x220, 0, 0, 0] ++ [0, 0x050, 0, 0, 0] ++
    [0, 0x400, 0, 0, 0] ++ [0, 0, 0x012, 0, 0] ++ leWords 2 86400 ++ [0, 0, 0]

/-- spec/07_ledger.md, worked daily boundary: that of 2025-06-12 is 171 860 400. -/
theorem test_daily_boundary : nextBoundary tTariff 171849600 = 171860400 := by decide +kernel

/-- spec/07_ledger.md, worked ride: fare 7.16, and 7.17 with 35.74 Wh. -/
theorem test_worked_fare :
    (priceRide tTariff 1656 56112 1613 1746).fare = some 716 ∧ (priceRide tTariff 1656 56112 1613 3574).fare = some 717 := by
  decide +kernel

/-- spec/07_ledger.md, worked forward jump: E at 2024-11-21T03:00Z, wall 2025-01-29T08:45Z: k is 70, the last boundary 03:00Z that day. -/
theorem test_forward_jump : boundariesTo tTariff 154321200 154321200 = (1, 154321200) ∧
    boundariesTo tTariff 154321200 (154321200 + 69 * 86400 + 20700) = (70, 154321200 + 69 * 86400) := by decide +kernel

/-- spec/09_motor_teasel.md, worked Speedwell limit: below 828 000 periods the inhibit is set, from 853 875 it ends. -/
theorem test_speed_inhibit :
    speedInhibitOf false 827999 828000 = true ∧ speedInhibitOf true 853874 828000 = true ∧
    speedInhibitOf true 853875 828000 = false ∧ speedInhibitOf false 828000 828000 = false := by decide

/-- The vehicle edition of that worked case: 24.0 A, 25 %, 25 km/h, 12 km/h, zero 205, 10 mA, 690 mm, 24 pulses. -/
def tVehicleEdition : List Word := List.replicate 32 0 ++ [240, 25, 25, 12, 205, 10, 690, 24, 1, 1, 1] ++ List.replicate 85 0

/-- A vehicle at a tier with that edition, the merged limit of 28.0 A. -/
def tSpeedwell (t : Tier) : State :=
  let s := tOn .vehicle
  let m : FleetParams := s.con.merged.set 0 280 |>.set 7 45
  { s with boot := { s.boot with tier := t }, con := { s.con with merged := m },
           cus := { s.cus with slots := s.cus.slots.map (fun x => { x with current := some ⟨41, false, tVehicleEdition, [], []⟩ }) } }

/-- The same worked case: PWM_LIMI 805 and PWM_LIMW 828 000 at T2; code 2 605 at T3. -/
theorem test_speedwell_limits : (tSpeedwell .t2).limits = (805, 828000) ∧ (tSpeedwell .t3).limits.1 = 2605 := by decide +kernel

/-- spec/08_concord.md, worked merge: discharge 28.0 A, charge 5.0 A, floor 3 100 mV, lowest charge temperature 5 °C, 20 km/h. -/
theorem test_merge :
    tightest (tightest #v[280, 60, 4200, 3000, 0, 45, 60, 25] #v[300, 50, 4200, 3100, 5, 45, 60, 20]) #v[280, 60, 4200, 3000, 0, 45, 60, 25] =
      #v[280, 50, 4200, 3100, 5, 45, 60, 20] := by decide

/-- spec/15_eflash.md, worked keyed program: page 5 of block 66 of bank 0 begins at 0xA10_500. -/
theorem test_flash_page_address : blockBase 0 66 + 5 * 0x100 = 0xA10500 := by decide

/-- spec/11_jieles_model.md, worked load address 0x1A4_3C0 of an X value and disp7. -/
theorem test_long_value : longValue 7 0x03487 0x40 = 0x1A43C0 := by decide

/-- 12 + 1 with the carry out of the top bit, and the sum 0x7FF + 1 that does not fit (Table Ops-1). -/
theorem test_add_flags : (addFlags (0xFFF : Word) 1 false).value = bitC ||| bitZ ∧ (addFlags (0x7FF : Word) 1 false).value = bitN ||| bitV := by
  decide

/-- Table Host-8 and R270: command codes below 0x8000 are those of the tables, the rest are the application's. -/
theorem test_command_codes : cmdExists 0x8012 = true ∧ cmdExists 0x7FFF = false ∧ cmdExists 0x0201 = true := by decide +kernel

/-! The queue: a step takes the front command; an empty queue idles. -/

theorem test_step_idle : step State.reset = .next State.reset.traceDrain := by rfl

theorem test_step_front : step { tOn .vehicle with pending := [.usbVbusChange false] } = exec (.usbVbusChange false) { tOn .vehicle with pending := [] } := by
  rfl

/-! WellFormed refuses: one ill-formed term for each check. -/

theorem test_wf_payload : (⟨.hostPort, 0, List.replicate 1021 0⟩ : CmdReq).wf = false := by decide +kernel
theorem test_wf_can_classic : (⟨0, false, false, false, false, 9, List.replicate 9 0⟩ : CanFrame).wf = false := by decide
theorem test_wf_can_fd : (⟨0, false, true, false, false, 15, List.replicate 65 0⟩ : CanFrame).wf = false := by decide
theorem test_wf_line_low : lineWf 0xFFFF = false := by decide
theorem test_wf_line_high : lineWf 0x20000 = false := by decide
theorem test_wf_units_twice : unitsWf [3, 3] = false := by decide
theorem test_wf_scan : scanWf (List.replicate 2 false) none = false := by decide

theorem test_wf_request_row : (Instr.stageEdition ⟨.hostPort, 0, List.replicate 1021 0⟩ .done).wf = false := by decide +kernel
theorem test_wf_duplicate_command : (Instr.duplicateRequest 0 0x10000 0 ⟨.hostPort, 0, []⟩).wf = false := by decide +kernel
theorem test_wf_interim_time : (Instr.interimDue .hostPort 0 (2 ^ 24)).wf = false := by decide +kernel
theorem test_wf_app_command : (Instr.appRequest 1 0x7FFF 0 ⟨.hostPort, 0, []⟩).wf = false := by decide +kernel
theorem test_wf_message_frame : (Instr.heartbeat [⟨0, true, true, true, false, 15, List.replicate 65 0⟩]).wf = false := by decide +kernel
theorem test_wf_silence_node : (Instr.memberSilenceTimeout 7).wf = false := by decide +kernel
theorem test_wf_fragment_sender : (Instr.fragmentTimeout 16384).wf = false := by decide +kernel
theorem test_wf_i2c_length : (Instr.i2cTransferDone 0 257 []).wf = false := by decide +kernel
theorem test_wf_sspi_length : (Instr.sspiDone (List.replicate 257 0)).wf = false := by decide +kernel
theorem test_wf_gnss_left : (Instr.gnssTxdWrite 65 0).wf = false := by decide +kernel
theorem test_wf_page_words : (Instr.fctlProgram 0 0 (List.replicate 255 0)).wf = false := by decide +kernel
theorem test_wf_patrol_sectors : (Instr.patrolRead 0 0 (List.range 9) [] none).wf = false := by decide +kernel
theorem test_wf_front_end : (Instr.afeSample (List.replicate 7 []) 0).wf = false := by decide +kernel
theorem test_wf_line_row : (Instr.evictionNotice (.core 0) 0 .none).wf = false := by decide +kernel
theorem test_wf_agent_extent : (Instr.agentLineAccess .dma 0x10000 15 2 none .none).wf = false := by decide +kernel
theorem test_wf_agent_words : (Instr.agentLineAccess .dma 0x10000 0 2 (some [0]) .none).wf = false := by decide +kernel
theorem test_wf_accepts : (Instr.agentLineAccess .dma 0x10000 0 2 (some [0, 0]) .none).wf = true := by decide +kernel

end Sys2Proof.Tests
end

section
/-! SUPPORT. What the entry of a vector changes of a core and leaves of the state, and the trap of an access that its port ends. -/
namespace Sys2Proof.Machine

/-- Trace packets change the core's trace alone (R986). -/
theorem State.trace_eq (s : State) (i : Fin 4) (kind : Nat) (payload : List Octet) :
    ∃ t, s.trace i kind payload = s.setCore i { s.core.get i with trace := t } := by
  unfold State.trace
  split
  · exact ⟨(s.core.get i).trace, (s.setCore_core i).symm⟩
  · exact ⟨_, rfl⟩

/-- ECAUSE of a cause (R615), whose unit field is `u`. -/
def Cause.ecause (x : Cause) (u : Nat) : Word :=
  BitVec.ofNat 12 (x.vector + 32 * (u % 8) + 256 * x.addr.isSome.toNat + 512 * x.wide.toNat + 1024 * (x.sub % 4))

theorem Cause.ecause_toNat (x : Cause) (u : Nat) (hv : x.vector < 32) :
    (x.ecause u).toNat = x.vector + 32 * (u % 8) + 256 * x.addr.isSome.toNat + 512 * x.wide.toNat + 1024 * (x.sub % 4) := by
  have ha := Bool.toNat_le x.addr.isSome
  have hw := Bool.toNat_le x.wide
  rw [Cause.ecause, BitVec.toNat_ofNat]
  omega

/-- ECAUSE gives back the vector and the sub-cause. -/
theorem Cause.ecause_fields (x : Cause) (u : Nat) (hv : x.vector < 32) (hs : x.sub < 4) :
    (x.ecause u).toNat % 32 = x.vector ∧ (x.ecause u).toNat / 1024 = x.sub := by
  have ha := Bool.toNat_le x.addr.isSome
  have hw := Bool.toNat_le x.wide
  rw [x.ecause_toNat u hv]
  omega

/-- A core at the entry of a vector (R615); `f` and `g` are the free values drawn for fields that have no source. -/
def CoreState.atVector (c : CoreState) (epc : Pair) (len : Nat) (x : Cause) (syl : Option Pair) (f g : Nat) : CoreState :=
  { c with
    epc := epc, esyl := syl.getD (BitVec.ofNat 24 (f / 8)), eaddr := x.addr.getD (BitVec.ofNat 24 g), eblen := BitVec.ofNat 3 len,
    ecause := x.ecause (x.unit.getD (f % 8)), estat := c.ctl, ctl := (c.ctl ||| 0x10) &&& 0x17,
    pc := c.tvb + BitVec.ofNat 24 (4 * x.vector), run := .running }

/-- A squash changes the core and the coprocessors' account of its operations, and nothing else (R613, R755). -/
theorem State.squash_frame (s : State) (i : Fin 4) (bundle : Nat) : { s.squash i bundle with core := s.core, cop := s.cop } = s := rfl

/-- The core after a squash of its whole window: the registers are as they were. -/
theorem State.squash_core (s : State) (i : Fin 4) (bundle : Nat) :
    ∃ l tags, (s.squash i bundle).core.get i =
      { s.core.get i with window := l, staleTags := tags, gather := [], gatherX := [], closed := false, preTrap := none } :=
  ⟨_, _, State.core_setCore s i _⟩

/-- The entry of a vector: everything in the window is squashed, and the core goes on from the vector. -/
theorem State.enterVector_eq (s : State) (i : Fin 4) (epc : Pair) (len : Nat) (x : Cause) (syl : Option Pair) :
    s.enterVector i epc len x syl =
      ((s.draw.2.draw.2.squash i 0).setCore i
        (((s.draw.2.draw.2.squash i 0).core.get i).atVector epc len x syl s.draw.1 s.draw.2.draw.1)).trace i 3
          (BitVec.ofNat 8 x.vector :: leOctets 3 epc.toNat) := rfl

/-- The entry of a vector changes the core, the coprocessors' account of its operations, and the free values drawn, and nothing else. -/
theorem State.enterVector_frame (s : State) (i : Fin 4) (epc : Pair) (len : Nat) (x : Cause) (syl : Option Pair) :
    { s.enterVector i epc len x syl with core := s.core, cop := s.cop, free := s.free } = s := by
  rw [State.enterVector_eq]
  obtain ⟨t, ht⟩ := State.trace_eq ((s.draw.2.draw.2.squash i 0).setCore i
    (((s.draw.2.draw.2.squash i 0).core.get i).atVector epc len x syl s.draw.1 s.draw.2.draw.1)) i 3
      (BitVec.ofNat 8 x.vector :: leOctets 3 epc.toNat)
  rw [ht]
  exact congrArg (fun a : State => { a with free := s.free }) (s.draw.2.draw.2.squash_frame i 0)

/-- The core at the entry of a vector, its window and its trace aside. -/
theorem State.enterVector_core (s : State) (i : Fin 4) (epc : Pair) (len : Nat) (x : Cause) (syl : Option Pair) :
    ∃ l tags t, (s.enterVector i epc len x syl).core.get i =
      { (s.core.get i).atVector epc len x syl s.draw.1 s.draw.2.draw.1 with
        window := l, staleTags := tags, gather := [], gatherX := [], closed := false, preTrap := none, trace := t } := by
  rw [State.enterVector_eq]
  obtain ⟨t, ht⟩ := State.trace_eq ((s.draw.2.draw.2.squash i 0).setCore i
    (((s.draw.2.draw.2.squash i 0).core.get i).atVector epc len x syl s.draw.1 s.draw.2.draw.1)) i 3
      (BitVec.ofNat 8 x.vector :: leOctets 3 epc.toNat)
  obtain ⟨l, tags, hs⟩ := s.draw.2.draw.2.squash_core i 0
  rw [ht, State.core_setCore, State.core_setCore, hs]
  exact ⟨l, tags, t, rfl⟩

/-- The trap that an access's port ends it with, outside a handler (R595, R596, R615). -/
theorem State.portTrap_trapped (s : State) (i : Fin 4) {vector sub : Nat} (addr : Nat) (hv : vector < 32) (hs : sub < 4) :
    CoreTrapped s (s.portTrap i vector sub addr) i vector sub addr := by
  intro hrun hth
  let c := s.core.get i
  let x : Cause :=
    { vector := vector, sub := sub, addr := some (BitVec.ofNat 24 addr), unit := some 2, syl := BitVec.ofNat 24 s.draw.1, wide := false }
  let len := min (match c.window with | [] => 1 | e :: _ => e.len) 6
  have hp : s.portTrap i vector sub addr = s.draw.2.enterVector i c.resumePc len x (some x.syl) := by
    have hth' : ¬ (s.draw.2.core.get i).ctl.getLsbD 4 = true := fun h => Bool.noConfusion (hth.symm.trans h)
    unfold State.portTrap
    rw [if_neg (fun h => h hrun)]
    exact if_neg hth'
  obtain ⟨l, tags, t, hd⟩ := s.draw.2.enterVector_core i c.resumePc len x (some x.syl)
  have hf := s.draw.2.enterVector_frame i c.resumePc len x (some x.syl)
  obtain ⟨hvec, hsub⟩ := x.ecause_fields 2 hv hs
  rw [hp, hd]
  have field {α : Type} (f : State → α) := congrArg f hf
  exact ⟨rfl, hvec, hsub, rfl, rfl, rfl, rfl, rfl, rfl, field State.per, field State.mot, field State.clk, field State.boot,
    field State.fl⟩

/-- The causes with which an access of the I/O space ends: vector 7 or 8, with a sub-cause up to 3 (R595, R596). -/
theorem State.ioCause_bounds {s : State} {i : Fin 4} {addr : Nat} {x : Nat × Nat} (h : s.ioCause i addr = some x) : x.1 < 32 ∧ x.2 < 4 := by
  unfold State.ioCause at h
  dsimp only at h
  repeat' split at h
  all_goals cases h <;> decide

/-- An access that its port does not take is turned away (R33, R595, R596). -/
theorem State.portAccess_turnedAway {s : State} {r : Requester} {addr : Nat} (act : State → State) (h : ¬ s.reaches r addr) :
    TurnedAway s (s.portAccess r addr act) r addr := by
  cases r with
  | core i =>
    intro x hx
    obtain ⟨hv, hs⟩ := State.ioCause_bounds hx
    rw [State.portAccess_trap act hx]
    exact s.portTrap_trapped i addr hv hs
  | steward => exact State.portAccess_absent act (by simp) (by simpa [State.reaches] using h)
  | dma => exact State.portAccess_absent act (by simp) (by simpa [State.reaches] using h)

end Sys2Proof.Machine
end

section
/-! The VCORE target, its requests, and the junction temperature: what a write of PMU_OPREQ and a sample do, and O35. -/
namespace Sys2Proof.Machine

/-- The target applied is the one wanted, and SETTLED falls exactly when it is a new one (R88, R121). -/
theorem State.retarget_eq (s : State) :
    s.retarget = { s with clk := { s.clk with
      target := BitVec.ofNat 7 s.wantedTarget,
      settled := s.clk.settled && decide (BitVec.ofNat 7 s.wantedTarget = s.clk.target) } } := by
  unfold State.retarget
  by_cases h : BitVec.ofNat 7 s.wantedTarget = s.clk.target
  · rw [if_pos h, h, decide_eq_true rfl, Bool.and_true]
  · rw [if_neg h, decide_eq_false h, Bool.and_false]

/-- The VCODE field of a word. -/
theorem vcode_eq (v : Word) : v.setWidth 7 = BitVec.ofNat 7 (v.toNat % 128) := by
  apply BitVec.eq_of_toNat_eq
  simp

/-- An invalid code sets BADREQ and nothing else (R92). -/
theorem State.opreqWrite_invalid (s : State) (i : Fin 4) {v : Word} (h : 100 < v.toNat % 128) :
    s.opreqWrite i v = { s with clk := { s.clk with badReq := s.clk.badReq.set i true } } := by
  have hc : 100 < (v.setWidth 7).toNat := by simpa using h
  exact if_pos hc

/-- A valid code replaces the core's request, and the target follows (R88). -/
theorem State.opreqWrite_valid (s : State) (i : Fin 4) {v : Word} (h : v.toNat % 128 ≤ 100) :
    s.opreqWrite i v = ({ s with clk := { s.clk with
      opreq := s.clk.opreq.set i { en := v.getLsbD 7, vcode := BitVec.ofNat 7 (v.toNat % 128) } } }).retarget := by
  have hc : ¬ 100 < (v.setWidth 7).toNat := by simpa using h
  rw [← vcode_eq]
  exact if_neg hc

/-- ALARM after a sample: it rises above 150 °C, falls below 140 °C, and else stays (R94). -/
theorem alarm_eq (old : Bool) (c : Int) :
    (if 1200 < c then true else if c < 1120 then false else old) = (decide (1200 < c) || (old && decide (1120 ≤ c))) := by
  by_cases h1 : 1200 < c
  · simp only [h1, if_true, decide_true, Bool.true_or]
  · by_cases h2 : c < 1120
    · have h3 : ¬ 1120 ≤ c := by omega
      simp only [h1, h2, h3, if_true, if_false, decide_false, Bool.and_false, Bool.or_false]
    · have h3 : 1120 ≤ c := by omega
      simp only [h1, h2, h3, if_false, decide_true, decide_false, Bool.and_true, Bool.false_or]

/-- A limit of BAND belongs to the higher band; a fall takes 3 °C more (R93). -/
theorem bandOf_low (old : BitVec 2) {c : Int} (h : c ≤ 176) : bandOf old c = 0 := by
  have h1 : ¬ 1024 ≤ c := by omega
  have h2 : ¬ 224 ≤ c := by omega
  simp only [bandOf, h, h1, h2, if_true, if_false]
  revert old; decide

theorem bandOf_between (old : BitVec 2) {c : Int} (hlo : 176 < c) (hhi : c < 224) (ho : old.toNat ≤ 1) : bandOf old c = old := by
  have h1 : ¬ 1024 ≤ c := by omega
  have h2 : ¬ 224 ≤ c := by omega
  have h3 : ¬ c ≤ 176 := by omega
  have h4 : c ≤ 976 := by omega
  simp only [bandOf, h1, h2, h3, h4, if_true, if_false]
  revert old; decide

theorem bandOf_middle (old : BitVec 2) {c : Int} (h : c ≤ 976) : (bandOf old c).toNat ≤ 1 := by
  by_cases hlow : c ≤ 176
  · rw [bandOf_low old hlow]; decide
  · have h1 : ¬ 1024 ≤ c := by omega
    simp only [bandOf, h1, hlow, h, if_true, if_false]
    by_cases h2 : 224 ≤ c <;> simp only [h2, if_true, if_false] <;> revert old <;> decide

theorem bandOf_warm (old : BitVec 2) {c : Int} (h : 224 ≤ c) : bandOf old c ≠ 0 := by
  have h3 : ¬ c ≤ 176 := by omega
  simp only [bandOf, h, h3, if_true, if_false]
  by_cases h1 : 1024 ≤ c <;> by_cases h2 : c ≤ 976 <;> simp only [h1, h2, if_true, if_false] <;> revert old <;> decide

theorem bandOf_hot (old : BitVec 2) {c : Int} (h : 1024 ≤ c) : 2 ≤ (bandOf old c).toNat := by
  have h2 : ¬ c ≤ 976 := by omega
  have h3 : ¬ c ≤ 176 := by omega
  simp only [bandOf, h, h2, h3, if_true, if_false]
  revert old; decide

/-- ALARM after a sample. -/
def State.alarmAfter (s : State) (t : Word) : Bool := decide (1200 < t.toInt) || (s.clk.alarm && decide (1120 ≤ t.toInt))

/-- CLAMP after a sample (R126). -/
def State.clampAfter (s : State) (t : Word) : Bool :=
  s.alarmAfter t && (s.clk.clamp || (!s.clk.alarm && decide (10 < s.clk.highest)))

/-- The clocks after a sample: the temperature registers take it, and the target follows ALARM (R93, R94, R126). -/
def State.clkAfter (s : State) (t : Word) : Clocks :=
  let c := { s.clk with temp := t, band := bandOf s.clk.band t.toInt, alarm := s.alarmAfter t, clamp := s.clampAfter t }
  let target := BitVec.ofNat 7 (State.wantedTarget { s with clk := c })
  { c with target := target, settled := s.clk.settled && decide (target = s.clk.target) }

/-- A sample changes the clocks, and raises event 0x1004 where ALARM rises. -/
theorem State.sampleTj_eq (s : State) (t : Word) :
    s.sampleTj t = if s.alarmAfter t && !s.clk.alarm then (State.raise { s with clk := s.clkAfter t } 0x1004 (leOctets 2 t.toNat))
      else { s with clk := s.clkAfter t } := by
  have hc (a : Bool) : (if a then s.clk.clamp || (!s.clk.alarm && decide (10 < s.clk.highest)) else false) =
      (a && (s.clk.clamp || (!s.clk.alarm && decide (10 < s.clk.highest)))) := by cases a <;> rfl
  simp only [State.sampleTj, alarm_eq, hc, State.retarget_eq]
  rfl

/-- A sample leaves everything but the clocks, the host side and the journal as it was. -/
theorem State.sampleTj_frame (s : State) (t : Word) :
    { s.sampleTj t with host := s.host, jou := s.jou } = { s with clk := s.clkAfter t } := by
  rw [State.sampleTj_eq]
  split
  · exact State.raise_frame { s with clk := s.clkAfter t } 0x1004 (leOctets 2 t.toNat)
  · rfl

/-- Settles O35: the target by `State.retarget_eq`, the bands by the cases of `bandOf`, a write not served by `portAccess_turnedAway`. -/
theorem vcoreTargetAndTemperature : Obligations.VcoreTargetAndTemperature := by
  unfold Obligations.VcoreTargetAndTemperature
  intro s i v t code reqs target q1 c alarm served
  refine ⟨fun hs hv => ?_, fun hs hv => ?_, fun hs => ?_, fun hon => ?_, fun hon => ?_, fun hoff => ?_⟩
  · refine ⟨_, congrArg Host.Outcome.next (State.portAccess_reaches _ hs), ?_⟩
    rw [State.opreqWrite_valid s i hv, State.retarget_eq]
    exact ⟨rfl, rfl, rfl, rfl, rfl⟩
  · exact congrArg Host.Outcome.next ((State.portAccess_reaches _ hs).trans (State.opreqWrite_invalid s i hv))
  · exact ⟨_, rfl, State.portAccess_turnedAway _ hs⟩
  · exact congrArg Host.Outcome.next (if_pos hon)
  · have hf := s.sampleTj_frame t
    have field {α : Type} (f : State → α) := congrArg f hf
    have hclk : (s.sampleTj t).clk = s.clkAfter t := field State.clk
    refine ⟨_, congrArg Host.Outcome.next (if_pos hon), ?_⟩
    dsimp only
    rw [hclk]
    refine ⟨rfl, rfl, rfl, rfl, rfl, bandOf_warm _, bandOf_hot _, bandOf_low _, bandOf_middle _, bandOf_between _, field State.core,
      field State.mem, fun h => ?_⟩
    have hno : ¬ (s.alarmAfter t && !s.clk.alarm) = true := by
      rcases h with h | h
      · simp [h]
      · have ha : s.alarmAfter t = false := h
        rw [ha, Bool.false_and]
        exact Bool.false_ne_true
    rw [State.sampleTj_eq, if_neg hno]
  · exact ⟨congrArg Host.Outcome.next (if_neg (by simp [hoff])), congrArg Host.Outcome.next (if_neg (by simp [hoff]))⟩

end Sys2Proof.Machine
end

section
/-! SUPPORT. The one end of a command, and what a reply leaves of the ledger. -/
namespace Sys2Proof.Machine

/-- A command has one end, so that what it does holds of that end. -/
theorem Does.of_exec {c : Instr} {s t : State} {P : State → Prop} (h : Does c s P) (ht : exec c s = .next t) : P t := by
  obtain ⟨u, hu, hp⟩ := h
  exact Host.Outcome.next.inj (hu.symm.trans ht) ▸ hp

/-- A reply leaves the ledger as it is. -/
theorem State.reply_led (s : State) (t : Transport) (c : Fin 7) (r : Reply) : (s.reply t c r).led = s.led :=
  (congrArg State.led (s.reply_frame t c r) :)

end Sys2Proof.Machine
end

section
/-! The ledger tail at a RELEASE with no room in the ring, and the refutation of O42. -/
namespace Sys2Proof.Machine

/-- A ring with no blank block, and no n pages left in the block being written, has no pages to give. -/
theorem Ledger.takePages_full {l : Ledger} {n : Nat} (hp : 128 < l.ring.page + n) (hb : l.blankBlocks = []) : l.takePages n = none := by
  have hf : ((List.range 31).map (fun i => (l.ring.block + 1 + i) % 32)).find? (fun k => l.blankBlocks.contains k) = none := by
    simp [hb]
  unfold Ledger.takePages
  dsimp only
  rw [if_neg (by omega), hf]

/-- A record that the ring has no room for is not written. -/
theorem State.ringWrite_full {s : State} {ws : List Word} (h : s.led.takePages ((ws.length + 255) / 256) = none) :
    s.ringWrite .done ws = (s, none) := by
  simp only [State.ringWrite, h]

theorem crcWords_length (ws : List Word) : (crcWords ws).length = 3 := rfl

/-- A tail's record takes at least one page: it ends with its CRC (R392). -/
theorem LedgerTail.record_pages (t : LedgerTail) : 1 ≤ (t.record.length + 255) / 256 := by
  have h : 3 ≤ t.record.length := by
    rw [LedgerTail.record, List.length_append, crcWords_length]
    exact Nat.le_add_left 3 _
  omega

/-- With the ring full the ledger tail does not reach flash: only the high-water mark of the running one rises (R366). -/
theorem State.writeTail_full {s : State} (hp : 128 ≤ s.led.ring.page) (hb : s.led.blankBlocks = []) :
    s.writeTail = s.setTail s.led.cur.raiseHwm := by
  let s0 := s.setTail s.led.cur.raiseHwm
  have hroom : s0.led.takePages ((s0.storedTail.record.length + 255) / 256) = none :=
    Ledger.takePages_full (l := s0.led) (Nat.lt_of_lt_of_le (Nat.lt_succ_of_le hp) (Nat.add_le_add_left s0.storedTail.record_pages _)) hb
  have hw := State.ringWrite_full hroom
  unfold State.writeTail State.tailWritten
  dsimp only
  split
  · rfl
  · rw [hw]

/-- RELEASE's power-down after the programs in progress: the tail is written, and VCORE goes (R150). -/
theorem State.powerDown_led (s : State) (nf : Vector Bool 2) :
    (s.powerDown nf).led = ((((s.finishWrites nf).pumpJournal true).finishWrites nf).writeTail.toAo noCut).led :=
  State.setPow_led _ _

/-- Ride 7 as the newest tail in flash has it: open. -/
def rideSeven : OpenRide :=
  { number := 7, flags := RideFlags.none, tariffEdition := 1, tariff := [], opened := ⟨0, 0, 0, 0, 0, 3, 0⟩, wheel := 0, segments := [],
    offset := 0, closing := none }

/-- No ride is in progress; the newest tail in flash, from before the close of ride 7, has that ride in progress; and the ring has no room
for another tail. -/
def fullRing : State :=
  { State.reset with
    pow := { Power.reset with pm := .running }
    boot := { Boot.reset with phase := .decided, tier := .t3 }
    host := { HostPort.reset with enabled := true, admitting := true }
    led := { Ledger.reset with
      ring := { block := 0, page := 128, used := (List.range 31).map (· + 1),
                tails := [{ page := 124, tail := { LedgerTail.reset with ride := some rideSeven } }] } } }

/-- RELEASE as the host sends it. -/
def releaseRequest : CmdReq := { transport := .hostPort, seq := 1, payload := [] }

def noFail : Vector Bool 2 := Vector.replicate 2 false

/-- With nothing in progress in flash or NAND, the power-down comes to the tail with the ledger as it was. -/
theorem fullRing_finished :
    ((((fullRing.taken 0x0107 releaseRequest).finishWrites noFail).pumpJournal true).finishWrites noFail) = fullRing.taken 0x0107 releaseRequest := by
  decide +kernel

/-- The power-down leaves ride 7 in the ledger: the tail in flash governs, and it has the ride open (R393). -/
theorem fullRing_released : ((fullRing.taken 0x0107 releaseRequest).powerDown noFail).led.cur.ride = some rideSeven := by
  rw [State.powerDown_led, fullRing_finished, State.writeTail_full (by decide +kernel) (by decide +kernel)]
  decide +kernel

/-- Refutes O42: where the ring has no room for the tail that RELEASE writes, the newest one in flash governs in AO, with the ride that
was in progress when it was written; the clause on RELEASE asks for none. -/
theorem not_systemAndCoreCommands : ¬ Obligations.SystemAndCoreCommands := by
  unfold Obligations.SystemAndCoreCommands
  intro h
  have hok : fullRing.accepts 0x0107 releaseRequest = true := by decide +kernel
  obtain ⟨-, -, -, -, -, -, -, -, -, -, -, -, hrelease, -⟩ :=
    h fullRing releaseRequest noFail (StartEnv.good false false false true) StoreEnv.good 0 ⟨0, 0, []⟩ []
  have hexec : exec (.release releaseRequest noFail) fullRing =
      .next (((fullRing.taken 0x0107 releaseRequest).powerDown noFail).reply .hostPort (cmdChannel 0x0107) (ok [])) :=
    congrArg Host.Outcome.next
      (State.command_of_accepts (fun s => if s.led.cur.ride.isSome then (s, refuse 0x17) else (s.powerDown noFail, ok [])) hok)
  obtain ⟨-, -, -, -, hride⟩ := (hrelease hok (by decide +kernel)).of_exec hexec
  rw [State.reply_led, fullRing_released] at hride
  exact Option.some_ne_none _ hride

end Sys2Proof.Machine
end

section
/-! The ledger tail that a fall of the tier programs where FCLK has stopped, and the refutation of O34. -/
namespace Sys2Proof.Machine

theorem memSet_ne_nil {fill : Word} {a : Nat} {v : Word} (m : WordMem) (hv : v ≠ fill) : memSet fill a v m ≠ [] := by
  cases m with
  | nil => simp [memSet, hv]
  | cons p r =>
    unfold memSet
    split
    · exact List.cons_ne_nil _ _
    · split <;> exact List.cons_ne_nil _ _

theorem memSetList_append {fill : Word} (ws : List Word) (vs : List Word) (a : Nat) (m : WordMem) :
    memSetList fill a (ws ++ vs) m = memSetList fill (a + ws.length) vs (memSetList fill a ws m) := by
  induction ws generalizing a m with
  | nil => rfl
  | cons w r ih =>
    have h : a + (w :: r).length = a + 1 + r.length := by rw [List.length_cons]; omega
    rw [h]
    exact ih (a + 1) (memSet fill a w m)

/-- Words whose last differs from the fill leave the memory not empty. -/
theorem memSetList_ne_nil {fill : Word} (ws : List Word) {v : Word} (a : Nat) (m : WordMem) (hv : v ≠ fill) :
    memSetList fill a (ws ++ [v]) m ≠ [] := by
  rw [memSetList_append]
  exact memSet_ne_nil _ hv

/-- The last page of words cut into pages ends with the last word. -/
theorem pagesOf_concat (n : Nat) (ws : List Word) (v : Word) (h : ws.length < 256 * n) :
    ∃ l p, pagesOf n (ws ++ [v]) = l ++ [p ++ [v]] ∧ p.length < 256 := by
  induction n generalizing ws with
  | zero => omega
  | succ n ih =>
    have hne : (ws ++ [v]).isEmpty = false := by simp
    rw [pagesOf, hne, if_neg Bool.false_ne_true]
    rcases Nat.lt_or_ge ws.length 256 with hs | hs
    · have hl : (ws ++ [v]).length ≤ 256 := by rw [List.length_append]; exact hs
      refine ⟨[], ws, ?_, hs⟩
      rw [List.take_of_length_le hl, List.drop_of_length_le hl]
      cases n <;> rfl
    · obtain ⟨l, p, hp, hlt⟩ := ih (ws.drop 256) (by rw [List.length_drop]; omega)
      refine ⟨ws.take 256 :: l, p, ?_, hlt⟩
      rw [List.take_append_of_le_length hs, List.drop_append_of_le_length hs, hp, List.cons_append]

/-- A record whose last word is not erased leaves cells that are not. -/
theorem State.putRing_cells (s : State) (page : Nat) (ws : List Word) {v : Word} (hv : v ≠ 0xFFF) (hl : ws.length < 1024) :
    (s.putRing page (ws ++ [v])).fl.cells ≠ [] := by
  obtain ⟨l, p, hp, hlt⟩ := pagesOf_concat 4 ws v hl
  have ht : (p ++ [v]).take 256 = p ++ [v] := List.take_of_length_le (by rw [List.length_append]; exact hlt)
  rw [State.putRing, hp, List.zipIdx_append, List.map_append, State.putPages, List.foldl_append]
  simp only [List.zipIdx_cons, List.zipIdx_nil, List.map_cons, List.map_nil, List.foldl_cons, List.foldl_nil, State.putPage, ht]
  exact memSetList_ne_nil p _ _ hv

/-- A tail's record ends with the high octet of its CRC, which no erased word equals (R392). -/
theorem LedgerTail.record_concat (t : LedgerTail) : ∃ ws v, t.record = ws ++ [v] ∧ v ≠ 0xFFF ∧ ws.length < 1024 := by
  let head := leWords 2 Config.tailMark ++ t.tailWords
  let body := (head ++ List.replicate 256 0).take ((head.length + 3 + 255) / 256 * 256 - 3)
  let x := (crc32c (packWords body)).toNat
  have hx : x < 2 ^ 32 := (crc32c (packWords body)).isLt
  have hrec : t.record = (body ++ [BitVec.ofNat 12 x, BitVec.ofNat 12 (x / 4096)]) ++ [BitVec.ofNat 12 (x / 4096 / 4096)] := by
    rw [List.append_assoc]
    rfl
  refine ⟨_, _, hrec, fun h => ?_, ?_⟩
  · have hw : x / 4096 / 4096 % 4096 = 4095 := congrArg BitVec.toNat h
    omega
  · have hh : head.length ≤ 1006 := by
      have h2 : (leWords 2 Config.tailMark).length = 2 := rfl
      have h3 : t.tailWords.length ≤ 1004 := List.length_take_le _ _
      have h4 : head.length = 2 + t.tailWords.length := by rw [List.length_append, h2]
      omega
    have hb : body.length ≤ (head.length + 3 + 255) / 256 * 256 - 3 := List.length_take_le _ _
    rw [List.length_append]
    show body.length + 2 < 1024
    omega

/-- Pages that the Steward programs change the flash and nothing else. -/
theorem State.putPages_frame (l : List PageOp) (s : State) : { s.putPages l with fl := s.fl } = s := by
  induction l generalizing s with
  | nil => rfl
  | cons o r ih => exact congrArg (fun a : State => { a with fl := s.fl }) (ih (s.putPage o))

/-- A ring with nothing to reclaim is left as it is. -/
theorem State.reclaimRing_unused {s : State} (h : s.led.ring.used = []) : s.reclaimRing = s := by
  unfold State.reclaimRing
  simp [h]

/-- The ledger tail goes into the flash cells: no clock of the flash controller is asked for (R157, R393). -/
theorem State.writeTail_cells {s : State} (hcut : s.cus.cut = none) (hroom : s.led.ring.page ≤ 124) (hused : s.led.ring.used = []) :
    s.writeTail.fl.cells ≠ [] := by
  let s0 := s.setTail s.led.cur.raiseHwm
  obtain ⟨ws, v, hrec, hv, hlen⟩ := s0.storedTail.record_concat
  let n := ((ws ++ [v]).length + 255) / 256
  have hn : n ≤ 4 := by
    have : (ws ++ [v]).length = ws.length + 1 := List.length_append
    omega
  let l := { s0.led with ring := { s0.led.ring with page := s0.led.ring.page + n } }
  let p := 128 * s0.led.ring.block + s0.led.ring.page
  have htake : s0.led.takePages n = some (p, l) := if_pos (Nat.le_trans (Nat.add_le_add hroom hn) (by decide))
  let s1 := (s0.setLed l).putRing p (ws ++ [v])
  have hwrite : s0.ringWrite .done s0.storedTail.record = (s1, some p) := by
    rw [hrec]
    simp only [State.ringWrite]
    rw [htake]
  have hled : s1.led = l := (congrArg State.led (State.putPages_frame _ (s0.setLed l)) :)
  have htail : s.writeTail =
      (s1.setLed { s1.led with ring := { s1.led.ring with tails := ⟨p, s0.storedTail⟩ :: s1.led.ring.tails } }).reclaimRing := by
    have hc : ¬ s.isCut = true := by simp [State.isCut, hcut]
    simp only [State.writeTail, State.tailWritten]
    rw [if_neg hc, hwrite]
  rw [htail, State.reclaimRing_unused (by rw [State.setLed_led, hled]; exact hused)]
  exact State.putRing_cells (s0.setLed l) p ws hv hlen

end Sys2Proof.Machine
end

section
/-! What of the flash a fall of the tier leaves as it is. -/
namespace Sys2Proof.Machine

/-- Events raised one after another change the host side and the journal, and nothing else. -/
theorem State.raises_frame {α : Type} (code : Nat) (data : α → List Octet) (l : List α) (s : State) :
    { l.foldl (fun (s : State) (x : α) => s.raise code (data x)) s with host := s.host, jou := s.jou } = s := by
  induction l generalizing s with
  | nil => rfl
  | cons x r ih =>
    exact (congrArg (fun a : State => { a with host := s.host, jou := s.jou }) (ih (s.raise code (data x)))).trans
      (s.raise_frame code (data x))

@[simp] theorem State.writeLimits_fl (s : State) : s.writeLimits.fl = s.fl := by unfold State.writeLimits; split <;> rfl
@[simp] theorem State.setForce_fl (s : State) : s.setForce.fl = s.fl := by unfold State.setForce; split <;> rfl

/-- A secured message changes the Concord side and nothing else. -/
theorem State.sendSecured_frame (s : State) (type dst : Nat) (body : List Octet) : { s.sendSecured type dst body with con := s.con } = s := by
  unfold State.sendSecured State.sendSecuredTo State.mapSession
  split
  · rfl
  · dsimp only
    split
    · rfl
    · split <;> rfl

/-- Secured messages to several members change the Concord side and nothing else. -/
theorem State.sendEach_frame (type : Nat) (body : Member → List Octet) (l : List Member) (s : State) :
    { l.foldl (fun (s : State) (m : Member) => s.sendSecured type m.node (body m)) s with con := s.con } = s := by
  induction l generalizing s with
  | nil => rfl
  | cons m r ih =>
    exact (congrArg (fun a : State => { a with con := s.con }) (ih (s.sendSecured type m.node (body m)))).trans
      (s.sendSecured_frame type m.node (body m))

@[simp] theorem State.sendMembers_fl (s : State) (type : Nat) (body : Member → List Octet) : (s.sendMembers type body).fl = s.fl :=
  (congrArg State.fl (State.sendEach_frame type body s.con.members s) :)

@[simp] theorem State.relayEnds_fl (s : State) (p : Nat → Bool) : (s.relayEnds p).fl = s.fl := by
  unfold State.relayEnds State.finish
  split
  · rfl
  · split
    · dsimp only
      split
      · rfl
      · exact (congrArg State.fl (State.reply_frame _ _ _ _) :)
    · rfl

@[simp] theorem State.remerge_fl (s : State) : s.remerge.fl = s.fl := by
  have taken (now : FleetParams) (a : State) (ha : a.fl = s.fl) :
      (if now = s.con.merged then a else
        (if a.canLive then a.sendMembers 0x0E (fun _ => paramOctets now) else a).writeLimits).fl = s.fl := by
    split
    · exact ha
    · rw [State.writeLimits_fl]
      split
      · rw [State.sendMembers_fl, ha]
      · exact ha
  unfold State.remerge
  split
  · exact taken _ _ rfl
  · split <;> rfl

/-- The vehicle once the members that `p` picks have gone, their segments not yet ended (R434, R474). -/
def State.membersGone (s : State) (leave : Bool) (p : Member → Bool) : State :=
  let gone := s.con.members.filter p
  let s1 := if leave && s.canLive then gone.foldl (fun (s : State) (m : Member) => s.sendSecured 0x06 m.node []) s else s
  s1.setCon { s1.con with members := s1.con.members.filter (fun m => !p m), epoch := nextEpoch s1.con.epoch,
                          dock := if gone.any (fun m => m.role = .dock) then none else s1.con.dock }

/-- The members that stay are sent the roster (R434). -/
def State.rosterSent (s : State) : State := if s.canLive then s.sendMembers 0x09 (fun _ => s.rosterBody) else s

/-- The steps of the end of memberships, where there is one that ends. -/
theorem State.endMembers_eq (s : State) (cause : Nat) (leave : Bool) {p : Member → Bool} (hgone : s.con.members.filter p ≠ []) :
    s.endMembers cause leave p =
      (((((s.con.members.filter p).foldl (fun (s : State) (m : Member) =>
          s.raise 0x5001 ([BitVec.ofNat 8 m.node] ++ leOctets 5 m.identity ++ [BitVec.ofNat 8 cause]))
        ((s.membersGone leave p).endSegments 2 (s.membersGone leave p).clock.seconds false
          (fun g => (s.con.members.filter p).any (fun m => m.role = .pack && m.identity = g.pack))).rosterSent).relayEnds
        (fun n => (s.con.members.filter p).any (fun m => m.node = n))).remerge).writeLimits) :=
  if_neg (by simpa using hgone)

/-- Members that go change the Concord side and nothing else. -/
theorem State.membersGone_frame (s : State) (leave : Bool) (p : Member → Bool) : { s.membersGone leave p with con := s.con } = s := by
  unfold State.membersGone
  dsimp only
  split
  · exact State.sendEach_frame 0x06 (fun _ => []) (s.con.members.filter p) s
  · rfl

@[simp] theorem State.rosterSent_fl (s : State) : s.rosterSent.fl = s.fl := by
  unfold State.rosterSent
  split
  · exact State.sendMembers_fl _ _ _
  · rfl

/-- Memberships that end write the flash where they end segments of the open ride, and nowhere else (R459, R476). -/
theorem State.endMembers_fl (s : State) (cause : Nat) (leave : Bool) {p : Member → Bool} (hgone : s.con.members.filter p ≠ []) :
    (s.endMembers cause leave p).fl =
      ((s.membersGone leave p).endSegments 2 (s.membersGone leave p).clock.seconds false
        (fun g => (s.con.members.filter p).any (fun m => m.role = .pack && m.identity = g.pack))).fl := by
  rw [s.endMembers_eq cause leave hgone, State.writeLimits_fl, State.remerge_fl, State.relayEnds_fl]
  exact (congrArg State.fl (State.raises_frame 0x5001 _ _ _) :).trans (State.rosterSent_fl _)

/-- The end of segments changes the ride and raises events. -/
theorem State.endedSegments_frame (s : State) (cause seconds : Nat) (disc : Bool) (p : Segment → Bool) :
    ∃ t : LedgerTail, { s.endedSegments cause seconds disc p with host := s.host, jou := s.jou } = s.setTail t := by
  unfold State.endedSegments
  split
  · exact ⟨s.led.cur, rfl⟩
  · dsimp only
    split
    · exact ⟨s.led.cur, rfl⟩
    · exact ⟨_, State.raises_frame 0x4002 _ _ _⟩

/-- An open segment that ends puts the ledger tail into flash (R157). -/
theorem State.endSegments_cells {s : State} (cause seconds : Nat) (disc : Bool) {p : Segment → Bool} (hseg : s.hasSegment p = true)
    (hcut : s.cus.cut = none) (hroom : s.led.ring.page ≤ 124) (hused : s.led.ring.used = []) :
    (s.endSegments cause seconds disc p).fl.cells ≠ [] := by
  obtain ⟨t, ht⟩ := s.endedSegments_frame cause seconds disc p
  have hcus : (s.endedSegments cause seconds disc p).cus = s.cus := (congrArg State.cus ht :)
  have hring : (s.endedSegments cause seconds disc p).led.ring = s.led.ring := (congrArg (fun a : State => a.led.ring) ht :)
  rw [State.endSegments, if_pos hseg]
  exact State.writeTail_cells (hcus ▸ hcut) (hring ▸ hroom) (hring ▸ hused)

/-- FCLK that stops while the banks are idle fails its domain, and with it both banks (R130, R870). -/
theorem State.fclkStops_running {s : State} (cut : Vector PageCut 2) (hf : s.domainRuns .fclk = true) (hpm : s.pow.pm = .running)
    (h0 : (s.bank 0).run = .idle) (h1 : (s.bank 1).run = .idle) :
    s.fclkStops cut = (((s.setClk (s.clk.setDomains [.fclk] .failed)).setBoot { s.boot with fclkLost := true }).raise 0x1005
      [BitVec.ofNat 8 ClockDomain.fclk.row.val]).failUnits [UnitId.flash0, UnitId.flash1] := by
  have idle (a : State) (b : Fin 2) (c : PageCut) (r : Option Nat) (h : (a.bank b).run = .idle) : a.flashCut b c r = a := by
    simp only [State.flashCut, h]
  have hne : ¬ s.pow.pm = .holdUp := by rw [hpm]; exact PmState.noConfusion
  let s1 := s.setClk (s.clk.setDomains [.fclk] .failed)
  have hcut : (s1.flashCut 0 (cut.get 0) (some 11)).flashCut 1 (cut.get 1) (some 11) = s1 := by
    rw [idle s1 0 _ _ h0, idle s1 1 _ _ h1]
  unfold State.fclkStops
  rw [if_neg (by rw [hf]; exact Bool.false_ne_true), if_neg hne]
  dsimp only
  rw [hcut]
  rfl

/-- Units marked as failed at run time. -/
def State.failedAtRun (s : State) (l : List UnitId) : State := l.foldl (fun (s : State) (u : UnitId) => s.setUnit u .failedAtRun) s

/-- Units that bear on the tier alone fail at run time, and the tier falls (R220, R223). -/
theorem State.failUnits_falls {s : State} {l : List UnitId} {t : Tier} (hp : s.boot.phase = .decided)
    (hnew : l.filter (fun u => unitOn s.boot.role u && !unitFailed (s.boot.units.get u)) = l) (hne : l.isEmpty = false)
    (hplain : ∀ u ∈ [UnitId.usb, UnitId.canA, UnitId.crypto, UnitId.core 0, UnitId.core 1, UnitId.core 2, UnitId.core 3], l.contains u = false)
    (ht : (s.failedAtRun l).boot.tier.min (tierFor (s.failedAtRun l).boot.role (s.failedAtRun l).boot.units) = t)
    (hfall : t ≠ (s.failedAtRun l).boot.tier) : s.failUnits l = (s.failedAtRun l).fallTo t l := by
  simp only [List.forall_mem_cons, List.not_mem_nil, false_implies, implies_true, and_true] at hplain
  obtain ⟨husb, hcan, hcrypto, hc0, hc1, hc2, hc3⟩ := hplain
  unfold State.failUnits
  rw [hnew]
  simp only [husb, hcan, hcrypto, allCores, List.foldl_cons, List.foldl_nil, hc0, hc1, hc2, hc3, hp, hne, Bool.false_and, Bool.or_self,
    ne_eq, not_true_eq_false, decide_false, Bool.false_eq_true, if_false]
  rw [if_neg BootPhase.noConfusion]
  exact (if_neg (fun h => hfall (ht.symm.trans h))).trans (congrArg (fun x => (s.failedAtRun l).fallTo x l) ht)

/-- The device as it falls to T1, its sessions not yet ended: the cores stopped, the latch set, the ride flagged (R223, R224). -/
def State.fallenToT1 (s : State) (newly : List UnitId) : State :=
  ((((s.setBoot { s.boot with tier := .t1 }).raiseTier
    ([BitVec.ofNat 8 s.boot.tier.toNat, BitVec.ofNat 8 Tier.t1.toNat] ++ unitOctets newly ++ unitOctets [])).stopAll.setLatch 0x400).padsOff).flagRide
      (fun f => { f with tierFell := true })

/-- A fall to T1 writes the flash only where its sessions end. -/
theorem State.fallTo_t1_fl (s : State) (newly : List UnitId) : (s.fallTo .t1 newly).fl = (s.fallenToT1 newly).tierSessions.fl :=
  (State.setForce_fl _).trans (State.writeLimits_fl _)

/-- At a vehicle whose tier falls, an open segment of a pack's puts the ledger tail into flash. -/
theorem State.tierSessions_cells {s : State} (hrole : s.boot.role = .vehicle)
    (hgone : s.con.members.filter (fun m => m.role = .pack || !s.dockServed) ≠ [])
    (hseg : s.hasSegment (fun g => (s.con.members.filter (fun m => m.role = .pack || !s.dockServed)).any
      (fun m => m.role = .pack && m.identity = g.pack)) = true)
    (hcut : s.cus.cut = none) (hroom : s.led.ring.page ≤ 124) (hused : s.led.ring.used = []) : s.tierSessions.fl.cells ≠ [] := by
  have hf := s.membersGone_frame true (fun m => m.role = .pack || !s.dockServed)
  have hled : (s.membersGone true (fun m => m.role = .pack || !s.dockServed)).led = s.led := (congrArg State.led hf :)
  have hcus : (s.membersGone true (fun m => m.role = .pack || !s.dockServed)).cus = s.cus := (congrArg State.cus hf :)
  rw [State.tierSessions, if_pos hrole, s.endMembers_fl 4 true hgone]
  exact State.endSegments_cells 2 _ false (by rw [State.hasSegment, hled]; exact hseg) (hcus ▸ hcut) (hled ▸ hroom) (hled ▸ hused)

/-! The counterexample -/

/-- A pack admitted at node 1. -/
def packMember : Member :=
  { node := 1, identity := 5, role := .pack, level := 0, limited := false,
    session := { keys := [], gen := false, tx := 0, rx := 0, prevOk := false, prevKeys := [], prevRx := 0, madeAt := 0, rekey := .none,
                 macFails := [] },
    report := none, tier := 3, holdUpReady := true, presence := false, fleetEdition := none, params := none }

/-- A ride in progress on that pack's energy. -/
def packRide : OpenRide :=
  { number := 7, flags := RideFlags.none, tariffEdition := 1, tariff := [], opened := ⟨0, 0, 0, 0, 0, 3, 0⟩, wheel := 0,
    segments := [{ bay := 1, pack := 5, disputed := false, discontinuous := false, aggregate := false, endCause := 0, start := some 0,
                   last := some 0, startSeconds := 0, duration := 0, folded := none }],
    offset := 0, closing := none }

/-- A vehicle at T3 with a pack and a ride in progress; its flash is erased, and no bank is at work. -/
def ridingVehicle : State :=
  { State.reset with
    pow := { Power.reset with pm := .running }
    boot := { Boot.reset with phase := .decided, role := .vehicle, tier := .t3, units := Vector.replicate 42 .passed }
    clk := { Clocks.reset with domains := Vector.replicate 14 .running, pllLocked := true }
    con := { Concord.reset with members := [packMember] }
    led := { Ledger.reset with cur := { LedgerTail.reset with ride := some packRide } } }

/-- The vehicle where its two banks are to fail. -/
def ridingVehicleStopped : State :=
  ((ridingVehicle.setClk (ridingVehicle.clk.setDomains [.fclk] .failed)).setBoot { ridingVehicle.boot with fclkLost := true }).raise 0x1005
    [BitVec.ofNat 8 ClockDomain.fclk.row.val]

/-- The vehicle where its sessions are to end. -/
def ridingVehicleFallen : State :=
  (ridingVehicleStopped.failedAtRun [UnitId.flash0, UnitId.flash1]).fallenToT1 [UnitId.flash0, UnitId.flash1]

/-- FCLK stops, and the ledger tail goes into the cells all the same. -/
theorem ridingVehicle_cells : (ridingVehicle.fclkStops noCut).fl.cells ≠ [] := by
  have hfail : ridingVehicle.fclkStops noCut =
      (ridingVehicleStopped.failedAtRun [UnitId.flash0, UnitId.flash1]).fallTo .t1 [UnitId.flash0, UnitId.flash1] :=
    (State.fclkStops_running noCut (by decide +kernel) (by decide +kernel) (by decide +kernel) (by decide +kernel)).trans
      (State.failUnits_falls (by decide +kernel) (by decide +kernel) rfl (by decide +kernel) (by decide +kernel) (by decide +kernel))
  have hfl : (ridingVehicle.fclkStops noCut).fl = ridingVehicleFallen.tierSessions.fl :=
    (congrArg State.fl hfail).trans (State.fallTo_t1_fl _ _)
  have hcells : ridingVehicleFallen.tierSessions.fl.cells ≠ [] :=
    State.tierSessions_cells (by decide +kernel) (by decide +kernel) (by decide +kernel) (by decide +kernel) (by decide +kernel)
      (by decide +kernel)
  exact fun hnil => hcells ((congrArg Flash.cells hfl).symm.trans hnil)

/-- Refutes O34: where FCLK stops in a ride, the fall to T1 ends the pack's segment, and with it the ledger tail is programmed into a
flash that has no clock (R130, R870); the clause on FCLK asks for cells as they were. -/
theorem not_clockEvents : ¬ Obligations.ClockEvents := by
  unfold Obligations.ClockEvents
  intro h
  obtain ⟨-, -, -, -, -, -, -, -, -, hfclk, -⟩ := h ridingVehicle .fclk 0 0 noCut false
  obtain ⟨-, -, hcells⟩ := (hfclk (by decide +kernel) (by decide +kernel) (by decide +kernel)).of_exec
    (t := ridingVehicle.fclkStops noCut) rfl
  exact ridingVehicle_cells (hcells (by decide +kernel) (by decide +kernel))

end Sys2Proof.Machine
end
